-- ==== Sys2Proof/Word.lean ====
section
/-! DEFINITION. The word types of the ZGH6451 and the fixed-length tables the state is made of. -/

namespace Sys2Proof

/-- A 32-bit register of the direct window or a die (R8). -/
abbrev Word := BitVec 32

/-- One byte of an entry, a record or a memory. -/
abbrev Byte := BitVec 8

/-- A fixed number of like things: outlets, inputs, channels, slots. -/
abbrev Tab (α : Type) (n : Nat) := Vector α n

/-- The entry of a table. -/
def Tab.at {α : Type} {n : Nat} (t : Tab α n) (i : Fin n) : α := t[i]

/-- A table with one entry replaced. -/
def Tab.put {α : Type} {n : Nat} (t : Tab α n) (i : Fin n) (a : α) : Tab α n := t.set i a

/-- A table with one entry changed by a function. -/
def Tab.upd {α : Type} {n : Nat} (t : Tab α n) (i : Fin n) (f : α → α) : Tab α n := t.put i (f (t.at i))

/-- A table of equal entries. -/
def Tab.all {α : Type} (n : Nat) (a : α) : Tab α n := Vector.replicate n a

/-- The entries of a list changed by a function that sees each one's number. -/
def numbered {α β : Type} (f : Nat → α → β) : Nat → List α → List β
  | _, [] => []
  | k, a :: as => f k a :: numbered f (k + 1) as

theorem numbered_length {α β : Type} (f : Nat → α → β) :
    ∀ (l : List α) (k : Nat), (numbered f k l).length = l.length
  | [], _ => rfl
  | _ :: as, k => by simp [numbered, numbered_length f as]

/-- A table with every entry changed by a function that sees each one's number. -/
def Tab.mapN {α β : Type} {n : Nat} (f : Nat → α → β) (t : Tab α n) : Tab β n :=
  ⟨(numbered f 0 t.toList).toArray, by simp [numbered_length]⟩

/-- A table with every entry changed. -/
def Tab.each {α β : Type} {n : Nat} (f : α → β) (t : Tab α n) : Tab β n :=
  ⟨(t.toList.map f).toArray, by simp⟩

/-- The numbers of a range of objects. -/
def indices (n : Nat) : List (Fin (n + 1)) := (List.range (n + 1)).map (Fin.ofNat (n + 1))

end Sys2Proof
end

