-- ==== Sys2Proof/Syntax.lean ====
section
/-! DEFINITION. The happenings and commands of the ZGH6451: one constructor of `Instr` per row of the opcode table, with the
operand types they carry. -/

namespace Sys2Proof

/-- Outlets 0 to 63 (R3, R4). -/
abbrev OutletNo := Fin 64
/-- Modulator inputs 0 to 511 (R4). -/
abbrev InputNo := Fin 512
/-- Input groups of 16 inputs, one clock ball each (R6). -/
abbrev GroupNo := Fin 32
/-- Decimation lanes, 512 in service and 8 spare at first (R103). -/
abbrev LaneNo := Fin 520
/-- Coil pairs 0 to 63, then brake pairs 0 to 3 (R7). -/
abbrev PairNo := Fin 68
/-- Brake pairs (R7). -/
abbrev BrakeNo := Fin 4
/-- Emergency-stop channels (R7). -/
abbrev EstopNo := Fin 2
/-- Load switch channels (R7). -/
abbrev ChanNo := Fin 48
/-- Pulse inputs (R7). -/
abbrev PulseNo := Fin 8
/-- Points of a residual-current curve (R249). -/
abbrev PointNo := Fin 8
/-- Tamper inputs (R175). -/
abbrev TamperNo := Fin 4
/-- Session cores, core 8 the first spare (R434). -/
abbrev CoreNo := Fin 9
/-- Site-line links 1 to 32, numbered here from 0 (R343). -/
abbrev LinkNo := Fin 32
/-- Tone units of the site-line front end (R326). -/
abbrev ToneUnitNo := Fin 10
/-- Contactless aerials (R7). -/
abbrev AerialNo := Fin 64
/-- Host ports: SGMII0, SGMII1, QSPI (R384). -/
abbrev PortNo := Fin 3
/-- The two Ethernet ports (R384). -/
abbrev EthPort := Fin 2
/-- Event sources (R7). -/
abbrev SourceNo := Fin 128
/-- Sectors of the tag memory (R371). -/
abbrev SectorNo := Fin 512
/-- Scratchpads (R438). -/
abbrev PadNo := Fin 16
/-- Masters of the pool (R434). -/
abbrev MasterNo := Fin 16
/-- Lanes of the Hasulin link (R17). -/
abbrev LaneHas := Fin 2
/-- Image types in the order of 0x0906: Fescue, session, Millet, Russet, Spelt (R427). -/
abbrev ImageNo := Fin 5
/-- Temperature sensors in the order of 0x0C08 that can fail (R532). -/
abbrev SensorNo := Fin 7
/-- Periodic jobs (R537). -/
abbrev JobNo := Fin 5

/-- A mailbox command as it is fetched from a ring: what R400 puts in its entry. -/
structure Cmd where
  /-- The port it came from. -/
  port : PortNo
  /-- It stood on the urgent ring. -/
  urgent : Bool
  /-- FLAGS: bit 0 ORDERED, bit 1 BULK, the others reserved. -/
  flags : Byte
  /-- TAG, copied to the response. -/
  tag : BitVec 16
  /-- INDEX, the object. -/
  index : BitVec 16
  /-- The payload, bulk descriptors first (R408). -/
  payload : List Byte
  /-- None for a command from a host. For one that the active module forwards to the standby, which executes it with no
  response, the bytes of its host-to-module buffer (R485). -/
  fwd : Option (List Byte)
deriving DecidableEq, Repr

/-- Filtered pilot states of R240. -/
inductive PilotState where
  | A | B | C | D | E | F
deriving DecidableEq, Repr

/-- Classes of a PWM period (R209). -/
inductive PilotClass where
  | A | B | C | D | E | F | invalid
deriving DecidableEq, Repr

/-- A proximity measurement: the resistance, none for an open input, and the sample taken with the own source off before the
window, in mV (R212, R570). -/
structure ProxRead where
  ohms : Option Nat
  before : Int
deriving DecidableEq, Repr

/-- What the Measured start checks found (R60, R66). -/
inductive StartChecks where
  /-- Every check passed. -/
  | pass
  /-- A check failed on one image: a failed start. -/
  | failed
  /-- A check failed on both slots of an image, or critical configuration is corrupt. -/
  | bothFailed
deriving DecidableEq, Repr

/-- What is known of the peer at the role decision (R66, R504). -/
inductive PeerAtStart where
  /-- It holds the lease. -/
  | holdsLease
  /-- It reached the role decision too and does not hold the lease. -/
  | deciding
  /-- Nothing has been heard of it yet. -/
  | silent
deriving DecidableEq, Repr

/-- Bits that a modulator input delivered to its decimation lane, oldest first. -/
abbrev Bits := List Bool

/-- A completed mains cycle of an AC outlet, or a 20 ms block of a DC outlet. -/
structure Cycle where
  /-- Moment at which the metering stream puts out what the inputs carried at the start boundary, ns on the monotonic
  counter. -/
  out : Nat
  /-- Length T, ns. -/
  len : Nat
  /-- Bits of slots 0 to 7, from the first bit that the filters of the first sample use on; the first sample is the last one
  tagged at or before the start boundary. -/
  bits : List Bits
  /-- RMS of the fundamental of UL1 over the half-cycle before the end boundary, µV (R117). -/
  fundamental : Nat
  /-- Ochre's last 16 readings of its die temperature, °C (R103). -/
  temps : List Rat
  /-- The boundary is a synthetic one (R110). -/
  synthetic : Bool
  /-- The last write that waits for the boundary was accepted less than 10 µs before the block processes it (R111). -/
  late : Bool
deriving DecidableEq, Repr

/-- A 1 ms period of a DC outlet (R126). -/
structure DcPeriod where
  /-- Moment at which the metering stream puts out what the inputs carried at its start, ns on the monotonic counter. -/
  out : Nat
  /-- Bits of slots 0 to 7, as for a cycle. -/
  bits : List Bits
deriving DecidableEq, Repr

/-- The open cycle or period of an outlet at a save (R131, R132). -/
structure Tail where
  outlet : OutletNo
  /-- Moment at which the metering stream put out what the inputs carried at its start, ns on the monotonic counter. -/
  out : Nat
  /-- Bits of slots 0 to 7 of the samples accumulated so far, as for a cycle. -/
  bits : List Bits
  /-- Bits of slots 0 to 7 from which the protection stream forms the tail of a final save. -/
  tail : List Bits
  /-- Its length so far, ns: up to the snapshot, or to the PFW tick at a final save. -/
  len : Nat
deriving DecidableEq, Repr

/-- A frame of the quantity link as Ochre sends it (R18, R90). -/
structure Frame where
  seq : BitVec 16
  /-- Its code check holds. -/
  checkOk : Bool
  /-- Latest codes of the protection stream of slots 0 to 7 of each outlet that is listed; those of an outlet not listed
  are 0. -/
  codes : List (OutletNo × List Int)
  /-- The last limited setting written was accepted less than 10 µs before the frame (R111). -/
  late : Bool
deriving DecidableEq, Repr

/-- Ball-voltage readback of a pair: VH, VL and VIN_SW, in mV (R268, R271). -/
structure Readback where
  vh : Int
  vl : Int
  vin : Int
deriving DecidableEq, Repr

/-- What a completed harmonic window is computed from (R135). -/
structure HarmonicInput where
  /-- Bits of slots 0 to 6 over the window, as for a cycle. -/
  bits : List Bits
  /-- For a DC outlet, bits of UL1 of the reference outlet over the window. -/
  ref : Bits
deriving DecidableEq, Repr

/-- The bits of one supraharmonic channel from which the 500 kS/s stream of its 200 ms window is formed (R139). -/
structure SupraInput where
  channel : Fin 448
  bits : Bits
deriving DecidableEq, Repr

/-- A completed raw sample block (R142). -/
structure RawInput where
  /-- Moment at which the metering stream put out its first sample, ns on the monotonic counter. -/
  out : Nat
  /-- Bits of slots 0 to 7, as for a cycle. -/
  bits : List Bits
deriving DecidableEq, Repr

/-- SLAC messages of a vehicle (R216 to R220). -/
inductive SlacMsg where
  | parmReq (run : BitVec 64) (mac : BitVec 48)
  | startAtten (run : BitVec 64)
  | sound (run : BitVec 64)
  /-- The profile formed on this outlet: its 58 group attenuations in dB. -/
  | profile (run : BitVec 64) (groups : List Byte)
  /-- A validation by toggling, which is not supported. -/
  | validate
deriving DecidableEq, Repr

/-- High-level protocols (R221). -/
inductive Proto where
  | din | iso2 | iso20
deriving DecidableEq, Repr

/-- Services a vehicle can ask for (R221). -/
inductive V2gService where
  | ac | dc | acBpt | dcBpt | certificate | valueAdded
deriving DecidableEq, Repr

/-- Kinds of PowerDelivery request (R229). -/
inductive PowerKind where
  | start | stop | renegotiate
deriving DecidableEq, Repr

/-- Cipher suites: the two of ISO 15118-2 with ECDH and ECDHE, ECDSA, AES-128-CBC and SHA-256, the two of ISO 15118-20, and
any other (R226). -/
inductive CipherSuite where
  | ecdhAes128Cbc
  | ecdheAes128Cbc
  | aes128Gcm
  | aes256Gcm
  | other
deriving DecidableEq, Repr

/-- What a vehicle offers in its TLS handshake (R226). -/
structure TlsOffer where
  /-- TLS 1.3 is offered. -/
  tls13 : Bool
  /-- Suites offered, in the vehicle's order. -/
  suites : List CipherSuite
  /-- P-256 is offered for key exchange and signatures. -/
  p256 : Bool
  /-- P-384 is offered for key exchange and signatures. -/
  p384 : Bool
deriving DecidableEq, Repr

/-- Policy requests (R236). -/
inductive PolicyKind where
  | authorisation | limits | scheduleChange | discharge
deriving DecidableEq, Repr

/-- Reset inputs OUTRSTn and HUBRST. -/
inductive ResetInput where
  | out (outlet : OutletNo)
  | hub
deriving DecidableEq, Repr

/-- What a tick finds of a channel (R299 to R301). -/
structure ChanMeas where
  chan : ChanNo
  /-- The current that the load asks for at each 10 µs sample of the tick, mA; none while the output is off. -/
  loads : List (Option Nat)
  /-- Junction temperature, °C. -/
  tj : Int
deriving DecidableEq, Repr

/-- One channel's 100 ms off-state check (R316), in mV. -/
structure OffCheck where
  chan : ChanNo
  /-- Output with the source off, and VIN_SW. -/
  out : Int
  vin : Int
  /-- Output at the end of the source's 1 ms. -/
  sourced : Int
deriving DecidableEq, Repr

/-- Up SNR of a link as the coordinator measures it, 0.5 dB, entry 8s + t for segment s and tone t (R341). -/
structure LinkSnr where
  link : LinkNo
  up : List Byte
deriving DecidableEq, Repr

/-- A card in the field of an aerial. -/
structure Card where
  /-- TECH of R383. -/
  tech : BitVec 2
  /-- Identifier as it is written. -/
  uid : List Byte
deriving DecidableEq, Repr

/-- An ISO/IEC 15693 inventory request to the tag. -/
structure InventoryReq where
  slots16 : Bool
  maskLen : Nat
  mask : Nat
  /-- The slot the reader is in, for 16 slots. -/
  slot : Nat
  /-- Two subcarriers are requested (R368). -/
  twoSub : Bool
deriving DecidableEq, Repr

/-- How a request to the tag is addressed. -/
structure TagReq where
  /-- Identifier of an addressed request. -/
  uid : Option (BitVec 64)
  /-- Select flag. -/
  select : Bool
  twoSub : Bool
  /-- Manufacturer code of a custom command. -/
  mfr : Byte
deriving DecidableEq, Repr

/-- A symbol of a site-line frame as it arrives: the levels of its four half tones in 0.01 dB, and the windows that carry it by
their place, two at rate 300 (R329, R337). -/
structure SlSymbol where
  aEarly : Int
  aLate : Int
  bEarly : Int
  bLate : Int
  windows : List Nat
deriving DecidableEq, Repr

/-- The windows that carry a frame of a link, each with its wideband energy over the segment's noise floor in 0.01 dB, and the
frame's symbols in time order. -/
structure SlBurst where
  wide : List Int
  symbols : List SlSymbol
deriving DecidableEq, Repr

/-- Which root verified a client chain (R386). -/
inductive ClientRoot where
  | commission | operate | other
deriving DecidableEq, Repr

/-- What an access does to a naturally aligned word of 32 or 64 bits (R437). -/
inductive MemOp where
  | read
  | write (value : BitVec 64)
  | fetchAdd (operand : BitVec 64)
  | swap (operand : BitVec 64)
deriving DecidableEq, Repr

/-- An access of a master to the pool, a scratchpad or the vault, by its offset there (R432 to R442). -/
structure MemAccess where
  master : MasterNo
  addr : Nat
  /-- 64 bits, else 32. -/
  wide : Bool
  op : MemOp
  /-- The master that the crypto engine acts for in the vault. -/
  behalf : Option MasterNo
deriving DecidableEq, Repr

/-- Where an uncorrectable error was found (R450, R548). -/
inductive MemPlace where
  | pool (bank : Fin 68) (word : Nat)
  | pad (pad : PadNo) (word : Nat)
  | vaultOutlet (outlet : OutletNo)
  | vaultHost
  /-- One copy of a save record, and whether it is the newer one. -/
  | save (outlet : OutletNo) (newer : Bool)
  | saveBoth (outlet : OutletNo)
  /-- Other Ochre data, with its unit code. -/
  | ochre (unit : Fin 5)
  | tag (word : Fin 256)
  /-- Image store page, with the image slot it lies in. -/
  | store (page : Word) (image : Option (ImageNo × Fin 2))
  | hasulin (lane : LaneHas) (seq : Option Nat)
  | quantity
deriving DecidableEq, Repr

/-- A code word found with stored bits that have flipped (R446). -/
structure FoundError where
  place : MemPlace
  flips : List (Fin 352)
deriving DecidableEq, Repr

/-- A heartbeat of the peer (R481). -/
structure Heartbeat where
  lane : LaneHas
  /-- Epoch mark. -/
  epoch : Nat
  lease : Bool
  yield : Bool
  /-- Pilot-drive status: the peer drives a pilot. -/
  drives : Bool
  /-- MODE field the peer reports. -/
  mode : BitVec 4
deriving DecidableEq, Repr

/-- The four values of a digest: session, legal, output, settings (R492). -/
structure Digest where
  session : BitVec 64
  legal : BitVec 64
  output : BitVec 64
  settings : BitVec 64
deriving DecidableEq, Repr

/-- A command forwarded by the active module (R485). -/
structure Forwarded where
  op : BitVec 16
  cmd : Cmd
  epoch : Nat
deriving DecidableEq, Repr

/-- One cycle or period of the active Ochre (R489). -/
structure SealedEntry where
  outlet : OutletNo
  /-- Start on the common time scale, legal time in µs. -/
  start : Nat
  export_ : Bool
  reg : Fin 8
  /-- Label of the interval: its nominal start, in LT32 minutes. -/
  label : Nat
  sid : BitVec 64
  /-- Energies, µWh times 2^32. -/
  ep : Nat
  eq : Int
  es : Nat
  flags : Word
deriving DecidableEq, Repr

/-- An open session record of the peer (R490). -/
structure LegalRecord where
  sid : BitVec 64
  auth : BitVec 64
  type : BitVec 2
  /-- T_START, units of 64 µs. -/
  start : Nat
  impStart : BitVec 64
  expStart : BitVec 64
  flags : Word
deriving DecidableEq, Repr

/-- Legal state of one outlet of the peer, totals in 2^-32 of a count (R490). -/
structure LegalOutlet where
  /-- A_IMP, A_EXP, R_Q1 to R_Q4, S_IMP, S_EXP. -/
  totals : List Nat
  tarImp : List Nat
  tarExp : List Nat
  dcVeh : Nat
  sessImp : Nat
  sessExp : Nat
  sessTar : List Nat
  sessVeh : Nat
  /-- Maximum demand of each register with its LT32 time, import then export. -/
  maxima : List (Word × Word)
  record : Option LegalRecord
deriving DecidableEq, Repr

/-- The peer's whole legal state (R490), outlet 0 first. -/
structure LegalCopy where
  outlets : List LegalOutlet
  recNo : Word
deriving DecidableEq, Repr

/-- A sealed frame (R488, R489). -/
structure SealedFrame where
  /-- It authenticates. -/
  authentic : Bool
  seq : Nat
  entries : List SealedEntry
  /-- The whole legal state, for a module that returns or joins a pair. -/
  adopt : Option LegalCopy
deriving DecidableEq, Repr

/-- A session in a state transfer (R494). -/
structure SessionCopy where
  outlet : OutletNo
  phase : Fin 10
  proto : BitVec 2
  sid : BitVec 64
  auth : BitVec 64
  agreed : Nat
  granted : Bool
  accepted : Bool
  contract : Bool
  bpt : Bool
  chained : Bool
  dynamic : Bool
  /-- Cipher suite of its TLS session, whose keys the standby derives from the transcript (R487). -/
  tls : Option CipherSuite
deriving DecidableEq, Repr

/-- A key with EXPORT set in a state transfer (R459, R494). -/
structure KeyCopy where
  slot : Fin 256
  w0 : Word
  w1 : Word
  ktype : Byte
  bytes : List Byte
deriving DecidableEq, Repr

/-- A load switch channel in a state transfer (R494). -/
structure ChannelCopy where
  chan : ChanNo
  demand : Bool
  latched : Bool
  retries : Fin 16
deriving DecidableEq, Repr

/-- What a state transfer carries (R494): each setting as the command that writes it. -/
structure TransferContent where
  sessions : List SessionCopy
  keys : List KeyCopy
  settings : List Forwarded
  channels : List ChannelCopy
deriving DecidableEq, Repr

/-- What can reach the module: every row of the opcode table. -/
inductive Instr where
  /-- MAIN_SUPPLIES_IN_RANGE, R69: The last main supply enters its range and the module power-on start sequence runs from Backup watch. -/
  | mainSuppliesInRange (pfwLow : Bool) (absenceMs : Nat) (pfwAt : Option Nat) (romCrc : BitVec 32)
  /-- MAIN_SUPPLY_OUT_OF_RANGE, R66: A main supply leaves its range, the display lines are pulled to 0 V and the module enters Backup watch. -/
  | mainSupplyOutOfRange
  /-- TEAL_POWER_ON, R53: VBAT is restored after falling below its minimum while main power is absent, and Teal restarts with its ring and counters lost. -/
  | tealPowerOn
  /-- PFW_ASSERT, R70: PFW is held low for 1 µs: the PFW tick is latched, the final save begins, the display stops and an active module yields the lease. -/
  | pfwAssert (us : Nat) (tails : List Tail) (saved : Bool)
  /-- PFW_OUTPUT_OPEN, R70: At 2.5 ms after PFW, if PFW is still asserted, every coil and brake pair opens and cause 0x31 is recorded. -/
  | pfwOutputOpen
  /-- PFW_DEASSERT, R71: PFW deasserts: write protection is removed, the deferred ticks are processed and the dip is counted or logged. -/
  | pfwDeassert (durationUs : Nat)
  /-- HOSTRST_PULSE, R54: HOSTRST is held low for at least 1 µs and causes a control die reset at its trailing edge. -/
  | hostrstPulse (widthNs : Nat)
  /-- OCHRE_STREAM_RESTART, R22: Ochre finishes restarting after its reset, resumes the quantity stream and logs the metering gap. -/
  | ochreStreamRestart (gap : Nat)
  /-- RUSSET_RESTART_COMPLETE, R57: Russet finishes restarting, restores its Lockout and Class E state from the lockout record and accepts close requests. -/
  | russetRestartComplete
  /-- SPELT_READY, R322: Spelt becomes ready after its reset and resumes its limit, retry, latch and diagnostic logic. -/
  | speltReady
  /-- LOCKSTEP_MISMATCH, R55: A lockstep comparison mismatch in Russet causes a Russet reset. -/
  | lockstepMismatch
  /-- RUSSET_WATCHDOG_EXPIRY, R55: Russet's internal watchdog goes 2 ms without service and Russet resets. -/
  | russetWatchdogExpiry
  /-- OCHRE_WATCHDOG_EXPIRY, R55: Ochre's watchdog goes 10 ms without service and Ochre resets. -/
  | ochreWatchdogExpiry (tails : List Tail)
  /-- SPELT_HEARTBEAT, R55: Russet receives the 1 ms Spelt heartbeat. -/
  | speltHeartbeat
  /-- SPELT_WATCHDOG_EXPIRY, R55: After 20 ms without a Spelt heartbeat, Spelt is reset with its channel states held. -/
  | speltWatchdogExpiry
  /-- FESCUE_HEARTBEAT, R34: Russet receives the 1 ms Fescue heartbeat. -/
  | fescueHeartbeat
  /-- FESCUE_HEARTBEAT_MISSING, R34: After 2 ms without a Fescue heartbeat, Russet holds every output and refuses closes with order 12. -/
  | fescueHeartbeatMissing
  /-- FESCUE_HEARTBEAT_LOSS, R34: After 200 ms without a Fescue heartbeat, energised outlets open with cause 0x32 and Fescue is reset. -/
  | fescueHeartbeatLoss
  /-- MILLET_HEARTBEAT, R35: Russet receives the 10 ms Millet heartbeat on the request channel and HB_COUNT rises. -/
  | milletHeartbeat
  /-- MILLET_HEARTBEAT_LOSS, R35: After 50 ms without a Millet heartbeat, the module enters Degraded service and held sessions go to hardware mode. -/
  | milletHeartbeatLoss
  /-- HELD_SESSIONS_CONFIRMED, R35: Millet, running again, confirms or ends every held session, and Degraded service ends for heartbeat loss. -/
  | heldSessionsConfirmed
  /-- CONTROL_WATCHDOG_EXPIRY, R55: 500 ms after the latest Millet heartbeat, Russet resets the control die. -/
  | controlWatchdogExpiry
  /-- CONTROL_START_LIMIT_EXPIRY, R61: The start limit passes without a Millet heartbeat; a failed start is counted and the control die is reset again. -/
  | controlStartLimitExpiry
  /-- MEASURED_START_COMPLETE, R66: Measured start checks finish and the base mode or role is chosen from the lifecycle and the peer. -/
  | measuredStartComplete (checks : StartChecks) (peer : PeerAtStart)
  /-- PEER_SILENT_AT_START, R66: The configured peer stays silent for 100 ms at start, and the module becomes Paired active and takes the lease. -/
  | peerSilentAtStart
  /-- COMMISSIONING_TIMEOUT, R66: 60 min pass in Commissioning without a command, and the module returns to its prior service role. -/
  | commissioningTimeout
  /-- REFERENCE_LOSS, R50: Russet declares XREF lost; the PLLs move to the fallback oscillator, Degraded service is entered and the begin entry is logged. -/
  | referenceLoss
  /-- FALLBACK_CORRECTION, R50: Once per second the fallback oscillator is corrected against Teal's legal clock. -/
  | fallbackCorrection
  /-- XREF_RETURN, R51: XREF stays good for 1 s and the PLL reference slews back to it. -/
  | xrefReturn
  /-- XREF_SLEW_COMPLETE, R51: The slew to XREF ends, the end entry is logged and Degraded service ends for this cause. -/
  | xrefSlewComplete
  /-- CLOCK_STEP_CHANGE, R48: Between two scheduling quanta, the session cores halt and change their clock step within 20 µs. -/
  | clockStepChange
  /-- QUANTITY_FRAME, R18: Russet receives a quantity-link frame and updates its slow-path windows, timers and energised-outlet permissives. -/
  | quantityFrame (frame : Frame)
  /-- QUANTITY_STREAM_TIMEOUT, R19: No correct frame arrives for 192 µs; the stream is stale and energised outlets enter Class E. -/
  | quantityStreamTimeout
  /-- QUANTITY_STREAM_FRESH, R19: After 16 consecutive frames in sequence, the stream is fresh again. -/
  | quantityStreamFresh (staleUnits : Nat)
  /-- STREAM_STALE_LOCKOUT, R20: After 50 ms of staleness, every energised outlet opens into Class P Lockout. -/
  | streamStaleLockout
  /-- STREAM_CLASS_E_END, R21: After 1 s of fresh stream, Class E for stream loss ends and the stale period is recorded. -/
  | streamClassEEnd
  /-- CLOSE_REQUEST, R28: Fescue requests close; Russet checks the permissives and grants or refuses within 50 µs. -/
  | closeRequest (outlet : OutletNo) (openSameCycle : Bool)
  /-- COIL_PAIR_SWITCH_ON, R264: 100 µs after the grant, the low-side switch of the coil pair turns on. -/
  | coilPairSwitchOn (outlet : OutletNo)
  /-- COIL_HIGH_SIDE_ON, R269: 10 µs after the low side, the high-side switch turns on. -/
  | coilHighSideOn (outlet : OutletNo)
  /-- COIL_TURN_ON_CHECK, R269: 100 µs after high-side turn-on, the readback is checked against the both-on row, and cause 0x22 follows on a failure. -/
  | coilTurnOnCheck (outlet : OutletNo) (rb : Readback)
  /-- FESCUE_OPEN_REQUEST, R30: Fescue asks Russet to open an outlet's coil pair. -/
  | fescueOpenRequest (outlet : OutletNo)
  /-- LEASE_TIMER_EXPIRY, R498: Russet's lease timer runs out 4 ms after the last renewal pulse, and Fescue three-states the pilots and stops transmitting. -/
  | leaseTimerExpiry
  /-- PENDING_MODE_APPLY, R42: An outlet becomes idle and its pending hardware or host-assisted mode takes effect. -/
  | pendingModeApply (outlet : OutletNo)
  /-- SESSION_START, R178: Millet sends Ochre a session start, and Ochre opens the session record or refuses it. -/
  | sessionStart (outlet : OutletNo) (sid : BitVec 64) (auth : BitVec 64)
  /-- SESSION_STOP, R178: Millet sends Ochre a session stop, and Ochre closes the record at T_STOP, setting LATE_STOP when the stop is late. -/
  | sessionStop (outlet : OutletNo) (sid : BitVec 64)
  /-- SESSION_STOP_RESEND, R229: An unanswered session stop is sent again every 100 ms. -/
  | sessionStopResend (outlet : OutletNo)
  /-- WHITELIST_TIMEOUT, R416: Ochre gives no answer to a whitelist command within 10 ms, and the command gets TIMEOUT. -/
  | whitelistTimeout (cmd : Cmd) (opcode : BitVec 16)
  /-- GROUP_CLOCK_INVALID, R76: A received MCLK has no rising edge for 200 ns or is off frequency, and the group's inputs become invalid. -/
  | groupClockInvalid (group : GroupNo)
  /-- MANCHESTER_LOCK_ACQUIRED, R79: After 32 consecutive cells with a mid-cell transition, a Manchester input is in lock and valid. -/
  | manchesterLockAcquired (input : InputNo)
  /-- MANCHESTER_LOCK_LOST, R79: 4 cells out of 64 lack a transition; the input loses lock and becomes invalid. -/
  | manchesterLockLost (input : InputNo)
  /-- STUCK_INPUT_DETECT, R80: A clocked input carries 256 consecutive identical bits and becomes invalid. -/
  | stuckInputDetect (input : InputNo)
  /-- INPUT_VALID_AGAIN, R80: An invalidity condition has been clear for 32 cells, and the input is valid again. -/
  | inputValidAgain (input : InputNo)
  /-- INPUT_INVALID_TIMEOUT, R81: An enabled slot of an energised outlet stays invalid for 50 ms, and the outlet goes to Class P Lockout with cause 0x0F. -/
  | inputInvalidTimeout (outlet : OutletNo)
  /-- LANE_SELF_TEST, R104: A lane runs its staggered 10 s self-test; a failure starts a swap to a spare lane. -/
  | laneSelfTest (lane : LaneNo) (pass : Bool)
  /-- LANE_COMPARISON_END, R106: The 1 s side-by-side comparison ends, passed or failed, and the swap awaits the metering boundary. -/
  | laneComparisonEnd (input : InputNo) (pairs : List (Int × Int))
  /-- METERING_BOUNDARY, R109: An AC cycle boundary or DC 20 ms boundary: coefficients are latched, the cycle is computed and accumulated, and pending settings and swaps commit. -/
  | meteringBoundary (outlet : OutletNo) (cycle : Cycle)
  /-- SYNTHETIC_BOUNDARY_START, R110: An AC outlet goes 100 ms without a counted boundary and switches to synthetic 20 ms boundaries. -/
  | syntheticBoundaryStart (outlet : OutletNo)
  /-- DC_PERIOD_END, R126: A 1 ms DC period of legal time ends and its net energy is accumulated in one direction. -/
  | dcPeriodEnd (outlet : OutletNo) (period : DcPeriod)
  /-- SAVE_BOUNDARY, R130: At each 10 ms save boundary, Ochre snapshots and saves every outlet's state and commits accumulation settings. -/
  | saveBoundary (opens : List Tail) (late : Bool)
  /-- LEGAL_SECOND, R124: At each legal second, Ochre forms the 1 s values and composes the display page. -/
  | legalSecond
  /-- HARMONIC_WINDOW_END, R135: A window of N_w cycles completes and the harmonic results are computed. -/
  | harmonicWindowEnd (outlet : OutletNo) (window : HarmonicInput)
  /-- SUPRAHARMONIC_STEP, R140: A 200 ms rotation step ends and the bands of its eight channels are formed. -/
  | supraharmonicStep (results : List SupraInput)
  /-- RAW_BLOCK_COMPLETE, R142: A raw sample block of 1,024 samples completes, and the older uncollected block is discarded if two are held. -/
  | rawBlockComplete (outlet : OutletNo) (block : RawInput)
  /-- LEGAL_TICK, R164: A legal tick starts, and the demand boundary, billing end, calendar activation, tariff switch and power failure are processed in order. -/
  | legalTick (quietTicks : Nat)
  /-- DEMAND_INTERVAL_FINAL, R160: The last cycle of an interval completes, and the demands and maximum demand are updated and the interval record is kept. -/
  | demandIntervalFinal (outlet : OutletNo)
  /-- TARIFF_SWITCH_ANNOUNCE, R40: In host-assisted tariff switching, Ochre announces a switch 60 s ahead. -/
  | tariffSwitchAnnounce
  /-- TAMPER_CHANGE, R175: Teal accepts a tamper input change on the second differing sample, makes a record and, on an opening, wipes the vault. -/
  | tamperChange (input : TamperNo) (opened : Bool)
  /-- TAMPER_RECORD_COPY, R176: Ochre copies a new Teal record into the legal log within 10 ms and sets TAMPER in open records. -/
  | tamperRecordCopy
  /-- SESSION_RECORD_SIGN, R180: After the last energy of a stopped session is accumulated, Ochre places and signs its record. -/
  | sessionRecordSign (outlet : OutletNo)
  /-- WAITING_RECORD_MOVE, R183: A retained slot becomes available and the waiting record with the lowest REC_NO moves into it. -/
  | waitingRecordMove
  /-- DISPLAY_FRAME_END, R191: A TN display frame ends; a composed page replaces the shown page and VLCD is adjusted. -/
  | displayFrameEnd (late : Bool)
  /-- BISTABLE_UPDATE_START, R196: A composed frame differs from the committed frame and UPD_MIN has passed, so a journalled bistable update begins. -/
  | bistableUpdateStart
  /-- BISTABLE_UPDATE_COMMIT, R196: The indicator clear ends the update; the target becomes the committed frame and the journal is set to committed. -/
  | bistableUpdateCommit (late : Bool)
  /-- IDENTITY_DISPLAY_TIMEOUT, R204: 10 s after power-on, the display leaves item 0x00 and shows the stored selection or item 0x10. -/
  | identityDisplayTimeout
  /-- PILOT_BOUNDARY, R207: A PWM period of an outlet ends; the period is classified and pending DRIVE, DUTY and link settings commit. -/
  | pilotBoundary (outlet : OutletNo) (samples : List Int) (late : Bool)
  /-- FILTERED_STATE_CHANGE, R211: A pilot class holds for N_FILT periods or EF_FILT, and the filtered state changes and is reported to Russet. -/
  | filteredStateChange (outlet : OutletNo) (cls : PilotClass)
  /-- PROX_CODE_CHANGE, R212: Ten consecutive proximity measurements fall in a new band, and PROX_CODE changes. -/
  | proxCodeChange (outlet : OutletNo) (reads : List ProxRead)
  /-- OFFER_WITHDRAWAL_TIMEOUT, R215: 5 s after the offer falls below 6 A on an energised outlet, Fescue sends an open request. -/
  | offerWithdrawalTimeout (outlet : OutletNo)
  /-- SLAC_MESSAGE, R216: A SLAC message from a vehicle is received on a pilot line and processed. -/
  | slacMessage (outlet : OutletNo) (msg : SlacMsg)
  /-- SLAC_SOUNDING_END, R218: The sounding interval of a run identifier ends and Fescue chooses which candidate outlet answers. -/
  | slacSoundingEnd (run : BitVec 64)
  /-- SLAC_MATCH, R220: A match completes and the outlet's instance joins the vehicle's logical network. -/
  | slacMatch (outlet : OutletNo) (run : BitVec 64) (nmk : BitVec 128)
  /-- SLAC_TIMEOUT, R219: A candidate reaches 60 s in state B without association and leaves SLAC. -/
  | slacTimeout (outlet : OutletNo)
  /-- DC_SLAC_RESTART, R219: After 3 s of −12 V, a DC outlet restarts at 5 %. -/
  | dcSlacRestart (outlet : OutletNo)
  /-- V2G_SUPPORTED_APP_PROTOCOL, R222: The vehicle's SupportedAppProtocol request is answered with the first enabled protocol in its ranking. -/
  | v2gSupportedAppProtocol (outlet : OutletNo) (ranking : List Proto)
  /-- V2G_SESSION_SETUP, R222: A SessionSetup request is answered. -/
  | v2gSessionSetup (outlet : OutletNo)
  /-- V2G_SERVICE_DISCOVERY, R222: A ServiceDiscovery request is answered with the services offered. -/
  | v2gServiceDiscovery (outlet : OutletNo)
  /-- V2G_SERVICE_DETAIL, R222: A ServiceDetail request is answered. -/
  | v2gServiceDetail (outlet : OutletNo) (service : V2gService)
  /-- V2G_SERVICE_SELECTION, R222: A ServiceSelection, PaymentServiceSelection or ServicePaymentSelection request is answered. -/
  | v2gServiceSelection (outlet : OutletNo) (service : V2gService) (contract : Bool)
  /-- V2G_PAYMENT_DETAILS, R222: A PaymentDetails request is answered after contract chain verification. -/
  | v2gPaymentDetails (outlet : OutletNo) (contractId : List Byte) (chainOk : Bool)
  /-- V2G_AUTHORIZATION_SETUP, R222: An ISO 15118-20 AuthorizationSetup request is answered. -/
  | v2gAuthorizationSetup (outlet : OutletNo)
  /-- V2G_AUTHORIZATION, R228: An Authorization or ContractAuthentication request is decided, answering Ongoing until the decision. -/
  | v2gAuthorization (outlet : OutletNo) (sigOk : Bool) (chainOk : Bool) (contractId : List Byte)
  /-- V2G_CHARGE_PARAMETER_DISCOVERY, R606: A ChargeParameterDiscovery request is answered with limits and schedules. -/
  | v2gChargeParameterDiscovery (outlet : OutletNo) (maxCurrent : Nat)
  /-- V2G_SCHEDULE_EXCHANGE, R222: An ISO 15118-20 ScheduleExchange request is answered. -/
  | v2gScheduleExchange (outlet : OutletNo) (dynamic : Bool)
  /-- V2G_CABLE_CHECK, R229: A CableCheck request starts a close request and is answered Ongoing until the insulation result. -/
  | v2gCableCheck (outlet : OutletNo)
  /-- V2G_PRE_CHARGE, R222: A PreCharge request is answered. -/
  | v2gPreCharge (outlet : OutletNo)
  /-- V2G_POWER_DELIVERY, R229: A PowerDelivery request starts or stops energy transfer. -/
  | v2gPowerDelivery (outlet : OutletNo) (kind : PowerKind)
  /-- V2G_CURRENT_DEMAND, R235: A CurrentDemand charge-loop request is answered within the loop budget. -/
  | v2gCurrentDemand (outlet : OutletNo) (current : Nat)
  /-- V2G_CHARGING_STATUS, R235: A ChargingStatus charge-loop request is answered. -/
  | v2gChargingStatus (outlet : OutletNo)
  /-- V2G_AC_CHARGE_LOOP, R235: An AC_ChargeLoop request is answered. -/
  | v2gAcChargeLoop (outlet : OutletNo) (current : Nat)
  /-- V2G_DC_CHARGE_LOOP, R235: A DC_ChargeLoop request is answered. -/
  | v2gDcChargeLoop (outlet : OutletNo) (current : Nat)
  /-- V2G_METERING_RECEIPT, R222: A MeteringReceipt or MeteringConfirmation request is answered. -/
  | v2gMeteringReceipt (outlet : OutletNo)
  /-- V2G_WELDING_DETECTION, R254: A WeldingDetection request is answered with Uveh. -/
  | v2gWeldingDetection (outlet : OutletNo)
  /-- V2G_CERTIFICATE_INSTALLATION, R228: A CertificateInstallation request is checked and relayed to host software. -/
  | v2gCertificateInstallation (outlet : OutletNo) (checkOk : Bool)
  /-- V2G_CERTIFICATE_UPDATE, R228: A CertificateUpdate request is checked and relayed to host software. -/
  | v2gCertificateUpdate (outlet : OutletNo) (checkOk : Bool)
  /-- V2G_SESSION_STOP, R229: A SessionStop request ends the high-level session. -/
  | v2gSessionStop (outlet : OutletNo) (pause : Bool)
  /-- V2G_UNSUPPORTED_MESSAGE, R223: An unsupported message is answered with the failure code and the session ends. -/
  | v2gUnsupportedMessage (outlet : OutletNo)
  /-- TLS_HANDSHAKE, R226: A vehicle TLS handshake runs, or ends in handshake_failure. -/
  | tlsHandshake (outlet : OutletNo) (offer : TlsOffer)
  /-- SEQUENCE_TIMEOUT, R224: A protocol sequence timeout expires and the session ends as a normal stop. -/
  | sequenceTimeout (outlet : OutletNo)
  /-- CERTIFICATE_ANSWER_TIMEOUT, R228: Host software does not answer a certificate request within 4 s, and the vehicle gets the failure code. -/
  | certificateAnswerTimeout (outlet : OutletNo)
  /-- POLICY_TIMEOUT, R236: A host-assisted policy request runs out of time and its fallback applies. -/
  | policyTimeout (outlet : OutletNo) (kind : PolicyKind)
  /-- SESSION_CORE_SILENT, R237: A session core misses its heartbeat for 20 ms; its sessions fall back to basic signalling and the spare takes new sessions. -/
  | sessionCoreSilent (core : CoreNo)
  /-- DC_HOLD_EXPIRY, R237: DC_HOLD passes on a held DC session, and Fescue sends an open request. -/
  | dcHoldExpiry (outlet : OutletNo)
  /-- FAST_PATH_OVER_RANGE, R241: An input's window count reaches T in an enabled direction and a fast trip decision asserts FOFFn. -/
  | fastPathOverRange (input : InputNo) (bits : Bits)
  /-- RCD_HOLD_EXPIRY, R250: A residual-current point's hold timer reaches HOLD, giving a Class P trip decision. -/
  | rcdHoldExpiry (outlet : OutletNo) (dc : Bool) (point : PointNo)
  /-- INJECTOR_FAILURE, R251: The Itest sign has not changed for 2 × P_INJ, and Class E cause 0x12 follows. -/
  | injectorFailure (outlet : OutletNo)
  /-- WELD_CHECK, R254: The 50 ms to 90 ms window after an opening ends, and the welded-contact result is judged. -/
  | weldCheck (outlet : OutletNo) (frames : List (List Rat))
  /-- PE_LOSS_DC, R256: The DC voltages disagree for 20 ms on an energised outlet, giving a Class P trip decision for loss of PE. -/
  | peLossDc (outlet : OutletNo)
  /-- REDUNDANT_CURRENT_DISAGREEMENT, R257: Iout and Ired disagree at every frame for 20 ms, and Class E cause 0x10 follows. -/
  | redundantCurrentDisagreement (outlet : OutletNo)
  /-- REDUNDANT_DISAGREEMENT_END, R257: 1 s passes without a disagreement, and cause 0x10 clears. -/
  | redundantDisagreementEnd (outlet : OutletNo)
  /-- ESTOP_LEVEL_ACCEPTED, R259: An emergency-stop input's new level is accepted after ES_FILT; a stop trips the covered outlets and brakes. -/
  | estopLevelAccepted (channel : EstopNo) (inputB : Bool) (stop : Bool) (samples : Nat)
  /-- ESTOP_DISCREPANCY, R259: The two inputs of a channel differ for more than 20 ms and the channel enters discrepancy. -/
  | estopDiscrepancy (channel : EstopNo)
  /-- TRIP_RELAY, R265: A relayed trip decision from the peer arrives and Russet applies it as its own. -/
  | tripRelay (outlet : OutletNo) (cause : Byte) (classP : Bool)
  /-- SWITCH_OVER_CURRENT, R277: A coil or brake switch exceeds its over-current threshold, giving cause 0x24. -/
  | switchOverCurrent (pair : PairNo)
  /-- READBACK_DEPARTURE, R271: A pair's readback departs from its commanded row for 3 samples and gives a switch-fault cause. -/
  | readbackDeparture (pair : PairNo) (rb : Readback) (us : Nat)
  /-- PULSE_TEST_START, R272: A pair's test slot in PT_INT arrives and an off-pulse or an on-pulse begins. -/
  | pulseTestStart (pair : PairNo)
  /-- OFF_PULSE_CHECK, R273: At PT_LEN − 50 µs, the pulsed side and the other pairs' readback are checked. -/
  | offPulseCheck (pair : PairNo) (rb : Readback) (others : List PairNo)
  /-- OFF_PULSE_END, R273: At PT_LEN, the pulsed switch turns back on. -/
  | offPulseEnd (pair : PairNo)
  /-- OFF_PULSE_RESTORE_CHECK, R273: 50 µs after the switch turns back on, its conduction is checked, giving cause 0x22 on a failure. -/
  | offPulseRestoreCheck (pair : PairNo) (rb : Readback)
  /-- ON_PULSE_CHECK, R274: At 40 µs into an on-pulse, VL and the other pairs are checked. -/
  | onPulseCheck (pair : PairNo) (rb : Readback) (others : List PairNo)
  /-- ON_PULSE_END, R274: At 50 µs, the high-side switch of the on-pulse turns off. -/
  | onPulseEnd (pair : PairNo)
  /-- MIRROR_TIMEOUT, R276: COILFBn does not follow a change of the pair within MIR_T, giving cause 0x25 or 0x26. -/
  | mirrorTimeout (outlet : OutletNo) (level : Bool)
  /-- MIRROR_UNCOMMANDED_CHANGE, R276: COILFBn changes without a change of the pair for 3 samples. -/
  | mirrorUncommandedChange (outlet : OutletNo) (level : Bool)
  /-- BRAKE_RELEASE_CHECK, R279: T_REL after a release, BRKFBb and the pull-in current signature are checked. -/
  | brakeReleaseCheck (brake : BrakeNo) (released : Bool) (rise : List Nat)
  /-- BRAKE_ENGAGE_CHECK, R279: T_ENG after an engage, BRKFBb must show engaged, otherwise cause 0x28. -/
  | brakeEngageCheck (brake : BrakeNo) (engaged : Bool)
  /-- BRAKE_CURRENT_FAULT, R279: A released brake's current is outside BI_MIN to BI_MAX for 3 samples, giving cause 0x29. -/
  | brakeCurrentFault (brake : BrakeNo) (currents : List Nat)
  /-- HOLDING_TEST_MOVEMENT, R280: The encoder count moves beyond HT_CNT during a holding test, so TQREQ is lowered and cause 0x2A follows. -/
  | holdingTestMovement (brake : BrakeNo) (samples : List (Bool × Bool))
  /-- HOLDING_TEST_TORQUE_END, R280: At HT_RAMP + HT_LEN, TQREQb is lowered. -/
  | holdingTestTorqueEnd (brake : BrakeNo)
  /-- HOLDING_TEST_END, R280: Counting ends HT_RAMP after TQREQ falls, and the test passes. -/
  | holdingTestEnd (brake : BrakeNo) (samples : List (Bool × Bool))
  /-- CLASS_E_TIMER_EXPIRY, R288: The Class E timer reaches 0, giving cause 0x2D and the expired state. -/
  | classETimerExpiry (outlet : OutletNo)
  /-- CLASS_E_SUPERVISION_START, R287: 10 s after Class E entry, current supervision against CE_FRAC begins. -/
  | classESupervisionStart (outlet : OutletNo)
  /-- CLASS_E_OVERCURRENT, R287: The current exceeds 1.05 × CE_FRAC × I_RATED for 1 s, giving cause 0x2C. -/
  | classEOvercurrent (outlet : OutletNo)
  /-- RESET_INPUT_RELEASE, R283: OUTRSTn or HUBRST is released after at least 100 ms low, and an armed release runs its checks. -/
  | resetInputRelease (input : ResetInput) (highMs : Nat) (lowMs : Nat)
  /-- RESET_INPUT_HELD, R283: A reset input held low for more than 5 s is ignored and raises an event. -/
  | resetInputHeld (input : ResetInput)
  /-- RELEASE_WINDOW_EXPIRY, R283: REL_WIN runs out before a press, and RELEASE_ARMED clears. -/
  | releaseWindowExpiry (outlet : OutletNo)
  /-- RELEASE_PEER_RESULT, R284: The peer's Russet reports the result of its release checks. -/
  | releasePeerResult (outlet : OutletNo) (passed : Bool)
  /-- RELEASE_PEER_TIMEOUT, R284: The peer's check result does not arrive within 10 ms, and neither module releases. -/
  | releasePeerTimeout (outlet : OutletNo)
  /-- MIRROR_GRANT, R292: The standby's Russet receives a mirror grant from the active Russet. -/
  | mirrorGrant (outlet : OutletNo)
  /-- SPELT_CONTROL_TICK, R299: At each 1 ms Spelt tick, every channel's output decision is evaluated and pending settings commit. -/
  | speltControlTick (meas : List ChanMeas) (substrate : Int) (late : Bool)
  /-- THERMAL_SHUTDOWN, R302: A channel's junction reaches 175 °C and the channel turns off. -/
  | thermalShutdown (channel : ChanNo) (tj : Int)
  /-- DIFFERENCE_LIMIT, R303: A channel's junction exceeds the substrate by more than DT_LIM and the channel turns off. -/
  | differenceLimit (channel : ChanNo) (tj : Int) (substrate : Int)
  /-- CHANNEL_RESTART, R305: A channel's restart condition holds with demand on and retries left, and it restarts, counting a retry. -/
  | channelRestart (channel : ChanNo) (tj : Int) (substrate : Int)
  /-- PULSE_EDGE, R308: An edge on PULSEk is followed by each channel mapped to it. -/
  | pulseEdge (pulse : PulseNo) (high : Bool)
  /-- CONDITION_BROADCAST, R310: Spelt receives the 1 ms condition broadcast from the control die. -/
  | conditionBroadcast
  /-- BROADCAST_ABSENT, R310: 50 ms pass without a broadcast; Spelt holds the conditions and applies the Degraded-service fallback. -/
  | broadcastAbsent
  /-- RULE_DELAY_EXPIRY, R311: ON_DLY or OFF_DLY of a rule runs out and the channel demand changes. -/
  | ruleDelayExpiry (channel : ChanNo)
  /-- ON_STATE_OPEN_LOAD, R315: 10 ms of on-time passes with no sample at or above OL_TH, setting OL_ON, or with samples above it only, clearing it. -/
  | onStateOpenLoad (channel : ChanNo) (samples : List Nat)
  /-- OFF_STATE_DIAGNOSTIC, R316: Every 100 ms, off channels are checked for a short to VIN_SW and for an open load. -/
  | offStateDiagnostic (checks : List OffCheck)
  /-- CHANNEL_SHED, R320: AGG_I exceeds AGG_CAP at 10 consecutive ticks, and one channel is shed. -/
  | channelShed
  /-- CHANNEL_RESTORE, R321: A shed channel's current fits under 0.9 × AGG_CAP for 1 s, and it is restored. -/
  | channelRestore
  /-- AGGREGATE_CAP_UPDATE, R318: The scheduler sends the once-per-second AGG_CAP computed from Tc. -/
  | aggregateCapUpdate
  /-- SUPERFRAME_START, R331: A site-line superframe begins, and the coordinator sends the beacon and committed settings take effect. -/
  | superframeStart (late : Bool)
  /-- BEACON_RECEIVED, R333: A station receives a beacon and aligns its grid. -/
  | beaconReceived (beacon : List Byte)
  /-- BEACONS_MISSED, R333: A station misses 4 consecutive beacons and stops transmitting. -/
  | beaconsMissed
  /-- SITE_FRAME_RECEIVED, R338: A site-line frame decodes with a correct CRC32 and is accepted or discarded and acknowledged. -/
  | siteFrameReceived (link : LinkNo) (burst : SlBurst)
  /-- SITE_FRAME_RETRANSMIT, R338: ACK_TO superframes pass without an acknowledgement, and the frame is resent or discarded after RETX_MAX. -/
  | siteFrameRetransmit (link : LinkNo)
  /-- MAP_RECOMPUTE, R342: The coordinator recomputes link maps and sends the changed ones in map frames. -/
  | mapRecompute (snr : List LinkSnr) (noise : List Byte)
  /-- MAP_ACK_MISSING, R342: 2 superframes before the switch without an acknowledgement, the link keeps its old maps. -/
  | mapAckMissing (link : LinkNo)
  /-- MAP_SWITCH, R342: At cycle 2 of the switch superframe, both ends apply the new maps. -/
  | mapSwitch (link : LinkNo)
  /-- TONE_LOOPBACK_TEST, R326: Every 64 superframes each tone unit is loop-tested, and a failed unit is replaced or its tone marked unusable. -/
  | toneLoopbackTest (unit : ToneUnitNo) (pass : Bool)
  /-- JOIN_REQUEST, R344: The coordinator receives a join request and answers with initial maps. -/
  | joinRequest (stationId : BitVec 64)
  /-- JOIN_RETRY, R344: A station without an answer for 32 superframes sends again after a random wait. -/
  | joinRetry
  /-- TIME_BASE_LOST, R349: ZC_OUTLET has no boundary for 100 ms or runs synthetic, and site-line transmission stops. -/
  | timeBaseLost
  /-- TIME_BASE_RESUMED, R349: After 16 counted boundaries, transmission resumes at the next beacon. -/
  | timeBaseResumed
  /-- AERIAL_PING, R355: An aerial is pinged; a detection against the baseline starts a full poll. -/
  | aerialPing (aerial : AerialNo) (amp : Nat) (phase : Int) (cards : List Card)
  /-- POLL_TIMEOUT, R357: A poll still running at 300 ms is abandoned. -/
  | pollTimeout (aerial : AerialNo)
  /-- AUTH_FALLBACK, R364: 800 ms pass without a host answer, and the outlet's authorisation fallback applies. -/
  | authFallback (outlet : OutletNo)
  /-- CARD_HOLD_EXPIRY, R364: The 2 s for host exchanges with a selected card ends and the card is halted. -/
  | cardHoldExpiry (aerial : AerialNo)
  /-- AUTH_HOLD_EXPIRY, R366: A held grant reaches AUTH_HOLD without a session and lapses. -/
  | authHoldExpiry (outlet : OutletNo)
  /-- TAG_FIELD_ON, R377: The reader field reaches operating strength; FDET is pulled low and the tag enters Ready. -/
  | tagFieldOn
  /-- TAG_FIELD_LOST, R377: 20 ms after the field is lost, FDET is released. -/
  | tagFieldLost
  /-- TAG_INVENTORY, R374: The tag answers an Inventory request. -/
  | tagInventory (inv : InventoryReq)
  /-- TAG_STAY_QUIET, R370: Stay quiet moves the tag to Quiet. -/
  | tagStayQuiet (req : TagReq)
  /-- TAG_READ_SINGLE_BLOCK, R374: Read single block returns one block from 0 to 255. -/
  | tagReadSingleBlock (req : TagReq) (block : Byte)
  /-- TAG_WRITE_SINGLE_BLOCK, R374: Write single block is answered with error 0x12. -/
  | tagWriteSingleBlock (req : TagReq) (block : Byte) (data : BitVec 32)
  /-- TAG_READ_MULTIPLE_BLOCKS, R374: Read multiple blocks returns up to 32 blocks. -/
  | tagReadMultipleBlocks (req : TagReq) (first : Byte) (count : Nat)
  /-- TAG_SELECT, R370: Select moves the named tag to Selected, or a Selected tag to Ready. -/
  | tagSelect (req : TagReq)
  /-- TAG_RESET_TO_READY, R370: Reset to ready returns the tag to Ready. -/
  | tagResetToReady (req : TagReq)
  /-- TAG_GET_SYSTEM_INFORMATION, R374: Get system information reports 256 blocks of 4 bytes. -/
  | tagGetSystemInformation (req : TagReq)
  /-- TAG_GET_BLOCK_SECURITY, R374: Get multiple block security status reports every block unlocked. -/
  | tagGetBlockSecurity (req : TagReq) (first : Byte) (count : Nat)
  /-- TAG_EXT_READ_SINGLE_BLOCK, R374: Extended read single block returns any block. -/
  | tagExtReadSingleBlock (req : TagReq) (block : BitVec 16)
  /-- TAG_EXT_WRITE_SINGLE_BLOCK, R374: Extended write single block writes a user-area block before answering. -/
  | tagExtWriteSingleBlock (req : TagReq) (block : BitVec 16) (data : BitVec 32)
  /-- TAG_EXT_READ_MULTIPLE_BLOCKS, R374: Extended read multiple blocks returns up to 32 blocks. -/
  | tagExtReadMultipleBlocks (req : TagReq) (first : BitVec 16) (count : Nat)
  /-- TAG_EXT_GET_SYSTEM_INFORMATION, R374: Extended get system information reports 2,048 blocks. -/
  | tagExtGetSystemInformation (req : TagReq)
  /-- TAG_EXT_GET_BLOCK_SECURITY, R374: Extended get multiple block security status reports every block unlocked. -/
  | tagExtGetBlockSecurity (req : TagReq) (first : BitVec 16) (count : Nat)
  /-- TAG_READ_SIGNATURE, R376: The custom command returns the 64-byte originality signature. -/
  | tagReadSignature (req : TagReq)
  /-- TAG_KILL, R375: The custom Kill command kills the tag on the correct password, or counts a failure. -/
  | tagKill (req : TagReq) (password : BitVec 32)
  /-- TAG_READ_MIRROR_INDEX, R374: The custom command returns HEAD and FCOUNT. -/
  | tagReadMirrorIndex (req : TagReq)
  /-- TAG_UNSUPPORTED_COMMAND, R374: An unsupported tag command gets error 0x01 or no answer. -/
  | tagUnsupportedCommand (req : TagReq) (code : Byte)
  /-- TAG_SECTOR_COMMIT, R378: A staged host write commits its sector once the field no longer holds it. -/
  | tagSectorCommit (sector : SectorNo)
  /-- TAG_BUSY_RETRY, R379: Millet retries a busy tag access every 200 µs, returning BUSY to host software after 20 ms. -/
  | tagBusyRetry (sector : SectorNo) (last : Bool)
  /-- TLS_CONNECTION_OPEN, R386: A host TLS connection is opened on port 0 or 1, and the connection's authority is set from the verifying root. -/
  | tlsConnectionOpen (port : EthPort) (root : ClientRoot)
  /-- PORT_SILENCE, R410: A port has no host traffic for PORT_TO; SILENT is set and an Ethernet connection is closed. -/
  | portSilence (port : PortNo)
  /-- RECORD_RING_ENTRY, R390: A 0x01 record writes a command entry and rings its doorbell. -/
  | recordRingEntry (port : EthPort) (urgent : Bool) (entry : List Byte)
  /-- RECORD_CONSUMER_INDEX, R390: A 0x04 record sets the response or event consumer index. -/
  | recordConsumerIndex (port : EthPort) (event : Bool) (index : BitVec 16)
  /-- RECORD_WINDOW_READ, R390: A 0x05 record reads window words, which are returned in a 0x06 record. -/
  | recordWindowRead (port : EthPort) (tag : BitVec 16) (addr : BitVec 32) (count : Nat)
  /-- RECORD_WINDOW_WRITE, R390: A 0x07 record writes window words. -/
  | recordWindowWrite (port : EthPort) (addr : BitVec 32) (words : List Word)
  /-- RECORD_BULK_WRITE, R390: A 0x08 record writes up to 4,096 bytes of the bulk region. -/
  | recordBulkWrite (port : EthPort) (offset : Nat) (bytes : List Byte)
  /-- RECORD_BULK_READ, R390: A 0x09 record reads bulk bytes, which are returned in a 0x0A record. -/
  | recordBulkRead (port : EthPort) (tag : BitVec 16) (offset : Nat) (len : Nat)
  /-- MALFORMED_RECORD, R390: A record of another TYPE or with a malformed header closes the connection. -/
  | malformedRecord (port : EthPort)
  /-- QSPI_READ_PORT_STATUS, R388: The QSPI instruction 0x05 returns READY and SILENT. -/
  | qspiReadPortStatus
  /-- REGISTER_WRITE, R392: A write to a window register without its own row is accepted or ignored and counted in ACC_ERR. -/
  | registerWrite (port : PortNo) (addr : BitVec 32) (value : Word)
  /-- BUSY_MS_WRITE, R392: BUSY_MS is written, setting the backlog threshold. -/
  | busyMsWrite (port : PortNo) (value : Word)
  /-- RESET_CAUSE_CLEAR, R62: A write of 1 clears W1C bits of the reset cause register. -/
  | resetCauseClear (port : PortNo) (value : Word)
  /-- RING_ENABLE, R399: RING_EN goes from 0 to 1, and the port's indices, counters and ring memory are cleared. -/
  | ringEnable (port : PortNo) (value : Word)
  /-- RING_DISABLE, R399: RING_EN goes to 0; unfetched commands are discarded and responses dropped. -/
  | ringDisable (port : PortNo) (value : Word)
  /-- URGENT_DOORBELL, R398: DB_UCMD is written and the urgent producer index is accepted or refused. -/
  | urgentDoorbell (port : PortNo) (value : BitVec 16)
  /-- NORMAL_DOORBELL, R398: DB_NCMD is written and the normal producer index is accepted or refused. -/
  | normalDoorbell (port : PortNo) (value : BitVec 16)
  /-- RESPONSE_CONSUMER_WRITE, R401: RSP_CI is written, freeing response slots and releasing the response line. -/
  | responseConsumerWrite (port : PortNo) (value : BitVec 16)
  /-- EVENT_CONSUMER_WRITE, R398: EVT_CI is written, freeing event ring entries. -/
  | eventConsumerWrite (port : PortNo) (value : BitVec 16)
  /-- HOST_HEARTBEAT_WRITE, R396: A write of HOST_HB counts as host traffic. -/
  | hostHeartbeatWrite (port : PortNo) (value : Word)
  /-- COMMAND_FETCH, R403: Millet fetches the next command by ring order, reserves its response slot and runs the checks of R406. -/
  | commandFetch (estimateMs : Nat)
  /-- EVENT_OCCURRENCE, R549: A source occurs; its pending flag and counter update, it is routed and a fault entry is logged. -/
  | eventOccurrence (source : SourceNo) (index : BitVec 16) (cause : Byte) (ended : Bool) (data : List Byte)
  /-- EVENT_RING_WRITE, R402: A routed event is written to each enabled event ring, or dropped and counted when a ring is full. -/
  | eventRingWrite
  /-- DELAYED_EVENT_DELIVERY, R552: Once the aggregator runs again, occurrences queued in a die are delivered with DELAYED set. -/
  | delayedEventDelivery
  /-- ECHO, R418: Command 0x0100 returns its payload. -/
  | echo (cmd : Cmd)
  /-- READ_IDENTITY, R418: Command 0x0101 returns the identity and module state area. -/
  | readIdentity (cmd : Cmd)
  /-- ENTER_COMMISSIONING, R66: Command 0x0102 enters Commissioning when every coil pair is off. -/
  | enterCommissioning (cmd : Cmd)
  /-- LEAVE_COMMISSIONING, R66: Command 0x0103 returns to the prior service role. -/
  | leaveCommissioning (cmd : Cmd)
  /-- DIE_RESET, R418: Command 0x0104 resets the named die. -/
  | dieReset (cmd : Cmd) (tails : List Tail)
  /-- CONTROL_RESET_AFTER_RESPONSE, R418: 10 ms after the response to a control die reset command, the reset takes place. -/
  | controlResetAfterResponse
  /-- NETWORK_SETTINGS, R418: Command 0x0105 stores a port's addressing. -/
  | networkSettings (cmd : Cmd)
  /-- MAILBOX_KEY_SLOTS, R418: Command 0x0106 names a port's server and root slots. -/
  | mailboxKeySlots (cmd : Cmd)
  /-- SET_QSPI_AUTHORITY, R387: Command 0x0107 sets QSPI_LVL. -/
  | setQspiAuthority (cmd : Cmd)
  /-- READ_1S_VALUES, R419: Command 0x0200 returns an outlet's 1 s values. -/
  | read1sValues (cmd : Cmd)
  /-- READ_TOTALS, R419: Command 0x0201 returns an outlet's totals and metered-to time. -/
  | readTotals (cmd : Cmd)
  /-- READ_HARMONIC_WINDOW, R419: Command 0x0202 returns a harmonic window. -/
  | readHarmonicWindow (cmd : Cmd)
  /-- READ_SUPRAHARMONIC_RESULT, R419: Command 0x0203 returns a channel's supraharmonic result. -/
  | readSupraharmonicResult (cmd : Cmd)
  /-- COLLECT_RAW_SAMPLE_BLOCK, R419: Command 0x0204 collects a raw sample block. -/
  | collectRawSampleBlock (cmd : Cmd)
  /-- READ_METROLOGY_TABLE, R419: Command 0x0205 returns the selected metrology table. -/
  | readMetrologyTable (cmd : Cmd)
  /-- OUTLET_ROLE_ASSIGNMENT, R93: Whitelist command 0x0210 writes the role assignment record and clock word. -/
  | outletRoleAssignment (cmd : Cmd)
  /-- USER_CALIBRATION, R100: Whitelist command 0x0211 writes the user table, metering words, display configuration and segment map. -/
  | userCalibration (cmd : Cmd)
  /-- METERING_MODE, R419: Command 0x0212 sets an outlet's metering mode. -/
  | meteringMode (cmd : Cmd)
  /-- READ_REGISTERS, R420: Command 0x0300 returns an outlet's energy or demand registers. -/
  | readRegisters (cmd : Cmd)
  /-- READ_BILLING_SNAPSHOT, R420: Command 0x0301 returns a billing snapshot. -/
  | readBillingSnapshot (cmd : Cmd)
  /-- READ_LEGAL_LOG, R420: Command 0x0302 returns legal log entries. -/
  | readLegalLog (cmd : Cmd)
  /-- ACKNOWLEDGE_LEGAL_LOG, R173: Whitelist command 0x0303 acknowledges read entries, frees the log and writes the summaries. -/
  | acknowledgeLegalLog (cmd : Cmd)
  /-- READ_LEGAL_OBJECT, R420: Command 0x0304 returns the selected legal object. -/
  | readLegalObject (cmd : Cmd)
  /-- READ_SESSION_RECORDS, R420: Command 0x0305 returns session records. -/
  | readSessionRecords (cmd : Cmd)
  /-- CONFIRM_EXPORT, R181: Command 0x0306 marks records exported. -/
  | confirmExport (cmd : Cmd)
  /-- TARIFF_PARAMETERS, R152: Whitelist command 0x0310 writes N_TAR, MD_INCL and MAP. -/
  | tariffParameters (cmd : Cmd)
  /-- LOAD_PASSIVE_CALENDAR, R157: Whitelist command 0x0311 loads a passive calendar. -/
  | loadPassiveCalendar (cmd : Cmd)
  /-- SET_LEGAL_TIME, R167: Whitelist command 0x0312 sets legal time forward or back. -/
  | setLegalTime (cmd : Cmd)
  /-- DEMAND_INTERVAL, R158: Whitelist command 0x0313 sets the demand interval length. -/
  | demandInterval (cmd : Cmd)
  /-- CONFIRM_TARIFF_SWITCH, R41: Whitelist command 0x0314 confirms an announced switch. -/
  | confirmTariffSwitch (cmd : Cmd)
  /-- DISPLAY_SELECTION, R203: Whitelist command 0x0315 stores and composes a display selection. -/
  | displaySelection (cmd : Cmd)
  /-- VEHICLE_LINK_STATUS, R421: Command 0x0400 returns an outlet's pilot and session status. -/
  | vehicleLinkStatus (cmd : Cmd)
  /-- VEHICLE_LINK_CONFIGURATION, R239: Command 0x0410 writes link words, the module link word or the key map. -/
  | vehicleLinkConfiguration (cmd : Cmd)
  /-- LOAD_LIMIT, R421: Command 0x0411 sets I_LIM. -/
  | loadLimit (cmd : Cmd)
  /-- SESSION_MODE, R421: Command 0x0412 sets an outlet's session mode. -/
  | sessionMode (cmd : Cmd)
  /-- POLICY_ANSWER, R421: Command 0x0420 answers a policy request. -/
  | policyAnswer (cmd : Cmd)
  /-- CERTIFICATE_ANSWER, R421: Command 0x0421 answers a relayed certificate request. -/
  | certificateAnswer (cmd : Cmd)
  /-- END_SESSION, R421: Command 0x0422 moves a session to phase 7 and makes Fescue send an open request. -/
  | endSession (cmd : Cmd)
  /-- SAFETY_STATUS, R422: Command 0x0500 returns fault, coil, brake or emergency-stop status. -/
  | safetyStatus (cmd : Cmd)
  /-- SET_ENABLE, R422: Command 0x0501 sets an outlet's enable flag. -/
  | setEnable (cmd : Cmd)
  /-- CLEAR_ENABLE, R30: Command 0x0502 clears an enable flag and opens the pair. -/
  | clearEnable (cmd : Cmd)
  /-- OPEN_REQUEST, R30: Command 0x0503 asks Russet to open an outlet. -/
  | openRequest (cmd : Cmd)
  /-- LOCKOUT_RELEASE, R283: Command 0x0504 arms a Lockout release for REL_WIN. -/
  | lockoutRelease (cmd : Cmd)
  /-- BRAKE_ENGAGE, R278: Command 0x0505 with engage engages a brake. -/
  | brakeEngage (cmd : Cmd)
  /-- BRAKE_RELEASE, R278: Command 0x0505 with release releases a brake when its conditions hold. -/
  | brakeRelease (cmd : Cmd)
  /-- BRAKE_HOLDING_TEST, R280: Command 0x0505 with holding test starts a holding test. -/
  | brakeHoldingTest (cmd : Cmd)
  /-- CLASS_E_REQUEST, R285: Command 0x0506 requests or clears cause 0x2E or 0x2F. -/
  | classERequest (cmd : Cmd)
  /-- WRITE_LIMITED_SETTING, R293: Command 0x0510 writes a limited protection setting. -/
  | writeLimitedSetting (cmd : Cmd)
  /-- READ_LIMITED_SETTING, R422: Command 0x0511 returns a limited setting. -/
  | readLimitedSetting (cmd : Cmd)
  /-- LOAD_SWITCH_STATUS, R424: Command 0x0600 returns channel or module status. -/
  | loadSwitchStatus (cmd : Cmd)
  /-- CHANNEL_CONFIGURATION, R312: Command 0x0601 writes a channel's configuration words. -/
  | channelConfiguration (cmd : Cmd)
  /-- CHANNEL_CONTROL, R313: Command 0x0602 writes ON, HA, FALLBACK and CLR of a channel. -/
  | channelControl (cmd : Cmd)
  /-- CHANNEL_RULE, R311: Command 0x0603 writes a channel's rule word. -/
  | channelRule (cmd : Cmd)
  /-- HOST_FLAGS, R310: Command 0x0604 changes the host flags. -/
  | hostFlags (cmd : Cmd)
  /-- AGGREGATE_MAXIMUM, R317: Command 0x0605 writes AGG_MAX. -/
  | aggregateMaximum (cmd : Cmd)
  /-- READ_CHANNEL_SETUP, R424: Command 0x0606 returns a channel's setup words. -/
  | readChannelSetup (cmd : Cmd)
  /-- SITE_LINE_STATUS, R425: Command 0x0700 returns site-line status. -/
  | siteLineStatus (cmd : Cmd)
  /-- SITE_LINE_CONFIGURATION, R346: Command 0x0701 writes the module site-line word. -/
  | siteLineConfiguration (cmd : Cmd)
  /-- LINK_ENTRY, R343: Command 0x0702 writes a link entry. -/
  | linkEntry (cmd : Cmd)
  /-- SEND_FRAME, R345: Command 0x0703 queues a site-line frame. -/
  | sendFrame (cmd : Cmd)
  /-- RECEIVE_FRAME, R425: Command 0x0704 takes a received frame from a queue. -/
  | receiveFrame (cmd : Cmd)
  /-- BEACON_BYTES, R348: Command 0x0705 supplies beacon bytes in host-assisted mode. -/
  | beaconBytes (cmd : Cmd)
  /-- CONTACTLESS_STATUS, R426: Command 0x0800 returns an aerial's status. -/
  | contactlessStatus (cmd : Cmd)
  /-- CONTACTLESS_CONFIGURATION, R426: Command 0x0801 writes an aerial, port or authorisation word. -/
  | contactlessConfiguration (cmd : Cmd)
  /-- LOAD_ALLOWLIST, R365: Command 0x0802 replaces the allowlist in one step. -/
  | loadAllowlist (cmd : Cmd)
  /-- ALLOWLIST_LOOKUP, R426: Command 0x0803 returns an allowlist entry. -/
  | allowlistLookup (cmd : Cmd)
  /-- CARD_EXCHANGE, R426: Command 0x0804 exchanges a frame with a selected card. -/
  | cardExchange (cmd : Cmd) (answer : Option (List Byte))
  /-- TAG_MEMORY_READ, R378: Command 0x0805 reads a tag sector. -/
  | tagMemoryRead (cmd : Cmd)
  /-- TAG_MEMORY_WRITE, R378: Command 0x0805 stages a write to a user-area sector. -/
  | tagMemoryWrite (cmd : Cmd)
  /-- TAG_KILL_PASSWORD, R375: Command 0x0806 writes the kill password and resets the failure count. -/
  | tagKillPassword (cmd : Cmd)
  /-- READ_SLOT, R427: Command 0x0900 returns a key slot's attributes and public part. -/
  | readSlot (cmd : Cmd)
  /-- WRITE_KEY_IN_CLEAR, R462: Command 0x0901 replaces a slot's key. -/
  | writeKeyInClear (cmd : Cmd)
  /-- LOAD_SHADOW, R463: Command 0x0902 loads a slot's shadow. -/
  | loadShadow (cmd : Cmd)
  /-- TEST_SHADOW, R463: Command 0x0903 self-tests the shadow. -/
  | testShadow (cmd : Cmd) (pass : Bool)
  /-- COMMIT_SHADOW, R463: Command 0x0904 makes the tested shadow the slot's key. -/
  | commitShadow (cmd : Cmd) (tagOk : Bool)
  /-- LIFECYCLE_MOVE, R471: Command 0x0905 moves the lifecycle state, with its wipes and clears. -/
  | lifecycleMove (cmd : Cmd)
  /-- READ_STEP_COUNTERS, R477: Command 0x0906 returns the remaining OTP steps. -/
  | readStepCounters (cmd : Cmd)
  /-- PAIR_DETAIL, R428: Command 0x0A00 returns pair status and transfer state. -/
  | pairDetail (cmd : Cmd)
  /-- BIND_PEER, R505: Command 0x0A01 binds the peer serial. -/
  | bindPeer (cmd : Cmd)
  /-- UNBIND_PEER, R506: Command 0x0A02 removes the binding. -/
  | unbindPeer (cmd : Cmd)
  /-- PLANNED_HANDOVER, R502: Command 0x0A03 hands the active role to the standby at an epoch. -/
  | plannedHandover (cmd : Cmd)
  /-- CLEAR_SUSPECT_RESYNCHRONISE, R493: Command 0x0A04 clears SUSPECT and MM_COUNT and forces a full transfer. -/
  | clearSuspectResynchronise (cmd : Cmd)
  /-- OPEN_STAGING, R512: Command 0x0B00 checks an image header and opens a staging session. -/
  | openStaging (cmd : Cmd)
  /-- IMAGE_BODY, R514: Command 0x0B01 stores the next part of the body. -/
  | imageBody (cmd : Cmd)
  /-- IMAGE_COMMIT, R517: Command 0x0B02 checks the body hash and commits the image as trial. -/
  | imageCommit (cmd : Cmd)
  /-- STAGING_ABORT, R429: Command 0x0B03 aborts a staging session. -/
  | stagingAbort (cmd : Cmd)
  /-- UPDATE_STATUS, R429: Command 0x0B04 returns image versions and marks. -/
  | updateStatus (cmd : Cmd)
  /-- READ_FAULT_LOG, R555: Command 0x0C00 returns fault log entries. -/
  | readFaultLog (cmd : Cmd)
  /-- DIAGNOSTIC_BUNDLE, R556: Command 0x0C01 starts building a diagnostic bundle. -/
  | diagnosticBundle (cmd : Cmd)
  /-- BUNDLE_COMPLETE, R556: A diagnostic bundle finishes building, with the peer's sections or section 0x00FF. -/
  | bundleComplete (peerSections : Option (List Byte))
  /-- EVENT_ROUTING, R550: Command 0x0C02 sets a source's mask and route. -/
  | eventRouting (cmd : Cmd)
  /-- EVENT_SOURCE_STATE, R430: Command 0x0C03 returns a source's state. -/
  | eventSourceState (cmd : Cmd)
  /-- CLEAR_PENDING, R549: Command 0x0C04 clears pending flags. -/
  | clearPending (cmd : Cmd)
  /-- WEAR_AND_SPARES, R543: Command 0x0C05 writes the wear report. -/
  | wearAndSpares (cmd : Cmd)
  /-- SITE_LINE_NOISE, R430: Command 0x0C06 returns noise floors or SNRs. -/
  | siteLineNoise (cmd : Cmd)
  /-- POOL_CONFLICT_COUNTERS, R436: Command 0x0C07 returns a master's counters and clears them. -/
  | poolConflictCounters (cmd : Cmd)
  /-- TEMPERATURES, R532: Command 0x0C08 returns the temperatures. -/
  | temperatures (cmd : Cmd)
  /-- SCRATCHPAD_OWNER_WRITE, R439: The owner writes OWNER and ownership passes after its earlier writes complete. -/
  | scratchpadOwnerWrite (pad : PadNo) (master : MasterNo) (value : Word) (same : List MemAccess)
  /-- SCRATCHPAD_RECLAIM, R440: The active management core sets RECLAIM and takes ownership, clearing the scratchpad if needed. -/
  | scratchpadReclaim (pad : PadNo) (master : MasterNo)
  /-- ATOMIC_OPERATION, R437: A master performs an atomic fetch-add or swap at a pool bank. -/
  | atomicOperation (accesses : List MemAccess)
  /-- SCRUB_PASS, R451: The scrubber reads and corrects code words of every bank, scratchpad and vault. -/
  | scrubPass (found : List FoundError)
  /-- UNCORRECTABLE_ERROR, R450: An uncorrectable code error is found, and the outcome for that memory applies. -/
  | uncorrectableError (error : FoundError)
  /-- BANK_SPARE_COPY_END, R452: The copy to a spare bank ends and the spare serves the logical bank. -/
  | bankSpareCopyEnd
  /-- VAULT_WIPE_COMPLETE, R444: The wipe finishes and the vault opens again. -/
  | vaultWipeComplete (waiting : List MemAccess)
  /-- DEBUG_UNLOCK_TOKEN, R476: A debug unlock token over the debug port consumes a step, wipes the vault and opens the port. -/
  | debugUnlockToken (token : List Byte)
  /-- PAIR_HEARTBEAT, R481: A 10 µs heartbeat arrives from the peer. -/
  | pairHeartbeat (beat : Heartbeat)
  /-- LANE_DOWN, R482: A Hasulin lane misses 3 heartbeats, and traffic moves to the other lane. -/
  | laneDown (lane : LaneHas)
  /-- PEER_HEARTBEAT_LOSS, R482: 30 µs after the last heartbeat, PEER_SEEN reads 0 and the link is lost. -/
  | peerHeartbeatLoss
  /-- LINK_KEY_AGREEMENT, R483: At link start, frame keys are agreed by ECDHE and the peer's identity is pinned or checked. -/
  | linkKeyAgreement (peerPoint : BitVec 256) (legalId : BitVec 32) (signing : BitVec 8) (headers : List (List Byte))
  /-- EPOCH_START, R484: A 1 ms epoch begins; forwarded commands execute, the lease is renewed and digests are compared. -/
  | epochStart (peerDigest : Option (Nat × Digest)) (acked : Bool)
  /-- FORWARDED_COMMAND, R485: The standby receives a forwarded command and acknowledges it for execution at n + 2. -/
  | forwardedCommand (fwd : Forwarded)
  /-- EPOCH_FRAME_RESEND, R482: A discarded epoch frame is requested by sequence number and resent. -/
  | epochFrameResend (seq : Nat)
  /-- SEALED_FRAME, R489: The standby's Ochre receives sealed cycle entries and adopts or rejects them. -/
  | sealedFrame (frame : SealedFrame)
  /-- SEALED_ENTRY_TIMEOUT, R490: No sealed entry arrives within 4 epochs, and the standby accumulates its own values. -/
  | sealedEntryTimeout (outlet : OutletNo)
  /-- SESSION_RECORD_CONTENT, R491: The standby's Ochre receives a record's content, checks it and signs. -/
  | sessionRecordContent (outlet : OutletNo) (content : List Byte)
  /-- STATE_TRANSFER_COMPLETE, R494: A state transfer completes and the standby replays forwarded commands. -/
  | stateTransferComplete (full : Bool) (content : TransferContent)
  /-- LEASE_YIELD, R495: The standby receives the yield flag from the active module. -/
  | leaseYield
  /-- LEASE_TAKE, R495: 0.5 ms after a yield, the standby takes the lease. -/
  | leaseTake
  /-- STANDBY_TAKEOVER, R497: After 4 ms without a lease flag plus the guard, the standby sets Handover and takes the lease. -/
  | standbyTakeover
  /-- PILOT_CARRY_OVER, R499: The standby finds a pilot undriven and continues its waveform. -/
  | pilotCarryOver (outlet : OutletNo)
  /-- STAGING_TIMEOUT, R514: A staging session without body or commit for 10 min is aborted. -/
  | stagingTimeout
  /-- TRIAL_CONFIRMATION, R519: A trial image runs 10 min without a watchdog reset and is confirmed. -/
  | trialConfirmation (image : ImageNo)
  /-- FESCUE_IMAGE_BRING_IN, R522: No outlet is in phases 2 to 8, and Fescue resets onto the new image. -/
  | fescueImageBringIn
  /-- SESSION_IMAGE_BRING_IN, R523: An idle outlet's next session starts on the new session image. -/
  | sessionImageBringIn (outlet : OutletNo)
  /-- MILLET_STATE_HANDOVER, R524: The new Millet image on the spare core receives state and sends its first heartbeat. -/
  | milletStateHandover
  /-- SPELT_IMAGE_RESET, R526: A Spelt reset brings the committed Spelt image into use within 10 ms of the commit. -/
  | speltImageReset
  /-- THERMAL_SECOND, R531: The scheduler recomputes Tc and enters or leaves stages. -/
  | thermalSecond (substrate : List Int) (dies : List Int)
  /-- CLOCK_STEP_UP, R533: A clock stage has been out of force for 10 s, and the session cores step up. -/
  | clockStepUp
  /-- SENSOR_FAILURE, R532: A temperature sensor is out of limits or disagrees for 10 s and is replaced. -/
  | sensorFailure (sensor : SensorNo)
  /-- SENSOR_RECOVERY, R532: A failed sensor reads within limits for 60 s and is used again. -/
  | sensorRecovery (sensor : SensorNo)
  /-- IMAGE_STORE_HOT, R535: The image store crosses 115 °C or falls to 110 °C, and body and allowlist loads get BUSY or are accepted again. -/
  | imageStoreHot (reading : Int)
  /-- OVER_RANGE_REPORT, R536: Tc above 125 °C raises its event once per minute. -/
  | overRangeReport
  /-- PERIODIC_JOB_RELEASE, R537: A periodic job instance is released at its time, such as the 1 s report, fault-log flush or key sweep. -/
  | periodicJobRelease (job : JobNo)
  /-- PERIODIC_JOB_END, R538: A late job instance ends and the next is released with its debt and merges. -/
  | periodicJobEnd (job : JobNo) (ranMs : Nat)
  /-- VBAT_BELOW_MINIMUM, R53: VBAT falls below its minimum while main power is absent, so Teal stops and its legal clock, tamper ring and counters are lost. -/
  | vbatBelowMinimum
  /-- SITE_LINE_HOST_SILENCE, R40: In host-assisted site-line mode, 5 s pass without host traffic, transmission stops and, with fallback enabled, the module resumes coordinator and MAC in hardware mode. -/
  | siteLineHostSilence
  /-- TLS_CONNECTION_CLOSE, R399: The host or the network closes a TLS connection of port 0 or 1, so fetching stops, unfetched commands are discarded and responses of fetched ones are dropped. -/
  | tlsConnectionClose (port : EthPort)
  /-- QSPI_POOL_ACCESS, R389: A QSPI read or write of the pool address range is served only in port 2's rings, bulk region and legal mirror, and otherwise reads 0, is ignored and raises ACC_ERR. -/
  | qspiPoolAccess (addr : BitVec 32) (write : Option Word)
  /-- HOLDING_TEST_OVERDUE, R297: HT_DUE hours pass since a brake's last passed holding test and OVERDUE is set. -/
  | holdingTestOverdue (brake : BrakeNo)
  /-- SESSION_CORE_SELF_TEST_END, R540: The restarted silent session core finishes its self-test and becomes the spare if it passes, or is retired if it fails. -/
  | sessionCoreSelfTestEnd (pass : Bool)
  /-- MODULE_STATE_AREA_REWRITE, R372: Once per hour Millet rewrites the tag's module state area with a new T_WRITE and CHECK_ST. -/
  | moduleStateAreaRewrite
  /-- FULL_COMMON_WRITE_END, R196: In a bistable update, the indicator set or the full write of a row ends and the display journal moves to its next state. -/
  | fullCommonWriteEnd
  /-- TJ_CTL_READING, R533: The 1 ms control-die temperature reading crosses a Tj_ctl stage entry, and the stage and any clock step-down take effect at once. -/
  | tjCtlReading (reading : Int)
deriving DecidableEq, Repr

end Sys2Proof
end

