-- ==== Sys2Proof/Decode.lean ====
section
/-! DEFINITION. What a word spells: nothing, since no row of the opcode table gives bits. -/

namespace Sys2Proof

/-- The command that a word spells by the table's bits. The table gives no row any bits, so no word spells one. -/
def decodeTableWord (_nbits _w : Nat) : Option Instr := none

end Sys2Proof
end

