-- ==== Sys2Proof/Machine/Bits.lean ====
section
/-! DEFINITION. Bit fields, little-endian bytes and the CRC-32 of the mailbox and of the records (R8, R12, R408). -/

namespace Sys2Proof.Machine

/-- The field of `n` bits whose lowest bit is `lo`. -/
def field (w lo n : Nat) : Nat := w / 2 ^ lo % 2 ^ n

/-- The field of a 32-bit register. -/
def wFld (w : Word) (lo n : Nat) : Nat := field w.toNat lo n

/-- One bit of a register. -/
def wBit (w : Word) (k : Nat) : Bool := w.getLsbD k

/-- A register with one field replaced. -/
def wSetFld (w : Word) (lo n v : Nat) : Word :=
  BitVec.ofNat 32 (w.toNat - field w.toNat lo n * 2 ^ lo + v % 2 ^ n * 2 ^ lo)

/-- A Boolean as a bit of a word under construction. -/
def flag (b : Bool) (k : Nat) : Nat := if b then 2 ^ k else 0

/-- The `n` bytes of a number, least significant first (R413). -/
def leBytes : Nat → Nat → List Byte
  | 0, _ => []
  | n + 1, v => BitVec.ofNat 8 v :: leBytes n (v / 256)

/-- The number that bytes spell, least significant first. -/
def ofLe : List Byte → Nat
  | [] => 0
  | b :: bs => b.toNat + 256 * ofLe bs

/-- The `n` bytes of a list from an offset, zero-filled past its end. -/
def slice (l : List Byte) (off n : Nat) : List Byte :=
  let t := (l.drop off).take n
  t ++ List.replicate (n - t.length) 0

/-- A little-endian field of a byte list. -/
def leAt (l : List Byte) (off n : Nat) : Nat := ofLe ((l.drop off).take n)

/-- One byte of a byte list as a number, 0 past its end. -/
def byteAt (l : List Byte) (off : Nat) : Nat := (l.getD off 0).toNat

/-- A list cut or zero-filled to `n` bytes. -/
def padTo (n : Nat) (l : List Byte) : List Byte := slice l 0 n

/-- The signed reading of an `n`-bit field. -/
def signed (n v : Nat) : Int := if 2 ^ (n - 1) ≤ v then (v : Int) - 2 ^ n else v

/-- A signed number as an `n`-byte field, two's complement. -/
def leInt (n : Nat) (v : Int) : List Byte := leBytes n (v % 2 ^ (8 * n)).toNat

/-- One bit step of the reflected CRC-32 with the IEEE 802.3 polynomial (R408). -/
def crcBit (c : Nat) : Nat := if c % 2 = 1 then (c / 2) ^^^ 0xEDB88320 else c / 2

/-- Eight bit steps after a byte has entered the register. -/
def crcByte (c : Nat) (b : Byte) : Nat :=
  let x := c ^^^ b.toNat
  crcBit (crcBit (crcBit (crcBit (crcBit (crcBit (crcBit (crcBit x)))))))

/-- The register after the bytes. The match has its value at hand at every byte. -/
def crcRun : Nat → List Byte → Nat
  | c, [] => c
  | c, b :: bs =>
    match crcByte c b with
    | 0 => crcRun 0 bs
    | k + 1 => crcRun (k + 1) bs

/-- CRC-32 of a byte list. -/
def crc32 (l : List Byte) : Nat := crcRun 0xFFFFFFFF l ^^^ 0xFFFFFFFF

/-- A 16-bit ring index moved on by `n`, wrapping (R397). -/
def idxAdd (i : BitVec 16) (n : Nat) : BitVec 16 := i + BitVec.ofNat 16 n

/-- PI − CI modulo 2^16 (R397). -/
def idxSub (a b : BitVec 16) : Nat := (a - b).toNat

/-- A counter that stops at its greatest value. -/
def satAdd (n : Nat) (w : BitVec n) (k : Nat) : BitVec n :=
  if w.toNat + k < 2 ^ n then BitVec.ofNat n (w.toNat + k) else BitVec.allOnes n

/-- Division rounded up. -/
def ceilDiv (a b : Nat) : Nat := (a + b - 1) / b

end Sys2Proof.Machine
end

