-- ==== Sys2Proof/Machine/Hash.lean ====
section
/-! DEFINITION. SHA-256 and SHA-384, which the spec names and does not write out (PRESUMED: FIPS 180-4). -/

namespace Sys2Proof.Machine

/-- The eight working variables. -/
structure ShaRegs (n : Nat) where
  a : BitVec n
  b : BitVec n
  c : BitVec n
  d : BitVec n
  e : BitVec n
  f : BitVec n
  g : BitVec n
  h : BitVec n

/-- Rotation and shift amounts of the four functions: Σ0, Σ1, σ0, σ1. -/
structure ShaForm where
  big0 : Nat × Nat × Nat
  big1 : Nat × Nat × Nat
  small0 : Nat × Nat × Nat
  small1 : Nat × Nat × Nat

def sha256Form : ShaForm := { big0 := (2, 13, 22), big1 := (6, 11, 25), small0 := (7, 18, 3), small1 := (17, 19, 10) }

def sha512Form : ShaForm := { big0 := (28, 34, 39), big1 := (14, 18, 41), small0 := (1, 8, 7), small1 := (19, 61, 6) }

/-! ### Constants: the first bits of the fractional parts of roots of the primes (FIPS 180-4, 4.2 and 5.3) -/

/-- The greatest number below `2 ^ bits`, from `found` on, whose `k`-th power does not exceed `v`. -/
def intRoot (k v : Nat) : Nat → Nat → Nat
  | 0, found => found
  | bits + 1, found => if (found + 2 ^ bits) ^ k ≤ v then intRoot k v bits (found + 2 ^ bits) else intRoot k v bits found

/-- The first `n` bits of the fractional part of the `k`-th root of `p`. -/
def rootBits (n k p : Nat) : BitVec n := BitVec.ofNat n (intRoot k (p * 2 ^ (k * n)) (n + 5) 0)

/-- The primes below 410: 80 of them. -/
def shaPrimes : List Nat :=
  (List.range 410).filter fun p => decide (2 ≤ p) && (List.range 21).all fun d => d < 2 || p ≤ d || p % d != 0

def sha256K : List (BitVec 32) := (shaPrimes.take 64).map (rootBits 32 3)

def sha512K : List (BitVec 64) := shaPrimes.map (rootBits 64 3)

/-- Initial registers from the square roots of eight primes. -/
def shaInit (n : Nat) (ps : List Nat) : ShaRegs n :=
  let r (k : Nat) : BitVec n := rootBits n 2 (ps.getD k 0)
  ⟨r 0, r 1, r 2, r 3, r 4, r 5, r 6, r 7⟩

def sha256Init : ShaRegs 32 := shaInit 32 shaPrimes

def sha384Init : ShaRegs 64 := shaInit 64 (shaPrimes.drop 8)

def shaBig {n : Nat} (r : Nat × Nat × Nat) (x : BitVec n) : BitVec n :=
  x.rotateRight r.1 ^^^ x.rotateRight r.2.1 ^^^ x.rotateRight r.2.2

def shaSmall {n : Nat} (r : Nat × Nat × Nat) (x : BitVec n) : BitVec n :=
  x.rotateRight r.1 ^^^ x.rotateRight r.2.1 ^^^ (x >>> r.2.2)

/-- One round. -/
def shaRound {n : Nat} (fm : ShaForm) (r : ShaRegs n) (kw : BitVec n) : ShaRegs n :=
  let t1 := r.h + shaBig fm.big1 r.e + ((r.e &&& r.f) ^^^ (~~~r.e &&& r.g)) + kw
  let t2 := shaBig fm.big0 r.a + ((r.a &&& r.b) ^^^ (r.a &&& r.c) ^^^ (r.b &&& r.c))
  { a := t1 + t2, b := r.a, c := r.b, d := r.c, e := r.d + t1, f := r.e, g := r.f, h := r.g }

/-- The message schedule, newest word first, with `k` words more. -/
def shaSchedule {n : Nat} (fm : ShaForm) : Nat → List (BitVec n) → List (BitVec n)
  | 0, w => w
  | k + 1, w =>
    shaSchedule fm k
      ((shaSmall fm.small1 (w.getD 1 0) + w.getD 6 0 + shaSmall fm.small0 (w.getD 14 0) + w.getD 15 0) :: w)

/-- The compression of a block of 16 words. -/
def shaBlock {n : Nat} (fm : ShaForm) (ks : List (BitVec n)) (r : ShaRegs n) (m : List (BitVec n)) : ShaRegs n :=
  let w := (shaSchedule fm (ks.length - 16) m.reverse).reverse
  let t := (List.zipWith (· + ·) ks w).foldl (shaRound fm) r
  ⟨r.a + t.a, r.b + t.b, r.c + t.c, r.d + t.d, r.e + t.e, r.f + t.f, r.g + t.g, r.h + t.h⟩

/-- The number that bytes spell, most significant first. -/
def ofBe (l : List Byte) : Nat := l.foldl (fun n b => 256 * n + b.toNat) 0

/-- The `n` bytes of a number, most significant first. -/
def beBytes (n v : Nat) : List Byte := (leBytes n v).reverse

/-- The next `k` words of a byte list. -/
def shaWords (n : Nat) : Nat → List Byte → List (BitVec n)
  | 0, _ => []
  | k + 1, l => BitVec.ofNat n (ofBe (l.take (n / 8))) :: shaWords n k (l.drop (n / 8))

/-- `k` blocks compressed in turn. -/
def shaBlocks {n : Nat} (fm : ShaForm) (ks : List (BitVec n)) : Nat → List Byte → ShaRegs n → ShaRegs n
  | 0, _, r => r
  | k + 1, l, r => shaBlocks fm ks k (l.drop (2 * n)) (shaBlock fm ks r (shaWords n 16 l))

/-- A message padded to whole blocks of `2n` bytes, and hashed. -/
def shaRun {n : Nat} (fm : ShaForm) (ks : List (BitVec n)) (init : ShaRegs n) (m : List Byte) : ShaRegs n :=
  let zeros := (2 * n - (m.length + 1 + n / 4) % (2 * n)) % (2 * n)
  let p := m ++ [0x80] ++ List.replicate zeros 0 ++ beBytes (n / 4) (8 * m.length)
  shaBlocks fm ks (p.length / (2 * n)) p init

/-- SHA-256, 32 bytes. -/
def sha256 (m : List Byte) : List Byte :=
  let r := shaRun sha256Form sha256K sha256Init m
  [r.a, r.b, r.c, r.d, r.e, r.f, r.g, r.h].flatMap fun w => beBytes 4 w.toNat

/-- SHA-384, 48 bytes. -/
def sha384 (m : List Byte) : List Byte :=
  let r := shaRun sha512Form sha512K sha384Init m
  [r.a, r.b, r.c, r.d, r.e, r.f].flatMap fun w => beBytes 8 w.toNat

/-- A key filled up with zeros to the 128-byte block of SHA-384, each byte combined with `b`. -/
def hmacPad (b : Byte) (key : List Byte) : List Byte :=
  (key ++ List.replicate (128 - key.length) 0).map (· ^^^ b)

/-- HMAC with SHA-384. -/
def hmac384 (key m : List Byte) : List Byte :=
  let k := if 128 < key.length then sha384 key else key
  sha384 (hmacPad 0x5C k ++ sha384 (hmacPad 0x36 k ++ m))

/-- The first 48 bytes that HKDF with SHA-384 derives (R466). -/
def hkdf384 (key salt info : List Byte) : List Byte := hmac384 (hmac384 salt key) (info ++ [1])

end Sys2Proof.Machine
end

