-- ==== Sys2Proof/Config.lean ====
section
/-! DEFINITION. What the spec leaves open or to the maker: free values, factory values, and the functions whose
rounding or key material the spec does not give. Every constant here is opaque: no proof can see its value. -/

namespace Sys2Proof

/-- An entry of the factory table (R97). -/
structure FactoryEntry where
  lane : Fin 520
  band : Fin 8
  gain : BitVec 32
  offset : BitVec 24
  phase : BitVec 32
  /-- CHECK_F. -/
  check : Word
deriving DecidableEq, Repr

end Sys2Proof

namespace Sys2Proof.Config

/-- The free values: one for each count of `State.free`. -/
opaque freeValue : Nat → Nat

/-- Whether a value that lies between two counts is reported as the greater (R88, R123, R129, R138). -/
opaque roundUp : Rat → Bool
/-- What a square root exceeds the greatest multiple of 2^-32 below it by, in 2^-32 (R120, R136). -/
opaque rootRest : Rat → Rat
/-- The cosine of a part of a turn between 0 and a quarter (R120, R136, R139). -/
opaque cosine : Rat → Rat
/-- The angle above the axis before it of a complex number off the axes, in hundredths of a degree (R136). -/
opaque angle : Rat → Rat → Rat
/-- Coefficients of the linear-phase filters of R85, of which the spec gives the responses alone (R86); the second half of
each mirrors the first. -/
opaque meteringTap : Nat → Rat
opaque protectionTap : Nat → Rat
/-- The polyphase rate converter: its number of taps, and tap `k` of phase `p` (R83). -/
opaque converterTaps : Nat
opaque converterTap : Nat → Nat → Rat
/-- Squared magnitude of the rate converter's response at a frequency in Hz (R87). -/
opaque converterPower : Rat → Rat
/-- The fractional-delay filter of R96: the value of sample `k` of a list delayed by a time in ps. -/
opaque fractional : Rat → List Rat → Nat → Rat
/-- The polyphase interpolator of R119: a list's value at a position in sample periods. -/
opaque interpolated : List Rat → Rat → Rat

/-- SI_REV of R392. -/
opaque siRev : BitVec 16
/-- SERIAL of R392 and R372. -/
opaque serial : BitVec 64
/-- The factory table as written at manufacture, by its entries that are not neutral (R97). -/
opaque factory : List FactoryEntry
/-- Host-assisted tariff switching is selected (R40), by means that the spec does not give. -/
opaque tariffAssisted : Bool
/-- The 16 strokes that show a character (R200). -/
opaque glyph : Char → BitVec 16
/-- Characters left blank before the text of an item on the main line, whose place R202 does not give. -/
opaque lineStart : Nat → Nat
/-- Legal firmware identifier and ROM CRC-32 (R185). -/
opaque legalFw : BitVec 32
opaque legalCrc : BitVec 32
/-- The integrity tags of R97, R169, R175 and R197, whose function the spec does not give. -/
opaque check : List Byte → Word
/-- Public key of an Ochre signing slot, 65 bytes (R420). -/
opaque signingPublic : Nat → List Byte
/-- ECDSA signature of an Ochre signing slot over a content (R180). -/
opaque sign : Nat → List Byte → List Byte
/-- Identifier of the built-in tag, and its originality signature (R369, R376). -/
opaque tagUid : BitVec 64
opaque tagSignature : List Byte
/-- The vendor keys that slots 0 and 1 hold as shipped (R458). -/
opaque vendorKey : Nat → List Byte
/-- ECDSA verification of a content and signature with a public point (R473, R512). -/
opaque verify : List Byte → List Byte → List Byte → Bool
/-- The public point of a private scalar (R457). -/
opaque publicPoint : BitVec 8 → List Byte → List Byte
/-- The certificate chain that the image store holds for an entry of the key map, at a count of `State.free`, and the public
point that a chain's leaf carries (R227). -/
opaque storedChain : Nat → Nat → List Byte
opaque leafKey : List Byte → List Byte
/-- The four hardware roots of 48 bytes (R465). -/
opaque root : Fin 4 → List Byte
/-- The six check bits of a sub-word of 16 data bits (R446). -/
opaque checkBits : BitVec 16 → BitVec 6
/-- Whether an error that meets some sub-word more than twice, and none twice, is detected (R446). -/
opaque codeDetects : List (Fin 352) → Bool
/-- A private scalar is in range, or a public point on its curve (R457). -/
opaque keyOk : BitVec 8 → List Byte → Bool
/-- Headers of the images a module is shipped with (R510). -/
opaque shippedHeader : Nat → List Byte
/-- Serialisation and digest of a group's state, whose byte form the spec does not give (R492). -/
opaque digest : Nat → List Nat → BitVec 64

end Sys2Proof.Config
end

