-- ==== Sys2Proof/Machine/State.lean ====
section
/-! DEFINITION. The state of the ZGH6451 as plain data, every piece the spec gives the module, with its faults and refusals. -/

namespace Sys2Proof.Machine

/-- Why the machine stops. -/
inductive Fault where
  /-- A HOSTRST pulse of 100 ns or more and less than 1 µs: "Between these two lengths the effect is undefined" (R54).
  Raised by HOSTRST_PULSE alone. Safe: no behaviour is claimed. -/
  | hostrstUndefined
deriving DecidableEq, Repr

/-- Why the model gives a command no meaning. -/
inductive Refusal where
  /-- The command of this mnemonic has no meaning in the model yet. Raised by no meaning. Safe. -/
  | notModelled (mnemonic : String)
deriving DecidableEq, Repr

/-- Base modes of R64; a service role is `service` with its role beside it. -/
inductive BaseMode where
  | backupWatch | measuredStart | factoryTest | commissioning | service | recovery
deriving DecidableEq, Repr

/-- ROLE of R65. -/
inductive Role where
  | none | solo | active | standby
deriving DecidableEq, Repr

/-- The mode logic (R64 to R68). -/
structure Modes where
  /-- The base mode. -/
  base : BaseMode
  /-- The service role, none outside a service role. -/
  role : Role
  /-- The service role that Commissioning and Recovery return to. -/
  prior : Role
  /-- Condition Handover. -/
  handover : Bool
  /-- Condition Image staging. -/
  staging : Bool
  /-- Cause of Degraded service: heartbeat loss (R35). -/
  hbLoss : Bool
  /-- Cause of Degraded service: loss of reference (R50). -/
  refLoss : Bool
  /-- Failed control die starts in succession (R60). -/
  failedStarts : Nat
  /-- The checks of Measured start have passed, and the role decision waits for the peer. -/
  checked : Bool
  /-- A repaired image has been verified in Recovery (R66). -/
  repaired : Bool
deriving DecidableEq, Repr

/-- The power-fail marker (R132). -/
structure Marker where
  /-- The PFW tick, or the moment of Ochre's reset, legal time in µs. -/
  tick : Nat
  /-- Metered-to time, units of 64 µs. -/
  meteredTo : Nat
  /-- Tail active energy of each outlet with an open cycle or period, µWh times 2^32, and its TRUNC flag. -/
  tails : List (OutletNo × Int × Bool)
deriving DecidableEq, Repr

/-- Main supplies, PFW and VBAT (R53, R70 to R73). -/
structure Supply where
  /-- Every main supply is in range. -/
  mainOk : Bool
  /-- PFW is asserted. -/
  pfw : Bool
  /-- PFW has been deasserted since the main supplies entered their range (R72). -/
  pfwArmed : Bool
  /-- Legal time latched at the PFW assertion, in µs (R70 step 1). -/
  pfwTick : Nat
  /-- The final save is complete: ferroelectric memory write-protected, power-fail marker written (R70 step 2). -/
  saveDone : Bool
  /-- The outputs were opened at step 4 (R70, R72). -/
  opened : Bool
  /-- The outlets whose pairs step 4 opened: their sessions stop when PFW deasserts with the supplies in range (R72). -/
  dropped : List OutletNo
  /-- VBAT is above its minimum. -/
  vbatOk : Bool
  /-- A Teal power-on has happened since the last module power-on (R53, R62). -/
  tealPor : Bool
  /-- A power-fail marker stands in ferroelectric memory (R70, R73). -/
  marker : Option Marker
  /-- Dip counter (R71). -/
  dips : Word
deriving DecidableEq, Repr

/-- The clock tree (R45 to R52, R63). -/
structure Clocks where
  pll1Lock : Bool
  pll2Lock : Bool
  xrefOk : Bool
  /-- FB_TRIMMED. -/
  trimmed : Bool
  fallback : Bool
  slew : Bool
  /-- MCLK_SEL in force. -/
  mclkSel : BitVec 2
  /-- SC_STEP. -/
  scStep : BitVec 2
  /-- Corrections of the fallback oscillator since the loss (R50). -/
  corrections : Nat
  /-- Legal time at which the out-of-specification period began, in µs (R50, R51). -/
  outSince : Option Nat
deriving DecidableEq, Repr

/-- Running states of a die across its reset (R53). -/
inductive DieRun where
  /-- Held in reset or without power. -/
  | held
  /-- Released and not ready yet. -/
  | starting
  | running
deriving DecidableEq, Repr

/-- Which dies run (R53, R61). -/
structure Dies where
  control : DieRun
  ochre : DieRun
  russet : DieRun
  fescue : DieRun
  spelt : DieRun
  /-- The first Millet heartbeat since the start has been seen, so watchdog and 50 ms rule run (R61). -/
  hbSeen : Bool
  /-- A commanded control die reset waits for its 10 ms after the response (R418). -/
  resetAfterResponse : Bool
  /-- The cause bit that the running Russet reset sets when Russet restarts: WDT_RUS or CMD_RUS (R62). -/
  russetCause : Option Nat
  /-- The Fescue heartbeat has been received within the last 2 ms (R34). -/
  fescueBeat : Bool
  /-- PFW asserted while Ochre restarts (R73). -/
  pfwInOchreReset : Bool
deriving DecidableEq, Repr

/-! ### Events (R546 to R558) -/

/-- An occurrence of an event source, as its event entry gives it (R553). -/
structure Occ where
  source : SourceNo
  /-- Word 3 [15:0] of the entry. -/
  index : BitVec 16
  /-- CAUSE. -/
  cause : Byte
  /-- ENDED. -/
  ended : Bool
  /-- PEER. -/
  peer : Bool
  /-- DELAYED. -/
  delayed : Bool
  /-- MODE, after the happening's own effects. -/
  mode : BitVec 4
  /-- Legal time of the happening, in units of 64 µs. -/
  time : Nat
  /-- Event sequence number; 0 until the aggregator has ordered the occurrence. -/
  seq : Word
  /-- The values the raising rule names, up to 16 bytes (R554). -/
  data : List Byte
deriving DecidableEq, Repr

/-- One event source (R546, R549). -/
structure Source where
  pending : Bool
  mask : Bool
  /-- ROUTE: 0 none, 1 HOST_IRQ0, 2 HOST_IRQ1, 3 event ring. -/
  route : BitVec 2
  counter : Word
  /-- Objects for which the condition of a level source holds. -/
  holding : List (BitVec 16)
deriving DecidableEq, Repr

/-- A fault log entry (R555). -/
structure FaultEntry where
  fseq : Word
  occ : Occ
  /-- OUTLET. -/
  outlet : Byte
  /-- Mode status register at the occurrence. -/
  modeStatus : Word
  /-- PAIR_STATUS at the occurrence. -/
  pairStatus : Word
  /-- Scheduler status word of R544 at the occurrence. -/
  sched : Word
deriving DecidableEq, Repr

/-- The queue of 64 occurrences in a die (R552). -/
structure DieQueue where
  queue : List Occ
  /-- Occurrences dropped since the last source 12. -/
  dropped : Nat
deriving DecidableEq, Repr

/-- The event aggregator and the fault log. -/
structure Events where
  src : Tab Source 128
  /-- Last event sequence number given. -/
  seq : Word
  /-- Occurrences routed to the event ring and not yet written there (R402, R551). -/
  routed : List Occ
  /-- Queues of Ochre, Russet, Fescue and Spelt, in that order. -/
  dieQ : Tab DieQueue 4
  /-- Fault log entries flushed to the image store, oldest first. -/
  log : List FaultEntry
  /-- Fault log entries not flushed yet, oldest first (R537 job 3). -/
  unflushed : List FaultEntry
  /-- Last FSEQ given. -/
  fseq : Word
  /-- A fault-log marker written at a power failure (R70 step 3). -/
  marker : Bool
  /-- A diagnostic bundle is being built for this command (R556). -/
  bundle : Option Cmd
deriving DecidableEq, Repr

/-! ### Mailbox (R384 to R412) -/

/-- A fetched command that has no response yet. -/
structure Fetch where
  op : BitVec 16
  cmd : Cmd
  /-- The port's rings were disabled after the fetch, so the response is discarded (R399). -/
  dropped : Bool
deriving DecidableEq, Repr

/-- Indices of a port's rings (R397). -/
structure Indices where
  ucmdPi : BitVec 16
  ucmdCi : BitVec 16
  ncmdPi : BitVec 16
  ncmdCi : BitVec 16
  rspPi : BitVec 16
  rspCi : BitVec 16
  evtPi : BitVec 16
  evtCi : BitVec 16
deriving DecidableEq, Repr

/-- Network settings and key slots of a port, held in the image store (R384, R418, R604). -/
structure NetSettings where
  /-- Bytes 1 to 35 of the payload of 0x0105, none while no addressing is stored. -/
  addressing : Option (List Byte)
  serverSlot : BitVec 16
  operateSlot : BitVec 16
  commissionSlot : BitVec 16
deriving DecidableEq, Repr

/-- A host port and its block (R396). -/
structure Port where
  ringEn : Bool
  evtEn : Bool
  rspIrq : BitVec 2
  portTo : Byte
  accErr : Byte
  dbErr : Byte
  connected : Bool
  level : BitVec 2
  silent : Bool
  idx : Indices
  evtLost : Word
  /-- Events dropped since the last lost-events entry. -/
  lostNew : Word
  /-- Legal time of the first of them, in units of 64 µs. -/
  lostFirst : Nat
  hostHb : Word
  /-- Stored settings. -/
  net : NetSettings
  /-- Settings in use by the open connection (R418). -/
  netInUse : NetSettings
  /-- Records sent to the host on this connection, or the bytes QSPI last read, newest last (R388, R390). -/
  sent : List (List Byte)
deriving DecidableEq, Repr

/-- The mailbox and the direct window's own registers. -/
structure Mailbox where
  port : Tab Port 3
  /-- HB_COUNT. -/
  hbCount : BitVec 16
  ready : Bool
  handover : Bool
  backlog : Bool
  busyMs : Byte
  /-- QSPI_LVL, stored in the image store (R387). -/
  qspiLvl : BitVec 2
  /-- Commands fetched and not answered. -/
  fetched : List Fetch
  /-- Normal port whose turn is next (R403). -/
  turn : PortNo
  /-- LRD_SEQ and the bytes of the legal mirror copy (R395). -/
  lrdSeq : Word
  lrdLen : Word
deriving DecidableEq, Repr

/-! ### Memory (R432 to R453) -/

/-- Addressed bytes that are not 0, by rising address. -/
abbrev Memory := List Host.Cell

/-- A scratchpad (R438). -/
structure Pad where
  /-- OWNER, 0x1F none. -/
  owner : BitVec 5
  denied : Byte
  bytes : Memory
  /-- Words whose code is uncorrectable. -/
  bad : List Nat
deriving DecidableEq, Repr

/-- A copy to a spare bank in progress or waiting (R452). -/
structure SpareCopy where
  logical : Fin 64
  spare : Fin 68
deriving DecidableEq, Repr

/-- Conflict and access counters of one master (R436). -/
structure Conflicts where
  conf : Tab Word 8
  acc : Tab Word 8
deriving DecidableEq, Repr

/-- Pool, scratchpads and vault. -/
structure MemState where
  /-- The pool's 16 MiB, by pool offset. -/
  pool : Memory
  /-- Pool code words marked bad, by bank and number (R450). -/
  badWords : List (Nat × Nat)
  pads : Tab Pad 16
  /-- The vault's 1 MiB. -/
  vault : Memory
  /-- A wipe is running, with its trigger (R444). -/
  wiping : Bool
  /-- Physical bank that serves each logical bank. -/
  bankMap : Tab (Fin 68) 64
  /-- Corrected code words per physical bank in the last 24 h: monotonic time in µs and number (R449, R452). -/
  corrected : Tab (List (Nat × Nat)) 68
  /-- Corrected code words per physical bank since power-on (R543). -/
  correctedAll : Tab Word 68
  /-- The copy in progress, then the banks that wait. -/
  copies : List SpareCopy
  conflicts : Tab Conflicts 16
  /-- Master that each bank served last (R435). -/
  lastServed : Tab MasterNo 64
  /-- What the accesses of the last cycle gave their masters, in the order served: a read or atomic operation its value, a write
  0, none for an access error (R437). -/
  returned : List (MasterNo × Option (BitVec 64))
  /-- Corrected code words of the last 24 h outside the pool: memory code and unit of R548, and monotonic time in µs (R449). -/
  unitFixed : List (Nat × Nat)
deriving DecidableEq, Repr

/-! ### Ochre: inputs, lanes and calibration (R74 to R114) -/

/-- The role assignment record of R91 with the clock word of 0x0210. -/
structure RoleRecord where
  groups : Tab Word 32
  outlets : Tab Word 64
  clock : Word
deriving DecidableEq, Repr

/-- One user table entry (R99). -/
structure UserEntry where
  /-- FS. -/
  fs : Word
  /-- GAIN_U. -/
  gain : Word
  /-- CAP_DLY in [29:24], OFFSET_U in [23:0]. -/
  off : Word
  /-- PHASE_U. -/
  phase : Word
deriving DecidableEq, Repr

/-- A role change kept in the role history (R93, R170). -/
structure RoleChange where
  old : RoleRecord
  new : RoleRecord
  /-- A_IMP and A_EXP of each changed outlet at the change. -/
  totals : List (Nat × BitVec 96 × BitVec 96)
deriving DecidableEq, Repr

/-- Role assignment and calibration: what was accepted last and what is in force (R10, R91 to R101). -/
structure Settings where
  /-- Record and clock word last accepted. -/
  role : RoleRecord
  /-- Record in force; its clock word is the one in force. -/
  roleNow : RoleRecord
  /-- ROLE_PEND of each outlet (R113). -/
  rolePend : Tab Bool 64
  /-- Outlets at whose boundary the change commits that consumed the last step (R11). -/
  roleStep : Tab Bool 64
  /-- Outlets whose accepted TYPE change resets their user table entries (R94). -/
  neutral : Tab Bool 64
  /-- Outlets whose boundary has passed since the acceptance, for a group change (R94). -/
  passed : Tab Bool 64
  history : List RoleChange
  /-- User table last accepted. -/
  user : Tab UserEntry 512
  /-- User table in force. -/
  userNow : Tab UserEntry 512
  /-- CAL_PEND of each outlet's slots (R105, R112). -/
  calPend : Tab Bool 64
  /-- Metering settings words last accepted and in force (R121). -/
  meter : Tab Word 64
  meterNow : Tab Word 64
  /-- Module metering word last accepted, and the one in force for each outlet (R112, R121). -/
  module : Word
  moduleNow : Tab Word 64
  /-- Tariff parameters last accepted: words 0 and 1 of R152. -/
  tariff0 : Word
  tariff1 : Word
  tariff0Now : Word
  tariff1Now : Word
  tariffPend : Bool
  /-- MCLK_SEL accepted and waiting for the exit from Commissioning (R47). -/
  mclkPend : Bool
deriving DecidableEq, Repr

/-- Validity and lane of one modulator input (R79 to R81, R105 to R108). -/
structure Input where
  /-- Lane that serves the input. -/
  lane : LaneNo
  /-- The clock received for its group is bad (R76). -/
  clockBad : Bool
  /-- Out of Manchester lock (R79). -/
  unlocked : Bool
  /-- A clocked input that carries identical bits (R80). -/
  stuck : Bool
  /-- OVR in the last completed block (R88). -/
  ovr : Bool
  /-- SUSPECT (R105). -/
  suspect : Bool
  /-- LANE_FAILED (R108). -/
  laneFailed : Bool
  /-- New lane of a running swap (R106). -/
  swap : Option LaneNo
  /-- The comparison has ended, with its result. -/
  compared : Option Bool
  /-- OR of the slot's flags since its supraharmonic window began (R141). -/
  seen : Word
deriving DecidableEq, Repr

/-- Some condition of R80 holds. -/
def Input.invalid (x : Input) : Bool := x.clockBad || x.unlocked || x.stuck

/-- One decimation lane (R104, R107). -/
structure Lane where
  /-- The last self-test passed. -/
  passed : Bool
  /-- The lane failed or was withdrawn from use. -/
  out : Bool
  /-- Legal time of the last passed self-test, in units of 64 µs. -/
  lastPass : Nat
deriving DecidableEq, Repr

/-- An entry of the lane record (R106). -/
structure LaneSwap where
  input : InputNo
  lane : LaneNo
  time : Nat
  passed : Bool
deriving DecidableEq, Repr

/-! ### Ochre: quantities (R115 to R142) -/

/-- A maximum-demand register (R148). -/
structure MaxDemand where
  value : Word
  /-- LT32 end time of the interval that set it. -/
  time : Word
deriving DecidableEq, Repr

/-- A demand interval (R158 to R162). -/
structure Interval where
  /-- Energy per register: import, then export. -/
  imp : Tab (BitVec 96) 8
  exp : Tab (BitVec 96) 8
  /-- Nominal start, LT32 minutes, and nominal length, min. -/
  label : Nat
  len : Nat
  /-- Monotonic time of its start, in µs. -/
  startMono : Nat
  /-- Monotonic time of its end boundary, once fixed. -/
  endMono : Nat
  /-- Legal time of its nominal end, in units of 64 µs, once fixed. -/
  tEnd : Nat
  flags : Word
deriving DecidableEq, Repr

/-- Everything of an outlet that a save record holds as accumulators (R131). -/
structure Accum where
  /-- A_IMP, A_EXP, R_Q1 to R_Q4, S_IMP, S_EXP (R129), 64-bit count and 32-bit fraction. -/
  totals : Tab (BitVec 96) 8
  tarImp : Tab (BitVec 96) 8
  tarExp : Tab (BitVec 96) 8
  dcVeh : BitVec 96
  sessImp : BitVec 96
  sessExp : BitVec 96
  mdImp : Tab MaxDemand 8
  mdExp : Tab MaxDemand 8
  /-- The open demand interval. -/
  cur : Interval
  /-- Intervals whose boundary is fixed and which are not final, oldest first (R159). -/
  closing : List Interval
  /-- Session import per register (R179). -/
  sessTar : Tab (BitVec 96) 8
  /-- Session import at the vehicle side (R179). -/
  sessVeh : BitVec 96
deriving DecidableEq, Repr

/-- A save record (R130, R131). -/
structure Save where
  seq : Nat
  acc : Accum
  /-- Active energy of the open cycle or period, µWh times 2^32, and import energy at the vehicle side. -/
  openEnergy : Int
  openVehicle : Nat
  /-- Its length so far, ns. -/
  openLength : Nat
  /-- Metered-to time, legal, in units of 64 µs. -/
  meteredTo : Nat
  /-- P, Q and S of the last completed cycle, pW. -/
  p : Rat
  q : Rat
  s : Rat
  /-- The copy is uncorrectable (R450). -/
  lost : Bool
deriving DecidableEq, Repr

/-- Duration-weighted sums of the cycles of a legal second (R124). -/
structure Second where
  /-- Sum of the durations, ns. -/
  dur : Nat
  /-- Sums of value times duration, in the order of the response of 0x0200. -/
  sums : List Rat
  /-- Cycles of the second that are no synthetic or irregular ones, and their summed lengths (R118). -/
  cycles : Nat
  cycleLen : Nat
  flags : Word
deriving DecidableEq, Repr

/-- A harmonic window (R138). -/
structure HarmonicWindow where
  start : Nat
  freq : Nat
  flags : Word
  /-- The reported bytes by slot. -/
  body : List Byte
  collected : Bool
deriving DecidableEq, Repr

/-- A supraharmonic result (R141). -/
structure SupraResult where
  step : Nat
  start : Nat
  bands : List Word
  flags : Word
deriving DecidableEq, Repr

/-- The metering block of an outlet. -/
structure Meter where
  acc : Accum
  /-- The two save copies, the newer one named by `newer`. -/
  saves : Tab Save 2
  newer : Fin 2
  /-- P, Q and S of the last completed cycle, pW. -/
  p : Rat
  q : Rat
  s : Rat
  /-- 1/T of the last completed cycle, Hz; 0 for a synthetic or irregular one (R118). -/
  freq : Rat
  /-- Flags of the last completed cycle or block (R124). -/
  flags : Word
  /-- Flags of R162 seen since the outlet's last boundary. -/
  pendFlags : Word
  /-- The last cycle or period was export (R201). -/
  export_ : Bool
  /-- The running second, and the last one formed with its legal time. -/
  now : Second
  last : Second
  lastAt : Option Nat
  /-- Interpolation point in force, °C (R103). -/
  point : Rat
  /-- T_ACT and BAND_LO (R113). -/
  tAct : BitVec 12
  bandLo : BitVec 3
  /-- The last eight interpolation points, newest first: start on the monotonic counter in ns, coefficient set, °C. -/
  points : List (Nat × Word × Rat)
  /-- SYNTH (R110). -/
  synth : Bool
  /-- Coefficient set number (R142). -/
  coefId : Word
  /-- Energy metered from the PFW tick on, held in working state (R71). -/
  held : Bool
deriving DecidableEq, Repr

/-- The harmonic and raw results of an outlet. -/
structure Analysis where
  latest : Option HarmonicWindow
  previous : Option HarmonicWindow
  overwritten : Word
  /-- OR of the flags of the cycles of the window in progress (R138). -/
  flags : Word
  /-- Those cycles, oldest first: start on the monotonic counter and length, ns. -/
  cycles : List (Nat × Nat)
  /-- Completed raw blocks not collected, oldest first (R142). -/
  raw : List (List Byte)
  discards : Word
  rawSeq : BitVec 16
deriving DecidableEq, Repr

/-! ### Ochre: legal registers, log, records (R146 to R185) -/

/-- A final interval record (R161). -/
structure IntervalRecord where
  tEnd : Nat
  elapsed : Word
  flags : Word
  imp : BitVec 64
  exp : BitVec 64
deriving DecidableEq, Repr

/-- A billing snapshot (R163). -/
structure Snapshot where
  time : Nat
  regs : Tab Accum 64
deriving DecidableEq, Repr

/-- A legal log entry (R169). -/
structure LogEntry where
  seq : Word
  time : Nat
  type : BitVec 16
  src : BitVec 4
  tinv : Bool
  oos : Bool
  outlet : Byte
  data : List Byte
  /-- It has been read since it was written (R173). -/
  read : Bool
deriving DecidableEq, Repr

/-- Suppressed entries of one type (R172). -/
structure Suppressed where
  type : BitVec 16
  count : Word
  first : Nat
  last : Nat
deriving DecidableEq, Repr

/-- The legal log and its overflow area (R169 to R174). -/
structure LegalLog where
  entries : List LogEntry
  seq : Word
  acks : List LogEntry
  ackNo : Word
  suppressed : List Suppressed
deriving DecidableEq, Repr

/-- A session record under construction or complete (R179). -/
structure SessionRecord where
  slot : Nat
  type : BitVec 2
  outlet : OutletNo
  recNo : Word
  sid : BitVec 64
  auth : BitVec 64
  tStart : Nat
  tStop : Nat
  impStart : BitVec 64
  expStart : BitVec 64
  impSess : BitVec 64
  expSess : BitVec 64
  dcvSess : BitVec 64
  /-- TAR_IMP fields, 0.1 Wh. -/
  tar : List Word
  flags : Word
  legalFw : Word
  calId : Word
  logSeq : Word
  /-- SIG_R and SIG_S. -/
  sig : List Byte
deriving DecidableEq, Repr

/-- An outlet's open-record slot (R178, R183). -/
inductive OpenSlot where
  | empty
  /-- A session is open since this monotonic time. -/
  | opened (r : SessionRecord) (startMono : Nat)
  /-- Stopped at this monotonic time; its last energy is not accumulated yet. -/
  | stopped (r : SessionRecord) (startMono stopMono : Nat)
  /-- Signed with WAITED set. -/
  | waiting (r : SessionRecord)
deriving DecidableEq, Repr

/-- A retained record (R178). -/
structure Retained where
  record : SessionRecord
  exported : Bool
deriving DecidableEq, Repr

/-- Session records. -/
structure Records where
  slots : Tab OpenSlot 64
  /-- Session identifier of each outlet's last closed session. -/
  lastSid : Tab (Option (BitVec 64)) 64
  /-- Last closed record of each outlet (R202 item 0x0C). -/
  lastClosed : Tab (Option SessionRecord) 64
  retained : List Retained
  /-- Last REC_NO given. -/
  recNo : Word
  /-- Session stop sent and not answered, per outlet (R229). -/
  resend : Tab (Option (BitVec 64)) 64
deriving DecidableEq, Repr

/-- States of an Ochre signing slot (R467 to R469). -/
inductive SigningSlot where
  | empty | inService | retired
deriving DecidableEq, Repr

/-- Tariffs, calendars and the demand clock. -/
structure Tariffs where
  /-- The active calendar's 916 bytes. -/
  active : List Byte
  /-- The passive calendar, empty for none. -/
  passive : List Byte
  /-- Tariff in force. -/
  tariff : BitVec 3
  /-- Register that tags cycles starting now. -/
  reg : Fin 8
  /-- The last eight switches, newest first: monotonic time in µs, and the register before. -/
  switches : List (Nat × Fin 8)
  /-- Demand interval length in min. -/
  len : Nat
  /-- Accepted new length, with the LT32 of the hour it takes effect. -/
  lenPend : Option (Nat × Nat)
  /-- Labels of the last demand boundary and billing boundary closed, in LT32 minutes (R166). -/
  demandMark : Nat
  billMark : Nat
  /-- Announced switch in host-assisted switching: time, register before, register after, confirmed (R40, R41). -/
  announced : Option (Nat × Fin 8 × Fin 8 × Bool)
  /-- Host-assisted tariff switching. -/
  ha : Bool
deriving DecidableEq, Repr

/-- The legal clock and the firmware check. -/
structure LegalClock where
  /-- Legal time in µs; the 64 µs unit of R146 is a 64th of it. -/
  us : Nat
  /-- Monotonic counter in µs (R147). -/
  mono : Nat
  timeInvalid : Bool
  /-- Legal time at which a power failure was recorded and later ticks are deferred, in µs (R165). -/
  failedAt : Option Nat
  /-- Legal time of the last save, in µs (R59). -/
  savedUs : Nat
  /-- The check of R185 has failed. -/
  checkFailed : Bool
  /-- Legal time at which Ochre's reset cut the metering, in µs (R58). -/
  gapFrom : Option Nat
deriving DecidableEq, Repr

/-! ### Teal (R175, R176) -/

/-- A tamper record of Teal. -/
structure TealRecord where
  time : Nat
  tseq : BitVec 24
  opened : Bool
  onVbat : Bool
  input : TamperNo
deriving DecidableEq, Repr

/-- Teal. -/
structure Teal where
  ring : List TealRecord
  openings : Tab Word 4
  /-- Accepted state of each input, true when open. -/
  level : Tab Bool 4
  /-- TSEQ of the next record. -/
  tseq : BitVec 24
  /-- TSEQ that follows the last record copied to the legal log. -/
  copied : BitVec 24
  /-- Records written and not copied yet (R176). -/
  uncopied : Nat
  /-- Ring and counters were lost, and the loss is not logged yet (R59). -/
  lost : Bool
deriving DecidableEq, Repr

/-! ### Legal display (R186 to R204) -/

/-- STATE of the display journal (R197). -/
structure Journal where
  state : Byte
  row : BitVec 3
  frameSeq : Word
  committed : List Byte
  target : List Byte
  /-- CHECK. -/
  check : Word
deriving DecidableEq, Repr

/-- A frame and its blink mask, 80 bytes each. -/
structure Page where
  frame : List Byte
  blink : List Byte
deriving DecidableEq, Repr

/-- The legal display. -/
structure Display where
  /-- Words 0 to 2 of R188 last accepted. -/
  cfg : List Word
  /-- The words in force. -/
  cfgNow : List Word
  pend : Bool
  /-- Segment map of 640 entries, last accepted and in force (R200). -/
  map : List (BitVec 16)
  mapNow : List (BitVec 16)
  /-- The page shown in TN mode. -/
  shown : Page
  /-- The pixels of the bistable panel, which keeps them without power. -/
  panel : List Byte
  /-- The running TN frame is a positive one (R189). -/
  positive : Bool
  /-- Monotonic time at which the last bistable update began, µs (R196). -/
  began : Option Nat
  /-- A composed page waiting for the frame end (R191). -/
  composed : Option Page
  journal : Journal
  /-- Rows that the running bistable update still has to write, none while no update runs (R196). -/
  rows : Option (List Nat)
  /-- Only the latest frame composed during an update waits. -/
  waiting : Option (List Byte)
  /-- Stored selection: item, outlet, index. -/
  sel : Option (Nat × Nat × Nat)
  /-- Item 0x00 is shown for the first 10 s (R204). -/
  identity : Bool
  /-- The driver runs; it is stopped by PFW (R198). -/
  driven : Bool
  /-- VLCD in force, 1/16 mV (R190). -/
  vlcd : Int
  /-- A legal second has begun since VLCD was set (R190). -/
  vlcdDue : Bool
  /-- Averaged die temperature, °C (R103). -/
  temp : Rat
deriving DecidableEq, Repr

/-- The metrology die. -/
structure Ochre where
  clock : LegalClock
  set : Settings
  input : Tab Input 512
  lane : Tab Lane 520
  /-- The factory table, by its entries that are not neutral: an entry not listed has gain, offset and phase 0. -/
  factory : List FactoryEntry
  laneRecord : List LaneSwap
  meter : Tab Meter 64
  analysis : Tab Analysis 64
  /-- HA of each outlet's metering, and the value pending under R42. -/
  ha : Tab Bool 64
  haPend : Tab (Option Bool) 64
  supra : Tab (Option SupraResult) 448
  supraStep : Nat
  intervals : Tab (List IntervalRecord) 64
  snapshots : List Snapshot
  log : LegalLog
  recs : Records
  tariffs : Tariffs
  signing : Tab SigningSlot 8
  /-- Refusals counted per reason, in the order of R24 (R25). -/
  refusals : Tab Word 6
  display : Display
  /-- Interval and record flags waiting to be set when a lane comparison has failed (R106): input's outlet. -/
  suspect : Tab Bool 64
deriving DecidableEq, Repr

/-! ### Vehicle link (R205 to R240) -/

/-- A word with the value in force and a value waiting for its boundary (R10). -/
structure Shadow (α : Type) where
  now : α
  pend : Option α
deriving DecidableEq, Repr

/-- One pilot line (R206 to R215, R239, R240). -/
structure Pilot where
  /-- Link words 0 and 1. -/
  word0 : Shadow Word
  word1 : Shadow Word
  /-- Filtered state, STATE of R240. -/
  state : PilotState
  /-- Class of the last classified period and for how many periods it has held. -/
  cls : Option PilotClass
  held : Nat
  /-- DRIVE and DUTY in force. -/
  drive : BitVec 2
  duty : Nat
  /-- Drive and duty waiting for the pilot boundary. -/
  next : Option (BitVec 2 × Nat)
  diodeOk : Bool
  inval : Bool
  dutyDisc : Bool
  prox : BitVec 3
  /-- Last positive plateau, mV. -/
  vpos : Rat
  /-- Monotonic time of the last filtered change from A to B, µs (R219). -/
  aToB : Option Nat
  /-- The offer fell below 6 A while the pair was on (R215). -/
  withdrawn : Bool
  /-- Class E limit: the offer in force at entry times CE_FRAC, mA (R214, R286). -/
  classE : Option Nat
  /-- Limit of a high-level session in Class E: CE_FRAC of the limit in force at entry, 0.1 A (R286). -/
  limitE : Option Nat
  /-- A DC outlet holds −12 V for 3 s before it restarts at 5 % (R219). -/
  dcRestart : Bool
deriving DecidableEq, Repr

/-- Profiles collected for a run identifier (R217). -/
structure SlacRun where
  run : BitVec 64
  mac : BitVec 48
  /-- Outlet and its 58 group attenuations, in dB. -/
  profiles : List (OutletNo × List Byte)
deriving DecidableEq, Repr

/-- Consecutive ambiguous run identifiers of a vehicle (R219). -/
structure Ambiguity where
  mac : BitVec 48
  count : Nat
  cands : List OutletNo
  /-- Monotonic time of the first of them, µs. -/
  first : Nat
deriving DecidableEq, Repr

/-- SLAC on all lines. -/
structure Slac where
  runs : List SlacRun
  ambiguous : List Ambiguity
  /-- Run identifiers counted as ambiguous. -/
  ambiguousCount : Word
  /-- Outlet chosen to answer: run identifier and vehicle, for a match. -/
  answering : Tab (Option (BitVec 64 × BitVec 48)) 64
  /-- Associated vehicle of each outlet. -/
  vehicle : Tab (Option (BitVec 48)) 64
  /-- Network key of each outlet (R220). -/
  nmk : Tab (Option (BitVec 128)) 64
  /-- The outlet has left SLAC (R219). -/
  left : Tab Bool 64
deriving DecidableEq, Repr

/-- A policy request handed to host software (R236, R554). -/
structure PolicyRequest where
  id : Word
  outlet : OutletNo
  kind : Nat
  auth : BitVec 64
  aerial : Option AerialNo
  tech : BitVec 2
deriving DecidableEq, Repr

/-- What the session core last answered to a vehicle request. -/
inductive V2gAnswer where
  /-- The positive response of the message. -/
  | ok
  /-- EVSEProcessing Ongoing. -/
  | ongoing
  /-- The standard's failure code. -/
  | failed
  /-- The TLS alert handshake_failure (R226). -/
  | tlsAlert
  /-- SupportedAppProtocol: the protocol chosen. -/
  | proto (p : Proto)
  /-- The services offered: DC, bidirectional, contract, certificate installation, certificate update. -/
  | services (dc bpt pnc certInstall certUpdate : Bool)
  /-- Limit offered, 0.1 A. -/
  | limit (deciAmps : Nat)
  /-- Schedules offered: number of schedules, and limit of the default one in 0.1 A. -/
  | schedules (n : Nat) (deciAmps : Nat)
  /-- Dynamic control: limit offered, 0.1 A. -/
  | dynamic (deciAmps : Nat)
  /-- Uveh, mV, for WeldingDetection. -/
  | voltage (mv : Int)
  /-- Meter information A_IMP and A_EXP (R223) with the current taken, 0.1 A. -/
  | meter (imp exp : BitVec 64) (deciAmps : Nat)
  /-- Body supplied by host software. -/
  | body (b : List Byte)
deriving DecidableEq, Repr

/-- The high-level or basic session of an outlet (R229). -/
structure Session where
  /-- Phase 1 to 9, 0 for none. -/
  phase : Nat
  /-- Protocol, as 0x0400 codes it. -/
  proto : BitVec 2
  /-- Link word 0 latched at the start of phase 1 (R239). -/
  link0 : Word
  sid : BitVec 64
  auth : BitVec 64
  /-- Agreed current, 0.1 A. -/
  agreed : Nat
  /-- Authorisation granted. -/
  granted : Bool
  /-- Ochre has accepted the session start (R230). -/
  accepted : Bool
  /-- The session runs in hardware mode under R237. -/
  held : Bool
  /-- Contract payment selected, and its chain verified in PaymentDetails (R228). -/
  contract : Bool
  chained : Bool
  /-- Dynamic control (R221). -/
  dynamic : Bool
  /-- Bidirectional service selected. -/
  bpt : Bool
  /-- Discharge is permitted by policy (R236). -/
  discharge : Option Bool
  /-- Limit given by host policy, 0.1 A. -/
  hostLimit : Option Nat
  /-- Schedules given by host policy, as bytes. -/
  schedules : List Byte
  /-- Cipher suite of the TLS session in force. -/
  tls : Option CipherSuite
  /-- Certificate request that waits for host software: identifier and kind. -/
  cert : Option (Word × Nat)
  answer : Option V2gAnswer
  /-- Monotonic time at which the close request was refused last, µs (R29). -/
  refusedAt : Option Nat
  /-- The session is paused. -/
  paused : Bool
  /-- The outlet entered Lockout in this session, which closes no more (R283). -/
  locked : Bool
  /-- It ended while Millet was silent, so that its stop reaches Ochre late (R27, R237). -/
  late : Bool
deriving DecidableEq, Repr

/-- A credential grant held for an outlet (R366). -/
structure Grant where
  ref : BitVec 64
  /-- It was granted in phase 1 or 2 and is held while the vehicle stays plugged (R229). -/
  whilePlugged : Bool
deriving DecidableEq, Repr

/-- A session core (R237, R540). -/
structure Core where
  silent : Bool
  retired : Bool
deriving DecidableEq, Repr

/-- The vehicle-link die and the session cores. -/
structure Vehicle where
  pilot : Tab Pilot 64
  slac : Slac
  session : Tab Session 64
  /-- HA of each outlet's session mode, and the value pending under R42. -/
  ha : Tab Bool 64
  haPend : Tab (Option Bool) 64
  grant : Tab (Option Grant) 64
  core : Tab Core 9
  /-- How often the proximity window has moved by 250 µs (R570). -/
  proxMoves : Nat
  /-- Session core that carries outlets 8k to 8k+7. -/
  carries : Tab CoreNo 8
  /-- The core that serves as spare. -/
  spare : Option CoreNo
  /-- Key map of R227. -/
  keyMap : Tab (BitVec 16) 8
  /-- Certificate chains of entries 0 and 1, as a handshake last found them in the image store (R227). -/
  chains : Tab (List Byte) 2
  /-- Module link word (R239). -/
  module : Shadow Word
  /-- Last request identifier given to host software. -/
  reqId : Word
  /-- Policy requests not answered, oldest first, and those whose fallback has applied. -/
  policies : List PolicyRequest
  expired : List PolicyRequest
  /-- Certificate requests whose 4 s have passed. -/
  expiredCerts : List (Word × OutletNo)
  /-- Held sessions to be confirmed or ended by Millet (R35). -/
  toConfirm : Tab Bool 64
  /-- Transmission on Green PHY is stopped (R498). -/
  txStopped : Bool
  /-- Late host answers ignored (R367). -/
  lateAnswers : Word
deriving DecidableEq, Repr

/-! ### Russet (R241 to R297) -/

/-- A hold timer of a residual-current point (R250). -/
structure HoldTimer where
  count : Nat
  /-- The point has decided in this excursion. -/
  decided : Bool
deriving DecidableEq, Repr

/-- Residual-current supervision of an outlet (R247 to R250). -/
structure Residual where
  /-- Header and points 0 to 7 of the AC and of the DC curve. -/
  acCurve : Shadow (List Word)
  dcCurve : Shadow (List Word)
  acHold : Tab HoldTimer 8
  dcHold : Tab HoldTimer 8
  /-- A warning holds, per curve. -/
  acWarn : Bool
  dcWarn : Bool
deriving DecidableEq, Repr

/-- A completed insulation measurement (R251, R252). -/
structure IsoResult where
  /-- ρ, Ω/V. -/
  ratio : Rat
  /-- Monotonic time of its completion, µs. -/
  time : Nat
  /-- Ulink was at least 50 V. -/
  linkOk : Bool
  /-- It completed after the coil pair last opened. -/
  afterOpen : Bool
deriving DecidableEq, Repr

/-- Insulation monitoring of a DC outlet. -/
structure Insulation where
  /-- Frames of the half-period's possible settled part, newest first: Itest µA, U_m µV, Ulink µV. -/
  frames : List (Rat × Rat × Rat)
  /-- Sign of Itest in the running half-period. -/
  sign : Option Bool
  /-- Settled means of the half-period before: Itest, U_m, Ulink. -/
  before : Option (Rat × Rat × Rat)
  result : Option IsoResult
  /-- The injector has failed; measurement restarts at the next change of sign. -/
  failed : Bool
  warned : Bool
deriving DecidableEq, Repr

/-- Turn-on sequence of a coil pair (R264, R269). -/
inductive Turn where
  | idle
  /-- Close granted, FOFF deasserted. -/
  | granted
  /-- Low-side switch on. -/
  | lowOn
  /-- Both switches on, readback not yet checked. -/
  | bothOn
deriving DecidableEq, Repr

/-- Pulse test of a pair (R272 to R275). -/
inductive PulseTest where
  | none
  | offHigh
  | offLow
  /-- The off-pulse has ended and its restoring check is due. -/
  | restoreHigh
  | restoreLow
  | on
deriving DecidableEq, Repr

/-- Switches, readback and test of a pair. -/
structure Pair where
  /-- Pair commanded on. -/
  cmd : Bool
  turn : Turn
  test : PulseTest
  /-- PT_SIDE. -/
  side : Bool
  hsRb : Bool
  lsRb : Bool
  /-- Monotonic time of the last change of the pair's state, µs. -/
  changed : Nat
deriving DecidableEq, Repr

/-- The fault word of R262. -/
structure FaultWord where
  first : Byte
  last : Byte
  relayed : Bool
  classP : Bool
  classE : Bool
  foff : Bool
  weldNt : Bool
  count : Byte
deriving DecidableEq, Repr

/-- Class E of an outlet (R285 to R289). -/
structure ClassE where
  /-- E-continue causes in force. -/
  causes : List Byte
  expired : Bool
  /-- Monotonic time at which the timer runs out, µs; 0 while it does not run. -/
  ends : Nat
  /-- The time remaining as last saved with the pair map, ms (R290). -/
  saved : Nat
  /-- Enable flag cleared since the expiry (R288). -/
  cleared : Bool
  /-- Supervision of R287 has started. -/
  supervised : Bool
  /-- Frames above the supervised current. -/
  overFor : Nat
  /-- Causes 0x2E and 0x2F requested by the control die. -/
  req2E : Bool
  req2F : Bool
deriving DecidableEq, Repr

/-- How Russet captures a modulator input (R15, R82). -/
structure Capture where
  /-- FMT: Manchester mode. -/
  manchester : Bool
  /-- MAN_POL. -/
  falling : Bool
  /-- CAP_DLY, 0.5 ns. -/
  delay : BitVec 6
  /-- Out of Manchester lock. -/
  unlocked : Bool
deriving DecidableEq, Repr

/-- An outlet in Russet. -/
structure Guard where
  enable : Bool
  fault : FaultWord
  ce : ClassE
  residual : Residual
  iso : Insulation
  /-- DC protection word and coil configuration word. -/
  dcProt : Shadow Word
  coilCfg : Shadow Word
  /-- TYPE and SLOT_EN as the last frame gave them, in the layout of R91 (R18). -/
  role : Word
  /-- The last 320 frames taken, newest first: calibrated values of slots 0 to 7, µV or µA (R90, R247). -/
  window : List (List Rat)
  /-- Status of each slot in the latest frame (R90). -/
  status : Tab (BitVec 2) 8
  /-- Frames of a running redundant-current disagreement, and frames without one. -/
  iredBad : Nat
  iredGood : Nat
  /-- Frames of a running PE voltage departure (R256). -/
  peBad : Nat
  /-- Frames for which each enabled slot has been invalid, and for which all have been valid (R81, R288). -/
  invalidFor : Tab Nat 8
  validFor : Nat
  /-- A weld check runs since this monotonic time (R254). -/
  weldAt : Option Nat
  /-- Filtered pilot state reported by Fescue (R17). -/
  pilot : PilotState
  releaseArmed : Bool
  /-- The own checks of step 4 have passed, and the peer's result is awaited (R284). -/
  awaitsPeer : Bool
  /-- Monotonic time at which the peer's Russet reported passed checks, µs (R284). -/
  peerPassed : Option Nat
  /-- COILFBn shows the contacts open. -/
  mirror : Bool
  /-- A close request is present (R525). -/
  closeReq : Bool
  /-- Monotonic time of the last mirror grant received, µs (R292). -/
  mirrorGrant : Option Nat
  /-- The pair is marked on in the map of the lockout record (R290). -/
  onMap : Bool
deriving DecidableEq, Repr

/-- STATE of a brake pair (R297). -/
inductive BrakeState where
  | engaged | releasing | released | engaging | testing | failed
deriving DecidableEq, Repr

/-- A brake pair (R278 to R281). -/
structure Brake where
  state : BrakeState
  cause : Byte
  testOk : Bool
  overdue : Bool
  tqreq : Bool
  htDelta : BitVec 16
  /-- Monotonic time since which it has been Engaged, µs. -/
  since : Nat
  /-- Monotonic time of the last passed holding test, µs. -/
  passedAt : Option Nat
  /-- The test runs in state Failed, to leave it (R281). -/
  fromFailed : Bool
  /-- Words 0 to 3 of R296. -/
  cfg : Shadow (List Word)
deriving DecidableEq, Repr

/-- An emergency-stop channel (R258, R259). -/
structure Estop where
  /-- Accepted stop level of inputs A and B. -/
  a : Bool
  b : Bool
  stop : Bool
  disc : Bool
deriving DecidableEq, Repr

/-- The quantity link as Russet sees it (R18 to R21). -/
structure Stream where
  stale : Bool
  /-- Sequence number of the last frame. -/
  seq : BitVec 16
  /-- Frames in correct sequence since the stream became stale. -/
  run : Nat
deriving DecidableEq, Repr

/-- The safety die. -/
structure Russet where
  outlet : Tab Guard 64
  pair : Tab Pair 68
  brake : Tab Brake 4
  estop : Tab Estop 2
  /-- Emergency-stop configuration words 0 to 4 (R260). -/
  estopCfg : Shadow (List Word)
  /-- Module safety-output word (R294). -/
  outCfg : Shadow Word
  /-- Fast-window word of each input (R242). -/
  fast : Tab (Shadow Word) 512
  capture : Tab Capture 512
  stream : Stream
  /-- The lease timer shows the lease as held (R36). -/
  lease : Bool
  /-- Reset cause register (R62). -/
  cause : Word
  /-- A commit of R293 waits for the next quantity frame. -/
  pend : Bool
  /-- The change of CE_TIME that waits has consumed a step, or one since withdrawn has (R11). -/
  ceStep : Bool
  /-- HUBRST and each OUTRSTn held low for more than 5 s (R283). -/
  hubHeld : Bool
  outHeld : Tab Bool 64
deriving DecidableEq, Repr

/-! ### Spelt (R298 to R323) -/

/-- Protection states of a channel (R302 to R306). -/
inductive Protection where
  | none | thermal | difference | exhausted | latched
deriving DecidableEq, Repr

/-- Diagnostics of a channel (R315, R316). -/
structure ChanDiag where
  olOn : Bool
  olOff : Bool
  shortVin : Bool
  /-- The last off-state check read above VIN_SW − 1.5 V, and for how many checks, 2 at most, it has read so. -/
  shortLast : Bool
  shortRun : Nat
deriving DecidableEq, Repr

/-- A load switch channel. -/
structure Channel where
  cfg0 : Shadow Word
  cfg1 : Shadow Word
  rule : Shadow Word
  ha : Bool
  fallback : Bool
  on : Bool
  prot : Protection
  shed : Bool
  /-- I_SENSE of its last tick on, when it was shed, 10 mA. -/
  shedI : Nat
  retryCnt : Nat
  /-- Thermal events in the latch window: their ages in ms, newest first. -/
  events : List Nat
  /-- Demand from ON or from the rule, at the last tick. -/
  demand : Bool
  /-- Result of the rule word, and its delay: ms for which the raw demand has held against it. -/
  ruleOut : Bool
  against : Nat
  /-- Output switched on. -/
  output : Bool
  /-- The channel restarted by CLR, whose restart does not count (R323). -/
  freeRestart : Bool
  /-- The current limit acts, as the last tick measured. -/
  iLimit : Bool
  /-- Mean over the on-time of the last tick, 10 mA, and over the whole tick, mA. -/
  iSense : Nat
  tickI : Rat
  tj : Int
  dt : Int
  diag : ChanDiag
deriving DecidableEq, Repr

/-- Conditions last received from the control die (R310). -/
structure Conditions where
  pairOn : Tab Bool 64
  connected : Tab Bool 64
  classE : Tab Bool 64
  lockout : Tab Bool 64
  degraded : Bool
  estop : Bool
  flags : BitVec 16
deriving DecidableEq, Repr

/-- The switch die. -/
structure Spelt where
  chan : Tab Channel 48
  /-- AGG_MAX word (R317). -/
  aggMax : Shadow Word
  aggCap : Nat
  aggI : Nat
  /-- Consecutive ticks with AGG_I above AGG_CAP. -/
  overTicks : Nat
  /-- Ticks for which the next restore's condition has held. -/
  restoreTicks : Nat
  cond : Conditions
  /-- Host flags written, for the next broadcast. -/
  flags : BitVec 16
  /-- Broadcasts are absent (R310). -/
  absent : Bool
  /-- Level of each pulse input, true for high. -/
  pulse : Tab Bool 8
  /-- Millet has loaded the settings since the module power-on (R322). -/
  loaded : Bool
  /-- A Spelt image waits for its reset (R526). -/
  imageWaits : Bool
deriving DecidableEq, Repr

/-! ### Site line (R324 to R351) -/

/-- A site-line frame as its bytes, without CRC32. -/
abbrev SlFrame := List Byte

/-- A link of the site line (R338 to R347). -/
structure Link where
  /-- Words 0 to 6 of R343. -/
  words : Shadow (List Word)
  /-- Maps in force, 8 down and 8 up entries. -/
  maps : List Byte
  /-- New maps that wait for their switch superframe, with that number, and whether they are acknowledged. -/
  newMaps : Option (List Byte)
  switchAt : Byte
  /-- Epoch of the new maps. -/
  newEpoch : Byte
  mapAcked : Bool
  txq : List SlFrame
  rxq : List SlFrame
  /-- The frame being sent or not acknowledged yet, its blocks still to be sent, and the superframes waited since the last. -/
  unacked : Option SlFrame
  left : Nat
  waited : Nat
  tries : Nat
  seq : Byte
  /-- SEQ of the last accepted frame of the peer. -/
  lastSeq : Option Byte
  remeas : Bool
  joined : Bool
  epoch : Byte
  retx : Byte
  /-- Frames of the peer discarded. -/
  discarded : Word
  /-- Down SNR of the station's last noise report, 64 bytes. -/
  report : List Byte
  /-- Up SNR measured, 64 bytes. -/
  upSnr : List Byte
  /-- An acknowledgement is due. -/
  ackDue : Bool
deriving DecidableEq, Repr

/-- A tone unit (R326). -/
structure ToneUnit where
  failed : Bool
  /-- Tone it serves, none for a free spare. -/
  tone : Option (Fin 8)
deriving DecidableEq, Repr

/-- The site line. -/
structure SiteLine where
  /-- Module site-line word (R346). -/
  word : Shadow Word
  link : Tab Link 32
  sfNum : Byte
  mapEpoch : Byte
  tbOk : Bool
  txStop : Bool
  /-- Host software has been silent for 5 s in host-assisted mode (R40). -/
  hostStop : Bool
  unit : Tab ToneUnit 10
  unusable : Byte
  /-- Noise floors by phase, tone and segment, 192 bytes. -/
  noise : List Byte
  /-- Beacon bytes 0x2 and 0x3 supplied by host software (R348). -/
  beacon2 : Byte
  beacon3 : Byte
  /-- As station: joined. -/
  joined : Bool
  /-- Join requests without an enabled entry (R344). -/
  joinIgnored : Word
  /-- Superframes to the next periodic recomputation (R342). -/
  recompute : Nat
  /-- Beacon and frames that the running superframe began to send, oldest first, as the symbols of their blocks (R329, R334). -/
  sent : List (List (List (Bool × Bool)))
deriving DecidableEq, Repr

/-! ### Contactless readers (R352 to R367) -/

/-- STATE of an aerial (R383). -/
inductive AerialState where
  | idle | polling | present | disabled
deriving DecidableEq, Repr

/-- An aerial. -/
structure Aerial where
  word : Word
  state : AerialState
  tech : BitVec 2
  result : BitVec 2
  /-- Baselines: amplitude in 1/1,023 of full scale, phase in 0.1°. -/
  baseAmp : Rat
  basePh : Rat
  /-- Baselines have been set since the aerial was enabled. -/
  based : Bool
  /-- The ping that detected, and whether its poll has found a card. -/
  pingAmp : Nat
  pingPh : Int
  found : Bool
  polls : Byte
  ref : BitVec 64
  uid : List Byte
  /-- Card kept selected for host exchanges. -/
  selected : Bool
deriving DecidableEq, Repr

/-- An allowlist entry (R365). -/
structure Allow where
  ref : BitVec 64
  validTo : Word
  blocked : Bool
deriving DecidableEq, Repr

/-- The readers. -/
structure Reader where
  aerial : Tab Aerial 64
  port : Tab Word 4
  /-- Authorisation words (R382). -/
  auth : Tab Word 64
  /-- HA waiting under R42. -/
  authPend : Tab (Option Bool) 64
  allow : List Allow
deriving DecidableEq, Repr

/-! ### Built-in tag (R368 to R379) -/

/-- States of R370. -/
inductive TagState where
  | ready | selected | quiet | killed
deriving DecidableEq, Repr

/-- The tag. -/
structure Tag where
  state : TagState
  /-- The field is at operating strength; FDET is low. -/
  field : Bool
  mem : Memory
  killPassword : Word
  failures : Byte
  /-- A kill to be reported at the next power-up (R375). -/
  killReport : Bool
  /-- Sectors held by the field. -/
  held : List SectorNo
  /-- Host writes staged and not committed: sector, bytes, and the command to answer. -/
  staged : List (SectorNo × List Byte × Option Cmd)
  /-- A host read waits for a held sector. -/
  reads : List (SectorNo × Cmd)
  /-- The answer sent to the field last, none for no answer. -/
  answer : Option (List Byte)
  /-- Faults mirrored since the module left Blank, and HEAD (R372). -/
  fcount : Word
  head : BitVec 16
  /-- FSEQ of the newest fault log entry mirrored. -/
  mirrored : Word
  /-- Code words of the tag memory that are uncorrectable, each of two sectors (R448, R450). -/
  bad : List (Fin 256)
deriving DecidableEq, Repr

/-! ### Keys and lifecycle (R454 to R478) -/

/-- A key with its attributes. -/
structure Key where
  w0 : Word
  w1 : Word
  ktype : Byte
  bytes : List Byte
deriving DecidableEq, Repr

/-- A control-die slot. -/
structure Slot where
  key : Key
  /-- Remaining uses. -/
  uses : Nat
  /-- Its integrity tag has failed (R460). -/
  bad : Bool
  shadow : Option Key
  tested : Bool
  /-- Physical cell. -/
  cell : Fin 256
deriving DecidableEq, Repr

/-- A physical cell (R455). -/
structure KeyCell where
  writes : Nat
  retired : Bool
  used : Bool
deriving DecidableEq, Repr

/-- Lifecycle states, encoded as LIFECYCLE of R372. -/
inductive Lifecycle where
  | blank | factory | provisioned | deployed | returned | ended
deriving DecidableEq, Repr

/-- The root derivations of R467. -/
inductive Derivation where
  | pairLink | mbxTicket | stage
deriving DecidableEq, Repr

/-- A key derived from the root in force: "stage" keys lie in the vault, the others in slots with RST_EXP set, whose numbers the
spec does not give (R467, R513). -/
structure DerivedKey where
  use : Derivation
  context : List Byte
  key : List Byte
deriving DecidableEq, Repr

/-- Keys, lifecycle and step counters. -/
structure Keys where
  slot : Tab Slot 256
  cell : Tab KeyCell 256
  lifecycle : Lifecycle
  /-- Return count (R473). -/
  returns : Nat
  debugOpen : Bool
  /-- Remaining steps, in the order of 0x0906 bytes 0 to 8. -/
  steps : Tab Nat 9
  /-- Measurement value M of R466. -/
  measure : List Byte
  /-- A move to Provisioned from Factory needs a module power-on (R66). -/
  powerOnDue : Bool
  /-- The roots Factory, Provisioned, Deployed and Returned that the fuses still hold, with the values `Config.root` (R465). -/
  roots : Tab Bool 4
  /-- Derived keys of R467. -/
  derived : List DerivedKey
deriving DecidableEq, Repr

/-! ### Pair (R479 to R507) -/

/-- A command forwarded to the standby, with the epoch at which it runs. -/
structure Pending where
  op : BitVec 16
  cmd : Cmd
  epoch : Nat
deriving DecidableEq, Repr

/-- A cycle or period of the standby's own Ochre that waits for its sealed entry (R489, R490). -/
structure SealedWait where
  outlet : OutletNo
  /-- Its start on the monotonic counter and in legal time, µs. -/
  start : Nat
  legal : Nat
  export_ : Bool
  /-- Own energies, µWh times 2^32: Ep, quadrant and Eq, Es, and import at the vehicle side. -/
  ep : Nat
  eq : Option (Nat × Nat)
  es : Nat
  veh : Nat
  flags : Word
  /-- Own attribution: register and interval label. -/
  reg : Fin 8
  label : Nat
deriving DecidableEq, Repr

/-- Frames handed to the Hasulin link for the peer (R265, R284, R292, R485). -/
inductive PairFrame where
  | trip (outlet : OutletNo) (cause : Byte) (cls : Nat)
  | mirrorGrant (outlet : OutletNo)
  | releaseCheck (outlet : OutletNo) (passed : Bool)
  | forward (op : BitVec 16) (cmd : Cmd) (epoch : Nat)
  | ack (op : BitVec 16) (epoch : Nat)
  | resend (seq : Nat)
  /-- Bytes 0x00 to 0x7F of a session record for the standby's Ochre (R491). -/
  | record (outlet : OutletNo) (content : List Byte)
  /-- Sealed entries of an epoch (R489). -/
  | sealed (entries : List SealedEntry)
  /-- The whole legal state (R490). -/
  | legal (copy : LegalCopy)
  /-- A state transfer, full or partial (R494). -/
  | transfer (full : Bool)
  | yield
  /-- Part of an image for the peer's staging session (R527). -/
  | image (part : List Byte)
deriving DecidableEq, Repr

/-- Pair coordination. -/
structure PairState where
  /-- Bound peer serial, 0 for none. -/
  peer : BitVec 64
  /-- Pinned identity point of the peer. -/
  pin : Option (BitVec 256)
  lane : Tab Bool 2
  peerSeen : Bool
  peerMode : BitVec 4
  suspect : Bool
  /-- Monotonic times of the mismatches of the last 10 min, ms, which MM_COUNT counts (R394). -/
  mismatches : List Nat
  /-- Legal time of the last mismatch. -/
  lastMismatch : Nat
  resyncs : BitVec 16
  /-- TRANSFER of 0x0A00. -/
  transfer : BitVec 16
  /-- Epoch number. -/
  epoch : Nat
  /-- Monotonic time of the last lease flag received, µs. -/
  leaseFlagAt : Nat
  yielded : Bool
  /-- Yield received from the peer. -/
  peerYielded : Bool
  forwarded : List Pending
  /-- Acknowledged by the standby, the forwarding of the last epoch. -/
  outOfStep : Bool
  /-- A planned handover waits for a resynchronisation's end or its epoch. -/
  handoverAt : Option Nat
  handoverCmd : Option Cmd
  /-- Frames discarded as uncorrectable, to be resent. -/
  resendSeq : List Nat
  /-- Cycles of the standby that wait for a sealed entry. -/
  waiting : List SealedWait
  /-- Cycles accumulated with own values for want of an entry, which may still be corrected (R490). -/
  timedOut : List SealedWait
  /-- Entries whose own cycle has not completed yet. -/
  early : List SealedEntry
  /-- Own entries of the running epoch, and those of the last 60 s (R489, R490). -/
  sealedNew : List SealedEntry
  sealedKept : List SealedEntry
  /-- Sealed frames refused. -/
  sealedRefused : Word
  /-- Sequence number of the last sealed frame accepted. -/
  sealedSeq : Nat
  /-- Frame keys of the link are agreed. -/
  keyed : Bool
  /-- Lines on which the standby carries over the waveform. -/
  carry : Tab Bool 64
  /-- The peer is treated as absent (R483). -/
  peerAbsent : Bool
  /-- The peer's legal firmware identifier differs, so that this module stays in Measured start (R475, R488). -/
  diverged : Bool
  /-- Headers of the peer's images, by type (R512, R515). -/
  peerHeaders : List (List Byte)
  /-- Digests of the last epochs, newest first, each with its epoch number (R492). -/
  digests : List (Nat × Digest)
  /-- Forwarded commands run since the snapshot of the running transfer (R494). -/
  replay : List Pending
  /-- Signing slots in service in the peer's Ochre, slot 0 in bit 0 (R488, R491). -/
  peerSigning : BitVec 8
  /-- Frames handed to the link since the last epoch began. -/
  sent : List PairFrame
deriving DecidableEq, Repr

/-! ### Update (R508 to R529) -/

/-- A commit record's status (R518). -/
inductive SlotStatus where
  | free | staging | trial | inService | superseded | incomplete | corrupt
deriving DecidableEq, Repr

/-- An image slot. -/
structure ImageSlot where
  status : SlotStatus
  /-- Legal time of the commit. -/
  time : Nat
  /-- Header, 512 bytes. -/
  header : List Byte
  body : List Byte
deriving DecidableEq, Repr

/-- An image type. -/
structure Image where
  slot : Tab ImageSlot 2
  /-- The slot in service. -/
  active : Fin 2
  /-- Minor high-water mark. -/
  mark : Nat
  /-- A committed image waits to be brought into use. -/
  waiting : Bool
  /-- Monotonic time of the trial image's last watchdog reset, µs (R519). -/
  wdAt : Option Nat
deriving DecidableEq, Repr

/-- An open staging session. -/
structure Staging where
  handle : Word
  type : ImageNo
  header : List Byte
  /-- Body received so far. -/
  body : List Byte
  /-- Monotonic time of the last body or commit, ms. -/
  touched : Nat
deriving DecidableEq, Repr

/-- Field update. -/
structure Update where
  image : Tab Image 5
  staging : Option Staging
  /-- The session that the active module carries for the peer (R527). -/
  peerStaging : Option Staging
  handleSeq : BitVec 16
  /-- The handle committed last (R529). -/
  committed : Option Word
  /-- Session image slot each outlet runs. -/
  sessionSlot : Tab (Fin 2) 64
deriving DecidableEq, Repr

/-! ### Thermal state, scheduling and wear (R530 to R545) -/

/-- A temperature sensor. -/
structure Sensor where
  /-- 0.0625 K. -/
  raw : Int
  failed : Bool
deriving DecidableEq, Repr

/-- A periodic job (R537 to R539). -/
structure Job where
  running : Bool
  suspended : Bool
  debt : Nat
  maxDebt : Word
  late : Word
  merged : Word
  /-- Every second window only (R533 stage 3). -/
  skipNext : Bool
deriving DecidableEq, Repr

/-- Scheduler and spares. -/
structure Thermal where
  sensor : Tab Sensor 7
  /-- Tc in force, 0.0625 K. -/
  tc : Int
  tcMax : Int
  /-- Stages 1 to 5 in force. -/
  stage : Tab Bool 5
  stage6 : Bool
  overRange : Bool
  nandHot : Bool
  job : Tab Job 5
  /-- Seconds with stages 1 to 6 in force. -/
  stageTime : Tab Word 6
  powerH : Word
  /-- Seconds of the running hour of main power. -/
  seconds : Nat
  mgmtSpare : Bool
  mgmtRetired : BitVec 2
  /-- The management core that runs Millet (R434, R524). -/
  mgmtCore : Fin 2
  framOchFree : Nat
  framFesFree : Nat
  nandFree : Nat
  eraseMax : Word
  eraseMean : Word
  /-- A clock step up is due after 10 s out of force. -/
  stepTarget : BitVec 2
deriving DecidableEq, Repr

/-- The ZGH6451. -/
structure State where
  /-- Supplies and power failure. -/
  sup : Supply
  modes : Modes
  clocks : Clocks
  dies : Dies
  teal : Teal
  och : Ochre
  rus : Russet
  veh : Vehicle
  spe : Spelt
  site : SiteLine
  rdr : Reader
  tag : Tag
  keys : Keys
  pair : PairState
  upd : Update
  thm : Thermal
  evt : Events
  mbx : Mailbox
  mem : MemState
  /-- The MODE of the last source 0 event (R65): the mode status register last reported. -/
  reported : Word
  /-- Counter of the free values taken: the model's own field. -/
  free : Nat
  /-- Commands that wait, first in, first out. -/
  pending : List Instr
deriving DecidableEq, Repr

/-! ### The state after reset -/

/-- A word as its parts. -/
def w32 (l : List (Nat × Nat)) : Word := BitVec.ofNat 32 (l.foldl (fun a p => a + p.1 * 2 ^ p.2) 0)

/-- A shadowed value with nothing pending. -/
def Shadow.settled {α : Type} (a : α) : Shadow α := { now := a, pend := none }

/-- The default calendar's bytes 0x000 to 0x38F. -/
def defaultCalendarBody : List Byte :=
  [1, 1, 1, 1, 0, 1, 0, 0] ++ List.replicate 24 0 ++ [0, 0] ++ List.replicate 510 0xFF
    ++ List.replicate 64 0 ++ [1, 1, 0, 0] ++ List.replicate 44 0 ++ List.replicate 256 0

/-- The default calendar of a shipped module. -/
def defaultCalendar : List Byte := defaultCalendarBody ++ leBytes 4 (crc32 defaultCalendarBody)

def MaxDemand.cleared : MaxDemand := { value := 0, time := 0 }

/-- An interval that opens: its nominal start in LT32 minutes, its length in min, and the monotonic time. -/
def Interval.fresh (label len mono : Nat) (flags : Word) : Interval :=
  { imp := Tab.all 8 0, exp := Tab.all 8 0, label := label, len := len, startMono := mono, endMono := 0, tEnd := 0, flags := flags }

def Accum.zero : Accum :=
  { totals := Tab.all 8 0, tarImp := Tab.all 8 0, tarExp := Tab.all 8 0, dcVeh := 0, sessImp := 0, sessExp := 0,
    mdImp := Tab.all 8 .cleared, mdExp := Tab.all 8 .cleared, cur := .fresh 0 15 0 0, closing := [],
    sessTar := Tab.all 8 0, sessVeh := 0 }

def Save.zero : Save :=
  { seq := 0, acc := .zero, openEnergy := 0, openVehicle := 0, openLength := 0, meteredTo := 0, p := 0, q := 0, s := 0, lost := false }

def Second.zero : Second := { dur := 0, sums := [], cycles := 0, cycleLen := 0, flags := 0 }

def Meter.reset : Meter :=
  { acc := .zero, saves := Tab.all 2 .zero, newer := 0, p := 0, q := 0, s := 0, freq := 0, flags := 0, pendFlags := 0, export_ := false,
    now := .zero, last := .zero, lastAt := none, point := 0, tAct := 0, bandLo := 0, points := [], synth := false, coefId := 0, held := false }

def Analysis.reset : Analysis :=
  { latest := none, previous := none, overwritten := 0, flags := 0, cycles := [], raw := [], discards := 0, rawSeq := 0 }

def RoleRecord.shipped : RoleRecord := { groups := Tab.all 32 0, outlets := Tab.all 64 0, clock := 0 }

def UserEntry.neutral : UserEntry := { fs := 0, gain := 0, off := 0, phase := 0 }

def Settings.reset : Settings :=
  { role := .shipped, roleNow := .shipped, rolePend := Tab.all 64 false, roleStep := Tab.all 64 false,
    neutral := Tab.all 64 false, passed := Tab.all 64 false, history := [],
    user := Tab.all 512 .neutral, userNow := Tab.all 512 .neutral, calPend := Tab.all 64 false,
    meter := Tab.all 64 (w32 [(230, 16)]), meterNow := Tab.all 64 (w32 [(230, 16)]), module := 0, moduleNow := Tab.all 64 0,
    tariff0 := 1, tariff1 := 0xFAC688, tariff0Now := 1, tariff1Now := 0xFAC688, tariffPend := false,
    mclkPend := false }

def Input.reset (i : Nat) : Input :=
  { lane := Fin.ofNat 520 i, clockBad := false, unlocked := false, stuck := false, ovr := false, suspect := false, laneFailed := false,
    swap := none, compared := none, seen := 0 }

def Page.blank : Page := { frame := List.replicate 80 0, blink := List.replicate 80 0 }

def displayShipped : List Word :=
  [w32 [(1, 30), (1, 28), (1, 26), (24, 20)], w32 [(28, 26), (20, 20), (12, 15), (8, 10), (7, 7), (79, 0)], w32 [(10, 0)]]

def Display.reset : Display :=
  { cfg := displayShipped, cfgNow := displayShipped, pend := false, map := List.replicate 640 0,
    mapNow := List.replicate 640 0, shown := .blank,
    panel := List.replicate 80 0, positive := true, began := none, composed := none,
    journal := { state := 0, row := 0, frameSeq := 0, committed := List.replicate 80 0, target := List.replicate 80 0, check := 0 },
    rows := none, waiting := none, sel := none, identity := true, driven := true, vlcd := 62400, vlcdDue := false, temp := 0 }

def Ochre.reset : Ochre :=
  { clock := { us := 0, mono := 0, timeInvalid := true, failedAt := none, savedUs := 0, checkFailed := false,
               gapFrom := none },
    set := .reset, input := (Tab.all 512 (Input.reset 0)).mapN (fun i _ => Input.reset i),
    lane := Tab.all 520 { passed := true, out := false, lastPass := 0 }, factory := Config.factory, laneRecord := [],
    meter := Tab.all 64 .reset, analysis := Tab.all 64 .reset, ha := Tab.all 64 false, haPend := Tab.all 64 none,
    supra := Tab.all 448 none, supraStep := 0, intervals := Tab.all 64 [], snapshots := [],
    log := { entries := [], seq := 0, acks := [], ackNo := 0, suppressed := [] },
    recs := { slots := Tab.all 64 .empty, lastSid := Tab.all 64 none, lastClosed := Tab.all 64 none, retained := [],
              recNo := 0, resend := Tab.all 64 none },
    tariffs := { active := defaultCalendar, passive := [], tariff := 0, reg := 0, switches := [],
                 len := 15, lenPend := none, demandMark := 0, billMark := 0, announced := none, ha := Config.tariffAssisted },
    signing := Tab.all 8 .inService, refusals := Tab.all 6 0, display := .reset, suspect := Tab.all 64 false }

def Pilot.reset : Pilot :=
  { word0 := .settled (w32 [(16, 25), (3, 21), (4, 16), (100, 0)]), word1 := .settled (w32 [(80, 0)]),
    state := .F, cls := none, held := 0, drive := 0, duty := 0, next := none, diodeOk := false, inval := false,
    dutyDisc := false, prox := 0, vpos := 0, aToB := none, withdrawn := false, classE := none, limitE := none, dcRestart := false }

def Session.none : Session :=
  { phase := 0, proto := 0, link0 := 0, sid := 0, auth := 0, agreed := 0, granted := false, accepted := false,
    held := false, contract := false, chained := false, dynamic := false, bpt := false, discharge := Option.none, hostLimit := Option.none, schedules := [],
    tls := Option.none, cert := Option.none, answer := Option.none, refusedAt := Option.none,
    paused := false, locked := false, late := false }

def Vehicle.reset : Vehicle :=
  { pilot := Tab.all 64 .reset,
    slac := { runs := [], ambiguous := [], ambiguousCount := 0, answering := Tab.all 64 none,
              vehicle := Tab.all 64 none, nmk := Tab.all 64 none, left := Tab.all 64 false },
    session := Tab.all 64 Session.none, ha := Tab.all 64 false, haPend := Tab.all 64 none, grant := Tab.all 64 none,
    core := Tab.all 9 { silent := false, retired := false }, proxMoves := 0,
    carries := (Tab.all 8 0).mapN (fun k _ => Fin.ofNat 9 k), spare := some 8, keyMap := Tab.all 8 0xFFFF, chains := Tab.all 2 [],
    module := .settled (w32 [(12, 0), (50, 8)]), reqId := 0, policies := [], expired := [], expiredCerts := [], toConfirm := Tab.all 64 false,
    txStopped := false, lateAnswers := 0 }

def FaultWord.reset : FaultWord :=
  { first := 0, last := 0, relayed := false, classP := false, classE := false, foff := true, weldNt := false, count := 0 }

def ClassE.none : ClassE :=
  { causes := [], expired := false, ends := 0, saved := 0, cleared := false, supervised := false, overFor := 0,
    req2E := false, req2F := false }

def Guard.reset : Guard :=
  { enable := false, fault := .reset, ce := .none,
    residual := { acCurve := .settled ([w32 [(150, 16), (1, 0)], w32 [(250, 16), (20, 0)]] ++ List.replicate 7 0),
                  dcCurve := .settled ([w32 [(30, 16), (2, 0)], w32 [(50, 16), (9600, 0)], w32 [(500, 16), (750, 0)]]
                    ++ List.replicate 6 0),
                  acHold := Tab.all 8 { count := 0, decided := false },
                  dcHold := Tab.all 8 { count := 0, decided := false }, acWarn := false, dcWarn := false },
    iso := { frames := [], sign := none, before := none, result := none, failed := false, warned := false },
    dcProt := .settled (w32 [(50, 24), (10, 16), (4, 12), (4, 8), (5, 4), (5, 0)]),
    coilCfg := .settled (w32 [(10, 12), (1, 11), (4, 4)]), role := 0, window := [], status := Tab.all 8 0, iredBad := 0,
    iredGood := 0, peBad := 0, invalidFor := Tab.all 8 0, validFor := 0, weldAt := none, pilot := .F, releaseArmed := false,
    awaitsPeer := false, peerPassed := none, mirror := false, closeReq := false, mirrorGrant := none, onMap := false }

def Pair.reset : Pair :=
  { cmd := false, turn := .idle, test := .none, side := false, hsRb := false, lsRb := false, changed := 0 }

def Brake.reset : Brake :=
  { state := .engaged, cause := 0, testOk := false, overdue := false, tqreq := false, htDelta := 0, since := 0,
    passedAt := none, fromFailed := false,
    cfg := .settled [w32 [(20, 24), (20, 16), (20, 8), (150, 0)], w32 [(8, 24), (2, 20), (5, 16)], 0, 0] }

def Russet.reset : Russet :=
  { outlet := Tab.all 64 .reset, pair := Tab.all 68 .reset, brake := Tab.all 4 .reset,
    estop := Tab.all 2 { a := false, b := false, stop := false, disc := false },
    estopCfg := .settled [w32 [(0xF, 8), (0xF, 4), (5, 0)], 0xFFFFFFFF, 0xFFFFFFFF, 0xFFFFFFFF, 0xFFFFFFFF],
    outCfg := .settled (w32 [(5, 26), (50, 19), (15, 13), (60, 6)]),
    fast := Tab.all 512 (.settled (w32 [(28, 6), (32, 0)])),
    stream := { stale := true, seq := 0, run := 0 }, lease := false, cause := 1, pend := false, ceStep := false,
    capture := Tab.all 512 { manchester := false, falling := false, delay := 0, unlocked := false },
    hubHeld := false, outHeld := Tab.all 64 false }

def Channel.reset : Channel :=
  { cfg0 := .settled (w32 [(20, 26), (60, 19), (3, 15), (3, 11), (60, 3)]), cfg1 := .settled (w32 [(4, 22)]),
    rule := .settled 0, ha := false, fallback := false, on := false, prot := .none, shed := false, shedI := 0,
    retryCnt := 0, events := [], demand := false, ruleOut := false, against := 0, output := false,
    freeRestart := false, iLimit := false, iSense := 0, tickI := 0, tj := -64, dt := 0,
    diag := { olOn := false, olOff := false, shortVin := false, shortLast := false, shortRun := 0 } }

def Conditions.none : Conditions :=
  { pairOn := Tab.all 64 false, connected := Tab.all 64 false, classE := Tab.all 64 false,
    lockout := Tab.all 64 false, degraded := false, estop := false, flags := 0 }

def Spelt.reset : Spelt :=
  { chan := Tab.all 48 .reset, aggMax := .settled (w32 [(144, 23)]), aggCap := 144, aggI := 0, overTicks := 0,
    restoreTicks := 0, cond := .none, flags := 0, absent := false, pulse := Tab.all 8 false, loaded := false,
    imageWaits := false }

def Link.reset : Link :=
  { words := .settled [w32 [(2, 4), (4, 0)], 0, 0, 0, 0, 0, 0], maps := List.replicate 16 0, newMaps := none,
    switchAt := 0, newEpoch := 0, mapAcked := false, txq := [], rxq := [], unacked := none, left := 0, waited := 0, tries := 0, seq := 0,
    lastSeq := none, remeas := false, joined := false, epoch := 0, retx := 0, discarded := 0,
    report := List.replicate 64 0, upSnr := List.replicate 64 0, ackDue := false }

def SiteLine.reset : SiteLine :=
  { word := .settled (w32 [(7, 18), (1, 16), (1, 8)]), link := Tab.all 32 .reset, sfNum := 0, mapEpoch := 0,
    tbOk := false, txStop := false, hostStop := false,
    unit := (Tab.all 10 ()).mapN
      (fun k _ => ({ failed := false, tone := if k < 8 then some (Fin.ofNat 8 k) else none } : ToneUnit)),
    unusable := 0, noise := List.replicate 192 0, beacon2 := 0, beacon3 := 0, joined := false,
    joinIgnored := 0, recompute := 64, sent := [] }

def Aerial.reset (a : Nat) : Aerial :=
  { word := w32 [(1, 30), (a, 24), (20, 16), (30, 8), (7, 5)], state := .idle, tech := 0, result := 0, baseAmp := 0,
    basePh := 0, based := false, pingAmp := 0, pingPh := 0, found := false, polls := 0, ref := 0, uid := [], selected := false }

def Reader.reset : Reader :=
  { aerial := (Tab.all 64 (Aerial.reset 0)).mapN (fun a _ => Aerial.reset a),
    port := Tab.all 4 (w32 [(4, 23), (5, 18)]), auth := Tab.all 64 (w32 [(120, 8), (2, 1)]),
    authPend := Tab.all 64 none, allow := [] }

def Tag.reset : Tag :=
  { state := .ready, field := false, mem := [], killPassword := 0, failures := 0, killReport := false, held := [],
    staged := [], reads := [], answer := none, fcount := 0, head := 0, mirrored := 0, bad := [] }

def Key.cleared : Key := { w0 := 0, w1 := 0, ktype := 0, bytes := [] }

def Slot.cleared (cell : Fin 256) : Slot :=
  { key := .cleared, uses := 0, bad := false, shadow := none, tested := false, cell := cell }

/-- A slot as shipped: slots 0 and 1 hold the vendor keys, written in lifecycle Factory (R458). -/
def Slot.shipped (n : Nat) : Slot :=
  { Slot.cleared (Fin.ofNat 256 n) with
    key := if n < 2 then { w0 := w32 [(1, 30), (4, 24), (1, 19), (4, 8)], w1 := 0, ktype := 4,
                           bytes := Config.vendorKey n } else .cleared }

def Keys.reset : Keys :=
  { slot := (Tab.all 256 (Slot.cleared 0)).mapN (fun n _ => Slot.shipped n),
    cell := (Tab.all 256 ()).mapN (fun n _ => ({ writes := 0, retired := false, used := decide (n < 224) } : KeyCell)),
    lifecycle := .provisioned, returns := 0, debugOpen := false, steps := ⟨#[64, 64, 64, 64, 64, 8, 16, 8, 4], rfl⟩,
    measure := List.replicate 48 0, powerOnDue := false, roots := Tab.all 4 true, derived := [] }

def PairState.reset : PairState :=
  { peer := 0, pin := none, lane := Tab.all 2 false, peerSeen := false, peerMode := 0, suspect := false,
    mismatches := [], lastMismatch := 0, resyncs := 0, transfer := 0, epoch := 0, leaseFlagAt := 0, yielded := false,
    peerYielded := false, forwarded := [], outOfStep := false, handoverAt := none, handoverCmd := none,
    resendSeq := [], waiting := [], timedOut := [], early := [], sealedNew := [], sealedKept := [], sealedRefused := 0, sealedSeq := 0, keyed := false, carry := Tab.all 64 false,
    peerAbsent := false, diverged := false, peerHeaders := [], digests := [], replay := [], peerSigning := 0xFF, sent := [] }

def ImageSlot.free : ImageSlot := { status := .free, time := 0, header := [], body := [] }

def Image.shipped (t : Nat) : Image :=
  { slot := ⟨#[{ status := .inService, time := 0, header := Config.shippedHeader t, body := [] }, .free], rfl⟩,
    active := 0, mark := 0, waiting := false, wdAt := none }

def Update.reset : Update :=
  { image := (Tab.all 5 (Image.shipped 0)).mapN (fun t _ => Image.shipped t), staging := none, peerStaging := none, handleSeq := 0, committed := none,
    sessionSlot := Tab.all 64 0 }

def Thermal.reset : Thermal :=
  { sensor := Tab.all 7 { raw := 0, failed := false }, tc := 0, tcMax := 0, stage := Tab.all 5 false, stage6 := false,
    overRange := false, nandHot := false,
    job := Tab.all 5 { running := false, suspended := false, debt := 0, maxDebt := 0, late := 0, merged := 0,
                       skipNext := false },
    stageTime := Tab.all 6 0, powerH := 0, seconds := 0, mgmtSpare := true, mgmtRetired := 0, mgmtCore := 0, framOchFree := 102,
    framFesFree := 6, nandFree := 80, eraseMax := 0, eraseMean := 0, stepTarget := 0 }

def Events.reset : Events :=
  { src := Tab.all 128 { pending := false, mask := false, route := 3, counter := 0, holding := [] }, seq := 0,
    routed := [], dieQ := Tab.all 4 { queue := [], dropped := 0 }, log := [], unflushed := [], fseq := 0,
    marker := false, bundle := none }

def Indices.zero : Indices :=
  { ucmdPi := 0, ucmdCi := 0, ncmdPi := 0, ncmdCi := 0, rspPi := 0, rspCi := 0, evtPi := 0, evtCi := 0 }

def NetSettings.unset : NetSettings :=
  { addressing := none, serverSlot := 0xFFFF, operateSlot := 0xFFFF, commissionSlot := 0xFFFF }

def Port.reset : Port :=
  { ringEn := false, evtEn := false, rspIrq := 0, portTo := 20, accErr := 0, dbErr := 0, connected := false,
    level := 0, silent := false, idx := .zero, evtLost := 0, lostNew := 0, lostFirst := 0, hostHb := 0, net := .unset,
    netInUse := .unset, sent := [] }

def Mailbox.reset : Mailbox :=
  { port := Tab.all 3 .reset, hbCount := 0, ready := false, handover := false, backlog := false, busyMs := 50,
    qspiLvl := 3, fetched := [], turn := 0, lrdSeq := 0, lrdLen := 9224 }

def MemState.reset : MemState :=
  { pool := [], badWords := [], pads := Tab.all 16 { owner := 0x1F, denied := 0, bytes := [], bad := [] }, vault := [],
    wiping := false, bankMap := (Tab.all 64 ()).mapN (fun b _ => Fin.ofNat 68 b), corrected := Tab.all 68 [],
    correctedAll := Tab.all 68 0, copies := [],
    conflicts := Tab.all 16 { conf := Tab.all 8 0, acc := Tab.all 8 0 }, lastServed := Tab.all 64 15, returned := [],
    unitFixed := [] }

/-- The module in Measured start after a module power-on, every register at its Reset value (R8, R65, R69). -/
def State.reset : State :=
  { sup := { mainOk := true, pfw := false, pfwArmed := true, pfwTick := 0, saveDone := false, opened := false,
             dropped := [], vbatOk := true, tealPor := false, marker := none, dips := 0 },
    modes := { base := .measuredStart, role := .none, prior := .none, handover := false, staging := false,
               hbLoss := false, refLoss := false, failedStarts := 0, checked := false, repaired := false },
    clocks := { pll1Lock := false, pll2Lock := false, xrefOk := false, trimmed := false, fallback := false,
                slew := false, mclkSel := 0, scStep := 0, corrections := 0, outSince := none },
    dies := { control := .starting, ochre := .running, russet := .running, fescue := .running, spelt := .running,
              hbSeen := false, resetAfterResponse := false, russetCause := none, fescueBeat := false,
              pfwInOchreReset := false },
    teal := { ring := [], openings := Tab.all 4 0, level := Tab.all 4 false, tseq := 0, copied := 0, uncopied := 0,
              lost := false },
    och := .reset, rus := .reset, veh := .reset, spe := .reset, site := .reset, rdr := .reset, tag := .reset,
    keys := .reset, pair := .reset, upd := .reset, thm := .reset, evt := .reset, mbx := .reset, mem := .reset,
    reported := 0x11, free := 0, pending := [] }

end Sys2Proof.Machine
end

