-- ==== Sys2Proof/Machine/Numbers.lean ====
section
/-! DEFINITION. Exact arithmetic of the quantities: counts, roots, angles, and the Fourier bins of a list of samples (R88,
R120, R123, R129, R136). -/

namespace Sys2Proof.Machine

def sumRat (l : List Rat) : Rat := l.foldl (· + ·) 0

def meanOf (l : List Rat) : Rat := if l.isEmpty then 0 else sumRat l / l.length

def mulRat (a b : List Rat) : List Rat := List.zipWith (· * ·) a b

/-- Magnitude of a quantity. -/
def absRat (x : Rat) : Rat := if x < 0 then -x else x

/-- A value brought between two bounds. -/
def clampRat (lo hi x : Rat) : Rat := if x < lo then lo else if hi < x then hi else x

/-- A value as a count: itself where it is whole, else one of the two counts beside it, which the spec leaves open. -/
def toCount (r : Rat) : Int := if r.den = 1 then r.num else r.floor + (if Config.roundUp r then 1 else 0)

/-- The nearest count; of two that are equally near, either. -/
def nearest (r : Rat) : Int :=
  let f := r.floor
  let d := r - f
  if d * 2 < 1 then f else if 1 < d * 2 then f + 1 else f + (if Config.roundUp r then 1 else 0)

/-- The square root: exact where it is a multiple of 2^-32, else between two of them. -/
def rootOf (r : Rat) : Rat :=
  if r ≤ 0 then 0
  else
    let v := (r * 2 ^ 64).floor.toNat
    let k := intRoot 2 v (v.log2 / 2 + 1) 0
    if ((k * k : Nat) : Rat) = r * 2 ^ 64 then (k : Rat) / 2 ^ 32
    else ((k : Rat) + clampRat 0 1 (Config.rootRest r)) / 2 ^ 32

/-- The cosine of a part of a turn between 0 and a quarter. -/
def cosQuarter (x : Rat) : Rat := if x ≤ 0 then 1 else if 1 / 4 ≤ x then 0 else clampRat 0 1 (Config.cosine x)

/-- The cosine of an angle in turns. -/
def cosTurn (x : Rat) : Rat :=
  let y := x - x.floor
  if y ≤ 1 / 4 then cosQuarter y
  else if y ≤ 1 / 2 then -cosQuarter (1 / 2 - y)
  else if y ≤ 3 / 4 then -cosQuarter (y - 1 / 2)
  else cosQuarter (1 - y)

/-- The sine of an angle in turns. -/
def sinTurn (x : Rat) : Rat := cosTurn (x - 1 / 4)

/-- A complex number. -/
structure Bin where
  re : Rat
  im : Rat
deriving DecidableEq, Repr

/-- Samples with their numbers. -/
def indexed (xs : List Rat) : List (Nat × Rat) := numbered (fun k x => (k, x)) 0 xs

/-- X_k of a list of samples, with the factors of R136. -/
def binOf (xs : List Rat) (k : Nat) : Bin :=
  let m := xs.length
  let f : Rat := if k = 0 then 1 / m else 2 / m
  let at_ (j : Nat) : Rat := ((k * j : Nat) : Rat) / m
  { re := f * sumRat ((indexed xs).map fun p => p.2 * cosTurn (at_ p.1)),
    im := -(f * sumRat ((indexed xs).map fun p => p.2 * sinTurn (at_ p.1))) }

/-- C_k squared: |X_k|² / 2, and |X_0|² for the mean. -/
def powerOf (xs : List Rat) (k : Nat) : Rat :=
  let x := binOf xs k
  if k = 0 then x.re * x.re + x.im * x.im else (x.re * x.re + x.im * x.im) / 2

/-- The argument of a complex number, in hundredths of a degree from −18,000 on. -/
def argOf (x : Bin) : Rat :=
  let above (a b : Rat) : Rat := clampRat 0 9000 (Config.angle a b)
  if 0 < x.re then (if x.im = 0 then 0 else if 0 < x.im then above x.re x.im else -above x.re (-x.im))
  else if x.re = 0 then (if 0 < x.im then 9000 else if x.im < 0 then -9000 else 0)
  else if x.im = 0 then -18000
  else if 0 < x.im then 9000 + above x.im (-x.re) else -9000 - above (-x.im) (-x.re)

/-- The samples of a cycle with every component of orders 1 to 100 delayed by 90° (R120). -/
def quarterDelayed (xs : List Rat) : List Rat :=
  let m := xs.length
  let bins := (List.range 100).map fun k => (k + 1, binOf xs (k + 1))
  (indexed xs).map fun p =>
    p.2 + sumRat (bins.map fun b =>
      let a : Rat := ((b.1 * p.1 : Nat) : Rat) / m
      let now := b.2.re * cosTurn a - b.2.im * sinTurn a
      let late := b.2.re * sinTurn a + b.2.im * cosTurn a
      late - now)

/-- u1 · i1 · sin(phi_u1 − phi_i1) of the fundamental bins of a cycle (R120). -/
def fundamentalQ (u i : List Rat) : Rat :=
  let a := binOf u 1
  let b := binOf i 1
  (a.im * b.re - a.re * b.im) / 2

end Sys2Proof.Machine
end

