-- ==== Sys2Proof/Machine/Flags.lean ====
section
/-! DEFINITION. Every status word the spec lets host software read, computed from the state: mode, clock, pair and
scheduler status, mailbox and port registers, and the status words of outlets, inputs, brakes, channels, links and aerials. -/

namespace Sys2Proof.Machine

/-- A word as the sum of its fields. -/
def word (l : List Nat) : Word := BitVec.ofNat 32 (l.foldl (· + ·) 0)

/-- Legal time in units of 64 µs (R146). -/
def legalUnits (s : State) : Nat := s.och.clock.us / 64

/-- Legal time as LT32 (R146). -/
def lt32 (s : State) : Nat := s.och.clock.us / 1000000

/-- The outlet is in Class P Lockout. -/
def lockedOut (s : State) (o : OutletNo) : Bool := (s.rus.outlet.at o).fault.classP

/-- Some outlet is in Lockout. -/
def anyLockout (s : State) : Bool := s.rus.outlet.toList.any (·.fault.classP)

/-- Every coil pair is off (R66). -/
def allCoilsOff (s : State) : Bool := (s.rus.pair.toList.take 64).all (fun p => !p.cmd)

/-- Some emergency-stop channel is in the stop state or in discrepancy. -/
def estopActive (s : State) : Bool := s.rus.estop.toList.any (fun e => e.stop || e.disc)

/-- Condition Degraded service: a cause holds and the base mode allows it (R64, R66). -/
def degraded (s : State) : Bool :=
  match s.modes.base with
  | .backupWatch | .commissioning => false
  | .measuredStart => s.modes.refLoss
  | _ => s.modes.refLoss || s.modes.hbLoss

/-- Condition Lockout (R64, R66). -/
def lockoutHolds (s : State) : Bool :=
  match s.modes.base with
  | .backupWatch | .measuredStart => false
  | _ => anyLockout s

/-- ROLE of R65. -/
def roleCode : Role → Nat
  | .none => 0
  | .solo => 1
  | .active => 2
  | .standby => 3

/-- Mode number of the base mode or service role (R64). -/
def baseNumber (m : Modes) : Nat :=
  match m.base with
  | .backupWatch => 0
  | .measuredStart => 1
  | .factoryTest => 2
  | .commissioning => 3
  | .recovery => 11
  | .service =>
    match m.role with
    | .active => 5
    | .standby => 6
    | _ => 4

/-- The service role in force. -/
def roleNow (m : Modes) : Role := if m.base = .service then m.role else .none

/-- The lease as a gated action needs it: in Paired active Russet's timer shows it, and it has not been yielded (R495, R496). -/
def leaseHeld (s : State) : Bool := roleNow s.modes != .active || (s.rus.lease && !s.pair.yielded)

/-- MODE of R65: the mode that stands first in its order. -/
def modeNumber (s : State) : Nat :=
  match s.modes.base with
  | .recovery => 11
  | .measuredStart => 1
  | .factoryTest => 2
  | .commissioning => 3
  | _ =>
    if s.modes.handover then 7 else if lockoutHolds s then 10 else if degraded s then 9
    else if s.modes.staging then 8 else baseNumber s.modes

/-- Register bit 4 + m − 1 of mode m, none for Backup watch (R65). -/
def condBit (m : Nat) (holds : Bool) : Nat := if m = 0 then 0 else flag holds (3 + m)

/-- The mode status register (R65). -/
def modeStatus (s : State) : Word :=
  word [roleCode (roleNow s.modes) * 2 ^ 16, condBit (baseNumber s.modes) true, condBit 7 s.modes.handover,
        condBit 8 s.modes.staging, condBit 9 (degraded s), condBit 10 (lockoutHolds s), modeNumber s]

/-- The clock status register (R63). -/
def clockStatus (s : State) : Word :=
  let c := s.clocks
  word [c.scStep.toNat * 256, c.mclkSel.toNat * 64, flag c.slew 5, flag c.fallback 4, flag c.trimmed 3,
        flag c.xrefOk 2, flag c.pll2Lock 1, flag c.pll1Lock 0]

/-- The mismatches of the last 10 min, by their times in ms (R394, R493). -/
def recentMismatches (s : State) : List Nat :=
  s.pair.mismatches.filter fun t => s.och.clock.mono / 1000 - t < 600000

/-- PAIR_STATUS (R394). -/
def pairStatus (s : State) : Word :=
  let p := s.pair
  word [min 255 (recentMismatches s).length * 2 ^ 24, p.peerMode.toNat * 2 ^ 20, flag p.suspect 7, flag s.rus.lease 6,
        flag (p.lane.at 1) 5, flag (p.lane.at 0) 4, flag p.peerSeen 3,
        flag (s.och.set.roleNow.groups.toList.all (fun g => wBit g 3)) 2, roleCode (roleNow s.modes)]

/-- The highest stage in force (R533). -/
def stageNow (t : Thermal) : Nat :=
  if t.stage6 then 6 else if t.stage.at 4 then 5 else if t.stage.at 3 then 4 else if t.stage.at 2 then 3
  else if t.stage.at 1 then 2 else if t.stage.at 0 then 1 else 0

/-- A signed value in an `n`-bit field. -/
def twos (n : Nat) (v : Int) : Nat := (v % 2 ^ n).toNat

/-- The scheduler status word (R544). -/
def schedStatus (s : State) : Word :=
  let t := s.thm
  word [stageNow t * 2 ^ 29, flag (t.sensor.toList.any (·.failed)) 28, flag (t.sensor.at 6).failed 27,
        flag t.overRange 26, flag t.nandHot 25, s.clocks.scStep.toNat * 2 ^ 23, twos 16 t.tc]

/-- MB_STATUS (R392). -/
def mbStatus (s : State) : Word :=
  word [s.mbx.hbCount.toNat * 2 ^ 16, flag s.mbx.ready 7, flag s.mbx.handover 6, flag s.mbx.backlog 5]

/-- The authority of a port's connection (R384, R385, R528). -/
def portLevel (s : State) (p : PortNo) : Nat :=
  if p = 2 then (if s.modes.base = .recovery then 3 else s.mbx.qspiLvl.toNat)
  else if (s.mbx.port.at p).connected then (s.mbx.port.at p).level.toNat else 0

/-- CONNECTED of R396. -/
def portConnected (s : State) (p : PortNo) : Bool :=
  if p = 2 then decide (0 < portLevel s 2) else (s.mbx.port.at p).connected

/-- Response slots that are reserved for fetched commands of a port. -/
def reserved (s : State) (p : PortNo) : Nat :=
  (s.mbx.fetched.filter (fun f => f.cmd.port == p && !f.dropped)).length

/-- RSP_FULL: every free response slot is reserved (R401). -/
def rspFull (s : State) (p : PortNo) : Bool :=
  let i := (s.mbx.port.at p).idx
  decide (256 ≤ idxSub i.rspPi i.rspCi + reserved s p)

/-- PORT_CTRL (R396). -/
def portCtrl (s : State) (p : PortNo) : Word :=
  let q := s.mbx.port.at p
  word [q.portTo.toNat * 256, q.rspIrq.toNat * 64, flag q.evtEn 1, flag q.ringEn 0]

/-- PORT_STAT (R396). -/
def portStat (s : State) (p : PortNo) : Word :=
  let q := s.mbx.port.at p
  word [q.accErr.toNat * 2 ^ 16, q.dbErr.toNat * 256, flag (portConnected s p) 7, portLevel s p * 32,
        flag q.silent 4, flag (rspFull s p) 3]

/-- EVT_PENDj (R393). -/
def evtPend (s : State) (j : Nat) : Word :=
  word ((List.range 32).map fun k => flag ((s.evt.src.at (Fin.ofNat 128 (32 * j + k))).pending) k)

/-- Level of HOST_IRQ0 or HOST_IRQ1 (R401, R550). -/
def irqLevel (s : State) (line : Nat) : Bool :=
  s.evt.src.toList.any (fun e => e.pending && !e.mask && e.route.toNat == line + 1) ||
    s.mbx.port.toList.any (fun q => q.rspIrq.toNat == line + 1 && q.idx.rspPi != q.idx.rspCi)

/-- IRQ_STAT (R393). -/
def irqStat (s : State) : Word := word [flag (irqLevel s 0) 0, flag (irqLevel s 1) 1]

/-- The fault word of an outlet (R262). -/
def faultWord (f : FaultWord) : Word :=
  word [f.first.toNat * 2 ^ 24, f.last.toNat * 2 ^ 16, flag f.relayed 15, flag f.classP 14, flag f.classE 13,
        flag f.foff 12, flag f.weldNt 11, f.count.toNat]

/-- The pair that drives an outlet's contactor coil. -/
def coilOf (o : OutletNo) : PairNo := Fin.ofNat 68 o.val

/-- The pair that drives a brake. -/
def brakeOf (b : BrakeNo) : PairNo := Fin.ofNat 68 (64 + b.val)

/-- CE_REMAIN: time remaining in 15 s units, rounded up; 0 outside Class E (R297). -/
def ceRemain (g : Guard) (mono : Nat) : Nat := if g.fault.classE then ceilDiv (g.ce.ends - mono) 15000000 else 0

/-- The coil status word of an outlet (R297). -/
def coilStatus (s : State) (o : OutletNo) : Word :=
  let p := s.rus.pair.at (coilOf o)
  let g := s.rus.outlet.at o
  word [flag p.cmd 31, flag p.hsRb 30, flag p.lsRb 29, flag g.mirror 28, flag (p.test != .none) 27, flag p.side 26,
        flag g.releaseArmed 25, flag g.ce.expired 24, ceRemain g s.och.clock.mono * 2 ^ 16]

/-- STATE of a brake (R297). -/
def brakeCode : BrakeState → Nat
  | .engaged => 0
  | .releasing => 1
  | .released => 2
  | .engaging => 3
  | .testing => 4
  | .failed => 5

/-- The brake status word (R297). -/
def brakeStatus (b : Brake) : Word :=
  word [brakeCode b.state * 2 ^ 29, b.cause.toNat * 2 ^ 21, flag b.testOk 20, flag b.overdue 19, flag b.tqreq 18,
        b.htDelta.toNat]

/-- The emergency-stop word of 0x0500 (R422). -/
def estopWord (s : State) : Word :=
  let code (e : Estop) : Nat := if e.disc then 2 else if e.stop then 1 else 0
  word [code (s.rus.estop.at 0), code (s.rus.estop.at 1) * 4]

/-- STATE of a pilot (R240). -/
def pilotCode : PilotState → Nat
  | .A => 0
  | .B => 1
  | .C => 2
  | .D => 3
  | .E => 4
  | .F => 5

/-- The pilot status word (R240). -/
def pilotStatus (p : Pilot) : Word :=
  word [pilotCode p.state * 2 ^ 29, p.drive.toNat * 2 ^ 27, flag p.diodeOk 26, flag p.inval 25, flag p.dutyDisc 24,
        p.prox.toNat * 2 ^ 21, twos 10 (toCount (p.vpos / 40)) * 2 ^ 11, p.duty % 2048]

/-- The outlet that owns an input (R4). -/
def outletOf (i : InputNo) : OutletNo := Fin.ofNat 64 (i.val / 8)

/-- The role slot of an input (R4). -/
def slotOf (i : InputNo) : Fin 8 := Fin.ofNat 8 i.val

/-- The input of a role slot (R4). -/
def inputOf (o : OutletNo) (k : Nat) : InputNo := Fin.ofNat 512 (8 * o.val + k)

/-- The slot status word of an input (R105). -/
def slotStatus (s : State) (i : InputNo) : Word :=
  let x := s.och.input.at i
  let spare := decide (512 ≤ x.lane.val)
  word [flag spare 31, if spare then (x.lane.val - 512) * 2 ^ 28 else 0, flag x.laneFailed 27, flag x.swap.isSome 26,
        flag (s.och.set.calPend.at (outletOf i)) 25, flag x.invalid 24, flag x.ovr 23, flag x.suspect 22]

/-- TYPE of an outlet in force: 0 unused, 1 AC three-phase, 2 AC single-phase, 3 DC (R91). -/
def typeOf (s : State) (o : OutletNo) : Nat := wFld (s.och.set.roleNow.outlets.at o) 0 2

/-- SLOT_EN of an outlet in force (R91). -/
def slotEn (s : State) (o : OutletNo) (k : Nat) : Bool := wBit (s.och.set.roleNow.outlets.at o) (8 + k)

/-- The outlet is a DC outlet. -/
def isDc (s : State) (o : OutletNo) : Bool := typeOf s o == 3

/-- The outlet is an AC outlet. -/
def isAc (s : State) (o : OutletNo) : Bool := typeOf s o == 1 || typeOf s o == 2

/-- TYPE and SLOT_EN of an outlet as Russet has them from the quantity link (R18). -/
def rusType (s : State) (o : OutletNo) : Nat := wFld (s.rus.outlet.at o).role 0 2

def rusSlotEn (s : State) (o : OutletNo) (k : Nat) : Bool := wBit (s.rus.outlet.at o).role (8 + k)

/-- The outlet is a DC outlet for Russet. -/
def rusDc (s : State) (o : OutletNo) : Bool := rusType s o == 3

/-- The metering status word of an outlet (R113). -/
def meteringStatus (s : State) (o : OutletNo) : Word :=
  let m := s.och.meter.at o
  word [m.tAct.toNat * 2 ^ 20, m.bandLo.toNat * 2 ^ 17, flag m.synth 9, flag (s.och.set.rolePend.at o) 8, typeOf s o]

/-- The output of a channel is on, its pulse input included (R299, R308). -/
def pulseActive (s : State) (c : Channel) : Bool :=
  let w := c.cfg1.now
  !wBit w 31 || (s.spe.pulse.at (Fin.ofNat 8 (wFld w 28 3)) != wBit w 27)

/-- STATE of a channel (R314). -/
def chanState (c : Channel) : Nat :=
  match c.prot with
  | .latched => 6
  | .exhausted => 5
  | .thermal => 3
  | .difference => 4
  | .none => if c.shed then 7 else if !c.demand then 0 else if c.iLimit then 2 else 1

/-- FALLBACK is in effect for a channel (R313). -/
def fallbackActs (s : State) (c : Channel) : Bool := c.ha && c.fallback && (s.spe.cond.degraded || s.spe.absent)

/-- LATCH_CNT (R306, R322). -/
def latchCount (c : Channel) : Nat := min 15 c.events.length

/-- Channel status word 0 (R314). -/
def chanStatus0 (s : State) (c : Channel) : Word :=
  word [chanState c * 2 ^ 29, flag (wBit c.cfg1.now 31 && c.output) 28, flag c.diag.olOn 27, flag c.diag.olOff 26,
        flag c.diag.shortVin 25, flag (c.ha && !fallbackActs s c) 24, c.retryCnt * 2 ^ 20, latchCount c * 2 ^ 16,
        (c.iSense % 1024) * 64]

/-- Channel status word 1 (R314). -/
def chanStatus1 (c : Channel) : Word := word [twos 8 (c.tj + 64) * 2 ^ 24, (min c.dt.toNat 255) * 2 ^ 16]

/-- The module load switch status word (R317). -/
def aggStatus (s : State) : Word := word [(s.spe.aggCap % 512) * 2 ^ 23, (s.spe.aggI % 512) * 2 ^ 14]

/-- The module site-line status word (R347). -/
def siteStatus (s : State) : Word :=
  let l := s.site
  let used := (l.unit.toList.drop 8).filter (fun u => u.tone.isSome)
  word [l.sfNum.toNat * 2 ^ 24, l.mapEpoch.toNat * 2 ^ 16, flag l.tbOk 15, flag l.txStop 14, used.length * 2 ^ 12,
        l.unusable.toNat]

/-- The link status word (R347). -/
def linkStatus (l : Link) : Word :=
  word [l.txq.length * 2 ^ 28, l.rxq.length * 2 ^ 24, flag l.remeas 23, flag l.joined 22, l.epoch.toNat * 256,
        l.retx.toNat]

/-- The aerial status word (R383). -/
def aerialStatus (a : Aerial) : Word :=
  let st := match a.state with
    | .idle => 0
    | .polling => 1
    | .present => 2
    | .disabled => 3
  word [(if wBit a.word 31 then st else 3) * 2 ^ 30, a.tech.toNat * 2 ^ 28, a.result.toNat * 2 ^ 26,
        (a.baseAmp.floor.toNat % 1024) * 2 ^ 16, twos 8 (a.basePh / 5).floor * 256, a.polls.toNat]

/-- LIFECYCLE of R372. -/
def lifecycleCode : Lifecycle → Nat
  | .blank => 0
  | .factory => 1
  | .provisioned => 2
  | .deployed => 3
  | .returned => 4
  | .ended => 5

/-- Status of a commit record (R518). -/
def slotCode : SlotStatus → Nat
  | .free => 0
  | .staging => 1
  | .trial => 2
  | .inService => 3
  | .superseded => 4
  | .incomplete => 5
  | .corrupt => 6

/-- VERSION of an image header (R510). -/
def headerVersion (h : List Byte) : Nat := leAt h 0x10 4

/-- Version of a type in service. -/
def versionOf (s : State) (t : ImageNo) : Nat :=
  let i := s.upd.image.at t
  headerVersion (i.slot.at i.active).header

/-- The state of the ZGH6451 as a base position: 0 solo, 1 module A, 2 module B (R372, R480). -/
def positionCode (s : State) : Nat :=
  if s.pair.peer = 0 then 0
  else if s.och.set.roleNow.groups.toList.all (fun g => wBit g 3) then 2 else 1

/-- Command accepted in a state that lets Millet run the mailbox. -/
def controlRuns (s : State) : Bool := s.dies.control == .running

end Sys2Proof.Machine
end

