-- ==== Sys2Proof/Machine/Lanes.lean ====
section
/-! DEFINITION. From the bitstream to calibrated samples: decimation, the factory and user tables, the phase delay, the
weights of DC samples and the resampling of a cycle (R75 to R103, R115, R119, R122). -/

namespace Sys2Proof.Machine

/-! ### Modulator clock (R47, R75, R83, R85) -/

/-- The sinc3 ratio at the modulator clock in force. -/
def sincRatio (s : State) : Nat := if s.clocks.mclkSel = 1 || s.clocks.mclkSel = 2 then 32 else 64

/-- The modulator clock in force, Hz. -/
def modulatorHz (s : State) : Rat := if s.clocks.mclkSel = 1 then 64000000 / 3 else if s.clocks.mclkSel = 2 then 16000000 else 32000000

/-- Delays of the whole metering stream and of the whole protection stream, ns (R85). -/
def meterDelay (s : State) : Nat := if s.clocks.mclkSel = 1 then 1796180 else if s.clocks.mclkSel = 2 then 1792906 else 1792953

def protectDelay (s : State) : Nat := if s.clocks.mclkSel = 1 then 68180 else if s.clocks.mclkSel = 2 then 64906 else 64953

/-- What a clock ball does. -/
inductive ClockBall where
  /-- It takes the peer's clock. -/
  | input
  | low
  /-- It runs at the modulator clock in force, Hz. -/
  | running (hz : Rat)
deriving DecidableEq, Repr

/-- MCLKg (R75). -/
def clockBall (s : State) (g : GroupNo) : ClockBall :=
  let o (k : Nat) : OutletNo := Fin.ofNat 64 (2 * g.val + k)
  if wBit (s.och.set.roleNow.groups.at g) 3 then .input
  else if typeOf s (o 0) = 0 && typeOf s (o 1) = 0 then .low
  else .running (modulatorHz s)

/-- FMT of an input's group in force. -/
def manchester (s : State) (i : InputNo) : Bool := wBit (s.och.set.roleNow.groups.at (Fin.ofNat 32 (i.val / 16))) 0

/-! ### Decimation (R81, R83, R84, R88) -/

/-- Every `m`-th value of a list, from the first on. -/
def everyNth (m : Nat) (l : List Rat) : List Rat := (List.range ((l.length + m - 1) / m)).map fun k => l.getD (m * k) 0

/-- The mean of every run of `m` values: (1 − z^−M) / (M · (1 − z^−1)). -/
def boxes (m : Nat) : List Rat → List Rat
  | [] => []
  | x :: xs => if xs.length + 1 < m then [] else sumRat ((x :: xs).take m) / m :: boxes m xs

/-- The sinc3 stage at ratio `m`: bit 1 is +1, bit 0 is −1. -/
def sinc3 (m : Nat) (bits : Bits) : List Rat :=
  everyNth m (boxes m (boxes m (boxes m (bits.map fun b => if b then 1 else -1))))

/-- The rate converter: three outputs for four inputs. -/
def convertRate (l : List Rat) : List Rat :=
  (List.range (l.length / 4 * 3)).map fun n =>
    sumRat ((List.range Config.converterTaps).map fun k => Config.converterTap (n % 3) k * l.getD (4 * (n / 3) + k) 0)

/-- The 500 kS/s stream of a lane's bits. -/
def intermediate (s : State) (bits : Bits) : List Rat :=
  let l := sinc3 (sincRatio s) bits
  if s.clocks.mclkSel = 1 then convertRate l else l

/-- A linear-phase filter of `n` taps that keeps every 32nd output. -/
def firOf (tap : Nat → Rat) (n : Nat) (l : List Rat) : List Rat :=
  (List.range (if l.length < n then 0 else (l.length - n) / 32 + 1)).map fun j =>
    sumRat ((List.range n).map fun k => tap (min k (n - 1 - k)) * l.getD (32 * j + k) 0)

/-- The code of an output, saturated. -/
def codeOf (r : Rat) : Int := max (-8388608) (min 8388607 (nearest (r * 8388608)))

/-- The bits that the lane of an input takes: the alternating pattern while the input is invalid. -/
def laneBits (x : Input) (bits : Bits) : Bits := if x.invalid then (List.range bits.length).map fun k => k % 2 == 0 else bits

/-- Codes of the metering stream of an input. -/
def meterCodes (s : State) (i : InputNo) (bits : Bits) : List Int :=
  (firOf Config.meteringTap 1791 (intermediate s (laneBits (s.och.input.at i) bits))).map codeOf

/-- Codes of the protection stream of an input. -/
def protectCodes (s : State) (i : InputNo) (bits : Bits) : List Int :=
  (firOf Config.protectionTap 63 (intermediate s (laneBits (s.och.input.at i) bits))).map codeOf

/-- A code beyond the over-range limit (R88). -/
def overRange (c : Int) : Bool := decide (7549747 < c.natAbs)

/-! ### Calibration (R96 to R103) -/

/-- The factory entry of a lane in a band. -/
def factoryAt (s : State) (lane band : Nat) : Option FactoryEntry :=
  s.och.factory.find? fun e => e.lane.val == lane && e.band.val == band

/-- Bytes 0x0 to 0xB of a factory entry. -/
def factoryBody (gain : BitVec 32) (offset : BitVec 24) (phase : BitVec 32) : List Byte :=
  leBytes 4 gain.toNat ++ leBytes 4 offset.toNat ++ leBytes 4 phase.toNat

/-- The integrity tag of a factory entry: bytes 0x0 to 0xB, lane and band. -/
def factoryTag (body : List Byte) (lane band : Nat) : Word := Config.check (body ++ leBytes 2 lane ++ leBytes 2 band)

/-- Every factory entry of a lane passes its check (R98). -/
def factoryOk (s : State) (lane : Nat) : Bool :=
  s.och.factory.all fun e =>
    e.lane.val != lane || e.check == factoryTag (factoryBody e.gain e.offset e.phase) lane e.band.val

/-- Centre of a temperature band, °C (R102). -/
def bandCentre (b : Nat) : Rat := -175 / 4 + 45 / 2 * (b : Rat)

/-- Lower band of the interpolation at a temperature (R102, R113). -/
def bandOf (t : Rat) : Nat :=
  if t < bandCentre 0 then 0 else if bandCentre 7 < t then 7 else min 7 (((t + 175 / 4) / (45 / 2)).floor.toNat)

/-- A coefficient interpolated between bands. -/
def interpolate (t : Rat) (k : Nat → Rat) : Rat :=
  if t ≤ bandCentre 0 then k 0
  else if bandCentre 7 ≤ t then k 7
  else
    let b := bandOf t
    let w : Rat := (t - bandCentre b) / (45 / 2)
    (1 - w) * k b + w * k (b + 1)

/-- A factory coefficient of a lane at a temperature, 0 where no entry is listed. -/
def factoryCoef (s : State) (f : FactoryEntry → Rat) (lane : Nat) (t : Rat) : Rat :=
  interpolate t fun b => ((factoryAt s lane b).map f).getD 0

/-- g_f, off_f and d_f of a lane at a temperature. -/
def gainF (s : State) : Nat → Rat → Rat := factoryCoef s fun e => (e.gain.toInt : Rat) / 2 ^ 31

def offF (s : State) : Nat → Rat → Rat := factoryCoef s fun e => (e.offset.toInt : Rat) / 2 ^ 8

def delayF (s : State) : Nat → Rat → Rat := factoryCoef s fun e => (e.phase.toInt : Rat)

/-- y of R96 of a code on a lane. The factory offset is zero in clocked mode. -/
def calibrateY (s : State) (i : InputNo) (lane : Nat) (t : Rat) (code : Int) : Rat :=
  ((code : Rat) - (if manchester s i then offF s lane t else 0)) * (1 + gainF s lane t)

/-- z of R96 of a code on a lane. -/
def calibrateOn (s : State) (i : InputNo) (lane : Nat) (t : Rat) (code : Int) : Rat :=
  let u := s.och.set.userNow.at i
  (calibrateY s i lane t code - (signed 24 (wFld u.off 0 24) : Rat) / 2 ^ 8) * (1 + (u.gain.toInt : Rat) / 2 ^ 31)

/-- The lane that serves an input. -/
def laneOf (s : State) (i : InputNo) : Nat := (s.och.input.at i).lane.val

def calibrateZ (s : State) (i : InputNo) : Rat → Int → Rat := calibrateOn s i (laneOf s i)

/-- A value z in µV or µA. -/
def scaled (s : State) (i : InputNo) (z : Rat) : Rat := z * (s.och.set.userNow.at i).fs.toNat / 2 ^ 23

/-- The phase delay of an input, ps. -/
def phaseDelay (s : State) (i : InputNo) (t : Rat) : Rat := delayF s (laneOf s i) t + ((s.och.set.userNow.at i).phase.toInt : Rat)

/-- Samples delayed by a time in ps. -/
def delayed (ps : Rat) (l : List Rat) : List Rat :=
  if ps = 0 then l else (List.range l.length).map (Config.fractional ps l)

/-- The interpolation point in force of an outlet, °C. -/
def pointOf (s : State) (o : OutletNo) : Rat := (s.och.meter.at o).point

/-- Codes of a slot over a span. -/
def slotCodes (s : State) (o : OutletNo) (k : Nat) (bits : List Bits) : List Int :=
  if slotEn s o k then meterCodes s (inputOf o k) (bits.getD k []) else []

/-- The calibrated values of a slot over a span, µV or µA (R96). -/
def slotValues (s : State) (o : OutletNo) (k : Nat) (bits : List Bits) : List Rat :=
  let i := inputOf o k
  let t := pointOf s o
  (delayed (phaseDelay s i t) ((slotCodes s o k bits).map (calibrateZ s i t))).map (scaled s i)

/-- The same from the protection stream, which carries no phase delay (R90). -/
def protectValues (s : State) (o : OutletNo) (k : Nat) (bits : List Bits) : List Rat :=
  let i := inputOf o k
  if slotEn s o k then
    (protectCodes s i (bits.getD k [])).map fun c => scaled s i (calibrateZ s i (pointOf s o) c)
  else []

/-! ### The quantity link (R90) -/

/-- The value that the link carries for a slot, µV or µA: code 0 for an invalid input. -/
def linkValue (s : State) (o : OutletNo) (k : Nat) (code : Int) : Rat :=
  let i := inputOf o k
  scaled s i (calibrateZ s i (pointOf s o) (if (s.och.input.at i).invalid then 0 else code))

/-- The 2-bit status that the link carries for a slot. -/
def slotStatusOf (s : State) (o : OutletNo) (k : Nat) (code : Int) : BitVec 2 :=
  let x := s.och.input.at (inputOf o k)
  if x.invalid then 2 else if x.laneFailed then 3 else if overRange code then 1 else 0

/-! ### Tagged times (R89, R116, R122) -/

/-- Legal time in µs of a moment of the monotonic counter. -/
def legalAt (s : State) (mono : Nat) : Nat := s.och.clock.us - (s.och.clock.mono - mono)

/-- The tagged time of what the metering stream puts out at a moment, ns on the monotonic counter, resolved to 10 ns. -/
def taggedNs (s : State) (out : Nat) : Nat := (out - meterDelay s) / 10 * 10

/-- The same in µs. -/
def taggedUs (s : State) (out : Nat) : Nat := taggedNs s out / 1000

/-- Legal time in ns of a moment in ns on the monotonic counter. -/
def legalNs (s : State) (ns : Nat) : Nat := legalAt s (ns / 1000) * 1000 + ns % 1000

/-- A 64 µs unit, ns. -/
def unitNs : Nat := 64000

/-- The 64 µs of legal time that sample `k` of a span stands for, as its start and end in ns after the first sample's tagged
time less 32 µs. -/
def sampleSpan (k : Nat) : Nat × Nat := (unitNs * k, unitNs * (k + 1))

/-- The part of sample `k` that lies in a span from `start` on, both in ns after the first sample's tagged time. -/
def sampleWeight (start len k : Nat) : Nat :=
  let a := sampleSpan k
  min a.2 (start + len + unitNs / 2) - max a.1 (start + unitNs / 2)

/-- Weights in µs of the samples of a span that starts at a legal time in ns; the first sample is the last one tagged at or
before the start (R122). -/
def weightsOf (legal len n : Nat) : List Rat :=
  (List.range n).map fun k => (sampleWeight (legal % unitNs) len k : Rat) / 1000

/-- A cycle resampled to 256 samples, the first of them on the start boundary; `from_` is the start boundary in ns after the
first sample's tagged time (R119). -/
def resampled (from_ len : Nat) (xs : List Rat) : List Rat :=
  (List.range 256).map fun (k : Nat) => Config.interpolated xs (((from_ : Rat) + (k : Rat) * len / 256) / unitNs)

end Sys2Proof.Machine
end

