-- ==== Sys2Proof/Machine/Ops.lean ====
section
/-! DEFINITION. The named operations over the state: changing one object, memory in its canonical form, event
occurrences and the fault log, free values, and the answer of a meaning. -/

namespace Sys2Proof.Machine

/-- The answer of a meaning that goes on. -/
def done (s : State) : Host.Outcome State Fault Refusal := .next s

/-! ### One object changed -/

def State.onGuard (s : State) (o : OutletNo) (f : Guard → Guard) : State :=
  { s with rus.outlet := s.rus.outlet.upd o f }

def State.onPair (s : State) (p : PairNo) (f : Pair → Pair) : State := { s with rus.pair := s.rus.pair.upd p f }

def State.onBrake (s : State) (b : BrakeNo) (f : Brake → Brake) : State := { s with rus.brake := s.rus.brake.upd b f }

def State.onEstop (s : State) (c : EstopNo) (f : Estop → Estop) : State := { s with rus.estop := s.rus.estop.upd c f }

def State.onPilot (s : State) (o : OutletNo) (f : Pilot → Pilot) : State := { s with veh.pilot := s.veh.pilot.upd o f }

def State.onSession (s : State) (o : OutletNo) (f : Session → Session) : State :=
  { s with veh.session := s.veh.session.upd o f }

def State.onMeter (s : State) (o : OutletNo) (f : Meter → Meter) : State := { s with och.meter := s.och.meter.upd o f }

def State.onAnalysis (s : State) (o : OutletNo) (f : Analysis → Analysis) : State :=
  { s with och.analysis := s.och.analysis.upd o f }

def State.onInput (s : State) (i : InputNo) (f : Input → Input) : State := { s with och.input := s.och.input.upd i f }

def State.onLane (s : State) (l : LaneNo) (f : Lane → Lane) : State := { s with och.lane := s.och.lane.upd l f }

def State.onChan (s : State) (c : ChanNo) (f : Channel → Channel) : State := { s with spe.chan := s.spe.chan.upd c f }

def State.onLink (s : State) (l : LinkNo) (f : Link → Link) : State := { s with site.link := s.site.link.upd l f }

def State.onAerial (s : State) (a : AerialNo) (f : Aerial → Aerial) : State :=
  { s with rdr.aerial := s.rdr.aerial.upd a f }

def State.onSlot (s : State) (n : Fin 256) (f : Slot → Slot) : State := { s with keys.slot := s.keys.slot.upd n f }

def State.onImage (s : State) (t : ImageNo) (f : Image → Image) : State := { s with upd.image := s.upd.image.upd t f }

def State.onJob (s : State) (j : JobNo) (f : Job → Job) : State := { s with thm.job := s.thm.job.upd j f }

def State.onPort (s : State) (p : PortNo) (f : Port → Port) : State := { s with mbx.port := s.mbx.port.upd p f }

def State.onSource (s : State) (k : SourceNo) (f : Source → Source) : State := { s with evt.src := s.evt.src.upd k f }

/-- A change made for every object of a range in turn. -/
def forEach {n : Nat} (l : List (Fin n)) (f : Fin n → State → State) (s : State) : State :=
  l.foldl (fun s i => f i s) s

/-- Outlets 0 to 63. -/
def outlets : List OutletNo := indices 63

/-- A pending value takes effect (R10). -/
def Shadow.commit {α : Type} (x : Shadow α) : Shadow α := { now := x.pend.getD x.now, pend := none }

/-- A value is written and waits for its boundary; the last one written takes effect (R10). -/
def Shadow.write {α : Type} (a : α) (x : Shadow α) : Shadow α := { x with pend := some a }

/-- What a read of a shadowed field returns: the value last written (R10). -/
def Shadow.written {α : Type} (x : Shadow α) : α := x.pend.getD x.now

/-- The next free value (Config.freeValue), with the counter moved on. -/
def takeFree (s : State) : Nat × State := (Config.freeValue s.free, { s with free := s.free + 1 })

/-! ### Memory -/

/-- The byte at an address; 0 where nothing is listed. -/
def memGet : Memory → Nat → Byte
  | [], _ => 0
  | (k, b) :: m, a => if k = a then b else memGet m a

/-- An address with its entry removed. -/
def memDrop : Memory → Nat → Memory
  | [], _ => []
  | (k, b) :: m, a => if k = a then m else (k, b) :: memDrop m a

/-- An entry put in its place by rising address. -/
def memInsert : Memory → Nat → Byte → Memory
  | [], a, v => [(a, v)]
  | (k, b) :: m, a, v =>
    if a < k then (a, v) :: (k, b) :: m else if k = a then (a, v) :: m else (k, b) :: memInsert m a v

/-- One byte written: the value 0 removes the entry. -/
def memPut (m : Memory) (a : Nat) (v : Byte) : Memory := if v = 0 then memDrop m a else memInsert m a v

/-- Bytes written from an address on. -/
def memWrite : Memory → Nat → List Byte → Memory
  | m, _, [] => m
  | m, a, v :: vs => memWrite (memPut m a v) (a + 1) vs

/-- Bytes read from an address on. -/
def memRead : Memory → Nat → Nat → List Byte
  | _, _, 0 => []
  | m, a, n + 1 => memGet m a :: memRead m (a + 1) n

/-- A range cleared to 0. -/
def memClear (m : Memory) (a n : Nat) : Memory := m.filter (fun c => c.1 < a || a + n ≤ c.1)

/-- Addresses rise and no entry is 0. -/
def memWf : Memory → Bool
  | [] => true
  | [(_, b)] => b != 0
  | (k, b) :: (k', b') :: m => b != 0 && decide (k < k') && memWf ((k', b') :: m)

/-- Base of the pool as QSPI sees it (R389). -/
def poolBase : Nat := 0x10000000

/-- Size of the pool, 16 MiB. -/
def poolSize : Nat := 0x1000000

/-- Logical bank and code word number of a pool offset (R432, R433). -/
def codeWordOf (a : Nat) : Nat × Nat := (a / 8 % 64, a / 2048)

/-- Some byte of a range lies in a code word marked bad. -/
def poolBad (s : State) (a n : Nat) : Bool :=
  s.mem.badWords.any (fun w => (List.range n).any (fun k => codeWordOf (a + k) == w))

/-- Every byte of a code word lies in a range. -/
def covers (a n : Nat) (w : Nat × Nat) : Bool :=
  (List.range 32).all fun k =>
    let x := w.2 * 2048 + k / 8 * 512 + w.1 * 8 + k % 8
    decide (a ≤ x) && decide (x < a + n)

/-- Pool bytes read, none where a code word is bad (R450). -/
def poolRead (s : State) (a n : Nat) : Option (List Byte) :=
  if poolBad s a n then none else some (memRead s.mem.pool a n)

/-- Pool bytes written; a whole-code-word write ends its being bad (R450). -/
def poolWrite (s : State) (a : Nat) (bs : List Byte) : State :=
  { s with mem.pool := memWrite s.mem.pool a bs,
           mem.badWords := s.mem.badWords.filter (fun w => !covers a bs.length w) }

/-- A pool range cleared to 0. -/
def poolClear (s : State) (a n : Nat) : State :=
  { s with mem.pool := memClear s.mem.pool a n, mem.badWords := s.mem.badWords.filter (fun w => !covers a n w) }

/-! ### Events (R546 to R555) -/

/-- INDEX of an event of the module. -/
def moduleIndex : Nat := 0xFFFF

/-- Sources whose Kind holds F (R547). -/
def faultSources : List Nat :=
  [2, 3, 4, 10, 12, 16, 17, 18, 20, 25, 26, 27, 28, 29, 38, 48, 50, 54, 55, 56, 57, 65, 69, 82, 83, 88, 96, 98, 99, 100,
   104, 114, 115, 116, 120, 121]

/-- Level sources (R547). -/
def levelSources : List Nat := [2, 4, 5, 9, 16, 18, 19, 20, 29, 50, 52, 54, 55, 57, 65, 66, 69, 83, 115, 120]

/-- Sources that the table of R547 gives. -/
def knownSource (k : Nat) : Bool :=
  (k ≤ 12) || (16 ≤ k && k ≤ 29) || (32 ≤ k && k ≤ 40) || (48 ≤ k && k ≤ 58) || (64 ≤ k && k ≤ 69)
    || (80 ≤ k && k ≤ 88) || (96 ≤ k && k ≤ 104) || (112 ≤ k && k ≤ 122)

/-- The die that raises a source: 0 Ochre, 1 Russet, 2 Fescue, 3 Spelt, none for the control die (R603). -/
def sourceDie (k index : Nat) : Option (Fin 4) :=
  if k = 96 then
    (match index / 256 with
     | 5 | 6 => some 0
     | 7 => some 2
     | 10 => some 1
     | _ => none)
  else if k = 0 || (2 ≤ k && k ≤ 4) || k = 10 || k = 11 || (48 ≤ k && k ≤ 58) then some 1
  else if 16 ≤ k && k ≤ 29 then some 0
  else if (32 ≤ k && k ≤ 34) || k = 82 || k = 83 || k = 87 || k = 88 then some 2
  else if 64 ≤ k && k ≤ 69 then some 3
  else none

/-- OUTLET of a fault log entry: the outlet, an input's outlet, or 0xFF (R555). -/
def faultOutlet (k index : Nat) : Byte :=
  if 16 ≤ k && k ≤ 18 then BitVec.ofNat 8 (index / 8)
  else if (k = 19 || k = 24 || k = 26 || k = 28 || (32 ≤ k && k ≤ 37) || k = 39 || k = 40 || (48 ≤ k && k ≤ 53)
      || k = 58) && index < 64 then BitVec.ofNat 8 index
  else 0xFF

/-- The 64 bytes of a fault log entry (R555). -/
def faultBytes (e : FaultEntry) : List Byte :=
  let b := leBytes 4 e.fseq.toNat ++ leBytes 8 e.occ.time
    ++ [BitVec.ofNat 8 e.occ.source.val, e.occ.cause, e.outlet, BitVec.ofNat 8 e.occ.mode.toNat]
    ++ padTo 16 e.occ.data ++ leBytes 2 e.occ.index.toNat ++ [0, 0] ++ leBytes 4 e.occ.seq.toNat
    ++ leBytes 4 e.modeStatus.toNat ++ leBytes 4 e.pairStatus.toNat ++ leBytes 4 e.sched.toNat ++ leBytes 4 0
    ++ leBytes 4 0
  b ++ leBytes 4 (crc32 b)

/-- The 48 bytes of a tag mirror entry (R373). -/
def mirrorBytes (e : FaultEntry) : List Byte :=
  let b := leBytes 4 e.fseq.toNat ++ leBytes 8 e.occ.time
    ++ [BitVec.ofNat 8 e.occ.source.val, e.occ.cause, e.outlet, BitVec.ofNat 8 e.occ.mode.toNat]
    ++ ((faultBytes e).drop 16).take 28
  b ++ leBytes 4 (crc32 b)

/-- The sector is held by the field (R378). -/
def sectorHeld (s : State) (n : Nat) : Bool := s.tag.held.any (fun k => k.val == n)

/-- HEAD and FCOUNT of the module state area rewritten, with the CHECK_ST that covers them (R372, R373). -/
def tagCounters (t : Tag) : Memory :=
  let m := memWrite (memWrite t.mem 0x58 (leBytes 2 t.head.toNat)) 0x5C (leBytes 4 t.fcount.toNat)
  memWrite m 0x7C (leBytes 4 (crc32 (memRead m 0x40 60)))

/-- A fault mirrored into the tag, unless the field holds a sector it needs (R373, R379). -/
def mirrorFault (s : State) (e : FaultEntry) : State :=
  let slot := (s.tag.head.toNat + 1) % 64
  let a := 0x80 + 48 * slot
  if (List.range 3).any (fun k => sectorHeld s (a / 16 + k)) || sectorHeld s 5 || sectorHeld s 7 then s
  else
    let t := { s.tag with mem := memWrite s.tag.mem a (mirrorBytes e), head := BitVec.ofNat 16 slot,
                          fcount := s.tag.fcount + 1, mirrored := e.fseq }
    { s with tag := { t with mem := tagCounters t } }

/-- Every fault of the log not mirrored yet, oldest first. -/
def mirrorFaults (s : State) : State :=
  ((s.evt.log ++ s.evt.unflushed).filter (fun e => s.tag.mirrored.toNat < e.fseq.toNat)).foldl
    (fun s e => if s.tag.mirrored.toNat + 1 = e.fseq.toNat || s.tag.mirrored = 0 then mirrorFault s e else s) s

/-- A new fault log entry, waiting for its flush, and its mirror (R549, R555). -/
def logFault (s : State) (c : Occ) : State :=
  let e : FaultEntry :=
    { fseq := s.evt.fseq + 1, occ := c, outlet := faultOutlet c.source.val c.index.toNat, modeStatus := modeStatus s,
      pairStatus := pairStatus s, sched := schedStatus s }
  let s := { s with evt.fseq := e.fseq, evt.unflushed := s.evt.unflushed ++ [e] }
  mirrorFaults s

/-- The condition of a level source begins or ends for an object. -/
def holdingAfter (x : Source) (c : Occ) : List (BitVec 16) :=
  if levelSources.contains c.source.val then
    (if c.ended then x.holding.erase c.index
     else if x.holding.contains c.index then x.holding else c.index :: x.holding)
  else x.holding

/-- A die knows the condition that an occurrence of its begins or ends, whether or not the control die runs. -/
def noteHolding (c : Occ) (s : State) : State := s.onSource c.source fun x => { x with holding := holdingAfter x c }

/-- An occurrence reaches the aggregator: sequence number, pending flag, counter, route, fault log (R549 to R551). -/
def arrive (s : State) (c : Occ) : State :=
  let c := { c with seq := s.evt.seq + 1 }
  let x := s.evt.src.at c.source
  let s := { s with evt.seq := c.seq }
  let s := s.onSource c.source fun x =>
    { x with pending := true, counter := satAdd 32 x.counter 1 }
  let s := if !x.mask && x.route = 3 then { s with evt.routed := s.evt.routed ++ [c] } else s
  if faultSources.contains c.source.val then logFault s c else s

/-- The oldest occurrence that is no fault dropped, or else the oldest one (R552). -/
def dropOldest : List Occ → List Occ
  | [] => []
  | c :: cs =>
    if (c :: cs).all (fun c => faultSources.contains c.source.val) then cs
    else if faultSources.contains c.source.val then c :: dropOldest cs else cs

/-- An occurrence put into its die's queue of 64 (R552). -/
def queueOcc (q : DieQueue) (c : Occ) : DieQueue :=
  if q.queue.length < 64 then { q with queue := q.queue ++ [c] }
  else { queue := dropOldest q.queue ++ [c], dropped := q.dropped + 1 }

/-- An event source occurs (R549, R552, R603). -/
def raiseOcc (source index cause : Nat) (ended peer : Bool) (data : List Byte) (s : State) : State :=
  if !knownSource source then s
  else
    let c : Occ :=
      { source := Fin.ofNat 128 source, index := BitVec.ofNat 16 index, cause := BitVec.ofNat 8 cause, ended := ended,
        peer := peer, delayed := false, mode := BitVec.ofNat 4 (modeNumber s), time := legalUnits s, seq := 0,
        data := padTo 16 data }
    let s := noteHolding c s
    if controlRuns s then arrive s c
    else
      match sourceDie source index with
      | some d => { s with evt.dieQ := s.evt.dieQ.upd d (queueOcc · c) }
      | none => s

/-- An edge of a source, or the beginning of its condition. -/
def raise (source index cause : Nat) (data : List Byte) (s : State) : State :=
  raiseOcc source index cause false false data s

/-- The end of a level source's condition. -/
def raiseEnd (source index : Nat) (data : List Byte) (s : State) : State := raiseOcc source index 0 true false data s

/-- The condition of a level source holds for an object. -/
def holds (s : State) (source index : Nat) : Bool :=
  (s.evt.src.at (Fin.ofNat 128 source)).holding.contains (BitVec.ofNat 16 index)

/-! ### The tag's module state area (R372) -/

/-- Bytes 0x0040 to 0x007F of the tag. -/
def stateArea (s : State) : List Byte :=
  let b := leBytes 4 (modeStatus s).toNat ++ leBytes 4 s.rus.cause.toNat ++ leBytes 8 (legalUnits s)
    ++ leBytes 8 (s.rus.outlet.toList.foldr (fun g n => 2 * n + (if g.fault.classP then 1 else 0)) 0)
    ++ leBytes 2 s.tag.head.toNat ++ leBytes 2 0 ++ leBytes 4 s.tag.fcount.toNat ++ List.replicate 28 0
  b ++ leBytes 4 (crc32 b)

/-- Millet rewrites the module state area; a sector held by the field is written when it is free again (R378, R379). -/
def writeStateArea (s : State) : State :=
  if (List.range 4).any (fun k => sectorHeld s (4 + k)) then
    let w := (List.range 4).map (fun k => (Fin.ofNat 512 (4 + k), slice (stateArea s) (16 * k) 16, none))
    { s with tag.staged := s.tag.staged ++ w }
  else { s with tag.mem := memWrite s.tag.mem 0x40 (stateArea s) }

/-- Bytes 0x0000 to 0x003F of the tag. -/
def identityArea (s : State) : List Byte :=
  let b := [0x5A, 0x47, 0x48, 0x36, 0x34, 0x35, 0x31, 0] ++ leBytes 8 Config.serial.toNat
    ++ [BitVec.ofNat 8 (lifecycleCode s.keys.lifecycle), BitVec.ofNat 8 (positionCode s), 0, 0]
    ++ leBytes 8 s.pair.peer.toNat ++ (indices 4).flatMap (fun t => leBytes 4 (versionOf s t)) ++ leBytes 4 0
    ++ leBytes 4 Config.legalFw.toNat ++ leBytes 4 Config.legalCrc.toNat
  b ++ leBytes 4 (crc32 b)

/-- Millet rewrites the identity area (R372). -/
def writeIdentity (s : State) : State := { s with tag.mem := memWrite s.tag.mem 0 (identityArea s) }

/-- Source 2 begins or ends with the condition Degraded service, bit 12 of the mode status register. -/
def reportDegraded (was now : Word) (s : State) : State :=
  match wBit was 12, wBit now 12 with
  | false, true => raise 2 moduleIndex 0 [] s
  | true, false => raiseEnd 2 moduleIndex [] s
  | _, _ => s

/-- The mode status register is compared with its last report: a change raises source 0 and rewrites the tag (R372, R603). -/
def settle (s : State) : State :=
  if modeStatus s = s.reported then s
  else
    let t := raise 0 moduleIndex 0 [] { s with reported := modeStatus s }
    let t := reportDegraded s.reported (modeStatus s) t
    if controlRuns t then writeStateArea t else t

end Sys2Proof.Machine
end

