-- ==== Sys2Proof/Machine/Trips.lean ====
section
/-! DEFINITION. What the pilot is driven to (R206, R207, R214, R215), the opening of a coil pair, and the trip decisions
of Russet with their classes (R261 to R265, R277, R282, R285 to R289): shared by every family that decides or opens. -/

namespace Sys2Proof.Machine

/-! ### Pilot drive -/

/-- The service role that Fescue serves: the role in force, or the one that Commissioning and Recovery return to. -/
def servingRole (s : State) : Role :=
  match s.modes.base with
  | .service => s.modes.role
  | .commissioning | .recovery => s.modes.prior
  | _ => .none

/-- The standby has taken the lease, and the roles are not exchanged yet (R66, R502). -/
def takesOver (s : State) : Bool := servingRole s == .standby && s.modes.handover && s.rus.lease

/-- This module drives the pilots (R206, R498, R499, R502). -/
def drives (s : State) (o : OutletNo) : Bool :=
  s.pair.carry.at o || takesOver s ||
    (!s.veh.txStopped && !s.pair.yielded && (servingRole s == .solo || servingRole s == .active))

/-- Link word 0 in force for an outlet's session: latched from phase 1 to phase 9 (R239). -/
def linkWord (s : State) (o : OutletNo) : Word :=
  let n := s.veh.session.at o
  if n.phase = 0 then (s.veh.pilot.at o).word0.now else n.link0

/-- The session core that carries an outlet can take a high-level session (R237, R541). -/
def coreUp (s : State) (o : OutletNo) : Bool :=
  let c := s.veh.core.at (s.veh.carries.at (Fin.ofNat 8 (o.val / 8)))
  !c.silent && !c.retired

/-- The outlet offers 5 % for high-level communication: HLC_REQ, or an enabled protocol with a core to carry it (R229). -/
def offersHlc (s : State) (o : OutletNo) : Bool :=
  let w := linkWord s o
  wBit w 9 || (coreUp s o && (wBit w 14 || wBit w 13 || wBit w 12))

/-- Cable rating of a proximity code in cable coding, mA (R212). -/
def cableRating (code : Nat) : Nat :=
  match code with
  | 1 => 13000
  | 2 => 20000
  | 3 => 32000
  | 4 => 63000
  | _ => 0

/-- The current offer of an AC outlet, mA (R214). -/
def offer (s : State) (o : OutletNo) : Nat :=
  let p := s.veh.pilot.at o
  let w := linkWord s o
  let i := min (wFld w 25 7 * 1000) (wFld p.word1.now 0 8 * 1000)
  let i := if wBit w 15 then i else min i (cableRating p.prox.toNat)
  match p.classE with
  | some limit => min i limit
  | none => i

/-- Drive form and duty of an offer, duty rounded down to 0.05 % (R215). -/
def offerDrive (ma : Nat) : BitVec 2 × Nat :=
  if ma < 6000 then (1, 0) else if ma ≤ 51000 then (2, ma / 30) else (2, ma * 8 / 1000 + 1280)

/-- The outlet charges in basic form: a basic session accepted by Ochre, or an AC session held under R237. -/
def basicOffer (s : State) (o : OutletNo) : Bool :=
  let n := s.veh.session.at o
  (n.proto == 0 && (n.phase == 3 || n.phase == 6) && n.accepted && (!offersHlc s o || s.veh.slac.left.at o || n.held))
    || (n.held && n.phase == 6 && isAc s o)

/-- What the session wants of the pilot (R229, R237). -/
def wish (s : State) (o : OutletNo) : BitVec 2 × Nat :=
  let n := s.veh.session.at o
  if basicOffer s o then
    offerDrive (if n.held && n.agreed ≠ 0 then min (offer s o) (n.agreed * 100) else offer s o)
  else if n.held && n.phase == 6 then (2, 100)
  else if n.phase = 0 || (n.phase = 9 && (n.proto == 0 || (s.veh.pilot.at o).state == .A)) then (1, 0)
  else if !offersHlc s o || (isAc s o && s.veh.slac.left.at o) then (1, 0)
  else (2, 100)

/-- The drive that holds for an outlet (R206, R219). -/
def target (s : State) (o : OutletNo) : BitVec 2 × Nat :=
  if !drives s o then (0, 0)
  else if !(s.rus.outlet.at o).enable || lockedOut s o || s.modes.base == .commissioning
      || (s.veh.pilot.at o).dcRestart then (3, 0)
  else
    let p := s.veh.pilot.at o
    -- In state E or F measured the drive form in force is kept (R207).
    if (p.state == .E || p.state == .F) && (p.drive == 1 || p.drive == 2) then (p.drive, p.duty) else wish s o

/-- A change of drive waits for the outlet's pilot boundary (R207). -/
def refreshDrive (o : OutletNo) (s : State) : State :=
  s.onPilot o fun p => { p with next := if (p.drive, p.duty) = target s o then none else some (target s o) }

/-- Every pilot's drive. -/
def refreshDrives (s : State) : State := forEach outlets refreshDrive s

/-! ### Openings -/

/-- FOFFn asserted or deasserted. -/
def setFoff (b : Bool) (g : Guard) : Guard := { g with fault := { g.fault with foff := b } }

/-- The weld check of an opening starts when the pair was on (R254). -/
def openedGuard (wasOn : Bool) (now : Nat) (g : Guard) : Guard :=
  { g with fault := { g.fault with foff := true }, closeReq := false, mirrorGrant := none, onMap := false,
           mirror := g.mirror || wasOn, weldAt := if wasOn then some now else g.weldAt,
           iso := { g.iso with result := g.iso.result.map fun r => { r with afterOpen := r.afterOpen && !wasOn } } }

/-- A coil pair opens: both switches off, FOFF asserted, a close in progress and a test cancelled (R264, R269, R270, R275). -/
def openPair (o : OutletNo) (s : State) : State :=
  let p := s.rus.pair.at (coilOf o)
  let now := s.och.clock.mono
  let s := s.onPair (coilOf o) fun p =>
    { p with cmd := false, turn := .idle, test := .none, hsRb := false, lsRb := true,
             changed := if p.cmd then now else p.changed }
  s.onGuard o (openedGuard p.cmd now)

/-- A running test of a pair is abandoned: the pair goes back to its commanded state (R275). -/
def abandonTest (p : PairNo) (s : State) : State :=
  s.onPair p fun x =>
    if x.test = .none then x else { x with test := .none, hsRb := x.cmd, lsRb := true }

/-- The drop of a brake pair: both switches off. -/
def offBrake (b : BrakeNo) (s : State) : State :=
  s.onPair (brakeOf b) fun p => { p with cmd := false, turn := .idle, test := .none, hsRb := false, lsRb := true }

/-! ### Decisions -/

/-- The fault word after a decision (R262, R263). -/
def FaultWord.decided (f : FaultWord) (cause : Byte) (peer : Bool) : FaultWord :=
  { f with first := if f.first = 0 then cause else f.first, last := cause,
           relayed := if f.first = 0 then peer else f.relayed, count := satAdd 8 f.count 1 }

/-- Sends a decision of this module to its peer (R265). -/
def relay (o : OutletNo) (cause : Byte) (cls : Nat) (peer : Bool) (s : State) : State :=
  if peer || s.pair.peer = 0 then s else { s with pair.sent := s.pair.sent ++ [.trip o cause cls] }

/-- The event of a decision: class, FIRST and COUNT (R263, R554). -/
def tripEvent (o : OutletNo) (cause : Byte) (cls : Nat) (peer : Bool) (s : State) : State :=
  let f := (s.rus.outlet.at o).fault
  raiseOcc 48 o.val cause.toNat false peer [BitVec.ofNat 8 cls, f.first, f.count] s

/-- CE_TIME in force, ms (R294). -/
def ceTime (s : State) : Nat := wFld s.rus.outCfg.now 13 6 * 60000

/-- The time remaining of every running Class E timer is saved with the pair map (R290). -/
def saveTimers (s : State) : State :=
  if s.dies.russet != .running then s
  else
    let mono := s.och.clock.mono
    { s with rus.outlet := s.rus.outlet.each fun g =>
        if g.ce.ends = 0 then g else { g with ce := { g.ce with saved := (g.ce.ends - mono) / 1000 } } }

/-- CE_FRAC in force, % (R294). -/
def ceFrac (s : State) : Nat := wFld s.rus.outCfg.now 19 7

/-- A decision counted in the fault word. -/
def count (o : OutletNo) (cause : Byte) (peer : Bool) (s : State) : State :=
  s.onGuard o fun g => { g with fault := g.fault.decided cause peer }

/-- A Class P decision puts an outlet into Lockout and ends its Class E (R263, R282). -/
def lockOut (o : OutletNo) (s : State) : State :=
  let was := (s.rus.outlet.at o).fault.classE
  let s := openPair o s
  let s := s.onGuard o fun g =>
    { g with fault := { g.fault with classP := true, classE := false, foff := true },
             ce := { ClassE.none with req2E := g.ce.req2E, req2F := g.ce.req2F } }
  let s := s.onPilot o fun p => { p with classE := none, limitE := none }
  let s := s.onSession o fun n => { n with locked := n.phase != 0 }
  let s := if was then raiseEnd 50 o.val [] s else s
  refreshDrive o s

/-- An armed release is withdrawn by a Class P decision (R431). -/
def withdrawRelease (o : OutletNo) (s : State) : State :=
  if (s.rus.outlet.at o).releaseArmed then
    raise 49 o.val 0 [7] (s.onGuard o fun g => { g with releaseArmed := false, awaitsPeer := false })
  else s

/-- A Class P decision for an outlet (R263, R282). -/
def tripP (o : OutletNo) (cause : Byte) (peer : Bool) (s : State) : State :=
  let s := count o cause peer s
  let s := if lockedOut s o then abandonTest (coilOf o) s else lockOut o s
  let s := tripEvent o cause 0 peer s
  settle (relay o cause 0 peer (withdrawRelease o s))

/-- I_RATED, A (R295). -/
def ratedAmps (s : State) (o : OutletNo) : Nat := wFld (s.rus.outlet.at o).coilCfg.now 20 12

/-- The configured current limit of R606 without Class E, 0.1 A. -/
def fullLimit (s : State) (o : OutletNo) : Nat :=
  let p := s.veh.pilot.at o
  let rated := ratedAmps s o
  if isDc s o then rated * 10
  else
    let i := wFld p.word1.now 0 8
    let i := if rated = 0 then i else min i rated
    if wBit (linkWord s o) 15 then i * 10 else min (i * 10) (cableRating p.prox.toNat / 100)

/-- First entry into Class E: timer started, Fescue told (R286). -/
def enterClassE (o : OutletNo) (s : State) : State :=
  if (s.rus.outlet.at o).fault.classE then s
  else
    let limit := offer s o * ceFrac s / 100
    let s := s.onGuard o fun g =>
      { g with fault := { g.fault with classE := true }, ce := { g.ce with ends := s.och.clock.mono + 1000 * ceTime s, saved := ceTime s } }
    let high := fullLimit s o * ceFrac s / 100
    let s := s.onPilot o fun p => { p with classE := some limit, limitE := some high }
    refreshDrive o (raise 50 o.val 0 [] s)

/-- A decision between the grant and the switch-on reasserts FOFF and cancels the close (R264); any decision ends a test
of the pair (R275). -/
def cancelClose (o : OutletNo) (s : State) : State :=
  if (s.rus.pair.at (coilOf o)).turn = .granted then openPair o s else abandonTest (coilOf o) s

/-- An E-continue decision (R277, R285, R286). -/
def tripE (o : OutletNo) (cause : Byte) (peer : Bool) (s : State) : State :=
  let s := cancelClose o (count o cause peer s)
  if lockedOut s o then relay o cause 1 peer (tripEvent o cause 1 peer s)
  else
    let s := enterClassE o s
    let s := s.onGuard o fun g =>
      { g with ce := { g.ce with causes := if g.ce.causes.contains cause then g.ce.causes else cause :: g.ce.causes } }
    relay o cause 1 peer (tripEvent o cause 1 peer s)

/-- An E-open decision: the pair opens and the outlet enters the expired state (R277, R288). -/
def tripOpen (o : OutletNo) (cause : Byte) (peer : Bool) (s : State) : State :=
  let s := count o cause peer s
  if lockedOut s o then relay o cause 2 peer (tripEvent o cause 2 peer (abandonTest (coilOf o) s))
  else
    let s := openPair o (enterClassE o s)
    let s := s.onGuard o fun g => { g with ce := { g.ce with expired := true, cleared := false, supervised := false, overFor := 0 } }
    relay o cause 2 peer (tripEvent o cause 2 peer s)

/-- A cause of reaction Record (R277). -/
def recordCause (o : OutletNo) (cause : Byte) (s : State) : State :=
  tripEvent o cause 3 false (count o cause false s)

/-- Class E of an outlet ends: FIRST, LAST and COUNT return to 0 unless it is in Lockout (R262, R289). -/
def endClassE (o : OutletNo) (s : State) : State :=
  let s := s.onGuard o fun g =>
    { g with fault := { g.fault with classE := false, first := if g.fault.classP then g.fault.first else 0,
                                     last := if g.fault.classP then g.fault.last else 0,
                                     count := if g.fault.classP then g.fault.count else 0 },
             ce := { ClassE.none with req2E := g.ce.req2E, req2F := g.ce.req2F } }
  let s := s.onPilot o fun p => { p with classE := none, limitE := none }
  refreshDrive o (raiseEnd 50 o.val [] s)

/-- Class E ends when its causes have cleared, and after an expiry when the enable was cleared and set again (R288, R289). -/
def tryEndClassE (o : OutletNo) (s : State) : State :=
  let g := s.rus.outlet.at o
  if g.fault.classE && g.ce.causes.isEmpty && (!g.ce.expired || (g.ce.cleared && g.enable)) then endClassE o s else s

/-- An E-continue cause clears (R288). -/
def clearCause (o : OutletNo) (cause : Byte) (s : State) : State :=
  tryEndClassE o (s.onGuard o fun g => { g with ce := { g.ce with causes := g.ce.causes.erase cause } })

/-- The outlets that a pair of mask words names, word `lo` holding outlets 0 to 31. -/
def maskOutlets (lo hi : Word) : List OutletNo :=
  outlets.filter fun o => if o.val < 32 then wBit lo o.val else wBit hi (o.val - 32)

/-- The outlets in a brake's OUT_MASK (R296). -/
def brakeOutlets (b : Brake) : List OutletNo := maskOutlets (b.cfg.now.getD 2 0) (b.cfg.now.getD 3 0)

/-- A brake fails: pair forced off, state Failed, its outlets into Lockout (R277, R281). -/
def failBrake (b : BrakeNo) (cause : Byte) (s : State) : State :=
  let s := offBrake b s
  let s := s.onBrake b fun x =>
    { x with state := .failed, cause := cause, tqreq := false, testOk := false, fromFailed := false }
  let s := raise 56 b.val cause.toNat [] s
  (brakeOutlets (s.rus.brake.at b)).foldl (fun s o => tripP o cause false s) s

/-- A brake engages: its pair goes off (R278). -/
def engageBrake (b : BrakeNo) (s : State) : State :=
  match (s.rus.brake.at b).state with
  | .releasing | .released =>
    raise 56 b.val 0 [] ((offBrake b s).onBrake b fun x => { x with state := .engaging })
  | .testing =>
    s.onBrake b fun x => { x with state := if x.fromFailed then .failed else .engaged, tqreq := false }
  | _ => offBrake b s

/-- A fault of a pair's switches: the outlet's cause, or 0x2B for a brake pair (R277). -/
def switchFault (p : PairNo) (cause : Byte) (s : State) : State :=
  if p.val < 64 then
    let o : OutletNo := Fin.ofNat 64 p.val
    if cause = 0x20 || cause = 0x21 || cause = 0x23 then tripP o cause false s else tripOpen o cause false s
  else failBrake (Fin.ofNat 4 (p.val - 64)) 0x2B s

/-- A decision relayed by the peer is applied as the own one (R265). -/
def relayedTrip (o : OutletNo) (cause : Byte) (classP : Bool) (s : State) : State :=
  if classP then tripP o cause true s else tripOpen o cause true s

end Sys2Proof.Machine
end

