-- ==== Sys2Proof/Machine/Detect.lean ====
section
/-! DEFINITION. Russet's detectors: the quantity stream, residual current, insulation, weld check, loss of PE, redundant
current, Class E supervision, the fast path, emergency stop and the relay (R18 to R22, R241 to R265, R287). -/

namespace Sys2Proof.Machine

/-- Russet runs. -/
def russetRuns (s : State) : Bool := s.dies.russet == .running

/-- The coil pair of an outlet is commanded on. -/
def pairOn (s : State) (o : OutletNo) : Bool := (s.rus.pair.at (coilOf o)).cmd

/-! ### Limited settings taking effect (R10, R109, R293) -/

def HoldTimer.zero : HoldTimer := { count := 0, decided := false }

/-- An outlet's settings take effect, and the timers of those that change restart from 0. -/
def commitGuard (g : Guard) : Guard :=
  let r := g.residual
  let r := { r with acHold := if r.acCurve.pend.isSome then Tab.all 8 .zero else r.acHold,
                    dcHold := if r.dcCurve.pend.isSome then Tab.all 8 .zero else r.dcHold,
                    acCurve := r.acCurve.commit, dcCurve := r.dcCurve.commit }
  let g := if g.dcProt.pend.isSome then
      { g with iredBad := 0, iredGood := 0, peBad := 0, iso := { g.iso with frames := [], before := none } }
    else g
  let g := if g.coilCfg.pend.isSome then { g with ce := { g.ce with overFor := 0 } } else g
  { g with residual := r, dcProt := g.dcProt.commit, coilCfg := g.coilCfg.commit }

/-- The outlets that neither emergency-stop channel covers (R260). -/
def uncovered (w : List Word) : List OutletNo :=
  outlets.filter fun o => !(maskOutlets (w.getD 1 0) (w.getD 2 0)).contains o && !(maskOutlets (w.getD 3 0) (w.getD 4 0)).contains o

/-- Every pending limited setting takes effect (R293); outlets left uncovered are reported (R260). -/
def commitLimited (s : State) : State :=
  let estop := s.rus.estopCfg.pend.isSome
  let s := { s with rus.outlet := s.rus.outlet.each commitGuard, rus.estopCfg := s.rus.estopCfg.commit,
                    rus.outCfg := s.rus.outCfg.commit, rus.fast := s.rus.fast.each (·.commit),
                    rus.brake := s.rus.brake.each (fun b => { b with cfg := b.cfg.commit }), rus.pend := false,
                    rus.ceStep := false }
  if estop then (uncovered s.rus.estopCfg.now).foldl (fun s o => raise 58 o.val 0 [] s) s else s

/-! ### Residual current (R247 to R250) -/

/-- Values of a slot over the window, µV or µA. -/
def slotWindow (g : Guard) (k : Nat) : List Rat := g.window.map fun f => f.getD k 0

/-- Sum of the squares of a list of values. -/
def totalSq (xs : List Rat) : Rat := sumRat (mulRat xs xs)

/-- I_DC in magnitude, or I_AC, of the values is at or above a threshold in µA. -/
def reaches (dc : Bool) (xs : List Rat) (level : Nat) : Bool :=
  let n : Rat := xs.length
  let t := sumRat xs
  !xs.isEmpty &&
    (if dc then decide (level * n ≤ absRat t) else decide (level * level * n * n ≤ n * totalSq xs - t * t))

/-- LEVEL, WARN and HOLD are units of 0.1 mA and 0.1 ms. -/
def levelOf (w : Word) : Nat := wFld w 16 16

/-- One frame of a point's hold timer (R250). -/
def stepHold (dc : Bool) (xs : List Rat) (pt : Word) (h : HoldTimer) : HoldTimer :=
  if reaches dc xs (levelOf pt * 100) then
    if h.decided then h
    else { count := h.count + 1, decided := decide (wFld pt 0 16 * 100 ≤ (h.count + 1) * 64) }
  else if reaches dc xs (levelOf pt * 90) then h
  else .zero

/-- The hold timers of a curve after a frame, points in use only. -/
def stepCurve (dc : Bool) (xs : List Rat) (curve : List Word) (hs : Tab HoldTimer 8) : Tab HoldTimer 8 :=
  hs.mapN fun k h => if k < wFld (curve.getD 0 0) 0 4 then stepHold dc xs (curve.getD (k + 1) 0) h else .zero

/-- Some point has decided that had not decided before. -/
def newlyDecided (old new : Tab HoldTimer 8) : Bool := (indices 7).any fun k => (new.at k).decided && !(old.at k).decided

/-- A warning begins at WARN and ends below 0.9 × WARN. -/
def stepWarn (dc : Bool) (xs : List Rat) (curve : List Word) (was : Bool) : Bool :=
  reaches dc xs (levelOf (curve.getD 0 0) * 100) || (was && reaches dc xs (levelOf (curve.getD 0 0) * 90))

/-- Residual-current supervision after a frame. -/
def stepResidual (g : Guard) : Guard :=
  let xs := slotWindow g 7
  let r := g.residual
  { g with residual :=
    { r with acHold := stepCurve false xs r.acCurve.now r.acHold, dcHold := stepCurve true xs r.dcCurve.now r.dcHold,
             acWarn := stepWarn false xs r.acCurve.now r.acWarn, dcWarn := stepWarn true xs r.dcCurve.now r.dcWarn } }

/-! ### Insulation (R251, R252) -/

/-- P_INJ, in 0.5 s units. -/
def injector (g : Guard) : Nat := wFld g.dcProt.now 12 4

/-- Frames of the last quarter of P_INJ. -/
def settledFrames (g : Guard) : Nat := injector g * 125000 / 64

def sampleMean (xs : List Rat) : Rat := sumRat xs / xs.length

/-- Settled means of Itest, U_m and Ulink. -/
def settledMeans (fs : List (Rat × Rat × Rat)) : Rat × Rat × Rat :=
  (sampleMean (fs.map (·.1)), sampleMean (fs.map (·.2.1)) / 2, sampleMean (fs.map (·.2.2)))

/-- ρ of two half-periods, Ω/V; a value of its own where ΔItest is 0. -/
def insulationRatio (a b : Rat × Rat × Rat) (open_ : Rat) : Rat :=
  let d := b.1 - a.1
  let r := if d = 0 then open_ else absRat ((b.2.1 - a.2.1) / d)
  let u := (a.2.2 + b.2.2) / 2 / 1000000
  r / (if u < 50 then 50 else u)

/-- Sign of a test current: 0 keeps the sign before it. -/
def testSign (v : Rat) (was : Option Bool) : Option Bool :=
  if 0 < v then some true else if v < 0 then some false else was

/-- Insulation monitoring after a frame; with the new result where one completes. -/
def stepIso (now : Nat) (open_ : Rat) (vs : List Rat) (g : Guard) : Guard × Option IsoResult :=
  let i := g.iso
  let x := (vs.getD 4 0, vs.getD 0 0 + vs.getD 1 0, vs.getD 2 0)
  let sg := testSign x.1 i.sign
  if i.sign.isNone || sg = i.sign then
    ({ g with iso := { i with sign := sg, frames := if i.frames.isEmpty then [] else (x :: i.frames).take (settledFrames g) } },
     none)
  else if i.failed || i.frames.isEmpty then
    ({ g with iso := { i with sign := sg, frames := [x], before := none, failed := false } }, none)
  else
    let m := settledMeans i.frames
    let i := { i with sign := sg, frames := [x], before := some m }
    match g.iso.before with
    | none => ({ g with iso := i }, none)
    | some b =>
      let v := insulationRatio b m open_
      let r : IsoResult := { ratio := v, time := now, afterOpen := true,
                             linkOk := decide (50000000 ≤ b.2.2) && decide (50000000 ≤ m.2.2) }
      ({ g with iso := { i with result := some r, warned := decide (v < wFld g.dcProt.now 24 8 * 10) } }, some r)

/-- The free value of a ratio was used. -/
def ratioOpen (before : Option (Rat × Rat × Rat)) (after : Option (Rat × Rat × Rat)) (done : Bool) : Bool :=
  match before, after with
  | some a, some b => done && a.1 == b.1
  | _, _ => false

/-- A result lies at or above ISO_TRIP. -/
def isoAboveTrip (g : Guard) (r : IsoResult) : Bool := decide ((wFld g.dcProt.now 16 8 * 10 : Nat) ≤ r.ratio)

/-! ### DC voltages, redundant current, inputs, Class E supervision -/

/-- Frames that span 20 ms, 50 ms and 1 s. -/
def frames20ms : Nat := 313
def frames50ms : Nat := 782
def frames1s : Nat := 15625

/-- A count of frames for which a condition has held without a break, up to one past a limit. -/
def runOf (holds : Bool) (limit n : Nat) : Nat := if holds then min (n + 1) (limit + 1) else 0

/-- |(U+PE − U−PE) − Ulink| exceeds 10 % of Ulink, with Ulink at least 50 V (R256). -/
def peDeparts (vs : List Rat) : Bool :=
  let ul := vs.getD 2 0
  decide (50000000 ≤ ul) && decide (ul < 10 * absRat (vs.getD 0 0 - vs.getD 1 0 - ul))

/-- Iout and Ired disagree over the window (R257). -/
def redundantDiffers (g : Guard) : Bool :=
  let n : Rat := g.window.length
  let a := sumRat (slotWindow g 3)
  let b := sumRat (slotWindow g 5)
  let most := if absRat a < absRat b then absRat b else absRat a
  decide ((wFld g.dcProt.now 4 4 : Nat) * most + (wFld g.dcProt.now 0 4 : Nat) * 100000000 * n < 100 * absRat (a - b))

/-- A slot is enabled, and invalid or lane failed in the latest frame (R81, R90). -/
def slotBadAt (s : State) (o : OutletNo) (g : Guard) (k : Fin 8) : Bool := rusSlotEn s o k.val && 2 ≤ (g.status.at k).toNat

def slotBad (s : State) (o : OutletNo) (g : Guard) : Bool := (indices 7).any (slotBadAt s o g)

/-- The supervised current exceeds 1.05 × CE_FRAC × I_RATED (R287). -/
def overClassE (s : State) (o : OutletNo) (g : Guard) : Bool :=
  let limit : Rat := 105 * ceFrac s * wFld g.coilCfg.now 20 12 * 100
  let n : Rat := g.window.length
  decide (limit ≠ 0) &&
    (if rusDc s o then decide (limit * n < absRat (sumRat (slotWindow g 3)))
     else [3, 4, 5].any fun k => rusSlotEn s o k && decide (limit * limit * n < totalSq (slotWindow g k)))

/-- The counters of an outlet's slow paths after a frame. -/
def stepCounts (s : State) (o : OutletNo) (vs : List Rat) (g : Guard) : Guard :=
  let on := pairOn s o
  let differs := rusDc s o && redundantDiffers g
  { g with peBad := runOf (rusDc s o && on && peDeparts vs) frames20ms g.peBad,
           iredBad := runOf differs frames20ms g.iredBad, iredGood := runOf (!differs) frames1s g.iredGood,
           invalidFor := g.invalidFor.mapN fun k n => runOf (on && slotBadAt s o g (Fin.ofNat 8 k)) frames50ms n,
           validFor := runOf (!slotBad s o g) frames1s g.validFor,
           ce := { g.ce with overFor := runOf (g.ce.supervised && overClassE s o g) frames1s g.ce.overFor } }

/-! ### Decisions of a frame (R263) -/

/-- Decision classes: P, E-continue, E-open. -/
abbrev Decision := Byte × Nat

/-- The lowest code among decisions. -/
def lowestCode (ds : List Decision) : Byte := BitVec.ofNat 8 ((ds.map (·.1.toNat)).min?.getD 0)

/-- E-continue causes held by an outlet in Class E. -/
def addCauses (o : OutletNo) (cs : List Byte) (s : State) : State :=
  if (s.rus.outlet.at o).fault.classE then
    s.onGuard o fun g => { g with ce := { g.ce with causes := cs.foldl (fun l c => if l.contains c then l else c :: l) g.ce.causes } }
  else s

/-- Decisions for one outlet taken together: Class P if any is, with the lowest code (R263). -/
def decideAll (o : OutletNo) (ds : List Decision) (s : State) : State :=
  let causes := (ds.filter (·.2 = 1)).map (·.1)
  if ds.isEmpty then s
  else if ds.any (·.2 = 0) then tripP o (lowestCode ds) false s
  else if ds.any (·.2 = 2) then addCauses o causes (tripOpen o (lowestCode ds) false s)
  else addCauses o causes (tripE o (lowestCode ds) false s)

/-- What an outlet's frame decides, from its guard before and after. -/
def frameDecisions (old g : Guard) (res : Option IsoResult) : List Decision :=
  let p (b : Bool) (c : Byte) : List Decision := if b then [(c, 0)] else []
  p (newlyDecided old.residual.acHold g.residual.acHold) 0x03
    ++ p (newlyDecided old.residual.dcHold g.residual.dcHold) 0x04
    ++ p (match res with
          | some r => !isoAboveTrip g r
          | none => false) 0x05
    ++ p (g.peBad = frames20ms) 0x0A
    ++ p (g.invalidFor.toList.contains frames50ms) 0x0F
    ++ (if g.iredBad = frames20ms then [(0x10, 1)] else [])
    ++ (if g.invalidFor.toList.contains 1 then [(0x12, 1)] else [])
    ++ (if g.ce.overFor = frames1s then [(0x2C, 2)] else [])

/-- Some warning of an outlet holds. -/
def warns (g : Guard) : Bool := g.residual.acWarn || g.residual.dcWarn || g.iso.warned

/-- Warnings that begin are raised, and the end when none is left (R250, R252). -/
def reportWarnings (o : OutletNo) (old g : Guard) (isoDone : Bool) (s : State) : State :=
  let s := if g.residual.acWarn && !old.residual.acWarn || g.residual.dcWarn && !old.residual.dcWarn then
      raise 52 o.val 0 [] s else s
  let s := if isoDone && g.iso.warned then raise 52 o.val 0 [] s else s
  if warns old && !warns g then raiseEnd 52 o.val [] s else s

/-- Causes whose conditions have cleared (R257, R288). -/
def clearFrameCauses (o : OutletNo) (s : State) : State :=
  let g := s.rus.outlet.at o
  let s := if g.iredGood ≥ frames1s && g.ce.causes.contains 0x10 then clearCause o 0x10 s else s
  if g.validFor ≥ frames1s && !g.iso.failed && g.ce.causes.contains 0x12 then clearCause o 0x12 s else s

/-- The code of a slot of an outlet that the protection stream puts out for a frame, 0 where none is named. -/
def frameCode (f : Frame) (o : OutletNo) (k : Nat) : Int :=
  match f.codes.find? (·.1 == o) with
  | some x => x.2.getD k 0
  | none => 0

/-- The values and status of an outlet as Ochre puts them into a frame (R90). -/
def frameSlots (s : State) (f : Frame) (o : OutletNo) : List (Rat × BitVec 2) :=
  (List.range 8).map fun k =>
    if slotEn s o k then (linkValue s o k (frameCode f o k), slotStatusOf s o k (frameCode f o k)) else (0, 0)

/-- A frame taken into an outlet's window. -/
def takeSlots (vs : List (Rat × BitVec 2)) (g : Guard) : Guard :=
  { g with window := (vs.map (·.1) :: g.window).take 320,
           status := g.status.mapN fun k _ => (vs.getD k (0, 0)).2 }

/-- Russet takes the assignment of an outlet from a frame (R18). -/
def takeRole (s : State) (o : OutletNo) (g : Guard) : Guard := { g with role := s.och.set.roleNow.outlets.at o }

/-- A frame taken for an outlet that is not unused. -/
def frameUsed (o : OutletNo) (vs : List Rat) (old : Guard) (s : State) : State :=
  let g := stepCounts s o vs (stepResidual (s.rus.outlet.at o))
  let x := if rusDc s o then stepIso s.och.clock.mono (Config.freeValue s.free) vs g else (g, none)
  let s := if ratioOpen old.iso.before x.1.iso.before x.2.isSome then (takeFree s).2 else s
  let s := s.onGuard o fun _ => x.1
  let s := reportWarnings o old x.1 x.2.isSome s
  clearFrameCauses o (decideAll o (frameDecisions old x.1 x.2) s)

/-- A frame taken for one outlet. -/
def frameOutlet (f : Frame) (o : OutletNo) (s : State) : State :=
  let vs := frameSlots s f o
  let old := s.rus.outlet.at o
  let s := s.onGuard o (takeSlots vs)
  if rusType s o = 0 then s else frameUsed o (vs.map (·.1)) old s

/-! ### The stream (R18 to R22) -/

/-- The stream becomes stale: reported, and Class E for every energised outlet (R19, R20). -/
def streamStale (s : State) : State :=
  let was := s.rus.stream.stale
  let s := { s with rus.stream.stale := true }
  let s := if was && holds s 55 moduleIndex then s else raise 55 moduleIndex 0 [] s
  if was then s else forEach outlets (fun o s => if pairOn s o then tripE o 0x11 false s else s) s

/-- Ochre sends quantity frames: it runs, and its check holds (R22, R185). -/
def ochreSends (s : State) : Bool := s.dies.ochre == .running && !s.och.clock.checkFailed

/-- Every outlet's assignment taken from a frame. -/
def takeRoles (s : State) : State :=
  { s with rus.outlet := s.rus.outlet.mapN fun o g => takeRole s (Fin.ofNat 64 o) g }

/-- A frame with a correct check arrives: settings accepted in time take effect, and the frame is taken while the stream is
fresh (R18, R19, R111). -/
def quantityFrame (f : Frame) (s : State) : State :=
  if !russetRuns s || !f.checkOk || !ochreSends s then s
  else
    let s := takeRoles (if s.rus.pend && !f.late then commitLimited s else s)
    let st := s.rus.stream
    if st.run ≠ 0 && f.seq = st.seq + 1 then
      let s := { s with rus.stream.seq := f.seq, rus.stream.run := min (st.run + 1) 16 }
      if st.stale then s else forEach outlets (frameOutlet f) s
    else
      let s := { s with rus.stream.seq := f.seq, rus.stream.run := 1 }
      if st.run = 0 then s else streamStale s

def execQuantityFrame (frame : Frame) (s : State) : Host.Outcome State Fault Refusal := done (quantityFrame frame s)

/-- No correct frame for 192 µs (R19). -/
def streamTimeout (s : State) : State :=
  if russetRuns s then streamStale { s with rus.stream.run := 0 } else s

def execQuantityStreamTimeout (s : State) : Host.Outcome State Fault Refusal := done (streamTimeout s)

/-- 16 frames in sequence have made the stream fresh; the stale period is recorded (R19, R21). -/
def streamFresh (units : Nat) (s : State) : State :=
  if russetRuns s && s.rus.stream.stale && s.rus.stream.run ≥ 16 then
    let s := { s with rus.stream.stale := false }
    if holds s 55 moduleIndex then raiseEnd 55 moduleIndex (leBytes 4 units) s else s
  else s

def execQuantityStreamFresh (staleUnits : Nat) (s : State) : Host.Outcome State Fault Refusal :=
  done (streamFresh staleUnits s)

/-- 50 ms of staleness: every energised outlet opens into Lockout (R20). -/
def streamLockout (s : State) : State :=
  if russetRuns s && s.rus.stream.stale then
    forEach outlets (fun o s => if pairOn s o then tripP o 0x0E false s else s) s
  else s

def execStreamStaleLockout (s : State) : Host.Outcome State Fault Refusal := done (streamLockout s)

/-- 1 s of fresh stream: cause 0x11 clears on each outlet (R21). -/
def streamClassEEnd (s : State) : State :=
  if russetRuns s && !s.rus.stream.stale then
    forEach outlets (fun o s => if (s.rus.outlet.at o).ce.causes.contains 0x11 then clearCause o 0x11 s else s) s
  else s

def execStreamClassEEnd (s : State) : Host.Outcome State Fault Refusal := done (streamClassEEnd s)

/-! ### Detectors that report by themselves -/

/-- The window of W bits has reached T ones, or T zeros, with the last of the bits (R241, R242). -/
def windowReaches (w : Word) (one : Bool) (bits : Bits) : Bool :=
  let n := wFld w 0 6
  let held (l : Bits) : Bool := decide (wFld w 6 6 ≤ ((l.drop (l.length - n)).filter (· == one)).length)
  held bits && !held bits.dropLast

/-- The direction is enabled: positive at too many ones, negative at too many zeros. -/
def directionOn (w : Word) (positive : Bool) : Bool :=
  let dir := wFld w 13 2
  decide (dir = 0) || decide (dir = (if positive then 1 else 2))

/-- What the bits of an input detect in an enabled direction, positive first. -/
def fastDetects (w : Word) (bits : Bits) : Option Bool :=
  if directionOn w true && windowReaches w true bits then some true
  else if directionOn w false && windowReaches w false bits then some false
  else none

/-- The latest bits of an armed input, oldest first, since its window last began empty (R241 to R243). -/
def fastPath (i : InputNo) (bits : Bits) (s : State) : State :=
  let w := (s.rus.fast.at i).now
  match if russetRuns s && wBit w 15 && !(s.rus.capture.at i).unlocked then fastDetects w bits else none with
  | none => s
  | some positive =>
    let cause : Byte := if positive then 0x01 else 0x02
    if wBit w 12 then tripOpen (outletOf i) cause false s else tripP (outletOf i) cause false s

def execFastPathOverRange (input : InputNo) (bits : Bits) (s : State) : Host.Outcome State Fault Refusal :=
  done (fastPath input bits s)

/-- A point of a curve is in use. -/
def pointUsed (curve : List Word) (k : PointNo) : Bool := decide (k.val < wFld (curve.getD 0 0) 0 4)

/-- A point's hold timer has reached HOLD: one decision in an excursion (R250). -/
def holdExpiry (o : OutletNo) (dc : Bool) (k : PointNo) (s : State) : State :=
  let r := (s.rus.outlet.at o).residual
  let hs := if dc then r.dcHold else r.acHold
  let curve := if dc then r.dcCurve.now else r.acCurve.now
  if russetRuns s && !s.rus.stream.stale && rusType s o ≠ 0 && pointUsed curve k && !(hs.at k).decided then
    let hs := hs.upd k fun h => { h with decided := true }
    let s := s.onGuard o fun g =>
      { g with residual := if dc then { g.residual with dcHold := hs } else { g.residual with acHold := hs } }
    tripP o (if dc then 0x04 else 0x03) false s
  else s

def execRcdHoldExpiry (outlet : OutletNo) (dc : Bool) (point : PointNo) (s : State) : Host.Outcome State Fault Refusal :=
  done (holdExpiry outlet dc point s)

/-- The sign of Itest has not changed for 2 × P_INJ (R251). -/
def injectorFailure (o : OutletNo) (s : State) : State :=
  if russetRuns s && rusDc s o && !(s.rus.outlet.at o).iso.failed then
    tripE o 0x12 false (s.onGuard o fun g => { g with iso := { g.iso with failed := true, frames := [], before := none } })
  else s

def execInjectorFailure (outlet : OutletNo) (s : State) : Host.Outcome State Fault Refusal := done (injectorFailure outlet s)

/-- A weld check that was not tested (R254). -/
def weldNotTested (o : OutletNo) (s : State) : State :=
  raise 53 o.val 0 [] (s.onGuard o fun g => { g with weldAt := none, fault := { g.fault with weldNt := true } })

/-- Values of a slot in the frames of the weld check window, µV or µA. -/
def frameValues (fs : List (List Rat)) (k : Nat) : List Rat := fs.map fun f => f.getD k 0

/-- The contacts of a DC outlet are welded: |Uveh − Ulink| is in the mean below WELD_DIFF, in 5 V units. -/
def dcWelded (g : Guard) (fs : List (List Rat)) : Bool :=
  decide (meanOf (fs.map fun f => absRat (f.getD 6 0 - f.getD 2 0)) < (wFld g.dcProt.now 8 4 * 5000000 : Nat))

/-- The contacts of an AC outlet are welded: the RMS of a phase current is at least 1 A. -/
def acWelded (s : State) (o : OutletNo) (fs : List (List Rat)) : Bool :=
  !fs.isEmpty && [3, 4, 5].any fun k => rusSlotEn s o k && decide (1000000 * 1000000 * (fs.length : Rat) ≤ totalSq (frameValues fs k))

/-- The weld check window ends, from 50 ms to 90 ms after the decision, with the protection values of its frames (R254). -/
def weldCheck (o : OutletNo) (fs : List (List Rat)) (s : State) : State :=
  let g := s.rus.outlet.at o
  if !russetRuns s || g.weldAt.isNone || rusType s o = 0 then s
  else if rusDc s o && meanOf (frameValues fs 6) < 60000000 then weldNotTested o s
  else
    let s := s.onGuard o fun g => { g with weldAt := none, fault := { g.fault with weldNt := false } }
    if if rusDc s o then dcWelded g fs else acWelded s o fs then tripP o 0x06 false s else s

def execWeldCheck (outlet : OutletNo) (frames : List (List Rat)) (s : State) : Host.Outcome State Fault Refusal :=
  done (weldCheck outlet frames s)

/-- The DC voltages have departed for 20 ms on an energised outlet (R256). -/
def peLossDc (o : OutletNo) (s : State) : State :=
  if russetRuns s && rusDc s o && pairOn s o then tripP o 0x0A false s else s

def execPeLossDc (outlet : OutletNo) (s : State) : Host.Outcome State Fault Refusal := done (peLossDc outlet s)

/-- Iout and Ired have disagreed for 20 ms (R257). -/
def redundantDisagreement (o : OutletNo) (s : State) : State :=
  if russetRuns s && rusDc s o && (s.rus.outlet.at o).iredBad < frames20ms then
    tripE o 0x10 false (s.onGuard o fun g => { g with iredBad := frames20ms, iredGood := 0 })
  else s

def execRedundantCurrentDisagreement (outlet : OutletNo) (s : State) : Host.Outcome State Fault Refusal :=
  done (redundantDisagreement outlet s)

/-- 1 s has passed without a disagreement (R257). -/
def redundantEnd (o : OutletNo) (s : State) : State :=
  if russetRuns s && (s.rus.outlet.at o).ce.causes.contains 0x10 then
    clearCause o 0x10 (s.onGuard o fun g => { g with iredBad := 0, iredGood := frames1s })
  else s

def execRedundantDisagreementEnd (outlet : OutletNo) (s : State) : Host.Outcome State Fault Refusal :=
  done (redundantEnd outlet s)

/-- An enabled slot has been invalid for 50 ms on an energised outlet (R81). -/
def inputInvalidTimeout (o : OutletNo) (s : State) : State :=
  if russetRuns s && pairOn s o then tripP o 0x0F false s else s

def execInputInvalidTimeout (outlet : OutletNo) (s : State) : Host.Outcome State Fault Refusal :=
  done (inputInvalidTimeout outlet s)

/-- 10 s of Class E have passed: supervision starts (R287). -/
def supervisionStart (o : OutletNo) (s : State) : State :=
  let g := s.rus.outlet.at o
  if russetRuns s && g.fault.classE && !g.ce.expired then
    s.onGuard o fun g => { g with ce := { g.ce with supervised := true, overFor := 0 } }
  else s

def execClassESupervisionStart (outlet : OutletNo) (s : State) : Host.Outcome State Fault Refusal :=
  done (supervisionStart outlet s)

/-- The supervised current has exceeded its limit for 1 s (R287). -/
def classEOvercurrent (o : OutletNo) (s : State) : State :=
  let g := s.rus.outlet.at o
  if russetRuns s && g.ce.supervised && wFld g.coilCfg.now 20 12 ≠ 0 then tripOpen o 0x2C false s else s

def execClassEOvercurrent (outlet : OutletNo) (s : State) : Host.Outcome State Fault Refusal :=
  done (classEOvercurrent outlet s)

/-- The Class E timer has run out: cause 0x2D and the expired state, whether the pair is on or off (R288). -/
def classEExpiry (o : OutletNo) (s : State) : State :=
  let g := s.rus.outlet.at o
  if russetRuns s && g.fault.classE && g.ce.ends ≠ 0 then
    tripOpen o 0x2D false (s.onGuard o fun g => { g with ce := { g.ce with ends := 0, saved := 0 } })
  else s

def execClassETimerExpiry (outlet : OutletNo) (s : State) : Host.Outcome State Fault Refusal := done (classEExpiry outlet s)

/-! ### Emergency stop (R258 to R260) -/

/-- The outlets that a channel covers. -/
def estopOutlets (s : State) (c : EstopNo) : List OutletNo :=
  let w := s.rus.estopCfg.now
  maskOutlets (w.getD (1 + 2 * c.val) 0) (w.getD (2 + 2 * c.val) 0)

/-- The brakes that a channel covers. -/
def estopBrakes (s : State) (c : EstopNo) : List BrakeNo :=
  (indices 3).filter fun b => wBit (s.rus.estopCfg.now.getD 0 0) (4 + 4 * c.val + b.val)

/-- A decision for everything that a channel covers: outlets trip, brakes engage. -/
def estopTrip (c : EstopNo) (cause : Byte) (s : State) : State :=
  let s := raise 54 c.val cause.toNat [] s
  let s := (estopOutlets s c).foldl (fun s o => tripP o cause false s) s
  (estopBrakes s c).foldl (fun s b => engageBrake b s) s

/-- ES_FILT of consecutive equal samples, one each 10 µs (R258). -/
def filterPassed (s : State) (samples : Nat) : Bool := decide (wFld (s.rus.estopCfg.now.getD 0 0) 0 4 * 10 ≤ samples)

/-- An input's accepted level: a stop acts at once, both inputs at run leave the stop state. -/
def estopLevel (c : EstopNo) (inputB stop : Bool) (samples : Nat) (s : State) : State :=
  if !russetRuns s || !filterPassed s samples then s
  else
    let s := s.onEstop c fun e => if inputB then { e with b := stop } else { e with a := stop }
    let e := s.rus.estop.at c
    if e.a || e.b then
      if e.stop then s
      else estopTrip c (if c.val = 0 then 0x0B else 0x0C) (s.onEstop c fun e => { e with stop := true })
    else if e.stop || e.disc then
      raiseEnd 54 c.val [] (s.onEstop c fun e => { e with stop := false, disc := false })
    else s

def execEstopLevelAccepted (channel : EstopNo) (inputB stop : Bool) (samples : Nat) (s : State) :
    Host.Outcome State Fault Refusal :=
  done (estopLevel channel inputB stop samples s)

/-- The inputs of a channel have differed for more than 20 ms. -/
def estopDiscrepancy (c : EstopNo) (s : State) : State :=
  let e := s.rus.estop.at c
  if russetRuns s && e.a != e.b && !e.disc then estopTrip c 0x0D (s.onEstop c fun e => { e with disc := true }) else s

def execEstopDiscrepancy (channel : EstopNo) (s : State) : Host.Outcome State Fault Refusal :=
  done (estopDiscrepancy channel s)

/-! ### Relay (R265) -/

def execTripRelay (outlet : OutletNo) (cause : Byte) (classP : Bool) (s : State) : Host.Outcome State Fault Refusal :=
  done (if russetRuns s then relayedTrip outlet cause classP s else s)

end Sys2Proof.Machine
end

