-- ==== Sys2Proof/Machine/Outputs.lean ====
section
/-! DEFINITION. Russet's coil pairs: permissives, close and open, mirrored grants, readback, pulse tests and the mirror
contact (R28 to R33, R42, R264, R268 to R277, R292, R498). -/

namespace Sys2Proof.Machine

/-! ### Permissives (R28) -/

/-- 10 s, the age limit of the pre-close insulation test, and 1 ms, that of a mirror grant, in µs. -/
def preCloseUs : Nat := 10000000
def mirrorUs : Nat := 1000

/-- Permissive 6: result and pre-close test of a DC outlet (R252). -/
def insulationOk (s : State) (o : OutletNo) : Bool :=
  let g := s.rus.outlet.at o
  !rusDc s o ||
    (match g.iso.result with
     | some r => isoAboveTrip g r && r.afterOpen && r.linkOk && decide (s.och.clock.mono ≤ r.time + preCloseUs)
     | none => false)

/-- A failed brake lists the outlet in its OUT_MASK. -/
def brakeFailedFor (s : State) (o : OutletNo) : Bool :=
  s.rus.brake.toList.any fun b => b.state == .failed && (brakeOutlets b).contains o

/-- Permissive 9: the lease in Paired active, a mirror grant of the last 1 ms in Paired standby (R28, R292). -/
def leasePermits (s : State) (o : OutletNo) : Bool :=
  match roleNow s.modes with
  | .active => s.rus.lease
  | .standby =>
    match (s.rus.outlet.at o).mirrorGrant with
    | some t => decide (s.och.clock.mono ≤ t + mirrorUs)
    | none => false
  | _ => true

/-- The twelve permissives in their order. -/
def permissives (s : State) (o : OutletNo) : List Bool :=
  let g := s.rus.outlet.at o
  [g.enable, !g.fault.classP, !estopActive s, !s.rus.stream.stale && !slotBad s o g,
   !(g.residual.acWarn || g.residual.dcWarn), insulationOk s o, !g.ce.expired, !brakeFailedFor s o, leasePermits s o,
   g.pilot == .C || g.pilot == .D, !s.sup.pfw, s.dies.fescueBeat]

/-- Order number of the first permissive that does not hold. -/
def firstFailing : Nat → List Bool → Option Nat
  | _, [] => none
  | n, b :: bs => if b then firstFailing (n + 1) bs else some n

/-- The order number that refuses a close, none when every permissive holds: the first that fails (R29). DESIGN CHOICE: while
Fescue's heartbeat is missing and a lower-numbered permissive fails too, that lower number is the one returned, not the 12 of
R34. -/
def closeRefusal (s : State) (o : OutletNo) : Option Nat := firstFailing 1 (permissives s o)

/-! ### Close and open -/

/-- A close is refused: the number goes to Fescue and into the event (R29). -/
def refuseClose (o : OutletNo) (n : Nat) (s : State) : State :=
  let s := (s.onGuard o fun g => { g with closeReq := false }).onSession o fun x =>
    { x with refusedAt := some s.och.clock.mono }
  raise 51 o.val 0 [BitVec.ofNat 8 n] s

/-- A close is granted: FOFF deasserts, a test of the pair is abandoned, and the standby is granted the mirror (R264, R275, R292). -/
def grantClose (o : OutletNo) (s : State) : State :=
  let s := (abandonTest (coilOf o) s).onPair (coilOf o) fun p => { p with turn := .granted }
  let s := s.onGuard o fun g => { g with fault := { g.fault with foff := false }, mirrorGrant := none }
  if roleNow s.modes == .active && s.pair.peer ≠ 0 then { s with pair.sent := s.pair.sent ++ [.mirrorGrant o] } else s

/-- The pair is off and no close of it is running. -/
def pairIdle (s : State) (o : OutletNo) : Bool := !pairOn s o && (s.rus.pair.at (coilOf o)).turn = .idle

/-- Russet decides a close request that is in place. In Paired standby it waits for the mirror grant (R292, R525). -/
def decideClose (o : OutletNo) (s : State) : State :=
  match closeRefusal s o with
  | none => grantClose o s
  | some n => refuseClose o n s

/-- Fescue may ask for a close: Ochre has accepted the session start, the session is in phase 5 or 6, and the filtered state is
C or D (R230, R233). -/
def mayAskClose (s : State) (o : OutletNo) : Bool :=
  let n := s.veh.session.at o
  let st := (s.veh.pilot.at o).state
  n.accepted && (n.phase = 5 || n.phase = 6) && (st == .C || st == .D)

/-- Fescue requests close. While Russet holds every output, only decisions and open requests change one (R35). -/
def closeRequest (o : OutletNo) (openSameCycle : Bool) (s : State) : State :=
  if !russetRuns s || !pairIdle s o || !mayAskClose s o || s.modes.hbLoss then s
  else if openSameCycle then refuseClose o 2 s
  else
    let s := s.onGuard o fun g => { g with closeReq := true }
    if roleNow s.modes == .standby && !leasePermits s o then s else decideClose o s

def execCloseRequest (outlet : OutletNo) (openSameCycle : Bool) (s : State) : Host.Outcome State Fault Refusal :=
  done (closeRequest outlet openSameCycle s)

/-- The standby receives a mirror grant: a close request in place is decided (R292). -/
def mirrorGrant (o : OutletNo) (s : State) : State :=
  if !russetRuns s || roleNow s.modes != .standby then s
  else
    let s := s.onGuard o fun g => { g with mirrorGrant := some s.och.clock.mono }
    if (s.rus.outlet.at o).closeReq && pairIdle s o then decideClose o s else s

def execMirrorGrant (outlet : OutletNo) (s : State) : Host.Outcome State Fault Refusal := done (mirrorGrant outlet s)

/-- The low-side switch turns on; a weld check that still runs is abandoned (R254, R264). -/
def switchOn (o : OutletNo) (s : State) : State :=
  if russetRuns s && (s.rus.pair.at (coilOf o)).turn = .granted then
    let now := s.och.clock.mono
    let s := s.onPair (coilOf o) fun p => { p with turn := .lowOn, cmd := true, lsRb := true, changed := now }
    let s := s.onGuard o fun g => { g with onMap := true, closeReq := false }
    if (s.rus.outlet.at o).weldAt.isSome then weldNotTested o s else s
  else s

def execCoilPairSwitchOn (outlet : OutletNo) (s : State) : Host.Outcome State Fault Refusal := done (switchOn outlet s)

/-- The high-side switch turns on; a stale stream puts the outlet into Class E (R20, R269). -/
def highSideOn (o : OutletNo) (s : State) : State :=
  if russetRuns s && (s.rus.pair.at (coilOf o)).turn = .lowOn then
    let s := s.onPair (coilOf o) fun p => { p with turn := .bothOn, hsRb := true }
    let s := s.onGuard o fun g => { g with mirror := false }
    if s.rus.stream.stale then tripE o 0x11 false s else s
  else s

def execCoilHighSideOn (outlet : OutletNo) (s : State) : Host.Outcome State Fault Refusal := done (highSideOn outlet s)

/-- A ball voltage against the thresholds of R271. -/
inductive RbLevel where
  /-- Below 2 V. -/
  | low
  | mid
  /-- Above VIN_SW − 3 V. -/
  | high
deriving DecidableEq, Repr

/-- The level of a ball voltage at a VIN_SW, in mV. -/
def levelAt (v vin : Int) : RbLevel := if vin - 3000 < v then .high else if v < 2000 then .low else .mid

/-- The readback of a pair as sampled. -/
def readback (p : PairNo) (vh vl : RbLevel) (s : State) : State :=
  s.onPair p fun x => { x with hsRb := vh == .high, lsRb := vl == .low }

/-- The both-on row is checked within 100 µs of the turn-on (R269). -/
def turnOnCheck (o : OutletNo) (vh vl : RbLevel) (s : State) : State :=
  if russetRuns s && (s.rus.pair.at (coilOf o)).turn = .bothOn then
    let s := (readback (coilOf o) vh vl s).onPair (coilOf o) fun p => { p with turn := .idle }
    if vh = .high && vl = .low then s else switchFault (coilOf o) 0x22 s
  else s

def execCoilTurnOnCheck (outlet : OutletNo) (rb : Readback) (s : State) : Host.Outcome State Fault Refusal :=
  done (turnOnCheck outlet (levelAt rb.vh rb.vin) (levelAt rb.vl rb.vin) s)

/-- Fescue asks for an opening (R30). -/
def execFescueOpenRequest (outlet : OutletNo) (s : State) : Host.Outcome State Fault Refusal :=
  done (if russetRuns s then openPair outlet s else s)

/-- Russet's lease timer runs out; Fescue three-states the pilots and stops transmitting (R36, R498). -/
def leaseExpiry (s : State) : State :=
  if russetRuns s then
    let s := { s with rus.lease := false }
    if roleNow s.modes == .active then refreshDrives { s with veh.txStopped := true } else s
  else s

def execLeaseTimerExpiry (s : State) : Host.Outcome State Fault Refusal := done (leaseExpiry s)

/-- An idle outlet's pending modes take effect (R42). -/
def pendingModes (o : OutletNo) (s : State) : State :=
  if (s.veh.pilot.at o).state = .A && !pairOn s o then
    let auth := match s.rdr.authPend.at o with
      | some b => s.rdr.auth.upd o fun w => wSetFld w 0 1 (if b then 1 else 0)
      | none => s.rdr.auth
    { s with och.ha := s.och.ha.upd o fun b => (s.och.haPend.at o).getD b, och.haPend := s.och.haPend.put o none,
             veh.ha := s.veh.ha.upd o fun b => (s.veh.haPend.at o).getD b, veh.haPend := s.veh.haPend.put o none,
             rdr.auth := auth, rdr.authPend := s.rdr.authPend.put o none }
  else s

/-- The modes of an outlet that wait for it to be idle: metering, link and authorisation (R42). DESIGN CHOICE: none of the
status words that the spec lays out has a place for them. -/
def modesPending (s : State) (o : OutletNo) : Option Bool × Option Bool × Option Bool :=
  (s.och.haPend.at o, s.veh.haPend.at o, s.rdr.authPend.at o)

def execPendingModeApply (outlet : OutletNo) (s : State) : Host.Outcome State Fault Refusal := done (pendingModes outlet s)

/-! ### Switch faults (R271, R277) -/

/-- A switch draws more than its threshold. -/
def overCurrent (p : PairNo) (s : State) : State :=
  let x := s.rus.pair.at p
  if russetRuns s && (x.cmd || x.turn ≠ .idle || x.test = .on) then switchFault p 0x24 s else s

def execSwitchOverCurrent (pair : PairNo) (s : State) : Host.Outcome State Fault Refusal := done (overCurrent pair s)

/-- The cause of a reading that departs from its row (R271). -/
def readbackCause (on : Bool) (vh vl : RbLevel) : Option Byte :=
  if on then
    (if vl = .high then some 0x27 else if vh ≠ .high then some 0x22 else if vl = .mid then some 0x22 else none)
  else if vh ≠ .low then some 0x20 else none

/-- PT_INT in µs. -/
def testInterval (s : State) : Nat := wFld s.rus.outCfg.now 26 6 * 1000000

/-- Place of a module's test of a pair within PT_INT, µs; module B tests later (R272). -/
def testSlot (s : State) (moduleB : Bool) (p : PairNo) : Nat :=
  p.val * testInterval s / 68 + (if moduleB then testInterval s / 136 else 0)

/-- A moment, µs after the last legal tick, lies in the peer's test slot of a pair: from 10 µs before its start to 1 ms after
(R571). -/
def peerTests (s : State) (p : PairNo) (us : Nat) : Bool :=
  let n := testInterval s
  positionCode s ≠ 0 &&
    decide ((s.och.clock.us + us + 10 + n - testSlot s (positionCode s == 1) p % n) % n ≤ 1010)

/-- A departure for 3 samples, outside tests and turn-ons, and outside the peer's test slots in a pair. -/
def readbackDeparture (p : PairNo) (vh vl : RbLevel) (us : Nat) (s : State) : State :=
  let x := s.rus.pair.at p
  if russetRuns s && x.test = .none && x.turn = .idle && !peerTests s p us then
    let s := readback p vh vl s
    match readbackCause x.cmd vh vl with
    | some c => switchFault p c s
    | none => s
  else s

def execReadbackDeparture (pair : PairNo) (rb : Readback) (us : Nat) (s : State) : Host.Outcome State Fault Refusal :=
  done (readbackDeparture pair (levelAt rb.vh rb.vin) (levelAt rb.vl rb.vin) us s)

/-! ### Pulse tests (R272 to R275) -/

/-- The brake of a brake pair. -/
def pairBrake (p : PairNo) : Option BrakeNo := if p.val < 64 then none else some (Fin.ofNat 4 (p.val - 64))

/-- A test falls away: 200 ms after a change of the pair, during its turn-on, or in a holding test (R275). -/
def testMoved (s : State) (p : PairNo) : Bool :=
  let x := s.rus.pair.at p
  (x.changed ≠ 0 && decide (s.och.clock.mono < x.changed + 200000)) || x.turn ≠ .idle || x.test ≠ .none ||
    (match pairBrake p with
     | some b => (s.rus.brake.at b).state == .testing
     | none => false)

/-- A pair's test begins: an off-pulse on a pair that is on, an on-pulse on one that is off (R272). -/
def startTest (p : PairNo) (s : State) : State :=
  if !russetRuns s || testMoved s p then s
  else
    let paired := decide (s.pair.peer ≠ 0)
    s.onPair p fun x =>
      if !x.cmd then { x with test := .on, hsRb := true }
      else if !paired && !x.side then { x with test := .offLow, side := true, lsRb := false }
      else { x with test := .offHigh, side := false, hsRb := false }

def execPulseTestStart (pair : PairNo) (s : State) : Host.Outcome State Fault Refusal := done (startTest pair s)

/-- A test's check: the pair's own cause, or a cross-fault on it and on every other pair that changed. -/
def testFaults (p : PairNo) (own : Option Byte) (others : List PairNo) (s : State) : State :=
  let s := match own with
    | some c => switchFault p c s
    | none => if others.isEmpty then s else switchFault p 0x23 s
  (others.filter (· ≠ p)).foldl (fun s q => switchFault q 0x23 s) s

/-- PT_LEN − 50 µs into an off-pulse (R273). -/
def offPulseCheck (p : PairNo) (vh vl : RbLevel) (others : List PairNo) (s : State) : State :=
  if !russetRuns s then s
  else match (s.rus.pair.at p).test with
    | .offHigh => testFaults p (if vh = .low then none else some 0x20) others (readback p vh vl s)
    | .offLow => testFaults p (if vl = .high then none else some 0x21) others (readback p vh vl s)
    | _ => s

def execOffPulseCheck (pair : PairNo) (rb : Readback) (others : List PairNo) (s : State) :
    Host.Outcome State Fault Refusal :=
  done (offPulseCheck pair (levelAt rb.vh rb.vin) (levelAt rb.vl rb.vin) others s)

/-- The pulsed switch turns back on. -/
def offPulseEnd (p : PairNo) (s : State) : State :=
  if !russetRuns s then s
  else match (s.rus.pair.at p).test with
    | .offHigh => s.onPair p fun x => { x with test := .restoreHigh, hsRb := true }
    | .offLow => s.onPair p fun x => { x with test := .restoreLow, lsRb := true }
    | _ => s

def execOffPulseEnd (pair : PairNo) (s : State) : Host.Outcome State Fault Refusal := done (offPulseEnd pair s)

/-- 50 µs after the pulse the switch conducts again (R273 step 5). -/
def offPulseRestore (p : PairNo) (vh vl : RbLevel) (s : State) : State :=
  let ended (s : State) : State := (readback p vh vl s).onPair p fun x => { x with test := .none }
  if !russetRuns s then s
  else match (s.rus.pair.at p).test with
    | .restoreHigh => testFaults p (if vh = .high then none else some 0x22) [] (ended s)
    | .restoreLow => testFaults p (if vl = .low then none else some 0x22) [] (ended s)
    | _ => s

def execOffPulseRestoreCheck (pair : PairNo) (rb : Readback) (s : State) : Host.Outcome State Fault Refusal :=
  done (offPulseRestore pair (levelAt rb.vh rb.vin) (levelAt rb.vl rb.vin) s)

/-- 40 µs into an on-pulse (R274). -/
def onPulseCheck (p : PairNo) (vl : RbLevel) (others : List PairNo) (s : State) : State :=
  if russetRuns s && (s.rus.pair.at p).test = .on then
    testFaults p (if vl = .high then none else some 0x21) others (s.onPair p fun x => { x with lsRb := vl == .low })
  else s

def execOnPulseCheck (pair : PairNo) (rb : Readback) (others : List PairNo) (s : State) :
    Host.Outcome State Fault Refusal :=
  done (onPulseCheck pair (levelAt rb.vl rb.vin) others s)

/-- The on-pulse ends: the high-side switch turns off. -/
def onPulseEnd (p : PairNo) (s : State) : State :=
  if russetRuns s && (s.rus.pair.at p).test = .on then
    s.onPair p fun x => { x with test := .none, hsRb := false, lsRb := true }
  else s

def execOnPulseEnd (pair : PairNo) (s : State) : Host.Outcome State Fault Refusal := done (onPulseEnd pair s)

/-! ### Mirror contact (R276) -/

/-- MIR_EN of an outlet. -/
def mirrorFitted (s : State) (o : OutletNo) : Bool := wBit (s.rus.outlet.at o).coilCfg.now 11

/-- A level of COILFBn shows the contacts open, as MIR_POL selects (R295). -/
def levelShowsOpen (s : State) (o : OutletNo) (high : Bool) : Bool := high != wBit (s.rus.outlet.at o).coilCfg.now 10

/-- COILFBn shows the contacts open or closed. -/
def showMirror (o : OutletNo) (showsOpen : Bool) (s : State) : State := s.onGuard o fun g => { g with mirror := showsOpen }

/-- A decision of the mirror contact: 0x25 P for contacts that stay or go closed, 0x26 E-open for open ones. -/
def contactFault (o : OutletNo) (showsOpen : Bool) (s : State) : State :=
  if showsOpen then tripOpen o 0x26 false s else tripP o 0x25 false s

/-- COILFBn has not followed a change of the pair within MIR_T. -/
def mirrorTimeout (o : OutletNo) (showsOpen : Bool) (s : State) : State :=
  if !russetRuns s then s
  else
    let t := showMirror o showsOpen s
    if mirrorFitted s o && showsOpen == pairOn s o then contactFault o showsOpen t else t

def execMirrorTimeout (outlet : OutletNo) (level : Bool) (s : State) : Host.Outcome State Fault Refusal :=
  done (mirrorTimeout outlet (levelShowsOpen s outlet level) s)

/-- COILFBn has changed without a change of the pair for 3 samples. -/
def mirrorUncommanded (o : OutletNo) (showsOpen : Bool) (s : State) : State :=
  if !russetRuns s then s
  else
    let t := showMirror o showsOpen s
    if mirrorFitted s o then contactFault o showsOpen t else t

def execMirrorUncommandedChange (outlet : OutletNo) (level : Bool) (s : State) : Host.Outcome State Fault Refusal :=
  done (mirrorUncommanded outlet (levelShowsOpen s outlet level) s)

end Sys2Proof.Machine
end

