-- ==== Sys2Proof/Machine/Brakes.lean ====
section
/-! DEFINITION. Brake pairs: release, engage and holding tests (R278 to R281, R291, R296). -/

namespace Sys2Proof.Machine

/-- Word k of a brake's configuration in force (R296). -/
def brakeWord (b : Brake) (k : Nat) : Word := b.cfg.now.getD k 0

/-- T_ENG in µs, and HT_DUE in hours. -/
def engageUs (b : Brake) : Nat := wFld (brakeWord b 0) 16 8 * 5000
def dueHours (b : Brake) : Nat := wFld (brakeWord b 1) 0 16

/-- A brake changes state (R297), reported by source 56. -/
def setBrake (b : BrakeNo) (st : BrakeState) (s : State) : State :=
  raise 56 b.val 0 [] (s.onBrake b fun x => { x with state := st })

/-- The lease as a brake release or a holding test needs it (R291). -/
def brakeLease (s : State) : Bool := roleNow s.modes != .active || s.rus.lease

/-- An emergency-stop channel that covers the brake is in the stop state or in discrepancy. -/
def brakeStopped (s : State) (b : BrakeNo) : Bool :=
  (indices 1).any fun c =>
    let e := s.rus.estop.at c
    (e.stop || e.disc) && wBit (s.rus.estopCfg.now.getD 0 0) (4 + 4 * c.val + b.val)

/-- A holding test has passed within the last HT_DUE hours, or none is needed. -/
def testInDate (s : State) (b : Brake) : Bool :=
  dueHours b = 0 ||
    (match b.passedAt with
     | some t => decide (s.och.clock.mono ≤ t + dueHours b * 3600000000)
     | none => false)

/-- The number of the first condition of R278 that refuses a release. -/
def releaseRefusal (s : State) (b : BrakeNo) : Option Nat :=
  let x := s.rus.brake.at b
  firstFailing 1 [x.state == .engaged, !brakeStopped s b, brakeLease s, testInDate s x]

/-- A granted release: the pair switches on (R269, R278). -/
def releaseBrake (b : BrakeNo) (s : State) : State :=
  let now := s.och.clock.mono
  let s := (abandonTest (brakeOf b) s).onPair (brakeOf b) fun p =>
    { p with cmd := true, hsRb := true, lsRb := true, changed := now }
  setBrake b .releasing s

/-- The detail that refuses a holding test: 5 not Engaged for T_ENG, 3 no lease. A brake in Failed may be tested, which is
how it leaves that state (R280, R281, R422). -/
def testRefusal (s : State) (b : BrakeNo) : Option Nat :=
  let x := s.rus.brake.at b
  if x.state != .failed && (x.state != .engaged || decide (s.och.clock.mono < x.since + engageUs x)) then some 5
  else if !brakeLease s then some 3
  else none

/-- A holding test begins: TQREQ raised (R280). -/
def startHolding (b : BrakeNo) (s : State) : State :=
  let failed := (s.rus.brake.at b).state == .failed
  setBrake b .testing ((abandonTest (brakeOf b) s).onBrake b fun x =>
    { x with tqreq := true, testOk := false, htDelta := 0, fromFailed := failed })

/-- BI_MIN and BI_MAX, mA. -/
def coilMin (b : Brake) : Nat := wFld (brakeWord b 0) 8 8 * 10
def coilMax (b : Brake) : Nat := wFld (brakeWord b 0) 0 8 * 10

/-- A fall of at least 5 % from a maximum before it: the armature pulls in. -/
def dips : Nat → List Nat → Bool
  | _, [] => false
  | top, c :: cs => decide (c * 100 ≤ top * 95 ∧ 0 < top) || dips (max top c) cs

/-- The current samples of a release, in mA, rise above BI_MIN and show the dip. -/
def profileOk (b : Brake) (rise : List Nat) : Bool := rise.any (fun c => decide (coilMin b < c)) && dips 0 rise

/-- T_REL after a release (R279). -/
def releaseCheck (b : BrakeNo) (released : Bool) (rise : List Nat) (s : State) : State :=
  if russetRuns s && (s.rus.brake.at b).state == .releasing then
    if !released then failBrake b 0x28 s
    else if !profileOk (s.rus.brake.at b) rise then failBrake b 0x29 s
    else setBrake b .released s
  else s

def execBrakeReleaseCheck (brake : BrakeNo) (released : Bool) (rise : List Nat) (s : State) :
    Host.Outcome State Fault Refusal :=
  done (releaseCheck brake released rise s)

/-- T_ENG after an engage (R279). -/
def engageCheck (b : BrakeNo) (engaged : Bool) (s : State) : State :=
  if russetRuns s && (s.rus.brake.at b).state == .engaging then
    if engaged then setBrake b .engaged (s.onBrake b fun x => { x with since := s.och.clock.mono })
    else failBrake b 0x28 s
  else s

def execBrakeEngageCheck (brake : BrakeNo) (engaged : Bool) (s : State) : Host.Outcome State Fault Refusal :=
  done (engageCheck brake engaged s)

/-- The last three current samples, in mA, lie outside BI_MIN to BI_MAX. -/
def outsideLimits (b : Brake) (currents : List Nat) : Bool :=
  decide (3 ≤ currents.length)
    && (currents.drop (currents.length - 3)).all fun c => decide (c < coilMin b) || decide (coilMax b < c)

/-- A released brake's current has left its limits for 3 samples (R279). -/
def currentFault (b : BrakeNo) (currents : List Nat) (s : State) : State :=
  if russetRuns s && (s.rus.brake.at b).state == .released && outsideLimits (s.rus.brake.at b) currents then
    failBrake b 0x29 s
  else s

def execBrakeCurrentFault (brake : BrakeNo) (currents : List Nat) (s : State) : Host.Outcome State Fault Refusal :=
  done (currentFault brake currents s)

/-! ### Position count of a holding test (R280) -/

/-- Quadrant of the two encoder inputs in their order of rotation. -/
def encoderPhase (x : Bool × Bool) : Nat :=
  match x with
  | (false, false) => 0
  | (true, false) => 1
  | (true, true) => 2
  | (false, true) => 3

/-- The largest departure from the count at the start, and whether both inputs ever changed in one sample. -/
def encoderMoves : Nat → Int → List (Bool × Bool) → Nat × Bool
  | _, _, [] => (0, false)
  | q, n, x :: xs =>
    let d := (encoderPhase x + 4 - q) % 4
    let n := if d = 1 then n + 1 else if d = 3 then n - 1 else n
    let r := encoderMoves (encoderPhase x) n xs
    (max n.natAbs r.1, d = 2 || r.2)

/-- HT_CNT in counts. -/
def countLimit (b : Brake) : Nat := wFld (brakeWord b 1) 24 8

/-- Movement over the samples of a test, and whether it lies beyond HT_CNT. -/
def movement (b : Brake) (samples : List (Bool × Bool)) : Nat × Bool :=
  let r := encoderMoves (encoderPhase (samples.headD (false, false))) 0 samples
  (r.1, decide (countLimit b < r.1) || r.2)

/-- HT_DELTA holds the largest movement of the test. -/
def noteDelta (b : BrakeNo) (delta : Nat) (s : State) : State :=
  s.onBrake b fun x => { x with htDelta := BitVec.ofNat 16 (max x.htDelta.toNat (min delta 65535)) }

/-- The samples of a test so far: at one beyond HT_CNT torque is off at once, with cause 0x2A (R280). -/
def holdingMovement (b : BrakeNo) (samples : List (Bool × Bool)) (s : State) : State :=
  if russetRuns s && (s.rus.brake.at b).state == .testing then
    let m := movement (s.rus.brake.at b) samples
    let s := noteDelta b m.1 s
    if m.2 then failBrake b 0x2A s else s
  else s

def execHoldingTestMovement (brake : BrakeNo) (samples : List (Bool × Bool)) (s : State) :
    Host.Outcome State Fault Refusal :=
  done (holdingMovement brake samples s)

/-- TQREQ is lowered at HT_RAMP + HT_LEN (R280 step 4). -/
def torqueEnd (b : BrakeNo) (s : State) : State :=
  if russetRuns s && (s.rus.brake.at b).state == .testing then s.onBrake b fun x => { x with tqreq := false } else s

def execHoldingTestTorqueEnd (brake : BrakeNo) (s : State) : Host.Outcome State Fault Refusal := done (torqueEnd brake s)

/-- The test passes: TEST_OK, and Engaged again (R280 step 5, R281). -/
def passHolding (b : BrakeNo) (s : State) : State :=
  let now := s.och.clock.mono
  setBrake b .engaged (s.onBrake b fun x =>
    { x with tqreq := false, testOk := true, overdue := false, passedAt := some now, fromFailed := false,
             since := if x.fromFailed then now else x.since })

/-- Counting ends, with every sample of the test. -/
def holdingEnd (b : BrakeNo) (samples : List (Bool × Bool)) (s : State) : State :=
  if russetRuns s && (s.rus.brake.at b).state == .testing then
    let m := movement (s.rus.brake.at b) samples
    let s := noteDelta b m.1 s
    if m.2 then failBrake b 0x2A s else passHolding b s
  else s

def execHoldingTestEnd (brake : BrakeNo) (samples : List (Bool × Bool)) (s : State) : Host.Outcome State Fault Refusal :=
  done (holdingEnd brake samples s)

/-- HT_DUE has run out since the last passed test (R297). -/
def holdingOverdue (b : BrakeNo) (s : State) : State :=
  if russetRuns s && !testInDate s (s.rus.brake.at b) then s.onBrake b fun x => { x with overdue := true } else s

def execHoldingTestOverdue (brake : BrakeNo) (s : State) : Host.Outcome State Fault Refusal :=
  done (holdingOverdue brake s)

end Sys2Proof.Machine
end

