-- ==== Sys2Proof/Machine/Drive.lean ====
section
/-! DEFINITION. What the display drives on COM and SEG: TN levels and blinking, the phases of a bistable write and the pixels
they change (R186, R188, R189, R192 to R195). -/

namespace Sys2Proof.Machine

def dispWord (l : List Word) (k : Nat) : Word := l.getD k 0

/-- DMODE of a configuration: 0 off, 1 TN, 2 bistable. -/
def dmodeOf (l : List Word) : Nat := wFld (dispWord l 0) 30 2

/-- The drive is bistable, or TN. -/
def bistable (d : Display) : Bool := dmodeOf d.cfgNow == 2

def twisted (d : Display) : Bool := dmodeOf d.cfgNow == 1

/-- Position p of a frame image (R186). -/
def pixel (f : List Byte) (p : Nat) : Bool := (byteAt f (p / 8)).testBit (p % 8)

/-- A frame image with every position changed. -/
def onPixels (g : Nat → Bool → Bool) (f : List Byte) : List Byte :=
  numbered (fun b (x : Byte) => BitVec.ofNat 8 (((List.range 8).map fun k => flag (g (8 * b + k) (x.toNat.testBit k)) k).foldl (· + ·) 0))
    0 f

/-! ### TN (R189, R192) -/

/-- Frames per second. -/
def frameRate (d : Display) : Nat := [32, 64, 96, 128].getD (wFld (dispWord d.cfgNow 0) 28 2) 64

/-- Length of a common slot, ns. -/
def slotNs (d : Display) : Nat := 1000000000 / (8 * frameRate d)

/-- Length of a blink period, µs. -/
def blinkUs (d : Display) : Nat := [2000000, 1000000, 500000].getD (wFld (dispWord d.cfgNow 0) 26 2) 1000000

/-- A position as it is shown at a legal time: a blinking one is on in the first half of a blink period. DESIGN CHOICE: the
periods of 0.5 Hz start at even legal seconds. -/
def shownOn (d : Display) (us p : Nat) : Bool :=
  if pixel d.shown.blink p then decide (2 * (us % blinkUs d) < blinkUs d) else pixel d.shown.frame p

/-- Level V0 to V4 of a common in a slot. -/
def comLevel (positive : Bool) (slot com : Nat) : Nat :=
  if com = slot then (if positive then 0 else 4) else (if positive then 3 else 1)

/-- Level of a segment line for its pixel on the selected common. -/
def segLevel (positive on : Bool) : Nat := if on then (if positive then 4 else 0) else 2

/-- A level in 1/64 mV: V_k = VLCD × (4 − k) / 4. -/
def levelVolts (d : Display) (k : Nat) : Int := d.vlcd * (4 - k)

/-- What COM0 to COM7 and SEG0 to SEG79 carry in a common slot, in 1/64 mV: 0 V while the driver is stopped or off (R188, R189,
R198). -/
def tnLines (d : Display) (us slot : Nat) : List Int :=
  if !d.driven || !twisted d then List.replicate 88 0
  else (List.range 8).map (fun c => levelVolts d (comLevel d.positive slot c))
    ++ (List.range 80).map fun g => levelVolts d (segLevel d.positive (shownOn d us (80 * slot + g)))

/-! ### Bistable writes (R194, R195) -/

/-- The phases of a write. -/
inductive WritePhase where
  | reset | set | discharge
deriving DecidableEq, Repr

/-- Length of a phase, ms. -/
def phaseMs (d : Display) : WritePhase → Nat
  | .reset => wFld (dispWord d.cfgNow 1) 15 5
  | .set => wFld (dispWord d.cfgNow 1) 10 5
  | .discharge => 1

/-- Amplitude between a common and a segment line in antiphase, mV. -/
def phaseVolts (d : Display) : WritePhase → Int
  | .reset => 10000 + 500 * wFld (dispWord d.cfgNow 1) 26 6
  | .set => 10000 + 500 * wFld (dispWord d.cfgNow 1) 20 6
  | .discharge => 0

/-- Half wave of a common in a phase that writes common c, mV: the others are held at 0 V. -/
def comVolts (d : Display) (ph : WritePhase) (c com : Nat) : Int := if com = c then phaseVolts d ph / 2 else 0

/-- The same half wave of a segment line, in antiphase or in phase. -/
def segVolts (d : Display) (ph : WritePhase) (anti : Bool) : Int :=
  if anti then -(phaseVolts d ph / 2) else phaseVolts d ph / 2

/-- What a pixel sees, mV. -/
def pixelVolts (d : Display) (ph : WritePhase) (c : Nat) (anti : Nat → Bool) (p : Nat) : Nat :=
  (comVolts d ph c (p / 80) - segVolts d ph (anti (p % 80))).natAbs

/-- A pixel after a phase: the full reset voltage clears it, the full set voltage writes it, half of either leaves it. -/
def pixelAfter (d : Display) (ph : WritePhase) (c : Nat) (anti : Nat → Bool) (p : Nat) (was : Bool) : Bool :=
  match ph with
  | .reset => if p / 80 = c ∧ pixelVolts d ph c anti p = (phaseVolts d ph).natAbs then false else was
  | .set => if p / 80 = c ∧ pixelVolts d ph c anti p = (phaseVolts d ph).natAbs then true else was
  | .discharge => was

/-- A phase on the panel. -/
def applyPhase (ph : WritePhase) (c : Nat) (anti : Nat → Bool) (d : Display) : Display :=
  { d with panel := onPixels (pixelAfter d ph c anti) d.panel }

/-- Common and segment line of the update-in-progress segment. -/
def indCom (d : Display) : Nat := wFld (dispWord d.cfgNow 1) 7 3

def indSeg (d : Display) : Nat := wFld (dispWord d.cfgNow 1) 0 7

/-- The indicator line of a common that is written. -/
def isIndicator (d : Display) (c seg : Nat) : Bool := c == indCom d && seg == indSeg d

/-- A full write of common c from a frame. -/
def fullWrite (c : Nat) (f : List Byte) (d : Display) : Display :=
  let d := applyPhase .reset c (fun g => !isIndicator d c g) d
  let d := applyPhase .set c (fun g => pixel f (80 * c + g) && !isIndicator d c g) d
  applyPhase .discharge c (fun _ => false) d

/-- An indicator set, and an indicator clear. -/
def indicatorSet (d : Display) : Display :=
  applyPhase .discharge (indCom d) (fun _ => false) (applyPhase .set (indCom d) (fun g => g == indSeg d) d)

def indicatorClear (d : Display) : Display :=
  applyPhase .discharge (indCom d) (fun _ => false) (applyPhase .reset (indCom d) (fun g => g == indSeg d) d)

end Sys2Proof.Machine
end

