-- ==== Sys2Proof/Machine/Calendar.lean ====
section
/-! DEFINITION. Dates of legal time and calendars: the layout of R153, the structure check of R155 and the tariff of R156. -/

namespace Sys2Proof.Machine

/-! ### Dates (R146) -/

/-- µs of a minute and of a day. -/
def minuteUs : Nat := 60000000
def dayUs : Nat := 1440 * minuteUs

def isLeap (y : Nat) : Bool := y % 4 = 0 && (y % 100 ≠ 0 || y % 400 = 0)

/-- Days in a month of a year. -/
def monthDays (y m : Nat) : Nat :=
  if m = 2 then (if isLeap y then 29 else 28)
  else if m = 4 || m = 6 || m = 9 || m = 11 then 30 else 31

/-- Days from 2000-01-01 to the first day of year 2000 + n. -/
def yearStart (n : Nat) : Nat := 365 * n + (n + 3) / 4 - (n + 99) / 100 + (n + 399) / 400

/-- The year, counted from 2000, that holds a day. -/
def yearOf (d : Nat) : Nat :=
  let n := d / 366
  if yearStart (n + 1) ≤ d then (if yearStart (n + 2) ≤ d then n + 2 else n + 1) else n

/-- Month and day of a day of the year. -/
def monthOf (y : Nat) : Nat → Nat → Nat → Nat × Nat
  | 0, m, d => (m, d + 1)
  | k + 1, m, d => if d < monthDays y m then (m, d + 1) else monthOf y k (m + 1) (d - monthDays y m)

/-- A date: years from 2000, month, day of month, weekday with 0 for Monday. -/
structure Date where
  year : Nat
  month : Nat
  day : Nat
  weekday : Nat
deriving DecidableEq, Repr

/-- The date `d` days after the legal epoch. -/
def dateOf (d : Nat) : Date :=
  let n := yearOf d
  let md := monthOf (2000 + n) 11 1 (d - yearStart n)
  { year := n, month := md.1, day := md.2, weekday := (d + 5) % 7 }

/-- Days from the legal epoch to a date. -/
def dayNumber (n m d : Nat) : Nat :=
  yearStart n + ((List.range (m - 1)).map (fun k => monthDays (2000 + n) (k + 1))).foldl (· + ·) 0 + (d - 1)

/-! ### Fields (R153, R154) -/

def calNDay (c : List Byte) : Nat := byteAt c 1
def calNWeek (c : List Byte) : Nat := byteAt c 2
def calNSeason (c : List Byte) : Nat := byteAt c 3
def calNSpecial (c : List Byte) : Nat := byteAt c 4
def calBillDay (c : List Byte) : Nat := byteAt c 5
def calBillHour (c : List Byte) : Nat := byteAt c 6
def calId (c : List Byte) : Nat := leAt c 8 4
def calActTime (c : List Byte) : Nat := leAt c 12 4

/-- Switch point words of a day profile. -/
def dayPoints (c : List Byte) (p : Nat) : List Nat := (List.range 16).map fun k => leAt c (0x20 + 32 * p + 2 * k) 2

/-- Bytes of an entry of four. -/
def fourAt (c : List Byte) (off : Nat) : Nat × Nat × Nat × Nat :=
  (byteAt c off, byteAt c (off + 1), byteAt c (off + 2), byteAt c (off + 3))

def seasonAt (c : List Byte) (k : Nat) : Nat × Nat × Nat × Nat := fourAt c (0x260 + 4 * k)
def specialAt (c : List Byte) (k : Nat) : Nat × Nat × Nat × Nat := fourAt c (0x290 + 4 * k)

/-! ### Structure check (R155) -/

/-- A date exists in every year it can apply to: year 0 stands for every year. -/
def dateExists (y m d : Nat) : Bool :=
  decide (1 ≤ m) && decide (m ≤ 12) && decide (1 ≤ d)
    && decide (d ≤ if y = 0 then monthDays 2001 m else monthDays (2000 + y) m)

/-- A switch point word is well-formed for a number of tariffs. -/
def pointOk (nTar w : Nat) : Bool := w / 2048 % 2 = 0 && w / 4096 < nTar && w % 2048 ≤ 1439

/-- Used switch points come first, start at minute 0 and rise strictly. -/
def pointsOk (nTar : Nat) : Option Nat → List Nat → Bool
  | last, [] => last.isSome
  | last, w :: ws =>
    if w = 0xFFFF then last.isSome && ws.all (· == 0xFFFF)
    else pointOk nTar w
      && (match last with
          | none => w % 2048 = 0
          | some m => m < w % 2048)
      && pointsOk nTar (some (w % 2048)) ws

def dayOk (c : List Byte) (nTar p : Nat) : Bool :=
  if p < calNDay c then pointsOk nTar none (dayPoints c p) else (dayPoints c p).all (· == 0xFFFF)

def weekOk (c : List Byte) (k : Nat) : Bool :=
  let w := (List.range 8).map fun d => byteAt c (0x220 + 8 * k + d)
  if k < calNWeek c then (w.take 7).all (· < calNDay c) && w.getD 7 0 = 0 else w.all (· == 0)

/-- Seasons: dates that exist, a week in use, starts that rise strictly. -/
def seasonsOk (c : List Byte) (k : Nat) : Bool :=
  let (m, d, w, r) := seasonAt c k
  if k < calNSeason c then
    dateExists 0 m d && w < calNWeek c && r = 0
      && (k = 0 || (let (m', d', _, _) := seasonAt c (k - 1); m' < m || (m' = m && d' < d)))
  else m = 0 && d = 0 && w = 0 && r = 0

/-- Two special days can fall on one date. -/
def specialsMeet (a b : Nat × Nat × Nat × Nat) : Bool :=
  a.2.1 = b.2.1 && a.2.2.1 = b.2.2.1 && (a.1 = b.1 || a.1 = 0 || b.1 = 0)

def specialOk (c : List Byte) (k : Nat) : Bool :=
  let x := specialAt c k
  if k < calNSpecial c then
    dateExists x.1 x.2.1 x.2.2.1 && x.2.2.2 < calNDay c
      && (List.range k).all fun j => !specialsMeet (specialAt c j) x
  else x = (0, 0, 0, 0)

/-- The checks of R153 to R155 that do not depend on the time. -/
def calendarOk (c : List Byte) (nTar : Nat) : Bool :=
  c.length = 916 && crc32 (c.take 0x390) = leAt c 0x390 4 && byteAt c 0 = 1
    && (1 ≤ calNDay c && calNDay c ≤ 16) && (1 ≤ calNWeek c && calNWeek c ≤ 8)
    && (1 ≤ calNSeason c && calNSeason c ≤ 12) && calNSpecial c ≤ 64
    && calBillDay c ≤ 28 && calBillHour c ≤ 23 && byteAt c 7 = 0
    && calId c ≠ 0 && calId c ≠ 0xFFFFFFFF && (slice c 0x10 16).all (· == 0)
    && (List.range 16).all (dayOk c nTar) && (List.range 8).all (weekOk c)
    && (List.range 12).all (seasonsOk c) && (List.range 64).all (specialOk c)

/-- A calendar names a tariff at or above a number of tariffs (R152). -/
def calendarNames (c : List Byte) (nTar : Nat) : Bool :=
  (List.range (calNDay c)).any fun p => (dayPoints c p).any fun w => w ≠ 0xFFFF && nTar ≤ w / 4096

/-! ### Tariff of a moment (R156) -/

/-- The profile of a date. -/
def profileOf (c : List Byte) (t : Date) : Nat :=
  let sp := (List.range (calNSpecial c)).map (specialAt c)
  let on (y : Nat) := sp.find? fun x => x.1 = y && x.2.1 = t.month && x.2.2.1 = t.day
  let specific := if 1 ≤ t.year && t.year ≤ 255 then on t.year else none
  match specific.or (on 0) with
  | some x => x.2.2.2
  | none =>
    let ss := (List.range (calNSeason c)).map (seasonAt c)
    let before := ss.filter fun x => x.1 < t.month || (x.1 = t.month && x.2.1 ≤ t.day)
    let s := (before.getLast?.or ss.getLast?).getD (0, 0, 0, 0)
    byteAt c (0x220 + 8 * s.2.2.1 + t.weekday)

/-- The tariff that a calendar gives at a legal time in µs. -/
def tariffAt (c : List Byte) (us : Nat) : Nat :=
  let minute := us % dayUs / minuteUs
  let pts := (dayPoints c (profileOf c (dateOf (us / dayUs)))).filter fun w => w ≠ 0xFFFF && w % 2048 ≤ minute
  pts.getLast?.getD 0 / 4096

/-- The label of the latest billing boundary of a calendar at or before a legal time, in minutes. -/
def lastBilling (c : List Byte) (us : Nat) : Option Nat :=
  if calBillDay c = 0 then none
  else
    let t := dateOf (us / dayUs)
    let at_ (n m : Nat) : Nat := dayNumber n m (calBillDay c) * 1440 + calBillHour c * 60
    let here := at_ t.year t.month
    if here ≤ us / minuteUs then some here
    else if t.month = 1 then (if t.year = 0 then none else some (at_ (t.year - 1) 12))
    else some (at_ t.year (t.month - 1))

/-- A calendar with ACT_TIME set and CHECK recomputed (R153). -/
def withActTime (c : List Byte) (lt : Nat) : List Byte :=
  let b := c.take 12 ++ leBytes 4 lt ++ (c.drop 16).take 0x380
  b ++ leBytes 4 (crc32 b)

end Sys2Proof.Machine
end

