-- ==== Sys2Proof/Machine/Operands.lean ====
section
/-! DEFINITION. The operand forms of commands: payload fields, bulk descriptors, and the catalogue of R418 to R430 with the
ring, level, modes, length, descriptors and object of every opcode. -/

namespace Sys2Proof.Machine

/-! ### Bulk descriptors (R408) -/

/-- A bulk descriptor as it is carried. -/
structure Desc where
  addr : Nat
  len : Nat
  /-- Word 2: DIR in bit 0, the rest reserved. -/
  dir : Nat
  crc : Nat
deriving DecidableEq, Repr

/-- The first `n` descriptors of a payload. -/
def descsOf (payload : List Byte) : Nat → List Desc
  | 0 => []
  | n + 1 =>
    { addr := leAt payload 0 4, len := leAt payload 4 4, dir := leAt payload 8 4, crc := leAt payload 12 4 }
      :: descsOf (payload.drop 16) n

/-- A descriptor as 16 bytes. -/
def descBytes (d : Desc) : List Byte := leBytes 4 d.addr ++ leBytes 4 d.len ++ leBytes 4 d.dir ++ leBytes 4 d.crc

/-- The bulk region of a port, as a pool offset (R396). -/
def bulkBase (p : PortNo) : Nat := 0x800000 + p.val * 0x200000

/-- BULK_SIZE (R396). -/
def bulkSize : Nat := 0x200000

/-- Ring bases of a port, as pool offsets: urgent, normal, response, event (R396, R412). -/
def ringBase (p : PortNo) : Nat :=
  if p = 2 then 0xF00000 else if p = 1 then 0xE80000 else 0xE00000

def ucmdBase (p : PortNo) : Nat := ringBase p
def ncmdBase (p : PortNo) : Nat := ringBase p + 0x4000
def rspBase (p : PortNo) : Nat := ringBase p + 0x14000
def evtBase (p : PortNo) : Nat := ringBase p + 0x24000

/-- Bytes of a port's ring memory: 64, 256, 256 and 512 entries of 256 bytes. -/
def ringBytes : Nat := 0x44000

/-- The legal mirror area, as a pool offset (R395). -/
def mirrorBase : Nat := 0x700000

/-- Length of the legal mirror area: the legal time and 18 counts of 8 bytes for each of 64 outlets (R395). -/
def mirrorSize : Nat := 8 + 64 * 18 * 8

/-- The buffer as a pool offset. -/
def Desc.off (d : Desc) : Nat := d.addr - poolBase

/-- Two buffers share a byte. -/
def Desc.overlaps (a b : Desc) : Bool := decide (a.addr < b.addr + b.len) && decide (b.addr < a.addr + a.len)

/-- The bytes that a host-to-module buffer holds. -/
def bulkIn (s : State) (d : Desc) : List Byte := memRead s.mem.pool d.off d.len

/-! ### Catalogue (R414 to R417) -/

/-- Mode codes of R414, with the modes that rows name for themselves. -/
inductive ModeCode where
  | any | S | P | C | SR | cOrFactory | pairedActive
deriving DecidableEq, Repr

/-- The base mode and role permit a command. -/
def ModeCode.permits (m : ModeCode) (s : State) : Bool :=
  let b := s.modes.base
  let r := roleNow s.modes
  let p := r == .solo || r == .active
  match m with
  | .any => b != .backupWatch
  | .S => p || b == .commissioning
  | .P => p
  | .C => b == .commissioning
  | .SR => p || b == .commissioning || b == .recovery
  | .cOrFactory => b == .commissioning || b == .factoryTest
  | .pairedActive => r == .active

/-- What INDEX may be (R417). -/
inductive IndexRule where
  /-- 0xFFFF. -/
  | module
  /-- A number from the first to the second. -/
  | range (lo hi : Nat)
  /-- Such a number, or a code beside it. -/
  | rangeOr (lo hi code : Nat)
  /-- Not judged, because SEL is out of its range. -/
  | free
deriving DecidableEq, Repr

def IndexRule.ok (r : IndexRule) (i : Nat) : Bool :=
  match r with
  | .module => i == 0xFFFF
  | .range lo hi => decide (lo ≤ i) && decide (i ≤ hi)
  | .rangeOr lo hi code => (decide (lo ≤ i) && decide (i ≤ hi)) || i == code
  | .free => true

/-- A row of the catalogue. -/
structure Row where
  /-- Permitted on the urgent ring. -/
  urgent : Bool
  level : Nat
  modes : ModeCode
  /-- Least and greatest length of the fields after the descriptors. -/
  lo : Nat
  hi : Nat
  /-- DIR of each bulk descriptor. -/
  bulk : List Bool
  index : IndexRule
deriving DecidableEq, Repr

/-- A row with fields of one length and no bulk. -/
def row (urgent : Bool) (level : Nat) (modes : ModeCode) (len : Nat) (index : IndexRule) : Row :=
  { urgent := urgent, level := level, modes := modes, lo := len, hi := len, bulk := [], index := index }

/-- A row with one buffer to the host. -/
def rowOut (level : Nat) (modes : ModeCode) (len : Nat) (index : IndexRule) : Row :=
  { row false level modes len index with bulk := [true] }

/-- A row with one buffer from the host. -/
def rowIn (level : Nat) (modes : ModeCode) (len : Nat) (index : IndexRule) : Row :=
  { row false level modes len index with bulk := [false] }

def anOutlet : IndexRule := .range 0 63

/-- SEL and length of each limited setting of 0x0510 (R422). -/
def limitedLen (sel : Nat) : Nat :=
  match sel with
  | 0 => 4
  | 1 => 36
  | 2 => 36
  | 3 => 4
  | 4 => 20
  | 5 => 4
  | 6 => 4
  | 7 => 16
  | _ => 0

/-- Object of each limited setting (R422). -/
def limitedIndex (sel : Nat) : IndexRule :=
  match sel with
  | 0 => .range 0 511
  | 4 | 5 => .module
  | 7 => .range 0 3
  | n => if n < 7 then anOutlet else .free

/-- The catalogue: the row of an opcode, for the fields that a payload carries, none for an opcode it does not list. -/
def catalogue (op : Nat) (payload : List Byte) : Option Row :=
  let sel0 := byteAt payload 0
  let sel1 := byteAt payload 16
  match op with
  | 0x0100 => some { row true 1 .any 0 .module with hi := 240 }
  | 0x0101 => some (row true 1 .any 0 .module)
  | 0x0102 => some (row false 3 .P 0 .module)
  | 0x0103 => some (row false 3 .C 0 .module)
  | 0x0104 => some (row false 3 (if sel0 = 3 || sel0 = 4 then .C else .any) 4 .module)
  | 0x0105 => some (row false 3 .C 36 .module)
  | 0x0106 => some (row false 3 .C 8 .module)
  | 0x0107 => some (row false 3 .C 4 .module)
  | 0x0200 => some (row true 1 .any 0 anOutlet)
  | 0x0201 => some (row false 1 .any 0 anOutlet)
  | 0x0202 => some (rowOut 1 .any 4 anOutlet)
  | 0x0203 => some (rowOut 1 .any 0 (.range 0 447))
  | 0x0204 => some (rowOut 1 .any 0 anOutlet)
  | 0x0205 => some (rowOut 1 .any 4 .module)
  | 0x0210 => some (rowIn 3 .C 0 .module)
  | 0x0211 => some (rowIn 3 .C 0 .module)
  | 0x0212 => some (row false 2 .S 4 anOutlet)
  | 0x0300 => some (row false 1 .any 4 anOutlet)
  | 0x0301 => some (rowOut 1 .any 4 .module)
  | 0x0302 => some (rowOut 1 .any 8 .module)
  | 0x0303 => some (row false 3 .C 8 .module)
  | 0x0304 =>
    -- SEL stands after the descriptor where the payload carries one, which its length shows.
    if payload.length = 4 then
      some (match sel0 with
        | 2 => row false 1 .any 4 anOutlet
        | 5 => row false 1 .any 4 (.range 0 7)
        | 3 | 4 => row false 1 .any 4 .module
        | n => if n < 8 then rowOut 1 .any 4 .module else row false 1 .any 4 .free)
    else
      some (match sel1 with
        | 2 => row false 1 .any 4 anOutlet
        | 5 => row false 1 .any 4 (.range 0 7)
        | 3 | 4 => row false 1 .any 4 .module
        | n => rowOut 1 .any 4 (if n < 8 then .module else .free))
  | 0x0305 => some (rowOut 1 .any 12 .module)
  | 0x0306 =>
    -- Whole pairs only.
    some (if payload.length % 8 = 0 then { row false 2 .P 8 .module with hi := 240 }
      else row false 2 .P (payload.length / 8 * 8 + 8) .module)
  | 0x0310 => some (row false 3 .S 8 .module)
  | 0x0311 => some (rowIn 3 .S 0 .module)
  | 0x0312 => some (row false 3 .S 8 .module)
  | 0x0313 => some (row false 3 .C 4 .module)
  | 0x0314 => some (row true 2 .P 12 .module)
  | 0x0315 => some (row false 2 .any 4 .module)
  | 0x0400 => some (row true 1 .any 0 anOutlet)
  | 0x0410 =>
    some (match sel0 with
      | 0 => row false 2 .S 12 anOutlet
      | 1 => row false 2 .S 8 .module
      | 2 => row false 3 .S 20 .module
      | _ => { row false 2 .S 4 .free with hi := 240 })
  | 0x0411 => some (row true 2 .S 4 anOutlet)
  | 0x0412 => some (row false 2 .S 4 anOutlet)
  | 0x0420 =>
    -- With a descriptor the fields start at byte 16.
    if payload.length ≤ 8 then some (row true 2 .P 8 anOutlet)
    else some { row true 2 .P 8 anOutlet with bulk := [false] }
  | 0x0421 => some (rowIn 2 .P 8 anOutlet)
  | 0x0422 => some (row true 2 .P 4 anOutlet)
  | 0x0500 => some (row true 1 .any 0 (.rangeOr 0 67 0xFFFF))
  | 0x0501 => some (row false 2 .P 0 anOutlet)
  | 0x0502 => some (row true 2 .S 0 anOutlet)
  | 0x0503 => some (row true 2 .S 0 anOutlet)
  | 0x0504 => some (row false 2 .S 0 (.rangeOr 0 63 0xFFFF))
  | 0x0505 => some (row (sel0 = 0) 2 .S 4 (.range 0 3))
  | 0x0506 => some (row true 2 .P 4 anOutlet)
  | 0x0510 =>
    if sel0 < 8 then some (row false 3 .C (4 + limitedLen sel0) (limitedIndex sel0))
    else some { row false 3 .C 4 .free with hi := 240 }
  | 0x0511 => some (row false 1 .any 4 (limitedIndex sel0))
  | 0x0600 => some (row true 1 .any 0 (.rangeOr 0 47 0xFFFF))
  | 0x0601 => some (row false 2 .S 8 (.range 0 47))
  | 0x0602 => some (row true 2 .S 4 (.range 0 47))
  | 0x0603 => some (row false 2 .S 4 (.range 0 47))
  | 0x0604 => some (row true 2 .S 4 .module)
  | 0x0605 => some (row false 2 .S 4 .module)
  | 0x0606 => some (row false 1 .any 0 (.range 0 47))
  | 0x0700 => some (row false 1 .any 0 (.rangeOr 1 32 0xFFFF))
  | 0x0701 => some (row false 2 .S 4 .module)
  | 0x0702 => some (row false 2 .S 28 (.range 1 32))
  | 0x0703 => some { row false 2 .P 4 (.rangeOr 1 32 0xFF) with hi := 240 }
  | 0x0704 => some (rowOut 1 .any 0 (.rangeOr 1 32 0xFFFF))
  | 0x0705 => some (row false 2 .P 4 .module)
  | 0x0800 => some (row true 1 .any 0 (.range 0 63))
  | 0x0801 =>
    some (row false 2 .S 8
      (match sel0 with
       | 0 | 2 => .range 0 63
       | 1 => .range 0 3
       | _ => .free))
  | 0x0802 => some (rowIn 2 .S 0 .module)
  | 0x0803 => some (row false 1 .any 8 .module)
  | 0x0804 => some { row false 2 .P 0 (.range 0 63) with bulk := [false, true] }
  | 0x0805 =>
    some (if sel0 = 1 then row false 2 .any 20 (.range 0 511)
      else if sel0 = 0 then row false 1 .any 4 (.range 0 511)
      else { row false 1 .any 4 .free with hi := 20 })
  | 0x0806 => some (row false 3 .C 4 .module)
  | 0x0900 => some (row false 1 .any 0 (.range 0 255))
  | 0x0901 => some { row false 3 .cOrFactory 12 (.range 0 255) with hi := 140 }
  | 0x0902 => some { row false 3 .S 12 (.range 0 255) with hi := 140 }
  | 0x0903 => some (row false 3 .S 0 (.range 0 255))
  | 0x0904 => some (row false 3 .S 0 (.range 0 255))
  | 0x0905 =>
    if payload.length ≤ 4 then some (row false 3 .cOrFactory 4 .module)
    else some (rowIn 3 .cOrFactory 4 .module)
  | 0x0906 => some (row false 1 .any 0 .module)
  | 0x0A00 => some (row false 1 .any 0 .module)
  | 0x0A01 => some (row false 3 .C 8 .module)
  | 0x0A02 => some (row false 3 .C 0 .module)
  | 0x0A03 => some (row false 2 .pairedActive 0 .module)
  | 0x0A04 => some (row false 2 .pairedActive 0 .module)
  | 0x0B00 => some (rowIn 3 .SR 4 .module)
  | 0x0B01 => some (rowIn 3 .SR 8 .module)
  | 0x0B02 => some (row false 3 .SR 4 .module)
  | 0x0B03 => some (row true 3 .SR 4 .module)
  | 0x0B04 => some (row false 1 .any 0 .module)
  | 0x0C00 => some (rowOut 1 .any 8 .module)
  | 0x0C01 => some (rowOut 1 .any 4 .module)
  | 0x0C02 => some (row true 2 .any 4 (.range 0 127))
  | 0x0C03 => some (row true 1 .any 0 (.range 0 127))
  | 0x0C04 => some (row true 2 .any 16 .module)
  | 0x0C05 => some (rowOut 1 .any 0 .module)
  | 0x0C06 => some (row false 1 .any 0 (.rangeOr 1 32 0xFFFF))
  | 0x0C07 => some (rowOut 1 .any 0 (.range 0 15))
  | 0x0C08 => some (row false 1 .any 0 .module)
  | _ => none

/-- The descriptors that a command carries. -/
def cmdDescs (op : Nat) (c : Cmd) : List Desc :=
  match catalogue op c.payload with
  | some r => descsOf c.payload r.bulk.length
  | none => []

/-- The fields of a command after its descriptors. -/
def cmdFields (op : Nat) (c : Cmd) : List Byte :=
  match catalogue op c.payload with
  | some r => c.payload.drop (16 * r.bulk.length)
  | none => c.payload

/-! ### Fields and ranges -/

/-- A number lies in a range. -/
def within (lo hi v : Nat) : Bool := decide (lo ≤ v) && decide (v ≤ hi)

/-- The first false check of a list of checks with their word offsets. -/
def firstBad : List (Nat × Bool) → Option Nat
  | [] => none
  | (k, ok) :: rest => if ok then firstBad rest else some k

/-- The words of a byte list, least significant byte first. -/
def wordsOf : Nat → List Byte → List Word
  | 0, _ => []
  | n + 1, l => BitVec.ofNat 32 (leAt l 0 4) :: wordsOf n (l.drop 4)

/-- The bytes of words. -/
def wordBytes (ws : List Word) : List Byte := ws.flatMap fun w => leBytes 4 w.toNat

/-- The number is the index of an object in a range. -/
def obj (n : Nat) (c : Cmd) : Fin (n + 1) := Fin.ofNat (n + 1) c.index.toNat

end Sys2Proof.Machine
end

