-- ==== Sys2Proof/Machine/KeyOps.lean ====
section
/-! DEFINITION. The use of key slots, shared by the vehicle link, the mailbox, the updates and the tokens, and the derivations
from the root in force (R458, R460, R461, R465 to R467). -/

namespace Sys2Proof.Machine

/-- KTYPE of a slot's key. -/
def keyType (x : Slot) : Nat := x.key.ktype.toNat

/-- A usage bit of word 0: 31 SIGN, 30 VERIFY, 29 CRYPT, 28 MAC, 27 DERIVE. -/
def keyMay (x : Slot) (bit : Nat) : Bool := wBit x.key.w0 bit

/-- OWNER of a slot. -/
def keyOwner (x : Slot) : Nat := wFld x.key.w0 24 3

/-- USE_MAX of a slot. -/
def useMax (x : Slot) : Nat := wFld x.key.w1 0 25

/-- A slot serves a unit of a domain for a usage, its count apart. -/
def keyServes (x : Slot) (owner bit : Nat) : Bool := x.key.ktype ≠ 0 && !x.bad && keyOwner x == owner && keyMay x bit

/-- One use of a slot: refused for a foreign owner or an exhausted count, with event 101 (R458, R461). -/
def useKey (n : Fin 256) (owner bit : Nat) (s : State) : Bool × State :=
  let x := s.keys.slot.at n
  if !keyServes x owner bit then
    (false, if x.key.ktype ≠ 0 && keyOwner x ≠ owner then raise 101 n.val 0 [] s else s)
  else if useMax x = 0 then (true, s)
  else if x.uses = 0 then (false, raise 101 n.val 1 [] s)
  else (true, s.onSlot n fun y => { y with uses := y.uses - 1 })

/-- A slot that a map may leave unset. -/
def useMapped (w : BitVec 16) (owner bit : Nat) (s : State) : Bool × State :=
  if w.toNat < 256 then useKey (Fin.ofNat 256 w.toNat) owner bit s else (false, s)

/-! ### Attributes (R227, R418, R456 to R458) -/

/-- Key lengths that a type admits (R457). -/
def lengthOk (ktype n : Nat) : Bool :=
  match ktype with
  | 0x01 => n == 32
  | 0x02 => n == 65
  | 0x03 => n == 48
  | 0x04 => n == 97
  | 0x10 => n == 16
  | 0x11 => n == 32
  | 0x20 => within 32 128 n
  | 0x21 => within 48 128 n
  | _ => false

/-- Bits of attribute word 0 that a type admits: usages, EXPORT (R457). -/
def usageMask (ktype : Nat) : Word :=
  match ktype with
  | 0x01 | 0x03 => 0x88000000
  | 0x02 | 0x04 => 0x40800000
  | 0x10 | 0x11 => 0x28800000
  | 0x20 | 0x21 => 0x18800000
  | _ => 0

/-- Usage bits of attribute word 0. -/
def usagesOf (w : Word) : Word := w &&& 0xF8000000

/-- OWNER fits the slot number and, for the vendor domain, usage and type (R458). -/
def ownerOk (slot ktype : Nat) (w0 : Word) : Bool :=
  let owner := wFld w0 24 3
  if slot < 4 then owner == 4 && usagesOf w0 == 0x40000000 && ktype == 4 else decide (owner ≤ 3)

/-- The key type is a private one. -/
def privateKey (ktype : Nat) : Bool := ktype == 1 || ktype == 3

/-- The key type is a public one. -/
def publicKey (ktype : Nat) : Bool := ktype == 2 || ktype == 4

/-- A key meets an entry of the key map (R227). -/
def fitsMap (entry : Nat) (k : Key) : Bool :=
  wFld k.w0 24 3 == 1 &&
    (if entry = 0 then k.ktype == 1 && wBit k.w0 31
     else if entry = 1 then k.ktype == 3 && wBit k.w0 31
     else publicKey k.ktype.toNat && wBit k.w0 30)

/-- A key meets the role of a mailbox server slot, or of a root slot (R386, R418). -/
def fitsServer (k : Key) : Bool := wFld k.w0 24 3 == 2 && privateKey k.ktype.toNat && wBit k.w0 31
def fitsRoot (k : Key) : Bool := wFld k.w0 24 3 == 2 && publicKey k.ktype.toNat && wBit k.w0 30

/-- The slot that a 16-bit number names, none beyond the slots that hold keys (R454). -/
def namedSlot (s : State) (n : Nat) : Option Slot := if n < 224 then some (s.keys.slot.at (Fin.ofNat 256 n)) else none

/-- A key with new attributes meets every setting that names its slot (R464). -/
def meetsNaming (s : State) (n : Nat) (k : Key) : Bool :=
  (indices 7).all (fun e => (s.veh.keyMap.at e).toNat != n || fitsMap e.val k)
    && s.mbx.port.toList.all fun q =>
      (q.net.serverSlot.toNat != n || fitsServer k)
        && (q.net.operateSlot.toNat != n || fitsRoot k) && (q.net.commissionSlot.toNat != n || fitsRoot k)

/-! ### Roots and derivation (R465 to R467) -/

/-- The root that the lifecycle state puts in force, none in Blank and Ended, and none that is destroyed. -/
def rootInForce (s : State) : Option (Fin 4) :=
  let k : Option (Fin 4) := match s.keys.lifecycle with
    | .factory => some 0
    | .provisioned => some 1
    | .deployed => some 2
    | .returned => some 3
    | .blank | .ended => none
  k.filter fun i => s.keys.roots.at i

/-- The salt: M in Measured start, Factory test and Recovery, else 48 zero bytes. -/
def derivationSalt (s : State) : List Byte :=
  match s.modes.base with
  | .measuredStart | .factoryTest | .recovery => s.keys.measure
  | _ => List.replicate 48 0

/-- The label of a derivation: "pair-link", "mbx-ticket", "stage". -/
def Derivation.label : Derivation → List Byte
  | .pairLink => [0x70, 0x61, 0x69, 0x72, 0x2D, 0x6C, 0x69, 0x6E, 0x6B]
  | .mbxTicket => [0x6D, 0x62, 0x78, 0x2D, 0x74, 0x69, 0x63, 0x6B, 0x65, 0x74]
  | .stage => [0x73, 0x74, 0x61, 0x67, 0x65]

/-- A derived key is invalid from here on. -/
def dropDerived (d : Derivation) (s : State) : State :=
  { s with keys.derived := s.keys.derived.filter fun k => k.use != d }

/-- A derivation from the root in force; refused, it leaves no key. -/
def derive (d : Derivation) (context : List Byte) (s : State) : State :=
  match rootInForce s with
  | none => s
  | some r =>
    { s with keys.derived := (s.keys.derived.filter fun k => !(k.use == d && k.context == context))
        ++ [{ use := d, context := context, key := hkdf384 (Config.root r) (derivationSalt s) (d.label ++ context) }] }

end Sys2Proof.Machine
end

