-- ==== Sys2Proof/Machine/Mail.lean ====
section
/-! DEFINITION. How a command runs: the checks of R406, the status of R407, and the response entry of R401, shared by
every command of the catalogue. -/

namespace Sys2Proof.Machine

/-- Status codes of R407. -/
inductive Status where
  | ok | okPending | version | badHeader | unknownOpcode | badRing | badLength | badIndex | badDescriptor | auth | mode
  | notListed | legalLogFull | otpExhausted | outOfRange | recordsFull | busy | timeout | refused | notActive
  | memError | hwError
deriving DecidableEq, Repr

def Status.code : Status → Nat
  | .ok => 0x00
  | .okPending => 0x01
  | .version => 0x10
  | .badHeader => 0x11
  | .unknownOpcode => 0x12
  | .badRing => 0x13
  | .badLength => 0x14
  | .badIndex => 0x15
  | .badDescriptor => 0x16
  | .auth => 0x20
  | .mode => 0x21
  | .notListed => 0x22
  | .legalLogFull => 0x23
  | .otpExhausted => 0x24
  | .outOfRange => 0x25
  | .recordsFull => 0x26
  | .busy => 0x30
  | .timeout => 0x31
  | .refused => 0x32
  | .notActive => 0x33
  | .memError => 0x34
  | .hwError => 0x35

/-- What a command answers. -/
structure Reply where
  status : Status
  detail : Nat
  /-- Response fields after the descriptors. -/
  payload : List Byte
  /-- Bytes for each module-to-host buffer, in the order of the descriptors. -/
  bulk : List (List Byte)
deriving DecidableEq, Repr

/-- Reply without fields. -/
def reply (st : Status) (detail : Nat) : Reply := { status := st, detail := detail, payload := [], bulk := [] }

def okReply : Reply := reply .ok 0
def pendingReply : Reply := reply .okPending 0
def okWith (payload : List Byte) : Reply := { okReply with payload := payload }
def okBulk (bytes : List Byte) : Reply := { okReply with bulk := [bytes] }
def refusedReply (n : Nat) : Reply := reply .refused n

/-- OUT_OF_RANGE for a field of the payload: words are counted from payload byte 0, descriptors included (R413). -/
def rangeReply (op : Nat) (c : Cmd) (k : Nat) : Reply := reply .outOfRange (4 * (cmdDescs op c).length + k)

/-- OUT_OF_RANGE for a word of a bulk buffer, or with no single field (R413). -/
def rangeAt (k : Nat) : Reply := reply .outOfRange k

/-- MODE with the mode number (R407). -/
def modeReply (s : State) : Reply := reply .mode (modeNumber s)

/-! ### Responses -/

/-- Bytes of a ring entry: header and payload (R400). -/
def entryBytes (ver flags op len tag status index : Nat) (payload : List Byte) : List Byte :=
  leBytes 4 (ver * 2 ^ 24 + flags * 2 ^ 16 + op) ++ leBytes 4 (len * 2 ^ 16 + tag) ++ leBytes 4 status
    ++ leBytes 4 index ++ payload

/-- A record of R390: TYPE, RING, INDEX, body. -/
def recordBytes (type ring index : Nat) (body : List Byte) : List Byte :=
  leBytes 4 (type + ring * 256 + body.length * 2 ^ 16) ++ leBytes 4 index ++ body

/-- A record handed to the host of an Ethernet port. -/
def sendRecord (p : PortNo) (r : List Byte) (s : State) : State :=
  if p = 2 then s else s.onPort p fun q => { q with sent := q.sent ++ [r] }

/-- A response entry is written completely and RSP_PI advances (R401). -/
def putResponse (p : PortNo) (entry : List Byte) (s : State) : State :=
  let pi := (s.mbx.port.at p).idx.rspPi
  let s := poolWrite s (rspBase p + pi.toNat % 256 * 256) (padTo 256 entry)
  let s := s.onPort p fun q => { q with idx := { q.idx with rspPi := idxAdd pi 1 } }
  sendRecord p (recordBytes 2 2 pi.toNat entry) s

/-- The fetch of a command that has no response yet. -/
def findFetch (op : Nat) (c : Cmd) (s : State) : Option Fetch :=
  s.mbx.fetched.find? fun f => f.op.toNat == op && f.cmd == c

/-- The first such fetch removed. -/
def dropFetch (op : Nat) (c : Cmd) : List Fetch → List Fetch
  | [] => []
  | f :: fs => if f.op.toNat == op && f.cmd == c then fs else f :: dropFetch op c fs

/-- The bytes that a reply puts into its buffers, cut to their lengths (R409). -/
def bulkOut (r : Reply) (ds : List Desc) : List (Desc × List Byte) :=
  ((ds.filter fun d => d.dir % 2 = 1).zip r.bulk).map fun p => (p.1, p.2.take p.1.len)

/-- Buffers written to the pool. -/
def writeBulk : List (Desc × List Byte) → State → State
  | [], s => s
  | (d, b) :: rest, s => writeBulk rest (poolWrite s d.off b)

/-- A returned descriptor: LEN is the bytes written and CRC is over them (R409). -/
def returned (p : Desc × List Byte) : Desc := { p.1 with len := p.2.length, crc := crc32 p.2 }

/-- The answer of a command: its buffers, its response entry unless the response is discarded, and its fetch done. -/
def answer (op : Nat) (c : Cmd) (r : Reply) (s : State) : State :=
  let dropped := match findFetch op c s with
    | some f => f.dropped
    | none => false
  let s := { s with mbx.fetched := dropFetch op c s.mbx.fetched }
  let out := bulkOut r (cmdDescs op c)
  let s := writeBulk out s
  if dropped || c.fwd.isSome then s
  else
    let payload := out.flatMap (fun p => descBytes (returned p)) ++ r.payload
    let flags := c.flags.toNat % 4 + (if out.isEmpty then 0 else 4)
    putResponse c.port
      (entryBytes 1 flags op payload.length c.tag.toNat (r.detail % 2 ^ 16 * 2 ^ 16 + r.status.code) c.index.toNat payload)
      s

/-! ### Checks (R406, R408) -/

/-- Descriptors of the other commands of a port that are not answered. -/
def openDescs (op : Nat) (c : Cmd) (s : State) : List Desc :=
  ((dropFetch op c s.mbx.fetched).filter (fun f => f.cmd.port == c.port && wBit (f.cmd.flags.zeroExtend 32) 1)).flatMap
    fun f => cmdDescs f.op.toNat f.cmd

/-- A descriptor is valid (R408). -/
def descOk (s : State) (p : PortNo) (dir : Bool) (others : List Desc) (d : Desc) : Bool :=
  let base := poolBase + bulkBase p
  decide (d.addr % 4 = 0) && decide (4 ≤ d.len) && decide (d.len ≤ bulkSize) && decide (d.len % 4 = 0)
    && decide (base ≤ d.addr) && decide (d.addr + d.len ≤ base + bulkSize) && decide (d.dir = if dir then 1 else 0)
    && others.all (fun e => !d.overlaps e)
    && (if dir then d.crc == 0
        else match poolRead s d.off d.len with
          | some bytes => d.crc == crc32 bytes
          | none => false)

/-- The number of the first invalid descriptor. -/
def badDesc (s : State) (p : PortNo) : Nat → List Desc → List Desc → List Bool → Option Nat
  | _, _, [], _ => none
  | _, _, _, [] => none
  | k, seen, d :: ds, dir :: dirs =>
    if descOk s p dir (seen ++ ds) d then badDesc s p (k + 1) (d :: seen) ds dirs else some k

/-- Steps 2 to 7 of R406: header, opcode, ring, length, object, authority, role. -/
def headChecks (op : Nat) (c : Cmd) (s : State) : Option Reply :=
  if 4 ≤ c.flags.toNat || 240 < c.payload.length then some (reply .badHeader 0)
  else match catalogue op c.payload with
    | none => some (reply .unknownOpcode 0)
    | some r =>
      let d := 16 * r.bulk.length
      if c.urgent && !r.urgent then some (reply .badRing 0)
      else if c.payload.length < d + r.lo then some (reply .badLength (d + r.lo))
      else if d + r.hi < c.payload.length then some (reply .badLength (d + r.hi))
      else if !r.index.ok c.index.toNat then some (reply .badIndex 0)
      else if portLevel s c.port < r.level then some (reply .auth r.level)
      else if 1 < r.level && (roleNow s.modes == .standby || !leaseHeld s) then some (reply .notActive 0)
      else none

/-- The boot ROM serves read-class commands, the update group and the reset that leaves Recovery (R528). -/
def recoveryServes (op : Nat) (r : Row) : Bool := r.level ≤ 1 || (0x0B00 ≤ op && op < 0x0C00) || op == 0x0104

/-- Steps 9 and 10 of R406: mode and bulk descriptors. A module in lifecycle Ended stays in Measured start and reads only
(R472). -/
def tailChecks (op : Nat) (c : Cmd) (s : State) : Option Reply :=
  match catalogue op c.payload with
  | none => some (reply .unknownOpcode 0)
  | some r =>
    if !r.modes.permits s || (s.modes.base == .recovery && !recoveryServes op r)
        || (s.modes.base == .measuredStart && 1 < r.level) then some (modeReply s)
    else if (c.flags.toNat / 2 % 2 == 1) != !r.bulk.isEmpty then some (reply .badDescriptor 0)
    else (badDesc s c.port 0 (openDescs op c s) (cmdDescs op c) r.bulk).map (reply .badDescriptor)

/-- The checks of R406 on a command, the backlog apart, which belongs to the fetch. A command fetched before a handover runs on
(R404). -/
def checks (op : Nat) (c : Cmd) (s : State) : Option Reply :=
  match headChecks op c s with
  | some r => some r
  | none => if s.mbx.handover && (findFetch op c s).isNone then some (reply .busy 20) else tailChecks op c s

/-- The bytes of a command's host-to-module buffer. -/
def bulkOf (op : Nat) (c : Cmd) (s : State) : List Byte :=
  match c.fwd with
  | some bytes => bytes
  | none =>
  match (cmdDescs op c).find? fun d => d.dir % 2 = 0 with
  | some d => bulkIn s d
  | none => []

/-- The active module forwards a state-changing command that it fetches to the standby, for epoch n + 2 (R485). -/
def forwardOut (op : Nat) (c : Cmd) (s : State) : State :=
  let changes := match catalogue op c.payload with
    | some r => decide (1 < r.level)
    | none => false
  if changes && roleNow s.modes == .active && c.fwd.isNone then
    { s with pair.sent := s.pair.sent
        ++ [.forward (BitVec.ofNat 16 op) { c with fwd := some (bulkOf op c s) } (s.pair.epoch + 2)] }
  else s

/-! ### Running a command -/

/-- What a command does once its checks have passed: its reply, none while the response comes later. -/
abbrev Body := List Byte → State → Option Reply × State

/-- The commands fetched before this one that have no response yet. -/
def earlier (op : Nat) (c : Cmd) (s : State) : List Fetch := s.mbx.fetched.takeWhile fun f => !(f.op.toNat == op && f.cmd == c)

/-- An earlier command of the same ring holds the command back: any with its INDEX, and every one where it is ORDERED
(R405). -/
def heldBack (op : Nat) (c : Cmd) (s : State) : Bool :=
  (earlier op c s).any fun f =>
    f.cmd.port == c.port && f.cmd.urgent == c.urgent && (f.cmd.index == c.index || c.flags.getLsbD 0)

/-- The command's turn has come: it has been fetched, or its fetch is part of its arrival (rings enabled and a response slot
free), and no earlier command holds it back. -/
def fetchable (op : Nat) (c : Cmd) (s : State) : Bool :=
  ((findFetch op c s).isSome || ((s.mbx.port.at c.port).ringEn && !rspFull s c.port)) && !heldBack op c s

/-- A command of the catalogue runs (R401, R405, R406). A forwarded command runs in the standby with no response. -/
def runCmd (op : Nat) (c : Cmd) (body : Body) (s : State) : State :=
  if !s.mbx.ready || !controlRuns s then s
  else if c.fwd.isSome then settle (body (cmdFields op c) s).2
  else if !fetchable op c s then s
  else match checks op c s with
    | some r => answer op c r s
    | none =>
      let s := if (findFetch op c s).isSome then s else forwardOut op c s
      let out := body (cmdFields op c) s
      let t := settle out.2
      match out.1 with
      | some r => answer op c r t
      | none =>
        if (findFetch op c t).isSome then t
        else { t with mbx.fetched := t.mbx.fetched ++ [{ op := BitVec.ofNat 16 op, cmd := c, dropped := false }] }

/-- A command reaches its body (R406). -/
def accepted (op : Nat) (c : Cmd) (s : State) : Bool :=
  s.mbx.ready && controlRuns s && (c.fwd.isSome || (fetchable op c s && (checks op c s).isNone))

/-- A body that only reads. -/
def reads (f : List Byte → State → Reply) : Body := fun p s => (some (f p s), s)

/-- A body that always answers. -/
def acts (f : List Byte → State → Reply × State) : Body := fun p s => (some (f p s).1, (f p s).2)

end Sys2Proof.Machine
end

