-- ==== Sys2Proof/Machine/Window.lean ====
section
/-! DEFINITION. The direct register window, the port blocks, the records of the Ethernet ports, QSPI, and the fetching of
commands (R384 to R412). -/

namespace Sys2Proof.Machine

/-! ### Reading the window (R391 to R396) -/

/-- A register of port block `p` at an offset (R396). -/
def portRegister (s : State) (p : PortNo) (off : Nat) : Word :=
  let q := s.mbx.port.at p
  let i := q.idx
  match off with
  | 0x00 => portCtrl s p
  | 0x04 => portStat s p
  | 0x08 => BitVec.ofNat 32 (poolBase + ucmdBase p)
  | 0x0C => BitVec.ofNat 32 (poolBase + ncmdBase p)
  | 0x10 => BitVec.ofNat 32 (poolBase + rspBase p)
  | 0x14 => BitVec.ofNat 32 (poolBase + evtBase p)
  | 0x18 => BitVec.ofNat 32 (poolBase + bulkBase p)
  | 0x1C => BitVec.ofNat 32 bulkSize
  | 0x24 => i.ucmdPi.zeroExtend 32
  | 0x28 => i.ucmdCi.zeroExtend 32
  | 0x34 => i.ncmdPi.zeroExtend 32
  | 0x38 => i.ncmdCi.zeroExtend 32
  | 0x40 => i.rspPi.zeroExtend 32
  | 0x44 => i.rspCi.zeroExtend 32
  | 0x48 => i.evtPi.zeroExtend 32
  | 0x4C => i.evtCi.zeroExtend 32
  | 0x50 => q.evtLost
  | 0x58 => q.hostHb
  | _ => 0

/-- A word of the direct register window (R391). -/
def windowRead (s : State) (addr : Nat) : Word :=
  match addr with
  | 0x000 => 0x5A476451
  | 0x004 => word [2 ^ 24, 2 ^ 16, Config.siRev.toNat]
  | 0x008 => BitVec.ofNat 32 Config.serial.toNat
  | 0x00C => BitVec.ofNat 32 (Config.serial.toNat / 2 ^ 32)
  | 0x010 => mbStatus s
  | 0x014 => BitVec.ofNat 32 (versionOf s 2)
  | 0x020 => word [s.mbx.qspiLvl.toNat * 256, s.mbx.busyMs.toNat]
  | 0x100 => modeStatus s
  | 0x104 => clockStatus s
  | 0x108 => s.rus.cause
  | 0x200 => pairStatus s
  | 0x300 => evtPend s 0
  | 0x304 => evtPend s 1
  | 0x308 => evtPend s 2
  | 0x30C => evtPend s 3
  | 0x310 => irqStat s
  | 0x400 => BitVec.ofNat 32 (poolBase + mirrorBase)
  | 0x404 => s.mbx.lrdSeq
  | 0x408 => s.mbx.lrdLen
  | a =>
    if 0x1000 ≤ a && a < 0x1300 then portRegister s (Fin.ofNat 3 ((a - 0x1000) / 256)) (a % 256) else 0

/-! ### Access and traffic -/

/-- The control die serves the port: it runs, and the port's authority is above 0 (R385, R389). -/
def served (s : State) (p : PortNo) : Bool := controlRuns s && decide (0 < portLevel s p)

/-- Host traffic ends a port's silence (R396, R410). -/
def hostTraffic (p : PortNo) (s : State) : State :=
  if (s.mbx.port.at p).silent then
    raiseEnd 5 p.val [] (s.onPort p fun q => { q with silent := false })
  else s

/-- A refused access: ACC_ERR and its event (R392, R547). -/
def accessRefused (p : PortNo) (s : State) : State :=
  raise 7 p.val 0 [] (s.onPort p fun q => { q with accErr := satAdd 8 q.accErr 1 })

/-- A refused doorbell, consumer index or record: DB_ERR and its event (R390, R398). -/
def doorbellRefused (p : PortNo) (s : State) : State :=
  raise 6 p.val 0 [] (s.onPort p fun q => { q with dbErr := satAdd 8 q.dbErr 1 })

/-- RING_EN goes from 0 to 1 (R399). -/
def enableRings (p : PortNo) (s : State) : State :=
  let s := s.onPort p fun q =>
    { q with ringEn := true, idx := .zero, accErr := 0, dbErr := 0, evtLost := 0, lostNew := 0, lostFirst := 0 }
  poolClear s (ringBase p) ringBytes

/-- RING_EN goes from 1 to 0: the responses of fetched commands will be discarded (R399). -/
def disableRings (p : PortNo) (s : State) : State :=
  let s := s.onPort p fun q => { q with ringEn := false }
  { s with mbx.fetched := s.mbx.fetched.map fun f => if f.cmd.port == p then { f with dropped := true } else f }

/-- RING_EN takes a value. -/
def setRings (p : PortNo) (on : Bool) (s : State) : State :=
  match (s.mbx.port.at p).ringEn, on with
  | false, true => enableRings p s
  | true, false => disableRings p s
  | _, _ => s

/-- A write of PORT_CTRL; PORT_TO 0 is out of its range and leaves the field (R396). -/
def writePortCtrl (p : PortNo) (v : Word) (s : State) : State :=
  let s := setRings p (wBit v 0) s
  s.onPort p fun q =>
    { q with evtEn := wBit v 1, rspIrq := BitVec.ofNat 2 (wFld v 6 2),
             portTo := if wFld v 8 8 = 0 then q.portTo else BitVec.ofNat 8 (wFld v 8 8) }

/-- The condition of R398 on a new producer index. -/
def doorbellOk (pi ci v : BitVec 16) (n : Nat) : Bool :=
  let d := idxSub v pi
  decide (0 < d) && decide (d + idxSub pi ci ≤ n)

/-- DB_UCMD or DB_NCMD is written (R398). -/
def ring (p : PortNo) (urgent : Bool) (v : BitVec 16) (s : State) : State :=
  let q := s.mbx.port.at p
  let ok := if urgent then doorbellOk q.idx.ucmdPi q.idx.ucmdCi v 64 else doorbellOk q.idx.ncmdPi q.idx.ncmdCi v 256
  if q.ringEn && s.mbx.ready && ok then
    s.onPort p fun q =>
      { q with idx := if urgent then { q.idx with ucmdPi := v } else { q.idx with ncmdPi := v } }
  else doorbellRefused p s

/-- A consumer index is written: it moves neither backwards nor past its producer index (R398). -/
def consume (p : PortNo) (event : Bool) (v : BitVec 16) (s : State) : State :=
  let i := (s.mbx.port.at p).idx
  let ok := if event then decide (idxSub v i.evtCi ≤ idxSub i.evtPi i.evtCi)
    else decide (idxSub v i.rspCi ≤ idxSub i.rspPi i.rspCi)
  if ok then
    s.onPort p fun q => { q with idx := if event then { q.idx with evtCi := v } else { q.idx with rspCi := v } }
  else doorbellRefused p s

/-- A write of a register of the port's own block. -/
def writePortRegister (p : PortNo) (off : Nat) (v : Word) (s : State) : State :=
  match off with
  | 0x00 => writePortCtrl p v s
  | 0x20 => ring p true (BitVec.ofNat 16 v.toNat) s
  | 0x30 => ring p false (BitVec.ofNat 16 v.toNat) s
  | 0x44 => consume p false (BitVec.ofNat 16 v.toNat) s
  | 0x4C => consume p true (BitVec.ofNat 16 v.toNat) s
  | 0x58 => s.onPort p fun q => { q with hostHb := v }
  | _ => accessRefused p s

/-- Bits of the reset cause register that write 1 to clear (R62). -/
def causeMask : Word := 0xFFFB

/-- A write of a window word through a port that is served (R392). -/
def writeWindow (p : PortNo) (addr : Nat) (v : Word) (s : State) : State :=
  let base := 0x1000 + 0x100 * p.val
  if base ≤ addr && addr < base + 0x100 then writePortRegister p (addr - base) v s
  else if addr = 0x020 && 2 ≤ portLevel s p then
    if within 10 250 (wFld v 0 8) then { s with mbx.busyMs := BitVec.ofNat 8 v.toNat } else s
  else if addr = 0x108 && 2 ≤ portLevel s p then { s with rus.cause := s.rus.cause &&& ~~~ (v &&& causeMask) }
  else accessRefused p s

/-- A host's write of a window word: ignored while the port is not served, and host traffic otherwise. -/
def hostWrite (p : PortNo) (addr : Nat) (v : Word) (s : State) : State :=
  if served s p then writeWindow p addr v (hostTraffic p s) else s

/-- A register of the port block of a port. -/
def portAddr (p : PortNo) (off : Nat) : Nat := 0x1000 + 0x100 * p.val + off

def execRegisterWrite (port : PortNo) (addr : BitVec 32) (value : Word) (s : State) : Host.Outcome State Fault Refusal :=
  done (hostWrite port addr.toNat value s)

def execBusyMsWrite (port : PortNo) (value : Word) (s : State) : Host.Outcome State Fault Refusal :=
  done (hostWrite port 0x020 value s)

def execResetCauseClear (port : PortNo) (value : Word) (s : State) : Host.Outcome State Fault Refusal :=
  done (hostWrite port 0x108 value s)

def execRingEnable (port : PortNo) (value : Word) (s : State) : Host.Outcome State Fault Refusal :=
  done (hostWrite port (portAddr port 0x00) value s)

def execRingDisable (port : PortNo) (value : Word) (s : State) : Host.Outcome State Fault Refusal :=
  done (hostWrite port (portAddr port 0x00) value s)

def execUrgentDoorbell (port : PortNo) (value : BitVec 16) (s : State) : Host.Outcome State Fault Refusal :=
  done (hostWrite port (portAddr port 0x20) (value.zeroExtend 32) s)

def execNormalDoorbell (port : PortNo) (value : BitVec 16) (s : State) : Host.Outcome State Fault Refusal :=
  done (hostWrite port (portAddr port 0x30) (value.zeroExtend 32) s)

def execResponseConsumerWrite (port : PortNo) (value : BitVec 16) (s : State) : Host.Outcome State Fault Refusal :=
  done (hostWrite port (portAddr port 0x44) (value.zeroExtend 32) s)

def execEventConsumerWrite (port : PortNo) (value : BitVec 16) (s : State) : Host.Outcome State Fault Refusal :=
  done (hostWrite port (portAddr port 0x4C) (value.zeroExtend 32) s)

def execHostHeartbeatWrite (port : PortNo) (value : Word) (s : State) : Host.Outcome State Fault Refusal :=
  done (hostWrite port (portAddr port 0x58) value s)

/-! ### Connections (R386, R399, R410) -/

/-- A TLS connection of an Ethernet port closes (R399). -/
def closeConnection (p : PortNo) (s : State) : State :=
  if (s.mbx.port.at p).connected then
    let s := disableRings p (s.onPort p fun q => { q with connected := false, level := 0 })
    raise 8 p.val 0 [] s
  else s

/-- The Ethernet ports' connections close after a vault wipe (R445). -/
def closeConnections (s : State) : State := closeConnection 1 (closeConnection 0 s)

/-- The port of an Ethernet port. -/
def ethPort (p : EthPort) : PortNo := Fin.ofNat 3 p.val

/-- The slot that verifies a client chain, and the level that it gives (R386). -/
def chainSlot (q : Port) (root : ClientRoot) : BitVec 16 × Nat :=
  match root with
  | .commission => (q.net.commissionSlot, 3)
  | .operate => (q.net.operateSlot, 2)
  | .other => (0xFFFF, 0)

/-- The handshake's uses of keys: the server slot signs, and a root slot verifies the client chain. The level, 0 where the
handshake is refused (R386, R458 to R461). -/
def handshake (q : Port) (root : ClientRoot) (s : State) : Nat × State :=
  match useMapped q.net.serverSlot 2 31 s with
  | (false, s) => (0, s)
  | (true, s) =>
    let (slot, level) := chainSlot q root
    match useMapped slot 2 30 s with
    | (true, s) => (level, s)
    | (false, s) => (0, s)

/-- A client asks for a TLS connection (R386, R399). -/
def openConnection (p : PortNo) (root : ClientRoot) (s : State) : State :=
  if !controlRuns s || !s.mbx.ready then s
  else
    let q := s.mbx.port.at p
    if q.connected && !q.silent then raise 8 p.val 0 [] s
    else match handshake q root s with
    | (0, s) => raise 8 p.val 0 [] s
    | (level + 1, s) =>
      let s := derive .mbxTicket [BitVec.ofNat 8 p.val] (closeConnection p s)
      let s := s.onPort p fun q =>
        { q with connected := true, level := BitVec.ofNat 2 (level + 1), netInUse := q.net, sent := [], ringEn := false }
      raise 8 p.val 0 [] (enableRings p (hostTraffic p s))

def execTlsConnectionOpen (port : EthPort) (root : ClientRoot) (s : State) : Host.Outcome State Fault Refusal :=
  done (openConnection (ethPort port) root s)

def execTlsConnectionClose (port : EthPort) (s : State) : Host.Outcome State Fault Refusal :=
  done (closeConnection (ethPort port) s)

/-- PORT_TO passes without host traffic (R410). -/
def portSilence (p : PortNo) (s : State) : State :=
  if !controlRuns s || (s.mbx.port.at p).silent then s
  else
    let s := raise 5 p.val 0 [] (s.onPort p fun q => { q with silent := true })
    if p = 2 then s else closeConnection p s

def execPortSilence (port : PortNo) (s : State) : Host.Outcome State Fault Refusal := done (portSilence port s)

/-! ### Records (R390) -/

/-- A record of an open connection. -/
def onRecord (p : PortNo) (f : State → State) (s : State) : State :=
  if controlRuns s && (s.mbx.port.at p).connected then f (hostTraffic p s) else s

/-- A 0x01 record: entry write and doorbell together. -/
def recordEntry (p : PortNo) (urgent : Bool) (entry : List Byte) (s : State) : State :=
  if entry.length < 16 || 256 < entry.length then closeConnection p s
  else
    let i := (s.mbx.port.at p).idx
    let pi := if urgent then i.ucmdPi else i.ncmdPi
    let full := if urgent then 64 ≤ idxSub i.ucmdPi i.ucmdCi else 256 ≤ idxSub i.ncmdPi i.ncmdCi
    if full || !(s.mbx.port.at p).ringEn then doorbellRefused p s
    else
      let a := if urgent then ucmdBase p + pi.toNat % 64 * 256 else ncmdBase p + pi.toNat % 256 * 256
      ring p urgent (idxAdd pi 1) (poolWrite s a (padTo 256 entry))

def execRecordRingEntry (port : EthPort) (urgent : Bool) (entry : List Byte) (s : State) :
    Host.Outcome State Fault Refusal :=
  done (onRecord (ethPort port) (recordEntry (ethPort port) urgent entry) s)

def execRecordConsumerIndex (port : EthPort) (event : Bool) (index : BitVec 16) (s : State) :
    Host.Outcome State Fault Refusal :=
  done (onRecord (ethPort port) (consume (ethPort port) event index) s)

/-- A 0x05 record and its 0x06 answer. -/
def recordRead (p : PortNo) (tag : BitVec 16) (addr count : Nat) (s : State) : State :=
  if count = 0 || 64 < count then closeConnection p s
  else
    let ws := (List.range count).map fun k => windowRead s (addr + 4 * k)
    sendRecord p (recordBytes 6 0 tag.toNat (wordBytes ws)) s

def execRecordWindowRead (port : EthPort) (tag : BitVec 16) (addr : BitVec 32) (count : Nat) (s : State) :
    Host.Outcome State Fault Refusal :=
  done (onRecord (ethPort port) (recordRead (ethPort port) tag addr.toNat count) s)

/-- The words of a 0x07 record, written in order. -/
def writeWords (p : PortNo) : Nat → List Word → State → State
  | _, [], s => s
  | a, v :: vs, s => writeWords p (a + 4) vs (writeWindow p a v s)

def execRecordWindowWrite (port : EthPort) (addr : BitVec 32) (words : List Word) (s : State) :
    Host.Outcome State Fault Refusal :=
  done (onRecord (ethPort port) (writeWords (ethPort port) addr.toNat words) s)

/-- A 0x08 record: bytes into the bulk region. -/
def recordBulkIn (p : PortNo) (off : Nat) (bytes : List Byte) (s : State) : State :=
  if 4096 < bytes.length then closeConnection p s
  else if bulkSize < off + bytes.length then accessRefused p s
  else poolWrite s (bulkBase p + off) bytes

def execRecordBulkWrite (port : EthPort) (offset : Nat) (bytes : List Byte) (s : State) :
    Host.Outcome State Fault Refusal :=
  done (onRecord (ethPort port) (recordBulkIn (ethPort port) offset bytes) s)

/-- A 0x09 record and its 0x0A answer. -/
def recordBulkOut (p : PortNo) (tag : BitVec 16) (off len : Nat) (s : State) : State :=
  if 4096 < len then closeConnection p s
  else if bulkSize < off + len then accessRefused p s
  else match poolRead s (bulkBase p + off) len with
    | some bytes => sendRecord p (recordBytes 0x0A 0 tag.toNat bytes) s
    | none => accessRefused p s

def execRecordBulkRead (port : EthPort) (tag : BitVec 16) (offset len : Nat) (s : State) :
    Host.Outcome State Fault Refusal :=
  done (onRecord (ethPort port) (recordBulkOut (ethPort port) tag offset len) s)

def execMalformedRecord (port : EthPort) (s : State) : Host.Outcome State Fault Refusal :=
  done (onRecord (ethPort port) (closeConnection (ethPort port)) s)

/-! ### QSPI (R388, R389) -/

/-- The bytes that QSPI answers to a read. -/
def qspiAnswer (bytes : List Byte) (s : State) : State := s.onPort 2 fun q => { q with sent := [bytes] }

/-- The byte of instruction 0x05. -/
def portStatusByte (s : State) : Byte :=
  if served s 2 then BitVec.ofNat 8 (flag s.mbx.ready 0 + flag (s.mbx.port.at 2).silent 1) else 0

def execQspiReadPortStatus (s : State) : Host.Outcome State Fault Refusal := done (qspiAnswer [portStatusByte s] s)

/-- QSPI may read a pool word: rings, bulk region of port 2, or the legal mirror (R389). -/
def qspiReadable (off : Nat) : Bool :=
  (ringBase 2 ≤ off && off < ringBase 2 + ringBytes) || (bulkBase 2 ≤ off && off < bulkBase 2 + bulkSize)
    || (mirrorBase ≤ off && off < mirrorBase + mirrorSize)

/-- QSPI may write a pool word. -/
def qspiWritable (off : Nat) : Bool :=
  (ringBase 2 ≤ off && off < ringBase 2 + ringBytes) || (bulkBase 2 ≤ off && off < bulkBase 2 + bulkSize)

/-- An access of a master counted in its bank group (R436). -/
def countAccess (m : MasterNo) (off : Nat) (s : State) : State :=
  { s with mem.conflicts := s.mem.conflicts.upd m fun c =>
      { c with acc := c.acc.upd (Fin.ofNat 8 (off / 8 % 64 / 8)) fun w => satAdd 32 w 1 } }

/-- A QSPI read of a pool word. -/
def qspiPoolRead (off : Nat) (s : State) : State :=
  if !qspiReadable off then qspiAnswer [0, 0, 0, 0] (accessRefused 2 s)
  else
    let s := countAccess 13 off s
    match poolRead s off 4 with
    | some bytes => qspiAnswer bytes s
    | none => qspiAnswer [0, 0, 0, 0] (accessRefused 2 s)

/-- A QSPI write of a pool word. -/
def qspiPoolWrite (off : Nat) (v : Word) (s : State) : State :=
  if qspiWritable off then poolWrite (countAccess 13 off (hostTraffic 2 s)) off (leBytes 4 v.toNat)
  else accessRefused 2 (hostTraffic 2 s)

/-- A QSPI access of the pool's address range; addresses outside every range of R389 read 0 and ignore writes. -/
def qspiAccess (addr : Nat) (write : Option Word) (s : State) : State :=
  if !served s 2 then
    match write with
    | none => qspiAnswer [0, 0, 0, 0] s
    | some _ => s
  else if addr < poolBase || poolBase + poolSize ≤ addr then
    match write with
    | none => qspiAnswer (if addr < 0x10000 then leBytes 4 (windowRead s addr).toNat else [0, 0, 0, 0]) s
    | some v => if addr < 0x10000 then writeWindow 2 addr v (hostTraffic 2 s) else hostTraffic 2 s
  else
    let off := (addr - poolBase) / 4 * 4
    match write with
    | none => qspiPoolRead off s
    | some v => qspiPoolWrite off v s

def execQspiPoolAccess (addr : BitVec 32) (write : Option Word) (s : State) : Host.Outcome State Fault Refusal :=
  done (qspiAccess addr.toNat write s)

/-! ### Fetching (R401 to R406) -/

/-- A port whose urgent ring holds a command that can be fetched. -/
def urgentWaits (s : State) (p : PortNo) : Bool :=
  let q := s.mbx.port.at p
  q.ringEn && !rspFull s p && q.idx.ucmdPi != q.idx.ucmdCi

/-- A port whose normal ring holds a command that can be fetched. -/
def normalWaits (s : State) (p : PortNo) : Bool :=
  let q := s.mbx.port.at p
  q.ringEn && !rspFull s p && q.idx.ncmdPi != q.idx.ncmdCi

/-- The ring that is served next: urgent rings of ports 2, 0, 1, then the normal ring whose turn comes first (R403). -/
def nextRing (s : State) : Option (PortNo × Bool) :=
  match [2, 0, 1].find? (urgentWaits s) with
  | some p => some (p, true)
  | none => (([s.mbx.turn, s.mbx.turn + 1, s.mbx.turn + 2] : List PortNo).find? (normalWaits s)).map fun p => (p, false)

/-- The consumer index moves on and a normal port gives up its turn. -/
def consumed (p : PortNo) (urgent : Bool) (s : State) : State :=
  let s := s.onPort p fun q =>
    { q with idx := if urgent then { q.idx with ucmdCi := idxAdd q.idx.ucmdCi 1 }
                    else { q.idx with ncmdCi := idxAdd q.idx.ncmdCi 1 } }
  if urgent then s else { s with mbx.turn := p + 1 }

/-- BACKLOG takes a value, with its event (R392, R547). -/
def setBacklog (on : Bool) (s : State) : State :=
  if s.mbx.backlog == on then s
  else
    let s := { s with mbx.backlog := on }
    if on then raise 9 moduleIndex 0 [] s else raiseEnd 9 moduleIndex [] s

/-- Retry-after of BUSY: the estimate rounded up to 10 ms, from 10 to 5,000 (R403). -/
def retryAfter (estimate : Nat) : Nat := max 10 (min 5000 (ceilDiv estimate 10 * 10))

/-- An entry that fails its header checks is answered at once, its header copied. -/
def answerEntry (p : PortNo) (e : List Byte) (r : Reply) (s : State) : State :=
  putResponse p
    (entryBytes (byteAt e 3) (byteAt e 2) (leAt e 0 2) 0 (leAt e 4 2) (r.detail * 2 ^ 16 + r.status.code) (leAt e 12 2) [])
    s

/-- The command that an entry holds. -/
def entryCmd (p : PortNo) (urgent : Bool) (e : List Byte) : Cmd :=
  { port := p, urgent := urgent, flags := BitVec.ofNat 8 (byteAt e 2), tag := BitVec.ofNat 16 (leAt e 4 2),
    index := BitVec.ofNat 16 (leAt e 12 2), payload := slice e 16 (leAt e 6 2), fwd := none }

/-- Step 8 of R406: the handover, then the backlog. -/
def busyCheck (urgent : Bool) (estimate : Nat) (s : State) : Option Reply :=
  if s.mbx.handover then some (reply .busy 20)
  else if !urgent && s.mbx.busyMs.toNat < estimate then some (reply .busy (retryAfter estimate))
  else none

/-- The entry is checked, and answered or kept as a fetched command. -/
def fetchEntry (p : PortNo) (urgent : Bool) (estimate : Nat) (e : List Byte) (s : State) : State :=
  let op := leAt e 0 2
  let c := entryCmd p urgent e
  if byteAt e 3 ≠ 1 then answerEntry p e (reply .version 1) s
  else if 4 ≤ byteAt e 2 || leAt e 8 4 ≠ 0 || leAt e 14 2 ≠ 0 || 240 < leAt e 6 2 then
    answerEntry p e (reply .badHeader 0) s
  else match headChecks op c s with
    | some r => answerEntry p e r s
    | none =>
      let s := if !urgent && !s.mbx.handover then setBacklog (decide (s.mbx.busyMs.toNat < estimate)) s else s
      match busyCheck urgent estimate s with
      | some r => answerEntry p e r s
      | none =>
        match tailChecks op c s with
        | some r => answerEntry p e r s
        | none =>
          forwardOut op c
            { s with mbx.fetched := s.mbx.fetched ++ [{ op := BitVec.ofNat 16 op, cmd := c, dropped := false }] }

/-- Millet fetches the next command (R403). An entry with an uncorrectable error gets MEM_ERROR, its opcode left open. -/
def fetchNext (estimate : Nat) (s : State) : State :=
  if !controlRuns s || !s.mbx.ready then s
  else match nextRing s with
    | none => s
    | some (p, urgent) =>
      let i := (s.mbx.port.at p).idx
      let a := if urgent then ucmdBase p + i.ucmdCi.toNat % 64 * 256 else ncmdBase p + i.ncmdCi.toNat % 256 * 256
      let t := consumed p urgent s
      match poolRead s a 256 with
      | some e => fetchEntry p urgent estimate e t
      | none =>
        let (v, t) := takeFree t
        putResponse p (entryBytes 1 0 (v % 2 ^ 16) 0 0 (Status.code .memError) 0xFFFF []) t

def execCommandFetch (estimateMs : Nat) (s : State) : Host.Outcome State Fault Refusal := done (fetchNext estimateMs s)

/-! ### Event rings (R402, R549 to R553) -/

/-- The 32 payload bytes of an event entry (R553). -/
def eventPayload (c : Occ) : List Byte :=
  leBytes 4 c.seq.toNat ++ leBytes 8 c.time
    ++ leBytes 4 (flag c.delayed 18 + flag c.ended 17 + flag c.peer 16 + c.mode.toNat * 256 + c.cause.toNat)
    ++ padTo 16 c.data

/-- An event entry (R400). -/
def eventEntry (c : Occ) : List Byte :=
  entryBytes 1 4 (0x8000 + c.source.val) 32 (c.seq.toNat % 2 ^ 16) 0 c.index.toNat (eventPayload c)

/-- An entry written to a port's event ring. -/
def putEvent (p : PortNo) (entry : List Byte) (s : State) : State :=
  let pi := (s.mbx.port.at p).idx.evtPi
  let s := poolWrite s (evtBase p + pi.toNat % 512 * 256) (padTo 256 entry)
  let s := s.onPort p fun q => { q with idx := { q.idx with evtPi := idxAdd pi 1 } }
  sendRecord p (recordBytes 3 3 pi.toNat entry) s

/-- The event ring of a port is full. -/
def eventFull (s : State) (p : PortNo) : Bool :=
  let i := (s.mbx.port.at p).idx
  decide (512 ≤ idxSub i.evtPi i.evtCi)

/-- The lost-events entry that is due once space has returned. Its TAG is a free value: no event stands behind it. -/
def putLost (p : PortNo) (s : State) : State :=
  let q := s.mbx.port.at p
  if q.lostNew = 0 || eventFull s p then s
  else
    let (v, s) := takeFree s
    let e := entryBytes 1 4 0x80FF 12 (v % 2 ^ 16) 0 0xFFFF (leBytes 4 q.lostNew.toNat ++ leBytes 8 q.lostFirst)
    putEvent p e (s.onPort p fun q => { q with lostNew := 0, lostFirst := 0 })

/-- A routed event for one port: written, or dropped and counted (R402). -/
def deliver (c : Occ) (p : PortNo) (s : State) : State :=
  let q := s.mbx.port.at p
  if !(q.ringEn && q.evtEn) then s
  else
    let s := putLost p s
    if eventFull s p then
      s.onPort p fun q =>
        { q with evtLost := satAdd 32 q.evtLost 1, lostNew := satAdd 32 q.lostNew 1,
                 lostFirst := if q.lostNew = 0 then c.time else q.lostFirst }
    else putEvent p (eventEntry c) s

/-- The oldest routed event reaches the rings. -/
def writeEvent (s : State) : State :=
  if !controlRuns s then s
  else match s.evt.routed with
    | [] => s
    | c :: rest => forEach (indices 2) (deliver c) { s with evt.routed := rest }

def execEventRingWrite (s : State) : Host.Outcome State Fault Refusal := done (writeEvent s)

def execEventOccurrence (source : SourceNo) (index : BitVec 16) (cause : Byte) (ended : Bool) (data : List Byte)
    (s : State) : Host.Outcome State Fault Refusal :=
  done (raiseOcc source.val index.toNat cause.toNat ended false data s)

/-- DIE of a die that queues occurrences, as 0x0104 codes it. -/
def queueDie (d : Fin 4) : Nat :=
  match d with
  | 0 => 4
  | 1 => 3
  | 2 => 1
  | 3 => 2

/-- A die's queue is delivered with DELAYED set, and its overflow is reported (R552). -/
def deliverQueue (d : Fin 4) (s : State) : State :=
  let q := s.evt.dieQ.at d
  let s := { s with evt.dieQ := s.evt.dieQ.put d { queue := [], dropped := 0 } }
  let s := q.queue.foldl (fun s c => arrive s { c with delayed := true }) s
  if q.dropped = 0 then s else raise 12 (queueDie d) 0 (leBytes 4 q.dropped) s

/-- The aggregator runs again and takes the dies' queues. -/
def deliverQueues (s : State) : State := if controlRuns s then forEach (indices 3) deliverQueue s else s

def execDelayedEventDelivery (s : State) : Host.Outcome State Fault Refusal := done (deliverQueues s)

end Sys2Proof.Machine
end

