-- ==== Sys2Proof/Machine/Legal.lean ====
section
/-! DEFINITION. Ochre's legal side: the legal log, quality flags, accumulation, demand intervals, billing periods, tariffs,
legal ticks and tamper records (R146 to R177). -/

namespace Sys2Proof.Machine

/-! ### Legal log (R169 to R174) -/

/-- Bytes 0x00 to 0x5B of a legal log entry. -/
def logContent (e : LogEntry) : List Byte :=
  leBytes 4 e.seq.toNat ++ leBytes 8 e.time
    ++ leBytes 4 (e.type.toNat * 2 ^ 16 + e.src.toNat * 2 ^ 12 + flag e.tinv 11 + flag e.oos 10 + e.outlet.toNat)
    ++ padTo 76 e.data

/-- The 96 bytes of a legal log entry; CHECK is opaque. -/
def logBytes (e : LogEntry) : List Byte := logContent e ++ leBytes 4 (Config.check (logContent e)).toNat

/-- Capacity of the legal log. -/
def logSize : Nat := 4096

/-- The log has room for a number of entries. -/
def logRoom (s : State) (n : Nat) : Bool := decide (s.och.log.entries.length + n ≤ logSize)

/-- An entry as it is written now. -/
def newEntry (s : State) (seq : Word) (type src outlet : Nat) (data : List Byte) : LogEntry :=
  { seq := seq, time := legalUnits s, type := BitVec.ofNat 16 type, src := BitVec.ofNat 4 src,
    tinv := s.och.clock.timeInvalid, oos := s.clocks.outSince.isSome, outlet := BitVec.ofNat 8 outlet,
    data := padTo 76 data, read := false }

/-- An entry counted as suppressed while the log is full (R172). -/
def suppress (type time : Nat) : List Suppressed → List Suppressed
  | [] => [{ type := BitVec.ofNat 16 type, count := 1, first := time, last := time }]
  | x :: xs =>
    if x.type.toNat = type then { x with count := satAdd 32 x.count 1, last := time } :: xs
    else x :: suppress type time xs

/-- An entry is written to the legal log; an automatic one is counted instead while the log is full (R171, R172). -/
def writeLog (type src outlet : Nat) (data : List Byte) (s : State) : State :=
  let l := s.och.log
  if logSize ≤ l.entries.length then
    { s with och.log.suppressed := suppress type (legalUnits s) l.suppressed }
  else
    let e := newEntry s (l.seq + 1) type src outlet data
    let s := { s with och.log.seq := e.seq, och.log.entries := l.entries ++ [e] }
    if l.entries.length + 1 = logSize then raise 20 moduleIndex 0 [] s else s

/-- An entry of Ochre about the module. -/
def logOchre (type : Nat) (data : List Byte) (s : State) : State := writeLog type 0 0xFF data s

/-- An entry of a whitelist command. -/
def logWhitelist (type : Nat) (data : List Byte) (s : State) : State := writeLog type 1 0xFF data s

/-- The summaries of R172, the first entries of the freed log. DESIGN CHOICE: a summary that finds no room is itself counted as
suppressed under its own type, and the count it carried is lost. -/
def writeSummaries : List Suppressed → State → State
  | [], s => s
  | x :: xs, s =>
    writeSummaries xs
      (logOchre 0x00FF (leBytes 2 x.type.toNat ++ leBytes 4 x.count.toNat ++ leBytes 8 x.first ++ leBytes 8 x.last) s)

/-! ### Whitelist refusals (R24, R25) -/

/-- A refusal of Ochre counted, in the order of R24, with its event. -/
def countRefusal (reason : Fin 6) (s : State) : State :=
  raise 21 moduleIndex 0 [] { s with och.refusals := s.och.refusals.upd reason fun w => satAdd 32 w 1 }

/-- Order of R24 of a status, none for one that Ochre does not refuse with. -/
def refusalIndex (st : Status) : Option (Fin 6) :=
  match st with
  | .notListed => some 0
  | .mode => some 1
  | .legalLogFull => some 2
  | .otpExhausted => some 3
  | .outOfRange => some 4
  | .recordsFull => some 5
  | _ => none

/-- A whitelist command refused by Ochre. -/
def ochreRefuses (r : Reply) (s : State) : Option Reply × State :=
  match refusalIndex r.status with
  | some k => (some r, countRefusal k s)
  | none => (some r, s)

/-! ### Quality flags (R162) -/

def flagTime : Word := 1 <<< 11
def flagIncomplete : Word := 1 <<< 13
def flagGap : Word := 1 <<< 1
def flagTamper : Word := 1 <<< 10
def flagOos : Word := 1 <<< 3
def flagInvalidTime : Word := 1 <<< 2
def flagUnconf : Word := 1 <<< 16
def flagMdExcl : Word := 1 <<< 17
def flagCal : Word := 1 <<< 18
def flagWaited : Word := 1 <<< 15
def flagPowerStop : Word := 1 <<< 14
def flagSaveLost : Word := 1 <<< 9
def flagLate : Word := 1

def Interval.mark (w : Word) (i : Interval) : Interval := { i with flags := i.flags ||| w }

def SessionRecord.mark (w : Word) (r : SessionRecord) : SessionRecord := { r with flags := r.flags ||| w }

/-- Flags set in an outlet's open interval. -/
def markInterval (o : OutletNo) (w : Word) (s : State) : State :=
  s.onMeter o fun m => { m with acc := { m.acc with cur := m.acc.cur.mark w } }

def State.onRecord (s : State) (o : OutletNo) (f : OpenSlot → OpenSlot) : State :=
  { s with och.recs.slots := s.och.recs.slots.upd o f }

/-- Flags set in an open session record. -/
def OpenSlot.mark (w : Word) : OpenSlot → OpenSlot
  | .opened r t => .opened (r.mark w) t
  | x => x

/-- Flags set in an outlet's open session record. -/
def markSession (o : OutletNo) (w : Word) (s : State) : State := s.onRecord o (OpenSlot.mark w)

/-- Flags set in every open interval and open session record. -/
def markAll (w : Word) (s : State) : State := forEach outlets (fun o s => markSession o w (markInterval o w s)) s

/-! ### Accumulation (R125 to R129, R148 to R151) -/

/-- Energy of a completed cycle, period or part of one, in 2^-32 of a count. -/
structure Energy where
  export_ : Bool
  ep : Nat
  /-- Quadrant 0 to 3 and reactive energy. -/
  eq : Option (Nat × Nat)
  es : Nat
  /-- Import energy at the vehicle side. -/
  veh : Nat
  flags : Word
deriving DecidableEq, Repr

/-- A 96-bit total with energy added, rolling over. -/
def addTotal (t : BitVec 96) (e : Nat) : BitVec 96 := t + BitVec.ofNat 96 e

/-- The register that tags a cycle by its start on the monotonic counter: the one before the earliest later switch (R128,
R151). -/
def registerFrom (reg : Fin 8) (start : Nat) : List (Nat × Fin 8) → Fin 8
  | [] => reg
  | (at_, before) :: l => if start < at_ then registerFrom before start l else reg

def registerAt (t : Tariffs) (start : Nat) : Fin 8 := registerFrom t.reg start t.switches

/-- The register in force becomes another one from a moment of the monotonic counter on. -/
def Tariffs.switchTo (reg : Fin 8) (mono : Nat) (t : Tariffs) : Tariffs :=
  if reg = t.reg then t else { t with reg := reg, switches := ((mono, t.reg) :: t.switches).take 8 }

/-- Energy added to an interval's register. -/
def Interval.add (k : Fin 8) (e : Energy) (i : Interval) : Interval :=
  { i with imp := if e.export_ then i.imp else i.imp.upd k (addTotal · e.ep),
           exp := if e.export_ then i.exp.upd k (addTotal · e.ep) else i.exp, flags := i.flags ||| e.flags }

/-- The totals of R129. -/
def addTotals (e : Energy) (t : Tab (BitVec 96) 8) : Tab (BitVec 96) 8 :=
  let t := t.upd (if e.export_ then 1 else 0) (addTotal · e.ep)
  let t := t.upd (if e.export_ then 7 else 6) (addTotal · e.es)
  match e.eq with
  | some (q, v) => t.upd (Fin.ofNat 8 (2 + q)) (addTotal · v)
  | none => t

/-- The interval that a cycle belongs to: one whose boundary is fixed, by its nominal start, the open one, or one that is final
already. -/
inductive Ival where
  | closing (label : Nat)
  | cur
  | past
deriving DecidableEq, Repr

/-- The interval of what starts at a moment of the monotonic counter (R159). -/
def Accum.ivalAt (a : Accum) (start : Nat) : Ival :=
  match a.closing.find? fun c => decide (start < c.endMono) with
  | some c => .closing c.label
  | none => .cur

/-- A change of one interval that is closing. -/
def onClosing (label : Nat) (f : Interval → Interval) (l : List Interval) : List Interval :=
  l.map fun c => if c.label = label then f c else c

/-- The registers of an outlet with energy tagged by `k`, in its interval and its session. -/
def Accum.add (k : Fin 8) (i : Ival) (inSession : Bool) (e : Energy) (a : Accum) : Accum :=
  { a with totals := addTotals e a.totals,
           tarImp := if e.export_ then a.tarImp else a.tarImp.upd k (addTotal · e.ep),
           tarExp := if e.export_ then a.tarExp.upd k (addTotal · e.ep) else a.tarExp,
           dcVeh := if e.export_ then a.dcVeh else addTotal a.dcVeh e.veh,
           cur := if i = .cur then a.cur.add k e else a.cur,
           closing := (match i with
             | .closing label => onClosing label (Interval.add k e) a.closing
             | _ => a.closing),
           sessImp := if inSession && !e.export_ then addTotal a.sessImp e.ep else a.sessImp,
           sessExp := if inSession && e.export_ then addTotal a.sessExp e.ep else a.sessExp,
           sessTar := if inSession && !e.export_ then a.sessTar.upd k (addTotal · e.ep) else a.sessTar,
           sessVeh := if inSession && !e.export_ then addTotal a.sessVeh e.veh else a.sessVeh }

/-- The slot's session owns what starts at a moment of the monotonic counter (R128, R180). -/
def OpenSlot.owns (x : OpenSlot) (start : Nat) : Bool :=
  match x with
  | .opened _ t => decide (t ≤ start)
  | .stopped _ t stop => decide (t ≤ start) && decide (start < stop)
  | _ => false

/-- Flags of a cycle in the session record that owns it. -/
def OpenSlot.markAt (start : Nat) (w : Word) (x : OpenSlot) : OpenSlot :=
  if x.owns start then
    (match x with
     | .opened r t => .opened (r.mark w) t
     | .stopped r t u => .stopped (r.mark w) t u
     | y => y)
  else x

/-- Energy that started at a moment of the monotonic counter enters its outlet's registers. -/
def accumulate (o : OutletNo) (start : Nat) (e : Energy) (s : State) : State :=
  let k := registerAt s.och.tariffs start
  let own := (s.och.recs.slots.at o).owns start
  let s := s.onMeter o fun m => { m with acc := m.acc.add k (m.acc.ivalAt start) own e, export_ := e.export_ }
  s.onRecord o (OpenSlot.markAt start e.flags)

/-! ### Demand intervals (R158 to R162) -/

/-- The demand of energy over a time in µs, 0.1 W (R160). -/
def demandOf (e : BitVec 96) (us : Nat) : Rat := ((e.toNat * 36000 : Nat) : Rat) / ((2 ^ 32 * us : Nat) : Rat)

/-- A demand in 0.1 W as its register holds it, truncated. One beyond 32 bits is a free value: the format cannot hold it. -/
def truncated (d : Rat) (free : Nat) : Nat := if d < 2 ^ 32 then d.floor.toNat else Config.freeValue free % 2 ^ 32

/-- A maximum-demand register after a demand: replaced by one that exceeds it. -/
def MaxDemand.raise (d : Rat) (time free : Nat) (m : MaxDemand) : MaxDemand :=
  if (m.value.toNat : Rat) < d then { value := BitVec.ofNat 32 (truncated d free), time := BitVec.ofNat 32 time } else m

/-- The interval does not enter maximum demand (R160). -/
def excluded (i : Interval) (inclIncomplete : Bool) : Bool :=
  (i.flags &&& flagIncomplete ≠ 0 && !inclIncomplete)
    || (i.flags &&& flagTime ≠ 0 && decide (2 * (i.endMono - i.startMono) < i.len * minuteUs))

/-- Maximum demand per register after a final interval. -/
def newMaxima (free : Nat) (i : Interval) (e : Tab (BitVec 96) 8) (md : Tab MaxDemand 8) : Tab MaxDemand 8 :=
  md.mapN fun k m =>
    m.raise (demandOf (e.at (Fin.ofNat 8 k)) (i.endMono - i.startMono)) (i.tEnd / 15625) (free + k)

/-- The interval record of a final interval (R161). -/
def intervalRecord (i : Interval) : IntervalRecord :=
  let sum (t : Tab (BitVec 96) 8) : BitVec 64 :=
    BitVec.ofNat 64 ((t.toList.foldl (fun a x => a + x.toNat) 0) / 2 ^ 32)
  { tEnd := i.tEnd, elapsed := BitVec.ofNat 32 ((i.endMono - i.startMono) / 1000), flags := i.flags, imp := sum i.imp,
    exp := sum i.exp }

/-- The registers of a billing snapshot hold the maxima of the interval that closed at its boundary (R163). -/
def snapshotOwns (s : State) (i : Interval) : Bool :=
  match s.och.snapshots.getLast? with
  | some p => p.time == i.tEnd
  | none => false

/-- Maxima of an outlet raised, in the latest snapshot or in the current period. -/
def raiseMaxima (o : OutletNo) (i : Interval) (s : State) : State :=
  let f (a : Accum) : Accum :=
    { a with mdImp := newMaxima s.free i i.imp a.mdImp, mdExp := newMaxima (s.free + 8) i i.exp a.mdExp }
  let t := { s with free := s.free + 16 }
  if snapshotOwns s i then
    match s.och.snapshots.getLast? with
    | some p => { t with och.snapshots := s.och.snapshots.dropLast ++ [{ p with regs := p.regs.upd o f }] }
    | none => t
  else t.onMeter o fun m => { m with acc := f m.acc }

/-- An interval that became final enters the maxima and the last four records (R160, R161). -/
def keepInterval (o : OutletNo) (i : Interval) (s : State) : State :=
  let ex := excluded i (wBit s.och.set.tariff0Now 8)
  let i := if ex then i.mark flagMdExcl else i
  let s := if ex || i.endMono = i.startMono then s else raiseMaxima o i s
  let kept := (s.och.intervals.at o) ++ [intervalRecord i]
  { s with och.intervals := s.och.intervals.put o (kept.drop (kept.length - 4)) }

/-- The oldest fixed interval of an outlet becomes final. -/
def finalInterval (o : OutletNo) (s : State) : State :=
  match (s.och.meter.at o).acc.closing with
  | [] => s
  | i :: l => keepInterval o i (s.onMeter o fun m => { m with acc := { m.acc with closing := l } })

/-- Every fixed interval of an outlet becomes final. -/
def finalIntervals (o : OutletNo) (s : State) : State :=
  let l := (s.och.meter.at o).acc.closing
  l.foldl (fun s i => keepInterval o i s) (s.onMeter o fun m => { m with acc := { m.acc with closing := [] } })

/-- The flags of what opens now: clock out of specification, time invalid. -/
def openFlags (s : State) : Word :=
  (if s.clocks.outSince.isSome then flagOos else 0) ||| (if s.och.clock.timeInvalid then flagInvalidTime else 0)

/-- 100 ms, within which an interval becomes final, in µs (R159). -/
def finalUs : Nat := 100000

/-- The oldest fixed interval is final after 100 ms at the latest. -/
def finalByNow (mono : Nat) (o : OutletNo) (s : State) : State :=
  match (s.och.meter.at o).acc.closing with
  | [] => s
  | i :: _ => if i.endMono + finalUs ≤ mono then finalInterval o s else s

/-- An outlet's open interval is fixed at a boundary and the next one opens (R159). -/
def closeInterval (minute mono : Nat) (opens : Word) (o : OutletNo) (s : State) : State :=
  let s := finalByNow mono o s
  let w := (if s.och.clock.timeInvalid then flagInvalidTime else 0)
  let next := Interval.fresh minute s.och.tariffs.len mono (opens ||| openFlags s)
  s.onMeter o fun m =>
    let i := { m.acc.cur.mark w with endMono := mono, tEnd := minute * 937500 }
    { m with acc := { m.acc with closing := m.acc.closing ++ [i], cur := next } }

/-- Every outlet's demand boundary at a label in minutes. -/
def closeIntervals (minute mono : Nat) (opens : Word) (s : State) : State :=
  let s := forEach outlets (closeInterval minute mono opens) s
  { s with och.tariffs.demandMark := minute }

def execDemandIntervalFinal (outlet : OutletNo) (s : State) : Host.Outcome State Fault Refusal :=
  done (finalInterval outlet s)

/-! ### Billing periods, calendars, tariffs (R156, R157, R163, R164) -/

/-- The billing period ends at a label in minutes: snapshot, maxima cleared (R163). -/
def endBilling (minute : Nat) (s : State) : State :=
  let snap : Snapshot := { time := minute * 937500, regs := s.och.meter.each (·.acc) }
  let kept := s.och.snapshots ++ [snap]
  let cleared := s.och.meter.each fun m =>
    { m with acc := { m.acc with mdImp := Tab.all 8 .cleared, mdExp := Tab.all 8 .cleared } }
  { s with och.snapshots := kept.drop (kept.length - 2), och.meter := cleared, och.tariffs.billMark := minute }

/-- The passive calendar becomes active at a legal time in µs (R157, R170). -/
def activate (us : Nat) (s : State) : State :=
  let old := s.och.tariffs.active
  let new := s.och.tariffs.passive
  let s := logOchre 0x0022 (leBytes 4 (calId old) ++ leBytes 4 (calId new)) s
  let s := markAll flagCal s
  { s with och.tariffs.active := withActTime new (us / 1000000), och.tariffs.passive := [] }

/-- The passive calendar is due at a legal time in µs. -/
def activationDue (s : State) (us : Nat) : Bool :=
  !s.och.tariffs.passive.isEmpty && decide (calActTime s.och.tariffs.passive * 1000000 ≤ us)

/-- Register of a tariff under the parameters in force (R152). -/
def mapRegister (map : Word) (t : Nat) : Fin 8 := Fin.ofNat 8 (wFld map (3 * t) 3)

/-- The announced switch of a time has been confirmed. -/
def confirmedAt (s : State) (units : Nat) : Bool :=
  match s.och.tariffs.announced with
  | some (t, _, _, ok) => ok && t == units
  | none => false

/-- The tariff takes a value at a moment of legal and monotonic time, with its entry and event (R40, R156). -/
def switchTariff (t us mono : Nat) (s : State) : State :=
  let f := s.och.tariffs
  let before := f.reg
  let after := mapRegister s.och.set.tariff1Now t
  let unconf := f.ha && !confirmedAt s (us / 64)
  let s := { s with och.tariffs := ({ f with tariff := BitVec.ofNat 3 t } : Tariffs).switchTo after mono }
  let s := if unconf then
      markAll flagUnconf (logOchre 0x0023 [BitVec.ofNat 8 before.val, BitVec.ofNat 8 after.val] s)
    else s
  raise 23 moduleIndex (if unconf then 1 else 0) [] s

/-- The calendar in force decides the tariff; a difference is a switch. -/
def applyTariff (us mono : Nat) (s : State) : State :=
  let t := tariffAt s.och.tariffs.active us
  if t = s.och.tariffs.tariff.toNat then s else switchTariff t us mono s

/-- The demand length that holds at a label: an accepted one takes effect at its whole hour (R158). -/
def lengthAt (minute : Nat) (s : State) : State :=
  match s.och.tariffs.lenPend with
  | some (n, hour) =>
    if hour ≤ minute * 60 then { s with och.tariffs.len := n, och.tariffs.lenPend := none } else s
  | none => s

/-- Steps 1 to 4 of R164 at a tick that starts a minute of legal time. -/
def minuteTick (minute mono : Nat) (s : State) : State :=
  let us := minute * minuteUs
  let s := lengthAt minute s
  let s := if minute % 60 % s.och.tariffs.len = 0 && s.och.tariffs.demandMark < minute
    then closeIntervals minute mono 0 s else s
  let s := if lastBilling s.och.tariffs.active us = some minute && s.och.tariffs.billMark < minute
    then endBilling minute s else s
  let s := if activationDue s us then activate us s else s
  applyTariff us mono s

/-- The next tick boundary, `quiet` ticks further on but no further than the next whole minute. -/
def nextTick (us quiet : Nat) : Nat := min ((us / 1000 + 1 + quiet) * 1000) ((us / minuteUs + 1) * minuteUs)

/-- Legal time and the monotonic counter move on together. -/
def advance (d : Nat) (s : State) : State :=
  { s with och.clock.us := s.och.clock.us + d, och.clock.mono := s.och.clock.mono + d }

/-- A legal tick starts: its events are processed, unless a power failure defers them (R147, R164, R165). -/
def legalTick (quiet : Nat) (s : State) : State :=
  let s := advance (nextTick s.och.clock.us quiet - s.och.clock.us) s
  if s.och.clock.failedAt.isSome || s.och.clock.us % minuteUs ≠ 0 || s.dies.ochre != .running then s
  else minuteTick (s.och.clock.us / minuteUs) s.och.clock.mono s

def execLegalTick (quietTicks : Nat) (s : State) : Host.Outcome State Fault Refusal := done (legalTick quietTicks s)

/-- The deferred ticks that start a minute, in order: `n` minutes after minute `m` (R165). -/
def deferredTicks : Nat → Nat → State → State
  | 0, _, s => s
  | n + 1, m, s =>
    let behind := s.och.clock.us - (m + 1) * minuteUs
    deferredTicks n (m + 1) (minuteTick (m + 1) (s.och.clock.mono - behind) s)

/-- Ticks after a legal time in µs and up to another are processed at once. -/
def processUpTo (fromUs toUs : Nat) (s : State) : State :=
  deferredTicks (toUs / minuteUs - fromUs / minuteUs) (fromUs / minuteUs) s

/-- Ticks deferred since a legal time in µs are processed at once. -/
def processDeferred (fromUs : Nat) (s : State) : State := processUpTo fromUs s.och.clock.us s

/-- The latest demand boundary at or before a legal time, in minutes. -/
def lastDemand (len us : Nat) : Nat := us / (len * minuteUs) * len

/-- The latest billing boundary that lies after one legal time in µs and not after another ends its period. -/
def billBetween (from_ to_ : Nat) (s : State) : State :=
  match lastBilling s.och.tariffs.active to_ with
  | some b => if from_ < b * minuteUs && s.och.tariffs.billMark < b then endBilling b s else s
  | none => s

/-- Demand boundaries, billing boundaries and activations that lie between the legal time and a later one are treated under
their latest labels, in the order of R164 (R168). -/
def crossTo (us mono : Nat) (opens : Word) (s : State) : State :=
  let old := s.och.clock.us
  let s := lengthAt (us / minuteUs) s
  let d := lastDemand s.och.tariffs.len us
  let s := if old < d * minuteUs && s.och.tariffs.demandMark < d then closeIntervals d mono opens s else s
  let s := billBetween old us s
  if activationDue s us then activate us s else s

/-! ### Tariff announcement (R40) -/

/-- The next whole minute, 60 s ahead. -/
def announceTariff (s : State) : State :=
  if !s.och.tariffs.ha then s
  else
    let us := (s.och.clock.us / minuteUs + 1) * minuteUs
    let cal := if activationDue s us then s.och.tariffs.passive else s.och.tariffs.active
    let t := tariffAt cal us
    if t = s.och.tariffs.tariff.toNat then s
    else
      let before := s.och.tariffs.reg
      let after := mapRegister s.och.set.tariff1Now t
      raise 22 moduleIndex 0 (leBytes 8 (us / 64) ++ [BitVec.ofNat 8 before.val, BitVec.ofNat 8 after.val])
        { s with och.tariffs.announced := some (us / 64, before, after, false) }

def execTariffSwitchAnnounce (s : State) : Host.Outcome State Fault Refusal := done (announceTariff s)

/-! ### Tamper records (R175 to R177) -/

/-- Bytes 0x0 to 0xB of a Teal record. -/
def tealContent (r : TealRecord) : List Byte :=
  leBytes 8 r.time ++ leBytes 4 (r.tseq.toNat * 256 + flag r.opened 3 + flag r.onVbat 2 + r.input.val)

/-- The 16 bytes of a Teal record. -/
def tealBytes (r : TealRecord) : List Byte := tealContent r ++ leBytes 4 (Config.check (tealContent r)).toNat

/-- A Teal record copied into the legal log, with its event. An opening recorded on VBAT flags what was open at the power
failure; one recorded on main power flagged what was open then (R177). -/
def copyTeal (r : TealRecord) (s : State) : State :=
  let s := writeLog 0x0040 2 0xFF (tealBytes r) s
  let s := if r.opened && r.onVbat then markAll flagTamper s else s
  raise 25 r.input.val 0 [] { s with teal.copied := r.tseq + 1 }

/-- Records that the ring has lost, logged with the missing TSEQ values (R176). -/
def logTealLost (s : State) : State :=
  let t := s.teal
  if t.ring.length < t.uncopied then
    let n := t.uncopied - t.ring.length
    logOchre 0x0041 (leBytes 4 n ++ leBytes 4 t.copied.toNat ++ leBytes 4 ((t.copied.toNat + n - 1) % 2 ^ 24)) s
  else s

/-- Ochre copies every record that follows the last one copied (R176). -/
def copyTealRecords (s : State) : State :=
  if s.dies.ochre != .running || s.teal.uncopied = 0 then s
  else
    let s := logTealLost s
    let due := s.teal.ring.drop (s.teal.ring.length - min s.teal.ring.length s.teal.uncopied)
    let s := due.foldl (fun s r => copyTeal r s) s
    { s with teal.uncopied := 0 }

def execTamperRecordCopy (s : State) : Host.Outcome State Fault Refusal := done (copyTealRecords s)

end Sys2Proof.Machine
end

