-- ==== Sys2Proof/Machine/Sealed.lean ====
section
/-! DEFINITION. Legal state in a pair: sealed entries made and adopted, cycles that wait for them, mismatches (R488 to R493). -/

namespace Sys2Proof.Machine

/-! ### Mismatches (R493) -/

/-- A mismatch of the groups whose bits are given, found by the standby; the third within 10 min makes it suspect. -/
def mismatch (bits : Nat) (s : State) : State :=
  let l := (s.och.clock.mono / 1000) :: recentMismatches s
  let s := { s with pair.mismatches := l, pair.lastMismatch := legalUnits s }
  let s := raise 114 moduleIndex 0 [BitVec.ofNat 8 bits] s
  if 3 ≤ l.length && !s.pair.suspect then raise 115 moduleIndex 0 [] { s with pair.suspect := true } else s

/-- A cycle or a record on which the two Ochres do not agree (R489, R491). -/
def legalMismatch (o : OutletNo) (s : State) : State := mismatch 2 (raise 26 o.val 0 [] s)

/-! ### Own cycles -/

/-- Label of an interval of an outlet: its nominal start in LT32 minutes. -/
def labelOf (s : State) (o : OutletNo) (i : Ival) : Nat :=
  match i with
  | .closing label => label
  | _ => (s.och.meter.at o).acc.cur.label

/-- The interval of an outlet with a label; one that is neither open nor closing is final already. -/
def ivalOf (s : State) (o : OutletNo) (label : Nat) : Ival :=
  let a := (s.och.meter.at o).acc
  if a.cur.label ≤ label then .cur else if a.closing.any (·.label == label) then .closing label else .past

/-- Session identifier of the record that a slot holds open or stopped. -/
def OpenSlot.sid? (x : OpenSlot) : Option (BitVec 64) :=
  match x with
  | .opened r _ => some r.sid
  | .stopped r _ _ => some r.sid
  | _ => none

/-- Session that owns what starts at a moment, 0 for none. -/
def sidAt (s : State) (o : OutletNo) (start : Nat) : BitVec 64 :=
  let x := s.och.recs.slots.at o
  if x.owns start then x.sid?.getD 0 else 0

/-- Reactive energy with its sign: quadrants 1 and 2 are positive (R127). -/
def signedEq (eq : Option (Nat × Nat)) : Int :=
  match eq with
  | some (q, v) => if q < 2 then (v : Int) else -(v : Int)
  | none => 0

/-- Active energy with its sign, export negative. -/
def signedEp (export_ : Bool) (ep : Nat) : Int := if export_ then -(ep : Int) else (ep : Int)

/-- The sealed entry of an own cycle or period (R489). -/
def sealedEntry (o : OutletNo) (start : Nat) (e : Energy) (s : State) : SealedEntry :=
  { outlet := o, start := legalAt s start, export_ := e.export_, reg := registerAt s.och.tariffs start,
    label := labelOf s o ((s.och.meter.at o).acc.ivalAt start), sid := sidAt s o start, ep := e.ep,
    eq := signedEq e.eq, es := e.es, flags := e.flags }

/-- An own cycle enters the frame of the running epoch. -/
def keepSealed (o : OutletNo) (start : Nat) (e : Energy) (s : State) : State :=
  { s with pair.sealedNew := s.pair.sealedNew ++ [sealedEntry o start e s] }

/-! ### Adoption (R489, R490) -/

/-- The energy of a cycle that waits. -/
def SealedWait.energy (w : SealedWait) : Energy :=
  { export_ := w.export_, ep := w.ep, eq := w.eq, es := w.es, veh := w.veh, flags := w.flags }

/-- A difference is at most 0.05 % of the own value plus 10 µWh. -/
def tolerates (own peer : Int) : Bool := decide ((own - peer).natAbs * 2000 ≤ own.natAbs + 20000 * 2 ^ 32)

/-- Every energy of an entry lies within the tolerance of the own ones. -/
def agrees (w : SealedWait) (x : SealedEntry) : Bool :=
  tolerates (signedEp w.export_ w.ep) (signedEp x.export_ x.ep) && tolerates (signedEq w.eq) x.eq
    && tolerates w.es x.es

/-- An entry belongs to an own cycle: its start lies within 20 µs. -/
def matchesOwn (w : SealedWait) (x : SealedEntry) : Bool :=
  w.outlet == x.outlet && decide ((w.legal : Int) - x.start ≤ 20) && decide ((x.start : Int) - w.legal ≤ 20)

/-- The quadrant of signed energies (R127). -/
def quadrantOf (ep eq : Int) : Nat := if 0 ≤ eq then (if 0 ≤ ep then 0 else 1) else (if 0 ≤ ep then 3 else 2)

/-- The peer's values for an own cycle, with the flags of both. -/
def adopted (w : SealedWait) (x : SealedEntry) : Energy :=
  { export_ := x.export_, ep := x.ep,
    eq := w.eq.map fun _ => (quadrantOf (signedEp x.export_ x.ep) x.eq, x.eq.natAbs),
    es := x.es, veh := w.veh, flags := w.flags ||| x.flags }

/-- Energy enters an outlet's registers under an attribution. -/
def enter (o : OutletNo) (k : Fin 8) (i : Ival) (own : Bool) (w : Word) (e : Energy) (s : State) : State :=
  let s := s.onMeter o fun m => { m with acc := m.acc.add k i own e, export_ := e.export_ }
  if own then s.onRecord o fun x =>
    (match x with
     | .opened r t => .opened (r.mark w) t
     | .stopped r t u => .stopped (r.mark w) t u
     | y => y)
  else s

/-- A cycle enters with its own values and its own attribution. -/
def enterOwn (w : SealedWait) (s : State) : State :=
  enter w.outlet w.reg (ivalOf s w.outlet w.label) ((s.och.recs.slots.at w.outlet).owns w.start) w.flags w.energy s

/-- An entry's session is the one that the slot holds. -/
def sameSession (s : State) (x : SealedEntry) : Bool := x.sid != 0 && (s.och.recs.slots.at x.outlet).sid? == some x.sid

/-- A cycle enters with the peer's values and attribution. -/
def enterPeer (w : SealedWait) (x : SealedEntry) (s : State) : State :=
  enter w.outlet x.reg (ivalOf s w.outlet x.label) (sameSession s x) (w.flags ||| x.flags) (adopted w x) s

/-- An own cycle meets its entry. -/
def settlePair (w : SealedWait) (x : SealedEntry) (s : State) : State :=
  if agrees w x then enterPeer w x s else legalMismatch w.outlet (enterOwn w s)

/-- An energy whose addition takes back one that was added. -/
def Energy.undo (e : Energy) : Energy :=
  { e with ep := 2 ^ 96 - e.ep % 2 ^ 96, eq := e.eq.map fun q => (q.1, 2 ^ 96 - q.2 % 2 ^ 96), es := 2 ^ 96 - e.es % 2 ^ 96,
           veh := 2 ^ 96 - e.veh % 2 ^ 96, flags := 0 }

/-- A late entry corrects a cycle that was accumulated with own values (R490). An interval that is final keeps its record, and a
record that is signed keeps its content. -/
def correct (w : SealedWait) (x : SealedEntry) (s : State) : State :=
  if agrees w x then
    let own := (s.och.recs.slots.at w.outlet).owns w.start
    enterPeer w x (enter w.outlet w.reg (ivalOf s w.outlet w.label) own 0 w.energy.undo s)
  else legalMismatch w.outlet s

/-- The own cycle as it waits. -/
def ownWait (o : OutletNo) (start : Nat) (e : Energy) (s : State) : SealedWait :=
  { outlet := o, start := start, legal := legalAt s start, export_ := e.export_, ep := e.ep, eq := e.eq, es := e.es,
    veh := e.veh, flags := e.flags, reg := registerAt s.och.tariffs start,
    label := labelOf s o ((s.och.meter.at o).acc.ivalAt start) }

/-- A cycle of the standby completes: its entry has come already, or it waits for it. -/
def settleOwn (o : OutletNo) (start : Nat) (e : Energy) (s : State) : State :=
  let w := ownWait o start e s
  match s.pair.early.find? (matchesOwn w) with
  | some x => settlePair w x { s with pair.early := s.pair.early.erase x }
  | none => { s with pair.waiting := s.pair.waiting ++ [w] }

/-- An entry arrives at the standby: for a cycle that waits, for one accumulated already, or before its cycle completes. -/
def takeEntry (x : SealedEntry) (s : State) : State :=
  match s.pair.waiting.find? (matchesOwn · x) with
  | some w => settlePair w x { s with pair.waiting := s.pair.waiting.erase w }
  | none =>
    match s.pair.timedOut.find? (matchesOwn · x) with
    | some w => correct w x { s with pair.timedOut := s.pair.timedOut.erase w }
    | none => { s with pair.early := s.pair.early ++ [x] }

/-- Every cycle that waits enters with own values: at a final save, and when the standby's wait ends. -/
def flushWaiting (s : State) : State :=
  s.pair.waiting.foldl (fun s w => enterOwn w s) { s with pair.waiting := [] }

/-- The flags of the standby's cycles, ORed into the open records and intervals of the active Ochre. -/
def takeFlags (x : SealedEntry) (s : State) : State :=
  let s := if sameSession s x then markSession x.outlet x.flags s else s
  match ivalOf s x.outlet x.label with
  | .cur => markInterval x.outlet x.flags s
  | .closing label =>
    s.onMeter x.outlet fun m => { m with acc := { m.acc with closing := onClosing label (Interval.mark x.flags) m.acc.closing } }
  | .past => s

end Sys2Proof.Machine
end

