-- ==== Sys2Proof/Machine/Metering.lean ====
section
/-! DEFINITION. Modulator inputs, lanes, calibration, cycles, periods, saves, harmonics, supraharmonics and raw blocks (R74 to R142). -/

namespace Sys2Proof.Machine

/-! ### Flags of a cycle -/

def fInvalid : Word := 1 <<< 6
def fOvr : Word := 1 <<< 7
def fLane : Word := 1 <<< 5
def fSuspect : Word := 1 <<< 4
def fSynthIrr : Word := 1 <<< 12
def fTrunc : Word := 1 <<< 8

/-- The flags word of R124, whose bit order the spec does not give: SYNTH, IRR, OVR, INVALID, lane failed, suspect. -/
def secondFlags (synth irr : Bool) (w : Word) : Word :=
  word [flag synth 0, flag irr 1, flag (w &&& fOvr ≠ 0) 2, flag (w &&& fInvalid ≠ 0) 3, flag (w &&& fLane ≠ 0) 4,
        flag (w &&& fSuspect ≠ 0) 5]

/-- Slots of an outlet that are enabled. -/
def slotsOn (s : State) (o : OutletNo) : List (Fin 8) := (indices 7).filter fun k => slotEn s o k.val

/-- Flags of the outlet's enabled inputs as they stand: invalid, lane failed, suspect (R81, R106, R108). -/
def inputFlags (s : State) (o : OutletNo) : Word :=
  (slotsOn s o).foldl (fun w k =>
    let x := s.och.input.at (inputOf o k.val)
    w ||| (if x.invalid then fInvalid else 0) ||| (if x.laneFailed then fLane else 0)
      ||| (if x.compared = some false then fSuspect else 0)) 0

/-- A flag remembered until the outlet's next boundary. -/
def remember (o : OutletNo) (w : Word) (s : State) : State :=
  s.onMeter o fun m => { m with pendFlags := m.pendFlags ||| w }

/-! ### Input validity (R76 to R81, R114) -/

/-- A condition of R80 changes for an input: it becomes invalid with the first, and valid when none is left. -/
def setValidity (i : InputNo) (f : Input → Input) (s : State) : State :=
  let was := (s.och.input.at i).invalid
  let s := s.onInput i f
  match was, (s.och.input.at i).invalid with
  | false, true =>
    let s := s.onInput i fun x => { x with seen := x.seen ||| fInvalid }
    let s := if slotEn s (outletOf i) (slotOf i).val then remember (outletOf i) fInvalid s else s
    raise 16 i.val 0 [] s
  | true, false => raiseEnd 16 i.val [] s
  | _, _ => s

/-- The 16 inputs of a group. -/
def groupInputs (g : GroupNo) : List InputNo := (indices 15).map fun k => Fin.ofNat 512 (16 * g.val + k.val)

/-- The received clock of a group fails (R76). -/
def clockInvalid (g : GroupNo) (s : State) : State :=
  if wBit (s.och.set.roleNow.groups.at g) 3 then
    forEach (groupInputs g) (fun i => setValidity i fun x => { x with clockBad := true }) s
  else s

def execGroupClockInvalid (group : GroupNo) (s : State) : Host.Outcome State Fault Refusal := done (clockInvalid group s)

/-- Russet sees the lock of an input that it captures as Manchester itself (R15). -/
def russetLock (i : InputNo) (out : Bool) (s : State) : State :=
  if s.dies.russet == .running && (s.rus.capture.at i).manchester then
    { s with rus.capture := s.rus.capture.upd i fun c => { c with unlocked := out } }
  else s

/-- Ochre sees the lock of a Manchester input. -/
def ochreLock (i : InputNo) (out : Bool) (s : State) : State :=
  if s.dies.ochre != .held && manchester s i then setValidity i (fun x => { x with unlocked := out }) s else s

/-- A Manchester input comes into lock, and is valid at that moment unless another condition holds (R79, R80). -/
def lockAcquired (i : InputNo) (s : State) : State := russetLock i false (ochreLock i false s)

def execManchesterLockAcquired (input : InputNo) (s : State) : Host.Outcome State Fault Refusal :=
  done (lockAcquired input s)

def lockLost (i : InputNo) (s : State) : State := russetLock i true (ochreLock i true s)

def execManchesterLockLost (input : InputNo) (s : State) : Host.Outcome State Fault Refusal := done (lockLost input s)

def stuckInput (i : InputNo) (s : State) : State :=
  if manchester s i then s else setValidity i (fun x => { x with stuck := true }) s

def execStuckInputDetect (input : InputNo) (s : State) : Host.Outcome State Fault Refusal := done (stuckInput input s)

/-- The conditions of an input, its lock apart, have been clear for 32 cells (R80). -/
def validAgain (i : InputNo) (s : State) : State := setValidity i (fun x => { x with clockBad := false, stuck := false }) s

def execInputValidAgain (input : InputNo) (s : State) : Host.Outcome State Fault Refusal := done (validAgain input s)

/-! ### Lanes (R104 to R108) -/

/-- The input that a lane serves. -/
def laneServes (s : State) (l : LaneNo) : Option InputNo := (indices 511).find? fun i => (s.och.input.at i).lane == l

/-- The input that a lane is compared for. -/
def laneCompares (s : State) (l : LaneNo) : Option InputNo := (indices 511).find? fun i => (s.och.input.at i).swap == some l

/-- A spare lane that is free and passed its last self-test. -/
def spareFree (s : State) (l : LaneNo) : Bool :=
  512 ≤ l.val && (s.och.lane.at l).passed && !(s.och.lane.at l).out && (laneServes s l).isNone && (laneCompares s l).isNone

/-- The lowest-numbered free spare lane. -/
def nextSpare (s : State) : Option LaneNo := (indices 519).find? (spareFree s)

/-- An input's swap begins, or its lane is failed for want of a spare (R106, R108). -/
def startSwap (i : InputNo) (s : State) : State :=
  match nextSpare s with
  | some l => raise 17 i.val 0 [] (s.onInput i fun x => { x with swap := some l, compared := none })
  | none =>
    let s := s.onInput i fun x => { x with swap := none, compared := none, laneFailed := true, seen := x.seen ||| fLane }
    raise 18 i.val 0 [] s

/-- A lane has failed its self-test or its factory check. -/
def laneFails (l : LaneNo) (s : State) : State :=
  let s := s.onLane l fun x => { x with passed := false }
  match laneServes s l with
  | some i =>
    let x := s.och.input.at i
    if x.swap.isSome || x.laneFailed then s else startSwap i s
  | none =>
    let s := s.onLane l fun x => { x with out := true }
    match laneCompares s l with
    | some i => startSwap i (s.onInput i fun x => { x with swap := none, compared := none })
    | none => s

/-- A lane's self-test ends; an entry that fails its factory check counts as a failed test (R98, R104). -/
def selfTest (l : LaneNo) (pass : Bool) (s : State) : State :=
  if s.dies.ochre != .running then s
  else if pass && factoryOk s l.val then s.onLane l fun x => { x with passed := true, lastPass := legalUnits s }
  else laneFails l s

def execLaneSelfTest (lane : LaneNo) (pass : Bool) (s : State) : Host.Outcome State Fault Refusal :=
  done (selfTest lane pass s)

/-- The old and the new lane's calibrated outputs differ by at most 128 code units in every pair of codes (R106). -/
def lanesAgree (s : State) (i : InputNo) (new : LaneNo) (pairs : List (Int × Int)) : Bool :=
  let t := pointOf s (outletOf i)
  pairs.all fun p => decide (absRat (calibrateZ s i t p.1 - calibrateOn s i new.val t p.2) ≤ 128)

/-- The side-by-side comparison of a swap ends: the codes of the two lanes, sample by sample. -/
def comparisonEnd (i : InputNo) (pairs : List (Int × Int)) (s : State) : State :=
  match (s.och.input.at i).swap with
  | some l => s.onInput i fun x => { x with compared := some (lanesAgree s i l pairs) }
  | none => s

def execLaneComparisonEnd (input : InputNo) (pairs : List (Int × Int)) (s : State) : Host.Outcome State Fault Refusal :=
  done (comparisonEnd input pairs s)

/-- SUSPECT set in an outlet's records that are not closed yet (R106). -/
def markSuspect (o : OutletNo) (s : State) : State :=
  let s := s.onMeter o fun m =>
    { m with acc := { m.acc with cur := m.acc.cur.mark fSuspect, closing := m.acc.closing.map (Interval.mark fSuspect) } }
  s.onRecord o fun x =>
    match x with
    | .opened r t => .opened (r.mark fSuspect) t
    | .stopped r t u => .stopped (r.mark fSuspect) t u
    | y => y

/-- The swap of one input takes place at the outlet's metering boundary (R106). -/
def swapLane (i : InputNo) (s : State) : State :=
  let x := s.och.input.at i
  match x.swap, x.compared with
  | some l, some pass =>
    let old := x.lane
    let from_ := (s.och.lane.at old).lastPass
    let s := s.onLane old fun y => { y with out := true }
    let s := s.onInput i fun x => { x with lane := l, swap := none, compared := none, suspect := !pass }
    let s := { s with och.laneRecord :=
      if s.och.laneRecord.length < 8 then
        s.och.laneRecord ++ [{ input := i, lane := l, time := legalUnits s, passed := pass }]
      else s.och.laneRecord }
    let s := if pass then s
      else markSuspect (outletOf i)
        (logOchre 0x0006 (leBytes 2 i.val ++ leBytes 2 l.val ++ leBytes 8 from_ ++ leBytes 8 (legalUnits s)) s)
    raise 17 i.val 0 [] s
  | _, _ => s

/-! ### Over-range (R88) -/

/-- Some sample of a slot is in over-range. -/
def slotOver (s : State) (o : OutletNo) (bits : List Bits) (k : Nat) : Bool := (slotCodes s o k bits).any overRange

/-- OVR of every enabled slot after a block. -/
def setOver (o : OutletNo) (bits : List Bits) (s : State) : State :=
  forEach (slotsOn s o) (fun k s =>
    let b := slotOver s o bits k.val
    s.onInput (inputOf o k.val) fun x => { x with ovr := b, seen := if b then x.seen ||| fOvr else x.seen }) s

/-- Flags of a block. -/
def blockFlags (s : State) (o : OutletNo) (bits : List Bits) : Word :=
  (s.och.meter.at o).pendFlags ||| inputFlags s o
    ||| (if (slotsOn s o).any (fun k => slotOver s o bits k.val) then fOvr else 0)

/-! ### Quantities (R115 to R123) -/

def meanSq (l : List Rat) : Rat := if l.isEmpty then 0 else sumRat (l.map fun x => x * x) / l.length

def rms (l : List Rat) : Rat := rootOf (meanSq l)

/-- Quantities of one phase: urms, irms, p, q, s. -/
structure Phase where
  u : Rat
  i : Rat
  p : Rat
  q : Rat
  s : Rat

/-- The quantities of a phase of a resampled cycle (R120). -/
def phaseOf (qDef : Bool) (u i : List Rat) : Phase :=
  let ur := rms u
  let ir := rms i
  { u := ur, i := ir, p := meanOf (mulRat u i),
    q := if qDef then fundamentalQ u i else meanOf (mulRat (quarterDelayed u) i), s := ur * ir }

/-- Totals of a cycle: P, Q, S in pW and the values of the 1 s response in its order. -/
structure Totals where
  p : Rat
  q : Rat
  s : Rat
  values : List Rat

/-- The phases of an AC outlet, by the slot of their voltage. -/
def phasesOf (s : State) (o : OutletNo) : List Nat := if typeOf s o = 1 then [0, 1, 2] else [0]

/-- The quantities of an AC cycle from its resampled slots (R120, R121, R123). Values are in µV, µA and pW until they are
reported. -/
def acQuantities (s : State) (o : OutletNo) (v : Nat → List Rat) : Totals :=
  let w := s.och.set.meterNow.at o
  let ph := (phasesOf s o).map fun k => phaseOf (wBit w 1) (v k) (v (k + 3))
  let at_ (f : Phase → Rat) : List Rat := (List.range 3).map fun k => ((ph.map f).getD k 0)
  let p := sumRat (ph.map (·.p))
  let q := sumRat (ph.map (·.q))
  let a := if wBit w 2 then rootOf (p * p + q * q) else sumRat (ph.map (·.s))
  let pf := if a = 0 then 0 else clampRat (-1) 1 (p / a)
  { p := p, q := q, s := a,
    values := at_ (·.u) ++ at_ (·.i) ++ at_ (·.p) ++ at_ (·.q) ++ at_ (·.s) ++ [p, q, a, pf, rms (v 6), rms (v 7), meanOf (v 7)] }

/-- Start of a cycle or period, its moments of the monotonic counter in ns and of legal time in ns. -/
def startNs (s : State) (c : Cycle) : Nat := taggedNs s c.out

/-- Length of a cycle in ns, resolved to 10 ns (R116). -/
def cycleNs (c : Cycle) : Nat := c.len / 10 * 10

/-- The quantities of a completed AC cycle. -/
def acTotals (s : State) (o : OutletNo) (c : Cycle) : Totals :=
  let from_ := legalNs s (startNs s c) % unitNs
  acQuantities s o fun k => resampled from_ (cycleNs c) (slotValues s o k c.bits)

/-- Weighted mean of a slot's values over a DC block (R122). -/
def wMean (ws l : List Rat) : Rat :=
  let ws := ws.take l.length
  let w := sumRat ws
  if w = 0 then 0 else sumRat (mulRat ws l) / w

/-- The quantities of a DC block: means, RMS values, P, and the ripple of Ulink and Iout (R122). -/
def dcTotals (s : State) (o : OutletNo) (c : Cycle) : Totals :=
  let v := fun k => slotValues s o k c.bits
  let ws := weightsOf (legalNs s (startNs s c)) (cycleNs c) (v 0).length
  let mean := fun k => wMean ws (v k)
  let sq := fun k => wMean ws ((v k).map fun x => x * x)
  let ripple := fun k => rootOf (sq k - mean k * mean k)
  let p := wMean ws (mulRat (v 2) (v 3))
  { p := p, q := 0, s := 0,
    values := (List.range 8).map mean ++ (List.range 8).map (fun k => rootOf (sq k)) ++ [p, ripple 2, ripple 3] }

/-- Energy of a power in pW over a length in ns, in 2^-32 of a µWh (R120, R129). -/
def energyOf (p : Rat) (ns : Nat) : Rat := p * ns * 2 ^ 32 / 3600000000000000000

/-- The magnitude of an energy as a number of 2^-32 counts. -/
def quantised (e : Rat) : Nat := (toCount (absRat e)).toNat

/-- Quadrant of a cycle by the signs of Ep and Eq (R127). -/
def quadrant (ep eq : Rat) : Nat :=
  if 0 ≤ eq then (if 0 ≤ ep then 0 else 1) else (if 0 ≤ ep then 3 else 2)

/-- Energy of an AC cycle with active energy `ep`, in 2^-32 of a µWh, and its Q and S over a length (R125, R127). -/
def acEnergyOf (ep q a : Rat) (ns : Nat) (w : Word) : Energy :=
  let eq := energyOf q ns
  { export_ := decide (ep < 0), ep := quantised ep, eq := some (quadrant ep eq, quantised eq), es := quantised (energyOf a ns),
    veh := 0, flags := w }

/-- Energy of a completed AC cycle. -/
def acEnergy (t : Totals) (ns : Nat) (w : Word) : Energy := acEnergyOf (energyOf t.p ns) t.q t.s ns w

/-! ### 1 s values (R118, R124) -/

/-- Values of a cycle or block added to a running second. -/
def Second.add (dur : Nat) (values : List Rat) (regular : Bool) (w : Word) (x : Second) : Second :=
  let v := values.map fun (r : Rat) => r * (dur : Rat)
  { dur := x.dur + dur, sums := if x.sums.isEmpty then v else List.zipWith (· + ·) x.sums v,
    cycles := x.cycles + (if regular then 1 else 0), cycleLen := x.cycleLen + (if regular then dur else 0),
    flags := x.flags ||| w }

/-- A cycle or block enters the second in which its start lies: the last one formed, or the running one. -/
def addSecond (o : OutletNo) (legal dur : Nat) (values : List Rat) (regular : Bool) (w : Word) (s : State) : State :=
  s.onMeter o fun m =>
    match m.lastAt with
    | some n =>
      if legal < (n / 15625 + 1) * 1000000000 then { m with last := m.last.add dur values regular w }
      else { m with now := m.now.add dur values regular w }
    | none => { m with now := m.now.add dur values regular w }

/-- Ochre forms an outlet's 1 s values at a legal second. -/
def formSecond (s : State) : State :=
  let at_ := (s.och.clock.us / 1000000 - 1) * 15625
  { s with och.meter := s.och.meter.each fun m => { m with last := m.now, now := .zero, lastAt := some at_ } }

/-! ### Commits at a metering boundary (R82, R94, R109, R112) -/

/-- Russet takes the format, polarity and capture delay of an input over the quantity link, at Ochre's boundary (R82). -/
def sendCapture (i : InputNo) (s : State) : State :=
  let g := s.och.set.roleNow.groups.at (Fin.ofNat 32 (i.val / 16))
  { s with rus.capture := s.rus.capture.upd i fun c =>
      { c with manchester := wBit g 0, falling := wBit g 2, delay := BitVec.ofNat 6 (wFld (s.och.set.userNow.at i).off 24 6) } }

/-- Restart of lock acquisition, in Ochre and in Russet, in a group whose format or polarity changed (R114). -/
def restartLock (g : GroupNo) (was now : Word) (s : State) : State :=
  if wFld was 0 3 = wFld now 0 3 then s
  else forEach (groupInputs g) (fun i s =>
    let s := setValidity i (fun x => { x with unlocked := wBit now 0, stuck := false }) s
    { s with rus.capture := s.rus.capture.upd i fun c => { c with unlocked := wBit now 0 } }) s

/-- The group of an outlet. -/
def groupOf (o : OutletNo) : GroupNo := Fin.ofNat 32 (o.val / 2)

/-- The other outlet of a group. -/
def groupMate (o : OutletNo) : OutletNo := Fin.ofNat 64 (if o.val % 2 = 0 then o.val + 1 else o.val - 1)

/-- A neutral user entry for every slot of an outlet, in the accepted table and in the one in force. -/
def neutralise (o : OutletNo) (s : State) : State :=
  forEach (indices 7) (fun k s =>
    let i := inputOf o k.val
    { s with och.set.user := s.och.set.user.put i .neutral, och.set.userNow := s.och.set.userNow.put i .neutral }) s

/-- An outlet's role takes effect (R94). DC_VEH of an AC outlet is 0 (R150). -/
def commitOutlet (o : OutletNo) (s : State) : State :=
  let new := s.och.set.role.outlets.at o
  let type := wFld new 0 2
  let change := wFld (s.och.set.roleNow.outlets.at o) 0 2 ≠ type
  let s := if change && s.och.set.neutral.at o then neutralise o s else s
  let s := if type = 1 || type = 2 then s.onMeter o fun m => { m with acc := { m.acc with dcVeh := 0 } } else s
  { s with och.set.roleNow.outlets := s.och.set.roleNow.outlets.put o new,
           och.set.rolePend := s.och.set.rolePend.put o false, och.set.neutral := s.och.set.neutral.put o false,
           och.set.passed := s.och.set.passed.put o false }

/-- The role assignment at an outlet's boundary: alone, or with its group once both outlets have passed a boundary. -/
def commitRole (o : OutletNo) (s : State) : State :=
  let g := groupOf o
  let was := s.och.set.roleNow.groups.at g
  let new := s.och.set.role.groups.at g
  if was = new then (if s.och.set.rolePend.at o then commitOutlet o s else s)
  else
    let s := { s with och.set.passed := s.och.set.passed.put o true }
    if s.och.set.passed.at (groupMate o) then
      let s := { s with och.set.roleNow.groups := s.och.set.roleNow.groups.put g new }
      restartLock g was new (commitOutlet (groupMate o) (commitOutlet o s))
    else s

/-- The boundary of an outlet for which a step was consumed has passed (R11). -/
def passStep (o : OutletNo) (s : State) : State :=
  if s.och.set.roleStep.at o && !s.och.set.rolePend.at o then { s with och.set.roleStep := Tab.all 64 false } else s

/-- The user table and the metering words at an outlet's boundary. DESIGN CHOICE: the module-wide word, for which R109 gives no
boundary, is taken over outlet by outlet. -/
def commitCalibration (o : OutletNo) (s : State) : State :=
  if s.och.set.calPend.at o then
    let s := forEach (indices 7) (fun k s =>
      let i := inputOf o k.val
      { s with och.set.userNow := s.och.set.userNow.put i (s.och.set.user.at i) }) s
    { s with och.set.meterNow := s.och.set.meterNow.put o (s.och.set.meter.at o),
             och.set.moduleNow := s.och.set.moduleNow.put o s.och.set.module,
             och.set.calPend := s.och.set.calPend.put o false }
  else s

/-- Every setting that waits for an outlet's boundary. -/
def commitSettings (o : OutletNo) (s : State) : State :=
  let s := passStep o (commitRole o s)
  let s := commitCalibration o s
  let both := (indices 7).map (fun k => inputOf o k.val) ++ (indices 7).map (fun k => inputOf (groupMate o) k.val)
  forEach both sendCapture s

/-- The average of Ochre's last 16 temperature readings, °C. -/
def meanTemp (temps : List Rat) : Rat := meanOf (temps.take 16)

/-- The interpolation point is latched, and a coefficient set computed from it, in use from a moment on (R103, R113, R142). -/
def latchPoint (t : Rat) (fromNs : Nat) (m : Meter) : Meter :=
  let n := m.coefId + 1
  { m with point := t, tAct := BitVec.ofInt 12 (nearest (t * 16)), bandLo := BitVec.ofNat 3 (bandOf t), coefId := n,
           points := ((fromNs, n, t) :: m.points).take 8, pendFlags := 0 }

/-- Everything that commits at an outlet's boundary, and its interpolation point (R103, R109). A write accepted too late waits
for the next one (R111). -/
def commitBoundary (o : OutletNo) (c : Cycle) (s : State) : State :=
  let end_ := startNs s c + cycleNs c
  let s := if c.late then s else commitSettings o s
  let s := forEach (indices 7) (fun k s => swapLane (inputOf o k.val) s) s
  s.onMeter o (latchPoint (meanTemp c.temps) end_)

/-! ### Boundaries and periods (R109, R110, R116 to R126) -/

/-- Ochre meters the outlet: it runs, its check holds, and a save copy of the outlet stands (R185, R450). -/
def metered (s : State) (o : OutletNo) : Bool :=
  s.dies.ochre == .running && !s.och.clock.checkFailed && !(s.och.meter.at o).saves.toList.all (·.lost)

/-- The span between two counted boundaries is irregular (R117). -/
def irregular (c : Cycle) : Bool := !c.synthetic && 23530000 < cycleNs c

/-- The fundamental of UL1 reaches 5 % of U_NOM (R117). -/
def strongEnough (s : State) (o : OutletNo) (c : Cycle) : Bool :=
  decide (wFld (s.och.set.meterNow.at o) 16 16 * 1000000 ≤ c.fundamental * 20)

/-- A crossing that does not count: it is too weak, or comes too early after a counted boundary (R117). The first that counts
after synthetic boundaries has no counted one before it (R110). -/
def ignored (s : State) (o : OutletNo) (c : Cycle) : Bool :=
  isAc s o && !c.synthetic && (!strongEnough s o c || (!(s.och.meter.at o).synth && decide (cycleNs c < 14490000)))

/-- A synthetic and a detected boundary within 1 ms of each other count as one (R110). -/
def merged (s : State) (o : OutletNo) (c : Cycle) : Bool :=
  isAc s o && decide (cycleNs c ≤ 1000000) && (s.och.meter.at o).synth != c.synthetic

/-- Energy of what this module metered: registers at once, or in the standby's wait for the active Ochre's entry (R489). -/
def meterIn (o : OutletNo) (start : Nat) (e : Energy) (s : State) : State :=
  match servingRole s with
  | .active => keepSealed o start e (accumulate o start e s)
  | .standby => settleOwn o start e (keepSealed o start e s)
  | _ => accumulate o start e s

/-- The flags of R124 of a cycle that ends, on synthetic boundaries at either end or regular. -/
def cycleFlags (synth irr : Bool) (w : Word) : Word := w ||| (if synth || irr then fSynthIrr else 0)

/-- A cycle joins the window in progress; an irregular one discards it (R117, R135, R138). -/
def joinWindow (o : OutletNo) (start len : Nat) (irr : Bool) (sf : Word) (s : State) : State :=
  s.onAnalysis o fun a =>
    if irr then { a with cycles := [], flags := 0 } else { a with cycles := a.cycles ++ [(start, len)], flags := a.flags ||| sf }

/-- REF_EN and REF_OUTLET in force of a DC outlet. -/
def lockedTo (s : State) (d o : OutletNo) : Bool :=
  let w := s.och.set.moduleNow.at d
  isDc s d && wBit w 6 && wFld w 0 6 == o.val

/-- A cycle of the reference outlet joins the windows of the DC outlets locked to it, with their own inputs' flags; a
synthetic one carries SYNTH (R137). -/
def joinLocked (o : OutletNo) (start len : Nat) (synth irr : Bool) (s : State) : State :=
  forEach (outlets.filter fun d => lockedTo s d o) (fun d s =>
    joinWindow d start len irr (secondFlags synth false (inputFlags s d ||| (s.och.meter.at d).pendFlags)) s) s

/-- The completed cycle of an AC outlet; `synth` where a boundary of it is synthetic. -/
def meterAc (o : OutletNo) (c : Cycle) (synth : Bool) (s : State) : State :=
  let t := acTotals s o c
  let irr := irregular c
  let start := startNs s c
  let w := cycleFlags synth irr (blockFlags s o c.bits)
  let sf := secondFlags synth irr w
  let legal := legalNs s start
  let s := setOver o c.bits s
  let s := meterIn o (start / 1000) (acEnergy t (cycleNs c) w) s
  let s := s.onMeter o fun m =>
    { m with p := t.p, q := t.q, s := t.s, flags := sf, freq := if synth || irr || (cycleNs c) = 0 then 0 else 1000000000 / ((cycleNs c) : Rat) }
  let s := joinLocked o start (cycleNs c) synth irr (joinWindow o start (cycleNs c) irr sf s)
  addSecond o legal (cycleNs c) t.values (!synth && !irr) sf s

/-- The completed 20 ms block of a DC outlet; its energy enters by its 1 ms periods. Where the outlet is not locked to a
reference, the block is a synthetic cycle of its harmonic window (R137). -/
def meterDc (o : OutletNo) (c : Cycle) (s : State) : State :=
  let t := dcTotals s o c
  let w := blockFlags s o c.bits
  let sf := secondFlags false false w
  let start := startNs s c
  let legal := legalNs s start
  let s := setOver o c.bits s
  let s := s.onMeter o fun m => { m with p := t.p, q := 0, s := 0, flags := sf }
  let s := if wBit (s.och.set.moduleNow.at o) 6 then s.onAnalysis o fun a => { a with flags := a.flags ||| sf }
    else joinWindow o start (cycleNs c) false (sf ||| 1) s
  addSecond o legal (cycleNs c) t.values false sf s

/-- SYNTH of an outlet takes a value, with its event (R110). -/
def setSynth (o : OutletNo) (on : Bool) (s : State) : State :=
  if (s.och.meter.at o).synth == on then s
  else
    let s := s.onMeter o fun m => { m with synth := on }
    if on then raise 19 o.val 0 [] s else raiseEnd 19 o.val [] s

/-- The module site-line word that turns ROLE from off commits at a cycle boundary of its ZC_OUTLET (R346). -/
def commitSiteRole (o : OutletNo) (s : State) : State :=
  match s.site.word.pend with
  | some w =>
    if wFld s.site.word.now 30 2 = 0 && wFld w 24 6 = o.val then { s with site.word := s.site.word.commit } else s
  | none => s

/-- A metering boundary: the completed block is computed with the settings it ran on, then pending ones commit. DESIGN CHOICE:
the T of R190 is the temperature averaged at the last boundary of any outlet. -/
def boundary (o : OutletNo) (c : Cycle) (s : State) : State :=
  if !metered s o || ignored s o c then s
  else if merged s o c then (if c.synthetic then s else setSynth o false s)
  else
    let synth := c.synthetic || (s.och.meter.at o).synth
    let s := if isAc s o then setSynth o c.synthetic s else s
    let s := if isAc s o then meterAc o c synth s else if isDc s o then meterDc o c s else s
    let s := s.onMeter o fun m => { m with held := s.sup.saveDone }
    let s := if c.synthetic || c.late then s else commitSiteRole o s
    commitBoundary o c { s with och.display.temp := meanTemp c.temps }

def execMeteringBoundary (outlet : OutletNo) (cycle : Cycle) (s : State) : Host.Outcome State Fault Refusal :=
  done (boundary outlet cycle s)

/-- 100 ms without a counted boundary (R110). -/
def syntheticStart (o : OutletNo) (s : State) : State :=
  if metered s o && isAc s o then setSynth o true s else s

def execSyntheticBoundaryStart (outlet : OutletNo) (s : State) : Host.Outcome State Fault Refusal :=
  done (syntheticStart outlet s)

/-- Sum of weight times the product of two slots, in 2^-32 of a µWh (R122, R150). -/
def weightedEnergy (ws u i : List Rat) : Rat := sumRat (mulRat ws (mulRat u i)) * 2 ^ 32 / 3600000000000000

/-- A DC period begins on the whole millisecond of legal time at or before its tagged start (R126). -/
def periodStart (s : State) (d : DcPeriod) : Nat :=
  let at_ := taggedUs s d.out
  at_ - legalAt s at_ % 1000

/-- Energy of a DC period between a voltage and a current slot. -/
def periodEnergy (s : State) (o : OutletNo) (u i : Nat) (d : DcPeriod) : Rat :=
  let v := slotValues s o u d.bits
  weightedEnergy (weightsOf (legalAt s (periodStart s d) * 1000) 1000000 v.length) v (slotValues s o i d.bits)

/-- The energy of a DC period or of a part of one: at the vehicle side on import alone (R126, R150). -/
def dcEnergyOf (ep veh : Rat) (w : Word) : Energy :=
  { export_ := decide (ep < 0), ep := quantised ep, eq := none, es := 0,
    veh := if 0 ≤ ep then ((toCount veh) % 2 ^ 96).toNat else 0, flags := w }

/-- A 1 ms DC period ends (R126, R150). -/
def dcPeriod (o : OutletNo) (d : DcPeriod) (s : State) : State :=
  if !metered s o || !isDc s o then s
  else
    meterIn o (periodStart s d)
      (dcEnergyOf (periodEnergy s o 2 3 d) (periodEnergy s o 6 3 d) (blockFlags s o d.bits)) s

def execDcPeriodEnd (outlet : OutletNo) (period : DcPeriod) (s : State) : Host.Outcome State Fault Refusal :=
  done (dcPeriod outlet period s)

/-! ### Saves (R130 to R134) -/

/-- The open cycle or period of an outlet, as a save finds it. -/
def tailOf (ts : List Tail) (o : OutletNo) : Option Tail := ts.find? fun t => t.outlet == o

/-- Start of an open cycle or period, ns on the monotonic counter. -/
def tailStart (s : State) (t : Tail) : Nat := taggedNs s t.out

/-- Metering samples accumulated of an open cycle or period. -/
def tailSamples (s : State) (t : Tail) : Nat := (slotValues s t.outlet 3 t.bits).length

/-- Tagged time of the last metering sample accumulated, units of 64 µs (R131). -/
def tailTag (s : State) (t : Tail) : Nat := legalNs s (tailStart s t) / unitNs + (tailSamples s t - 1)

/-- Active energy of an open span between slots: from the metering stream up to its last sample, then from the protection
stream to the end of the span (R131, R132). -/
def tailParts (s : State) (t : Tail) (u i : Nat) : Rat × Rat :=
  let legal := legalNs s (tailStart s t)
  let n := tailSamples s t
  let edge := min t.len (unitNs * n - (legal % unitNs + unitNs / 2))
  let head := weightedEnergy (weightsOf legal edge n) (slotValues s t.outlet u t.bits) (slotValues s t.outlet i t.bits)
  let v := protectValues s t.outlet u t.tail
  (head, weightedEnergy (weightsOf (legal + edge) (t.len - edge) v.length) v (protectValues s t.outlet i t.tail))

/-- Voltage and current slots whose products are the active power of an outlet. -/
def powerSlots (s : State) (o : OutletNo) : List (Nat × Nat) :=
  if isDc s o then [(2, 3)] else (phasesOf s o).map fun k => (k, k + 3)

/-- Active energy of an open span before the tail, and of the tail. -/
def tailEnergy (s : State) (t : Tail) : Rat × Rat :=
  let l := (powerSlots s t.outlet).map fun p => tailParts s t p.1 p.2
  (sumRat (l.map (·.1)), sumRat (l.map (·.2)))

/-- Energy at the vehicle side of an open DC period, tail included (R150). -/
def tailVehicle (s : State) (t : Tail) : Rat :=
  if isDc s t.outlet then (tailParts s t 6 3).1 + (tailParts s t 6 3).2 else 0

/-- The older copy is overwritten. -/
def Meter.save (openEnergy : Int) (openVehicle openLength meteredTo : Nat) (m : Meter) : Meter :=
  if m.saves.toList.all (·.lost) then m
  else
    let older : Fin 2 := m.newer + 1
    let r : Save :=
      { seq := (m.saves.at m.newer).seq + 1, acc := m.acc, openEnergy := openEnergy, openVehicle := openVehicle,
        openLength := openLength, meteredTo := meteredTo, p := m.p, q := m.q, s := m.s, lost := false }
    { m with saves := m.saves.put older r, newer := older, held := false }

/-- Tagged time of the last sample before a moment of legal time in µs, units of 64 µs (R130, R131). -/
def lastUnit (us : Nat) : Nat := (us - 1) / 64

/-- Every outlet saved, with what was metered up to a tagged time. -/
def saveAll (ts : List Tail) (meteredTo : Nat) (s : State) : State :=
  let m := s.och.meter.mapN fun o m =>
    match tailOf ts (Fin.ofNat 64 o) with
    | some t =>
      let e := (tailEnergy s t).1
      m.save (if e < 0 then -(quantised e : Int) else quantised e) (if 0 ≤ e then (toCount (tailVehicle s t)).toNat else 0) t.len
        meteredTo
    | none => m.save 0 0 0 meteredTo
  { s with och.meter := m, och.clock.savedUs := s.och.clock.us, sup.marker := none }

/-- Tariff parameters commit at the end of a save block (R109, R152). -/
def commitTariff (s : State) : State :=
  if !s.och.set.tariffPend then s
  else
    let now := mapRegister s.och.set.tariff1 s.och.tariffs.tariff.toNat
    { s with och.set.tariff0Now := s.och.set.tariff0, och.set.tariff1Now := s.och.set.tariff1, och.set.tariffPend := false,
             och.tariffs := s.och.tariffs.switchTo now s.och.clock.mono }

/-- A 10 ms save boundary; nothing is written while the memory is write-protected (R70, R130). -/
def saveBoundary (opens : List Tail) (late : Bool) (s : State) : State :=
  if s.dies.ochre != .running then s
  else
    let s := if s.sup.saveDone then s else saveAll opens (lastUnit s.och.clock.us) s
    if late then s else commitTariff s

def execSaveBoundary (opens : List Tail) (late : Bool) (s : State) : Host.Outcome State Fault Refusal :=
  done (saveBoundary opens late s)

/-- An open cycle or period closed as a truncated one: from a moment in µs of the monotonic counter, with its active energy and
that at the vehicle side, in 2^-32 of a µWh, and its length in ns (R132). -/
def truncate (o : OutletNo) (start : Nat) (ep veh : Rat) (len : Nat) (s : State) : State :=
  if !metered s o || typeOf s o = 0 then s
  else
    let m := s.och.meter.at o
    let w := m.pendFlags ||| inputFlags s o ||| fTrunc
    remember o fTrunc (meterIn o start (if isAc s o then acEnergyOf ep m.q m.s len w else dcEnergyOf ep veh w) s)

/-- The open cycle or period of a final save, tail included. -/
def truncateTail (t : Tail) (s : State) : State :=
  truncate t.outlet (tailStart s t / 1000) ((tailEnergy s t).1 + (tailEnergy s t).2) (tailVehicle s t) t.len s

/-- The metered-to time of a final save: the last metering sample of an open span, or the last before the tick. -/
def finalMeteredTo (ts : List Tail) (s : State) : Nat :=
  if ts.isEmpty then lastUnit s.och.clock.us else (ts.map (tailTag s)).foldl max 0

/-- The power-fail marker of a final save (R132). -/
def markerOf (ts : List Tail) (s : State) : Marker :=
  { tick := s.och.clock.us, meteredTo := finalMeteredTo ts s, tails := ts.map fun t => (t.outlet, toCount (tailEnergy s t).2, true) }

/-- The final save of R132: open blocks truncated, fixed intervals final, every outlet saved, and the marker written. -/
def finalSave (ts : List Tail) (s : State) : State :=
  let marker := markerOf ts s
  let s := flushWaiting (ts.foldl (fun s t => truncateTail t s) s)
  let s := saveAll [] marker.meteredTo (forEach outlets finalIntervals s)
  { s with sup.marker := some marker }

/-! ### Harmonics (R135 to R138) -/

/-- The squares of the bins C_k of a window's samples that the orders and gaps use, k from 0 (R136). -/
def binPowers (nw : Nat) (xs : List Rat) : List Rat := (List.range (100 * nw + nw / 2 + 1)).map (powerOf xs)

/-- Harmonic, subgroup and group of the order at bin `n`, µV or µA (R136). -/
def orderValues (n nw : Nat) (c : List Rat) : Rat × Rat × Rat :=
  let at_ (k : Nat) : Rat := c.getD k 0
  let mid := (List.range (nw - 1)).map fun j => at_ (n + j + 1 - nw / 2)
  (rootOf (at_ n), rootOf (at_ (n - 1) + at_ n + at_ (n + 1)),
   rootOf (at_ (n - nw / 2) / 2 + sumRat mid + at_ (n + nw / 2) / 2))

/-- Interharmonic centred subgroup of a gap. -/
def gapValue (g nw : Nat) (c : List Rat) : Rat :=
  rootOf (sumRat ((List.range (nw - 3)).map fun j => c.getD (g * nw + j + 2) 0))

/-- An angle in 0.01° brought to −18,000 to +17,999. -/
def wrapAngle (a : Int) : Int := (a + 18000) % 36000 - 18000

/-- Phase of an order against the reference's fundamental, in 0.01° (R136, R138). -/
def phaseAngle (h nw : Nat) (xs ref : List Rat) : Int :=
  wrapAngle (toCount (argOf (binOf xs (h * nw)) - (h : Rat) * argOf (binOf ref nw)))

/-- THD of a slot in 0.01 %, 0xFFFF where it does not apply (R123, R136, R137). -/
def thd (dc : Bool) (nw : Nat) (c : List Rat) : Nat :=
  let y (h : Nat) : Rat := (orderValues (h * nw) nw c).2.1
  let total := rootOf (sumRat ((List.range 99).map fun k => y (k + 2) * y (k + 2)))
  if dc || y 1 = 0 then 0xFFFF
  else
    let v := (toCount (total / y 1 * 10000)).toNat
    if 65534 < v then 0xFFFF else v

/-- A value as a 32-bit count. -/
def count32 (r : Rat) : List Byte := leInt 4 (toCount r)

/-- The reported bytes of a slot: by order, by gap, then THD (R138). DESIGN CHOICE: an order's four values stand together in
the order of R138, and THD stands last. -/
def slotReport (dc : Bool) (nw : Nat) (xs ref : List Rat) : List Byte :=
  let c := binPowers nw xs
  let orders := (List.range 100).flatMap fun k =>
    let v := orderValues ((k + 1) * nw) nw c
    count32 v.1 ++ count32 v.2.1 ++ count32 v.2.2 ++ leInt 2 (phaseAngle (k + 1) nw xs ref)
  orders ++ ((List.range 100).flatMap fun g => count32 (gapValue g nw c)) ++ leBytes 2 (thd dc nw c)

/-- N_w of an outlet (R135). DESIGN CHOICE: a DC outlet locked to a reference uses its own F_NOM. -/
def windowCycles (s : State) (o : OutletNo) : Nat := if wBit (s.och.set.meterNow.at o) 3 then 12 else 10

/-- Frequency of a window in mHz, 0 when its cycles are synthetic or irregular (R118). -/
def windowFreq (cycles : List (Nat × Nat)) (fl : Word) : Nat :=
  let len : Nat := (cycles.map (·.2)).foldl (· + ·) 0
  if fl &&& 3 ≠ 0 || len = 0 then 0 else (toCount ((cycles.length : Rat) * 1000000000000 / len)).toNat

/-- The samples of a window: each of its cycles resampled to 256 (R119, R135). -/
def windowSamples (s : State) (cycles : List (Nat × Nat)) (xs : List Rat) : List Rat :=
  let first := (cycles.head?.map (·.1)).getD 0
  let from_ := legalNs s first % unitNs
  cycles.flatMap fun c => resampled (from_ + (c.1 - first)) c.2 xs

/-- UL1 of the outlet, or of the reference outlet of a DC outlet, over a window (R136). -/
def windowRef (s : State) (o : OutletNo) (w : HarmonicInput) : List Rat :=
  if isDc s o then slotValues s (Fin.ofNat 64 (wFld (s.och.set.moduleNow.at o) 0 6)) 0 [w.ref] else slotValues s o 0 w.bits

/-- The window of the outlet's last N_w cycles. -/
def windowOf (s : State) (o : OutletNo) (w : HarmonicInput) : HarmonicWindow :=
  let nw := windowCycles s o
  let a := s.och.analysis.at o
  let cycles := a.cycles.take nw
  let ref := windowSamples s cycles (windowRef s o w)
  let slots := (slotsOn s o).filter fun k => k.val < 7
  { start := legalAt s ((cycles.head?.map (·.1)).getD 0 / 1000) / 64, freq := windowFreq cycles a.flags, flags := a.flags,
    body := slots.flatMap fun k => slotReport (isDc s o) nw (windowSamples s cycles (slotValues s o k.val w.bits)) ref,
    collected := false }

/-- A harmonic window of N_w cycles completes. DESIGN CHOICE: the count of overwritten windows stays at its maximum. -/
def harmonicEnd (o : OutletNo) (w : HarmonicInput) (s : State) : State :=
  if !metered s o || typeOf s o = 0 || (s.och.analysis.at o).cycles.length < windowCycles s o then s
  else
    let r := windowOf s o w
    s.onAnalysis o fun a =>
      let lost := match a.previous with
        | some p => !p.collected
        | none => false
      { a with latest := some r, previous := a.latest, overwritten := if lost then satAdd 32 a.overwritten 1 else a.overwritten,
               flags := 0, cycles := a.cycles.drop (windowCycles s o) }

def execHarmonicWindowEnd (outlet : OutletNo) (window : HarmonicInput) (s : State) : Host.Outcome State Fault Refusal :=
  done (harmonicEnd outlet window s)

/-! ### Supraharmonics and raw blocks (R139 to R142) -/

/-- |H|² of the sinc3 stage at a frequency in Hz (R84, R87). -/
def sincPower (s : State) (hz : Rat) : Rat :=
  let y := hz / modulatorHz s / 2
  let m := sincRatio s
  let h := sinTurn (m * y) / (m * sinTurn y)
  h * h * (h * h) * (h * h)

/-- |H|² of the chain before the 500 kS/s stream. -/
def chainPower (s : State) (hz : Rat) : Rat := sincPower s hz * (if s.clocks.mclkSel = 1 then Config.converterPower hz else 1)

/-- What one unit of the 500 kS/s stream of an input stands for: its factory and user gain and its fs (R139). -/
def supraScale (s : State) (i : InputNo) : Rat :=
  let u := s.och.set.userNow.at i
  (1 + gainF s (laneOf s i) (pointOf s (outletOf i))) * (1 + (u.gain.toInt : Rat) / 2 ^ 31) * u.fs.toNat

/-- The squares of the bins of a supraharmonic window, every 5 Hz from 2,005 Hz up to 150 kHz, with the chain's response divided
out (R87, R139). -/
def supraBins (s : State) (i : InputNo) (bits : Bits) : List Rat :=
  let xs := ((intermediate s (laneBits (s.och.input.at i) bits)).take 100000).map (· * supraScale s i)
  (List.range 29600).map fun j => powerOf xs (401 + j) / chainPower s (5 * (401 + j : Nat))

/-- The 740 bands, rounded to counts (R139). -/
def bandsOf (squares : List Rat) : List Word :=
  (List.range 740).map fun b => BitVec.ofInt 32 (toCount (rootOf (sumRat ((squares.drop (40 * b)).take 40))))

/-- Outlet and slot of a supraharmonic channel (R140). -/
def channelOutlet (c : Fin 448) : OutletNo := Fin.ofNat 64 (c.val / 7)

def channelSlot (c : Fin 448) : Nat := c.val % 7

/-- The flags of a slot as they stand. -/
def slotFlags (x : Input) : Word :=
  (if x.invalid then fInvalid else 0) ||| (if x.ovr then fOvr else 0) ||| (if x.laneFailed then fLane else 0)
    ||| (if x.suspect then fSuspect else 0)

/-- One channel's result kept until the next rotation (R141). -/
def keepSupra (step : Nat) (r : SupraInput) (s : State) : State :=
  let o := channelOutlet r.channel
  if r.channel.val / 8 ≠ step || typeOf s o = 0 || !slotEn s o (channelSlot r.channel) then s
  else
    let x := s.och.input.at (inputOf o (channelSlot r.channel))
    let v : SupraResult :=
      { step := step, start := legalUnits s - 3125, bands := bandsOf (supraBins s (inputOf o (channelSlot r.channel)) r.bits),
        flags := secondFlags false false (x.seen ||| slotFlags x) }
    { s with och.supra := s.och.supra.put r.channel (some v) }

/-- A 200 ms rotation step ends; the next step's channels start with clean flags. -/
def supraStep (rs : List SupraInput) (s : State) : State :=
  if s.dies.ochre != .running || s.och.clock.checkFailed then s
  else
    let s := rs.foldl (fun s r => keepSupra s.och.supraStep r s) s
    let next := (s.och.supraStep + 1) % 56
    let s := { s with och.supraStep := next }
    forEach (indices 7) (fun k s =>
      let c : Fin 448 := Fin.ofNat 448 (8 * next + k.val)
      s.onInput (inputOf (channelOutlet c) (channelSlot c)) fun x => { x with seen := slotFlags x }) s

def execSupraharmonicStep (results : List SupraInput) (s : State) : Host.Outcome State Fault Refusal :=
  done (supraStep results s)

/-- 2-bit statuses, 16 to a word, in the order of the samples. -/
def statusWords : Nat → List (BitVec 2) → List Byte
  | 0, _ => []
  | n + 1, l =>
    leBytes 4 ((l.take 16).foldr (fun b a => 4 * a + b.toNat) 0) ++ statusWords n (l.drop 16)

/-- The coefficient set and interpolation point in force at a moment, in ns on the monotonic counter. -/
def pointAt (m : Meter) (ns : Nat) : Word × Rat :=
  match m.points.find? fun p => decide (p.1 ≤ ns) with
  | some p => p.2
  | none => (m.coefId, m.point)

/-- Samples z of an input after the phase delay, in units of 2^-7 code, with their status (R90, R142). -/
def rawSamples (s : State) (o : OutletNo) (k : Nat) (r : RawInput) : List (Int × BitVec 2) :=
  let m := s.och.meter.at o
  let i := inputOf o k
  let first := taggedNs s r.out
  let codes := (slotCodes s o k r.bits).take 1024
  let z := numbered (fun j c => calibrateZ s i (pointAt m (first + unitNs * j)).2 c) 0 codes
  List.zipWith (fun v c => (toCount (v * 128), slotStatusOf s o k c)) (delayed (phaseDelay s i (pointAt m first).2) z) codes

/-- A raw block in the layout of R142. -/
def rawBytes (s : State) (o : OutletNo) (r : RawInput) : List Byte :=
  let first := taggedNs s r.out
  let slots := (slotsOn s o).map fun k => rawSamples s o k.val r
  let mask := (slotsOn s o).foldl (fun m k => m + 2 ^ k.val) 0
  let statuses := slots.flatMap fun l => l.map (·.2)
  leBytes 8 (legalNs s first / unitNs) ++ leBytes 4 ((s.och.analysis.at o).rawSeq.toNat * 2 ^ 16 + mask * 256 + o.val)
    ++ leBytes 4 (pointAt (s.och.meter.at o) first).1.toNat
    ++ (slots.flatMap fun l => l.flatMap fun v => leInt 4 v.1) ++ statusWords ((statuses.length + 15) / 16) statuses

/-- A raw block completes; of three the oldest is discarded (R142). DESIGN CHOICE: the discard counter stays at its maximum. -/
def rawComplete (o : OutletNo) (r : RawInput) (s : State) : State :=
  if !metered s o || !s.och.ha.at o then s
  else
    let b := rawBytes s o r
    s.onAnalysis o fun a =>
      let full := 2 ≤ a.raw.length
      { a with raw := (if full then a.raw.drop 1 else a.raw) ++ [b],
               discards := if full then satAdd 32 a.discards 1 else a.discards, rawSeq := a.rawSeq + 1 }

def execRawBlockComplete (outlet : OutletNo) (block : RawInput) (s : State) : Host.Outcome State Fault Refusal :=
  done (rawComplete outlet block s)

end Sys2Proof.Machine
end

