-- ==== Sys2Proof/Machine/Sessions.lean ====
section
/-! DEFINITION. Phases of a session, its fallback to basic signalling, and its record in Ochre (R178 to R184, R229 to R238). -/

namespace Sys2Proof.Machine

/-! ### Phases (R229) -/

/-- Millet is silent: the control die does not run, or its heartbeat is lost. -/
def milletSilent (s : State) : Bool := !controlRuns s || s.modes.hbLoss

/-- A session enters a phase. The link word is latched when phase 1 begins (R239). -/
def setPhase (o : OutletNo) (n : Nat) (s : State) : State :=
  let link := (s.veh.pilot.at o).word0.now
  let late := n == 9 && milletSilent s
  let s := s.onSession o fun x =>
    { x with phase := n, link0 := if n = 1 then link else x.link0, late := x.late || late }
  refreshDrive o (raise 35 o.val 0 [BitVec.ofNat 8 n] s)

/-- Fescue's open request: Russet opens the pair (R30). -/
def fescueOpen (o : OutletNo) (s : State) : State := openPair o s

/-- A session stops: phase 7 with an open request, unless it is past it or there is none. -/
def stopSession (o : OutletNo) (s : State) : State :=
  let n := s.veh.session.at o
  if 1 ≤ n.phase && n.phase ≤ 6 then fescueOpen o (setPhase o 7 s) else s

/-- The policy requests of a session are withdrawn; a card's decision stands apart (R367). -/
def withdrawPolicies (o : OutletNo) (s : State) : State :=
  { s with veh.policies := s.veh.policies.filter fun r => !(r.outlet == o && (r.kind != 0 || r.aerial.isNone)) }

/-- A session ends: phase 9, with an open request where the pair is on. -/
def endSessionNow (o : OutletNo) (s : State) : State :=
  let n := s.veh.session.at o
  if n.phase = 0 || n.phase = 9 then s
  else
    let s := withdrawPolicies o (s.onSession o fun x => { x with cert := none, tls := none })
    fescueOpen o (setPhase o 9 s)

/-- A session that falls back to basic signalling: held in phase 6, ended before it, left alone after it (R237). -/
def holdSession (o : OutletNo) (s : State) : State :=
  let n := s.veh.session.at o
  let s := withdrawPolicies o s
  if n.phase = 6 then
    refreshDrive o (s.onSession o fun x => { x with held := true, tls := none, cert := none })
  else if 1 ≤ n.phase && n.phase ≤ 5 then endSessionNow o s
  else s.onSession o fun x => { x with tls := none, cert := none }

/-- The session runs, or will run, on a session core. -/
def onCore (s : State) (o : OutletNo) : Bool :=
  let n := s.veh.session.at o
  n.proto ≠ 0 || (offersHlc s o && 1 ≤ n.phase && n.phase ≤ 2)

/-- Every session falls back while Millet is silent (R35). -/
def holdAll (s : State) : State :=
  forEach outlets (fun o s =>
    let s := if (s.veh.session.at o).phase = 6 then { s with veh.toConfirm := s.veh.toConfirm.put o true } else s
    holdSession o s) s

/-! ### Session records in Ochre (R178 to R184) -/

/-- The count of a total, without its fraction. -/
def countOf (t : BitVec 96) : BitVec 64 := BitVec.ofNat 64 (t.toNat / 2 ^ 32)

/-- Every retained slot holds an unexported record. -/
def retainedFull (s : State) : Bool := decide (8192 ≤ s.och.recs.retained.length) && s.och.recs.retained.all (!·.exported)

/-- Some signing slot is in service (R469). -/
def signingSlot (s : State) : Option (Fin 8) := (indices 7).find? fun k => s.och.signing.at k == .inService

/-- Every enabled slot of an outlet has FS (R101). -/
def calibrated (s : State) (o : OutletNo) : Bool :=
  (slotsOn s o).all fun k => (s.och.set.userNow.at (inputOf o k.val)).fs ≠ 0

/-- Ochre accepts the class of session start and stop in the role in force; in the standby it comes forwarded (R23). -/
def recordRole (s : State) : Bool :=
  match roleNow s.modes with
  | .none => false
  | _ => true

/-- Ochre's refusal of a session start, in the order of R24. -/
def startRefusal (s : State) (o : OutletNo) : Option Status :=
  if !recordRole s || degraded s then some .mode
  else
    let open_ := match s.och.recs.slots.at o with
      | .opened _ _ => true
      | .stopped _ _ _ => true
      | _ => false
    let waiting := match s.och.recs.slots.at o with
      | .waiting _ => true
      | _ => false
    if typeOf s o = 0 || open_ || !calibrated s o || (signingSlot s).isNone || !metered s o then some .outOfRange
    else if waiting || (!s.veh.ha.at o && retainedFull s) then some .recordsFull
    else none

/-- The record that a start opens. -/
def openRecord (s : State) (o : OutletNo) (sid auth : BitVec 64) : SessionRecord :=
  let a := (s.och.meter.at o).acc
  { slot := 0, type := BitVec.ofNat 2 (typeOf s o), outlet := o, recNo := 0, sid := sid, auth := auth,
    tStart := legalUnits s, tStop := 0, impStart := countOf (a.totals.at 0), expStart := countOf (a.totals.at 1),
    impSess := 0, expSess := 0, dcvSess := 0, tar := [],
    flags := openFlags s, legalFw := Config.legalFw, calId := 0, logSeq := 0, sig := [] }

/-- Ochre opens the record: session registers cleared (R148, R178). -/
def ochreStart (o : OutletNo) (sid auth : BitVec 64) (s : State) : State :=
  let r := openRecord s o sid auth
  let s := s.onMeter o fun m =>
    { m with acc := { m.acc with sessImp := 0, sessExp := 0, sessTar := Tab.all 8 0, sessVeh := 0 } }
  { s with och.recs.slots := s.och.recs.slots.put o (.opened r s.och.clock.mono) }

/-- A session start is refused: counted, reported, and a high-level session ends (R25, R231). -/
def refuseStart (o : OutletNo) (st : Status) (s : State) : State :=
  let s := (ochreRefuses (reply st 0) s).2
  let s := raise 39 o.val st.code [] s
  let s := s.onSession o fun x => { x with accepted := false }
  -- In basic charging the pilot stays at +12 V steady and no current is offered.
  if (s.veh.session.at o).proto = 0 then refreshDrive o s else endSessionNow o s

/-- The vehicle is ready: a basic charge that Ochre has accepted enters phase 6 (R229, R230). -/
def nowReady (o : OutletNo) (s : State) : State :=
  let n := s.veh.session.at o
  let st := (s.veh.pilot.at o).state
  if n.proto = 0 && n.phase = 3 && n.accepted && (st == .C || st == .D) then setPhase o 6 s else s

/-- Millet sends Ochre a session start, under the lease (R178, R230, R496). -/
def sessionStart (o : OutletNo) (sid auth : BitVec 64) (s : State) : State :=
  if s.dies.ochre != .running || !leaseHeld s then s
  else match startRefusal s o with
    | some st => refuseStart o st s
    | none =>
      nowReady o <| refreshDrive o <|
        (ochreStart o sid auth s).onSession o fun x => { x with accepted := true, sid := sid, auth := auth }

def execSessionStart (outlet : OutletNo) (sid auth : BitVec 64) (s : State) : Host.Outcome State Fault Refusal :=
  done (sessionStart outlet sid auth s)

/-- An open record is stopped: T_STOP, REC_NO, calendar and log at the stop (R179, R180). -/
def stopRecord (r : SessionRecord) (extra : Word) (s : State) : SessionRecord × State :=
  let n := s.och.recs.recNo + 1
  let w := extra ||| (if s.och.clock.timeInvalid then flagInvalidTime else 0)
  ({ r.mark w with recNo := n, tStop := legalUnits s, calId := BitVec.ofNat 32 (calId s.och.tariffs.active),
                   logSeq := s.och.log.seq },
   { s with och.recs.recNo := n })

/-- Ochre takes a session stop (R178). DESIGN CHOICE: one that names the outlet's last closed session while another session is
open is refused with OUT_OF_RANGE. -/
def ochreStop (o : OutletNo) (sid : BitVec 64) (late : Bool) (s : State) : Option Status × State :=
  if !recordRole s then (some .mode, s)
  else match s.och.recs.slots.at o with
    | .opened r t =>
      if r.sid = sid then
        let (r, s) := stopRecord r (if late then flagLate else 0) s
        let s := { s with och.recs.slots := s.och.recs.slots.put o (.stopped r t s.och.clock.mono),
                          och.recs.lastSid := s.och.recs.lastSid.put o (some sid) }
        (none, s)
      else (some .outOfRange, s)
    | _ => if s.och.recs.lastSid.at o = some sid then (none, s) else (some .outOfRange, s)

/-- Sessions that have ended and whose stop has not reached Ochre when Millet falls silent: the stop will be late (R27). -/
def lateStops (s : State) : State :=
  forEach outlets (fun o s =>
    match s.och.recs.slots.at o with
    | .opened r _ => s.onSession o fun n => { n with late := n.late || (n.phase == 9 && n.sid == r.sid) }
    | _ => s) s

/-- Millet sends Ochre a session stop; while the lease is missing, or Ochre does not answer, it will be sent again (R229,
R496). -/
def sessionStop (o : OutletNo) (sid : BitVec 64) (s : State) : State :=
  if s.dies.ochre != .running || !leaseHeld s then { s with och.recs.resend := s.och.recs.resend.put o (some sid) }
  else
    let s := { s with och.recs.resend := s.och.recs.resend.put o none }
    match ochreStop o sid (s.veh.session.at o).late s with
    | (some st, s) => (ochreRefuses (reply st 0) s).2
    | (none, s) => s

def execSessionStop (outlet : OutletNo) (sid : BitVec 64) (s : State) : Host.Outcome State Fault Refusal :=
  done (sessionStop outlet sid s)

/-- An unanswered stop is sent again every 100 ms. -/
def resendStop (o : OutletNo) (s : State) : State :=
  match s.och.recs.resend.at o with
  | some sid => sessionStop o sid s
  | none => s

def execSessionStopResend (outlet : OutletNo) (s : State) : Host.Outcome State Fault Refusal := done (resendStop outlet s)

/-! ### Signing and placing (R179 to R183) -/

/-- Bytes 0x00 to 0x7F of a record (R179). -/
def recordContent (r : SessionRecord) : List Byte :=
  leBytes 4 (2 ^ 24 + r.slot * 2 ^ 16 + r.type.toNat * 256 + r.outlet.val) ++ leBytes 4 r.recNo.toNat
    ++ leBytes 8 r.sid.toNat ++ leBytes 8 r.auth.toNat ++ leBytes 8 r.tStart ++ leBytes 8 r.tStop
    ++ leBytes 8 r.impStart.toNat ++ leBytes 8 r.expStart.toNat ++ leBytes 8 r.impSess.toNat ++ leBytes 8 r.expSess.toNat
    ++ leBytes 8 r.dcvSess.toNat ++ wordBytes ((r.tar ++ List.replicate 8 0).take 8) ++ leBytes 4 r.flags.toNat
    ++ leBytes 4 r.legalFw.toNat ++ leBytes 4 r.calId.toNat ++ leBytes 4 r.logSeq.toNat

/-- The 192 bytes of a record. -/
def recordAll (r : SessionRecord) : List Byte := recordContent r ++ padTo 64 r.sig

/-- A retained slot is free or exported. -/
def retainedRoom (s : State) : Bool := decide (s.och.recs.retained.length < 8192) || s.och.recs.retained.any (·.exported)

/-- The exported record with the lowest REC_NO replaced. -/
def replaceExported (r : Retained) (l : List Retained) : List Retained :=
  let nos := (l.filter (·.exported)).map (·.record.recNo.toNat)
  match nos.min? with
  | some n => l.map fun x => if x.exported && x.record.recNo.toNat = n then r else x
  | none => l

/-- A record put into the retained store: a free slot, or the exported one with the lowest REC_NO (R182). -/
def retain (r : SessionRecord) (s : State) : State :=
  let x : Retained := { record := r, exported := false }
  { s with och.recs.retained := if s.och.recs.retained.length < 8192 then s.och.recs.retained ++ [x]
                                else replaceExported x s.och.recs.retained }

/-- The session's energies as they stand in a record. -/
def fillRecord (a : Accum) (r : SessionRecord) : SessionRecord :=
  { r with impSess := countOf a.sessImp, expSess := countOf a.sessExp, dcvSess := countOf a.sessVeh,
           tar := a.sessTar.toList.map fun t => BitVec.ofNat 32 (t.toNat / 2 ^ 32 / 100000) }

/-- The slot that signs: the lowest in service, in Paired active the lowest in service in both Ochres (R180, R491). -/
def recordSlot (s : State) : Option (Fin 8) :=
  match (indices 7).find? fun k => s.och.signing.at k == .inService && s.pair.peerSigning.getLsbD k.val with
  | some k => if roleNow s.modes == .active then some k else signingSlot s
  | none => signingSlot s

/-- A record signed; with no slot in service it stays unsigned (R180, R469). -/
def signRecord (s : State) (r : SessionRecord) : SessionRecord :=
  match recordSlot s with
  | some k =>
    let r := { r with slot := k.val }
    { r with sig := Config.sign k.val (recordContent r) }
  | none => r

/-- A stopped record complete but for its signature (R180, R183). -/
def finished (s : State) (o : OutletNo) (r : SessionRecord) : SessionRecord :=
  let r := fillRecord (s.och.meter.at o).acc r
  if retainedRoom s then r else r.mark flagWaited

/-- A signed record is placed: in the retained store, or in its outlet's slot until there is room (R183). -/
def storeRecord (o : OutletNo) (r : SessionRecord) (s : State) : State :=
  let room := retainedRoom s
  let s := { s with och.recs.lastClosed := s.och.recs.lastClosed.put o (some r),
                    och.recs.slots := s.och.recs.slots.put o (if room then .empty else .waiting r) }
  let s := if room then retain r s else s
  raise 24 o.val (if room then 0 else 1) [] s

/-- A stopped record is signed and placed, and sent to the peer by the active module (R180, R183, R491). -/
def placeRecord (o : OutletNo) (r : SessionRecord) (s : State) : State :=
  let r := signRecord s (finished s o r)
  let s := if roleNow s.modes == .active then { s with pair.sent := s.pair.sent ++ [.record o (recordContent r)] } else s
  storeRecord o r s

/-- The last energy of a stopped session has been accumulated. In the standby the content comes from the active module. -/
def recordSign (o : OutletNo) (s : State) : State :=
  match s.och.recs.slots.at o with
  | .stopped r _ _ => if s.dies.ochre != .running || roleNow s.modes == .standby then s else placeRecord o r s
  | _ => s

def execSessionRecordSign (outlet : OutletNo) (s : State) : Host.Outcome State Fault Refusal := done (recordSign outlet s)

/-- The waiting record with the lowest REC_NO. -/
def firstWaiting (s : State) : Option (OutletNo × SessionRecord) :=
  outlets.foldl (fun best o =>
    match s.och.recs.slots.at o with
    | .waiting r =>
      match best with
      | some b => if r.recNo.toNat < b.2.recNo.toNat then some (o, r) else best
      | none => some (o, r)
    | _ => best) none

/-- A retained slot has become available (R183). -/
def moveWaiting (s : State) : State :=
  if s.dies.ochre != .running || !retainedRoom s then s
  else match firstWaiting s with
    | some (o, r) => retain r { s with och.recs.slots := s.och.recs.slots.put o .empty }
    | none => s

def execWaitingRecordMove (s : State) : Host.Outcome State Fault Refusal := done (moveWaiting s)

/-- The save that power-up restores: the newer copy, or the other when that one is lost. -/
def restoredSave (m : Meter) : Save :=
  let a := m.saves.at m.newer
  if a.lost then m.saves.at (m.newer + 1) else a

/-- An open record closed at a module power-on with the metered-to time (R184). -/
def powerStop (o : OutletNo) (s : State) : State :=
  match s.och.recs.slots.at o with
  | .opened r _ =>
    let (r, s) := stopRecord r flagPowerStop s
    let s := { s with och.recs.lastSid := s.och.recs.lastSid.put o (some r.sid) }
    placeRecord o { r with tStop := (restoredSave (s.och.meter.at o)).meteredTo } s
  | .stopped r _ _ => placeRecord o r s
  | _ => s

end Sys2Proof.Machine
end

