-- ==== Sys2Proof/Machine/Display.lean ====
section
/-! DEFINITION. The legal display: its configuration, the frames that Ochre composes, bistable updates with their journal,
the selection, and the legal second (R124, R186 to R204, R395). -/

namespace Sys2Proof.Machine

/-! ### Configuration (R188, R195, R200) -/

/-- The three words hold permitted values only. -/
def displayWordsOk (l : List Word) : Bool :=
  let a := dispWord l 0
  let b := dispWord l 1
  let c := dispWord l 2
  dmodeOf l ≠ 3 && wFld a 26 2 ≠ 3 && wFld a 20 6 ≤ 54 && wFld a 0 16 = 0 && wFld b 26 6 ≤ 28 && wFld b 20 6 ≤ 28
    && within 2 20 (wFld b 15 5) && within 2 20 (wFld b 10 5) && wFld b 15 5 + wFld b 10 5 ≤ 29 && wFld b 0 7 ≤ 79
    && wFld c 8 24 = 0

/-- A map entry is used. -/
def mapUsed (e : BitVec 16) : Bool := e.getLsbD 15

/-- An entry is well-formed: unused and 0, or a segment that is not reserved, without reserved bits. Segments from 404 on are
reserved (R200, R201). -/
def mapEntryOk (e : BitVec 16) : Bool := if mapUsed e then e.toNat % 2 ^ 15 < 404 else e == 0

/-- The segments that a list of used entries names. -/
def mapSegments (m : List (BitVec 16)) : List Nat := (m.filter mapUsed).map fun e => e.toNat % 512

/-- The segments that every map maps: main line, sub-line characters 0 to 6, annunciators of R201. -/
def neededSegments : List Nat := (List.range 368) ++ (List.range 20).map (· + 384)

/-- Ochre accepts a segment map (R200). -/
def mapOk (m : List (BitVec 16)) : Bool :=
  let segs := mapSegments m
  m.all mapEntryOk && segs.eraseDups.length = segs.length && neededSegments.all segs.contains

/-- Position of the update-in-progress segment (R195). -/
def indicatorAt (l : List Word) : Nat := 80 * wFld (dispWord l 1) 7 3 + wFld (dispWord l 1) 0 7

/-- A display configuration and its segment map are accepted. -/
def displayOk (l : List Word) (m : List (BitVec 16)) : Bool :=
  displayWordsOk l && mapOk m && m.getD (indicatorAt l) 0 == 0

/-! ### Text (R200 to R202) -/

/-- A character with its decimal point. -/
abbrev Glyph := Char × Bool

def blankGlyph : Glyph := (' ', false)

/-- The digits of a number in a base, most significant first, at least `n` of them. -/
def digitsOf (base n v : Nat) : List Glyph :=
  let ds := Nat.toDigits base v
  (List.replicate (n - ds.length) '0' ++ ds).map fun c => (c.toUpper, false)

/-- A number with `places` decimals, leading zeros blanked. -/
def decimalText (places v : Nat) : List Glyph :=
  let ds := digitsOf 10 (places + 1) v
  let cut := ds.length - places - 1
  ds.take cut ++ (match ds.drop cut with
    | d :: rest => if places = 0 then d :: rest else (d.1, true) :: rest
    | [] => [])

/-- Energy in kWh with three decimals; a count is 1 µWh. -/
def energyText (count : Nat) : List Glyph := decimalText 3 (toCount ((count : Rat) / 1000000)).toNat

/-- Date and time to the second of LT32 seconds. -/
def dateText (sec : Nat) : List Glyph :=
  let d := dateOf (sec / 86400)
  let t := sec % 86400
  digitsOf 10 4 (2000 + d.year) ++ digitsOf 10 2 d.month ++ digitsOf 10 2 d.day ++ digitsOf 10 2 (t / 3600)
    ++ digitsOf 10 2 (t / 60 % 60) ++ digitsOf 10 2 (t % 60)

/-- The strokes of a character, stroke 14 the decimal point. -/
def strokesOf (g : Glyph) : BitVec 16 :=
  (if g.1 = ' ' then 0 else Config.glyph g.1) ||| (if g.2 then 1 <<< 14 else 0)

/-- A line of `n` characters. -/
def lineOf (n : Nat) (l : List Glyph) : List (BitVec 16) :=
  ((l ++ List.replicate (n - l.length) blankGlyph).take n).map strokesOf

/-- The main line of an item's text. -/
def mainLine (item : Nat) (t : List Glyph) : List (BitVec 16) :=
  lineOf 16 (List.replicate (Config.lineStart item % (17 - t.length)) blankGlyph ++ t)

/-! ### Items (R202 to R204) -/

/-- An item with the outlet and index it is shown for. -/
structure Item where
  item : Nat
  outlet : Nat
  index : Nat
deriving DecidableEq, Repr

/-- Items that name an outlet. -/
def namesOutlet (item : Nat) : Bool := (2 ≤ item && item ≤ 10) || item = 12

/-- Items that carry an index, with its range. -/
def indexRange (item : Nat) : Option (Nat × Nat) :=
  match item with
  | 4 | 5 | 9 | 10 | 13 => some (0, 7)
  | 6 => some (1, 4)
  | 15 => some (0, 3)
  | _ => none

/-- Ochre accepts a selection (R203). -/
def selectionOk (s : State) (x : Item) : Bool :=
  x.item < 0x11 && (!namesOutlet x.item || (x.outlet < 64 && typeOf s (Fin.ofNat 64 x.outlet) ≠ 0))
    && (match indexRange x.item with
        | some (lo, hi) => within lo hi x.index
        | none => true)

/-- The steps of the rotation: the date, then both totals of each outlet that is not unused. -/
def rotation (s : State) : List Item :=
  { item := 1, outlet := 0, index := 0 } ::
    ((outlets.filter fun o => typeOf s o ≠ 0).flatMap fun o =>
      [{ item := 2, outlet := o.val, index := 0 }, { item := 3, outlet := o.val, index := 0 }])

/-- The item shown now. -/
def itemNow (s : State) : Item :=
  let d := s.och.display
  let sel := match d.sel with
    | some (i, o, k) => { item := i, outlet := o, index := k }
    | none => { item := 0x10, outlet := 0, index := 0 }
  if d.identity || s.och.clock.checkFailed then { item := 0, outlet := 0, index := 0 }
  else if sel.item = 0x10 then
    let r := rotation s
    r.getD (lt32 s / 5 % r.length) sel
  else sel

/-- The second of two alternating values is shown. -/
def alternate (s : State) : Bool := lt32 s / 4 % 2 = 1

/-- The maximum-demand text: the demand in kW with four decimals, or its time. -/
def demandText (s : State) (m : MaxDemand) : List Glyph :=
  if alternate s then dateText m.time.toNat else decimalText 4 m.value.toNat

/-- Main-line text of an item. -/
def itemText (s : State) (x : Item) : List Glyph :=
  let a := (s.och.meter.at (Fin.ofNat 64 x.outlet)).acc
  let k8 := Fin.ofNat 8 x.index
  let e (t : BitVec 96) : List Glyph := energyText (countOf t).toNat
  match x.item with
  | 0x00 => digitsOf 16 8 Config.legalFw.toNat ++ digitsOf 16 8 Config.legalCrc.toNat
  | 0x01 => dateText (lt32 s)
  | 0x02 => e (a.totals.at 0)
  | 0x03 => e (a.totals.at 1)
  | 0x04 => e (a.tarImp.at k8)
  | 0x05 => e (a.tarExp.at k8)
  | 0x06 => e (a.totals.at (Fin.ofNat 8 (1 + x.index)))
  | 0x07 => e a.dcVeh
  | 0x08 => e a.sessImp
  | 0x09 => demandText s (a.mdImp.at k8)
  | 0x0A => demandText s (a.mdExp.at k8)
  | 0x0B => digitsOf 16 8 (calId s.och.tariffs.active)
  | 0x0C =>
    (match s.och.recs.lastClosed.at (Fin.ofNat 64 x.outlet) with
     | some r => if alternate s then energyText r.impSess.toNat else digitsOf 10 1 r.recNo.toNat
     | none => [])
  | 0x0D => ((sha256 (Config.signingPublic x.index)).take 8).flatMap fun b => digitsOf 16 2 b.toNat
  | 0x0E => digitsOf 10 1 s.och.log.entries.length ++ [blankGlyph] ++ digitsOf 10 1 s.och.log.seq.toNat
  | 0x0F => digitsOf 10 1 (s.teal.openings.at (Fin.ofNat 4 x.index)).toNat
  | _ => []

/-- Sub line: item, outlet and index in their places. -/
def subLine (x : Item) : List (BitVec 16) :=
  let o := if namesOutlet x.item then digitsOf 10 2 x.outlet else [blankGlyph, blankGlyph]
  let i := if (indexRange x.item).isSome then digitsOf 10 1 x.index else [blankGlyph]
  lineOf 8 (digitsOf 16 2 x.item ++ [blankGlyph] ++ o ++ [blankGlyph] ++ i)

/-- Units of the value shown: W, k, M, h, var, VA from bit 10 on (R201). -/
def unitBits (s : State) (x : Item) : Nat :=
  if x.item = 6 then 2 ^ 11 + 2 ^ 13 + 2 ^ 14
  else if (2 ≤ x.item && x.item ≤ 8) || (x.item = 12 && alternate s) then 2 ^ 10 + 2 ^ 11 + 2 ^ 13
  else if (x.item = 9 || x.item = 10) && !alternate s then 2 ^ 10 + 2 ^ 11
  else 0

/-- The annunciators, segment 384 in bit 0 (R201). -/
def annunciators (s : State) (x : Item) : Nat :=
  let m := s.och.meter.at (Fin.ofNat 64 x.outlet)
  let own : Nat :=
    if namesOutlet x.item then
      2 ^ s.och.tariffs.reg.val + (if m.export_ then 2 ^ 9 else 2 ^ 8) + flag (m.acc.cur.flags &&& flagTamper ≠ 0) 16
    else 0
  own + unitBits s x + flag s.och.clock.timeInvalid 17 + flag s.clocks.outSince.isSome 18 + flag (!logRoom s 1) 19

/-- The 16-segment groups of an item: main line, sub line, annunciators. -/
def segmentsOf (s : State) (x : Item) : List (BitVec 16) :=
  let a := annunciators s x
  mainLine x.item (itemText s x) ++ subLine x ++ [BitVec.ofNat 16 a, BitVec.ofNat 16 (a / 2 ^ 16), 0, 0]

/-- The logical segment of a map entry is lit. -/
def entryLit (segs : List (BitVec 16)) (e : BitVec 16) : Bool :=
  mapUsed e && (segs.getD (e.toNat % 512 / 16) 0).getLsbD (e.toNat % 16)

/-- `n` bytes of a frame image: position p is bit p mod 8 of byte p / 8 (R186). -/
def frameBytes (segs : List (BitVec 16)) : Nat → List (BitVec 16) → List Byte
  | 0, _ => []
  | n + 1, m =>
    BitVec.ofNat 8 ((numbered (fun k e => flag (entryLit segs e) k) 0 (m.take 8)).foldl (· + ·) 0)
      :: frameBytes segs n (m.drop 8)

/-- The page of the item shown now; the main line blinks while the check of R185 has failed (R192, R204). -/
def composePage (s : State) : Page :=
  let segs := segmentsOf s (itemNow s)
  { frame := frameBytes segs 80 s.och.display.mapNow,
    blink := if s.och.clock.checkFailed then frameBytes (segs.take 16) 80 s.och.display.mapNow
             else List.replicate 80 0 }

/-! ### Drive (R190, R191, R196 to R199) -/

def State.onDisplay (s : State) (f : Display → Display) : State := { s with och.display := f s.och.display }

/-- Marked positions are shown steadily on in bistable mode (R192). -/
def steady (p : Page) : List Byte := List.zipWith (· ||| ·) p.frame p.blink

/-- Ochre composes a page: it waits for the frame end, or in bistable mode for an update. -/
def compose (s : State) : State :=
  if s.dies.ochre != .running then s
  else
    let p := composePage s
    s.onDisplay fun d =>
      { d with composed := if bistable d then none else some p, waiting := if bistable d then some (steady p) else none }

/-- Bytes 0x00 to 0xA7 of the display journal (R197). -/
def journalContent (j : Journal) : List Byte :=
  leBytes 4 (j.state.toNat * 2 ^ 24 + j.row.toNat * 2 ^ 16) ++ leBytes 4 j.frameSeq.toNat ++ padTo 80 j.committed
    ++ padTo 80 j.target

/-- The 172 bytes of the display journal. -/
def journalBytes (j : Journal) : List Byte := journalContent j ++ leBytes 4 j.check.toNat

/-- A journal entry as it is written, with its CHECK. -/
def Journal.sealed (j : Journal) : Journal := { j with check := Config.check (journalContent j) }

/-- The committed frame: blank where the journal's CHECK fails (R199). -/
def committedFrame (j : Journal) : List Byte :=
  if j.check = Config.check (journalContent j) then j.committed else List.replicate 80 0

/-- All eight rows rewritten from a target (R198, R199). -/
def fullRewrite (target : List Byte) (mono : Nat) (d : Display) : Display :=
  { d with rows := some (List.range 8), began := some mono,
           journal := ({ d.journal with state := 1, row := 0, target := target } : Journal).sealed }

/-- A pending configuration takes effect at the display boundary (R109, R187, R199). -/
def commitDisplay (mono : Nat) (d : Display) : Display :=
  if d.pend then
    let turned := !bistable d && dmodeOf d.cfg == 2
    let d := { d with cfgNow := d.cfg, mapNow := d.map, pend := false }
    if turned then fullRewrite (committedFrame d.journal) mono d else d
  else d

/-- VLCD at Ochre's die temperature, in 1/16 mV, clamped (R190). -/
def vlcdAt (d : Display) : Int :=
  let w := dispWord d.cfgNow 0
  let v : Rat := (2700 + 50 * (wFld w 20 6 : Nat) - (wFld w 16 4 : Nat) * (d.temp - 25)) * 16
  max (2700 * 16) (min (nearest v) (5400 * 16))

/-- A TN frame ends: pages are swapped, the polarity reverses, VLCD follows the temperature (R189 to R191). -/
def turnFrame (d : Display) : Display :=
  let d := match d.composed with
    | some p => { d with shown := p, composed := none }
    | none => d
  let d := { d with positive := !d.positive }
  if d.vlcdDue then { d with vlcd := vlcdAt d, vlcdDue := false } else d

/-- A frame ends; settings accepted in time commit (R109, R111). DESIGN CHOICE: in mode off the frames run on, at 0 V. -/
def frameEnd (late : Bool) (s : State) : State :=
  if !s.och.display.driven || bistable s.och.display then s
  else
    let mono := s.och.clock.mono
    s.onDisplay fun d =>
      let d := if twisted d then turnFrame d else d
      if late then d else commitDisplay mono d

def execDisplayFrameEnd (late : Bool) (s : State) : Host.Outcome State Fault Refusal := done (frameEnd late s)

/-- Row c of a frame image. -/
def frameRow (f : List Byte) (c : Nat) : List Byte := slice f (10 * c) 10

/-- The rows that differ between two frames. -/
def rowsThatDiffer (a b : List Byte) : List Nat := (List.range 8).filter fun c => frameRow a c != frameRow b c

/-- The frame that waits, when it differs from the committed one. -/
def dueFrame (d : Display) : Option (List Byte) := d.waiting.filter fun f => f != d.journal.committed

/-- UPD_MIN has passed since the last update began (R196). -/
def updateAllowed (s : State) : Bool :=
  match s.och.display.began with
  | some t => decide (t + wFld (dispWord s.och.display.cfgNow 2) 0 8 * 100000 ≤ s.och.clock.mono)
  | none => true

/-- A bistable update begins: journal STARTED with its target. -/
def updateStart (s : State) : State :=
  let d := s.och.display
  let mono := s.och.clock.mono
  if s.dies.ochre != .running || !d.driven || !bistable d || d.rows.isSome || !updateAllowed s then s
  else match dueFrame d with
    | some f =>
      s.onDisplay fun d =>
        { d with waiting := none, rows := some (rowsThatDiffer f d.journal.committed), began := some mono,
                 journal := ({ d.journal with state := 1, row := 0, target := f } : Journal).sealed }
    | none => s

def execBistableUpdateStart (s : State) : Host.Outcome State Fault Refusal := done (updateStart s)

/-- The journal enters the next row, if there is one. -/
def startRow (j : Journal) : List Nat → Journal
  | [] => j.sealed
  | c :: _ => ({ j with state := 3, row := BitVec.ofNat 3 c } : Journal).sealed

/-- The indicator set or a row's full write ends, and its pixels have changed (R194, R195). -/
def writeEnd (s : State) : State :=
  match s.och.display.rows with
  | none => s
  | some l =>
    if s.dies.ochre != .running || !s.och.display.driven then s
    else s.onDisplay fun d =>
      let j := d.journal
      if j.state = 3 then
        { fullWrite j.row.toNat j.target d with rows := some (l.drop 1), journal := startRow { j with state := 4 } (l.drop 1) }
      else if j.state = 1 then { indicatorSet d with journal := startRow { j with state := 2 } l }
      else d

def execFullCommonWriteEnd (s : State) : Host.Outcome State Fault Refusal := done (writeEnd s)

/-- The indicator clear ends the update; settings accepted in time commit (R109, R111, R196). -/
def updateCommit (late : Bool) (s : State) : State :=
  let d := s.och.display
  let mono := s.och.clock.mono
  if s.dies.ochre = .running && d.driven && d.rows = some [] && (d.journal.state = 2 || d.journal.state = 4) then
    s.onDisplay fun d =>
      let j : Journal := { d.journal with state := 0, row := 0, committed := d.journal.target,
                                          frameSeq := d.journal.frameSeq + 1 }
      let d := { indicatorClear d with rows := none, journal := j.sealed }
      if late then d else commitDisplay mono d
  else s

def execBistableUpdateCommit (late : Bool) (s : State) : Host.Outcome State Fault Refusal := done (updateCommit late s)

/-- PFW stops the driver and leaves the journal as it stands (R198). -/
def displayStop (s : State) : State := s.onDisplay fun d => { d with driven := false }

/-- The driver runs again without a loss of supplies: an interrupted update restarts with all rows. -/
def displayRestart (s : State) : State :=
  let mono := s.och.clock.mono
  s.onDisplay fun d =>
    let d := { d with driven := true }
    if d.rows.isSome then fullRewrite d.journal.target mono d else d

/-- Step 6 of a module power-on: the bistable panel is rewritten whole, and item 0x00 is shown (R199, R204). -/
def displayPowerOn (s : State) : State :=
  let mono := s.och.clock.mono
  let s := s.onDisplay fun d => { d with driven := true, identity := true, composed := none, waiting := none, positive := true }
  s.onDisplay fun d => if bistable d then fullRewrite (committedFrame d.journal) mono d else { d with shown := .blank, rows := none }

/-- Ochre leaves item 0x00 (R204). DESIGN CHOICE: it composes a page then at once, and again when PFW deasserts and when it
restarts, beside the moments that R191 names. -/
def identityTimeout (s : State) : State := compose (s.onDisplay fun d => { d with identity := false })

def execIdentityDisplayTimeout (s : State) : Host.Outcome State Fault Refusal := done (identityTimeout s)

/-! ### The legal second (R124, R191, R395) -/

/-- Readout of the registers of R395. -/
def mirrorImage (s : State) : List Byte :=
  leBytes 8 (legalUnits s) ++ s.och.meter.toList.flatMap fun m =>
    ([m.acc.totals.at 0, m.acc.totals.at 1] ++ m.acc.tarImp.toList ++ m.acc.tarExp.toList).flatMap
      fun t => leBytes 8 (countOf t).toNat

/-- Millet copies the readout into the legal mirror area (R395). -/
def copyMirror (s : State) : State :=
  if controlRuns s then poolWrite { s with mbx.lrdSeq := s.mbx.lrdSeq + 2 } mirrorBase (mirrorImage s) else s

/-- A legal second begins; Russet saves its Class E timers once per second (R290). -/
def legalSecond (s : State) : State :=
  let s := saveTimers s
  if s.dies.ochre != .running then s
  else
    let s := formSecond s
    copyMirror (compose (s.onDisplay fun d => { d with vlcdDue := true }))

def execLegalSecond (s : State) : Host.Outcome State Fault Refusal := done (legalSecond s)

end Sys2Proof.Machine
end

