-- ==== Sys2Proof/Machine/CmdMeter.lean ====
section
/-! DEFINITION. The metering commands 0x0200 to 0x0212 (R91 to R100, R121, R419). -/

namespace Sys2Proof.Machine

/-! ### Commands that Ochre answers (R23, R24, R416) -/

/-- A whitelist command: Ochre refuses it or gives it its effect; a die in reset gives no answer. -/
def whitelist (judge : List Byte → State → Option Reply) (effect : List Byte → State → Reply × State) : Body := fun p s =>
  if s.dies.ochre != .running then (none, s)
  else match judge p s with
    | some r => ochreRefuses r s
    | none => (some (effect p s).1, (effect p s).2)

/-- A readout of Ochre, which answers TIMEOUT while the die does not run (R407). -/
def readOchre (f : List Byte → State → Reply × State) : Body := fun p s =>
  if s.dies.ochre != .running then (some (reply .timeout 0), s) else (some (f p s).1, (f p s).2)

/-- A readout that changes nothing. -/
def showOchre (f : List Byte → State → Reply) : Body := readOchre fun p s => (f p s, s)

/-- Bytes 1 to 3 of a four-byte field group, reserved beside its first byte. -/
def reserved3 (p : List Byte) : Bool := (slice p 1 3).all (· == 0)

/-- A reply where the fields pass their checks, OUT_OF_RANGE at the first that does not. -/
def inRange (op : Nat) (c : Cmd) (checks : List (Nat × Bool)) (r : Reply × State) (s : State) : Reply × State :=
  match firstBad checks with
  | some k => (rangeReply op c k, s)
  | none => r

/-! ### Readouts (R419) -/

/-- A value in an `n`-byte field; one that the format cannot hold is a free value. -/
def fitted (isSigned : Bool) (n free : Nat) (v : Int) : List Byte :=
  let ok := if isSigned then decide (-(2 ^ (8 * n - 1) : Int) ≤ v) && decide (v < 2 ^ (8 * n - 1))
    else decide (0 ≤ v) && decide (v < 2 ^ (8 * n))
  if ok then leInt n v else leBytes n (Config.freeValue free)

/-- Divisors from the model's units to those of R123, with signedness and size, in the order of the response. -/
def acFormat : List (Rat × Bool × Nat) :=
  List.replicate 6 (1000, false, 4) ++ List.replicate 12 (100000000000, true, 4) ++ [(1 / 10000, true, 2)]
    ++ List.replicate 2 (1000, false, 4) ++ [(1000, true, 4)]

def dcFormat : List (Rat × Bool × Nat) :=
  List.replicate 8 (1000, true, 4) ++ List.replicate 8 (1000, false, 4) ++ [(100000000000, true, 4)]
    ++ List.replicate 2 (1000, false, 4)

/-- Field `k` of the 1 s values; a second in which no cycle started has no mean, and its values are free. -/
def secondField (x : Second) (free k : Nat) (f : Rat × Bool × Nat) : List Byte :=
  if x.dur = 0 then leBytes f.2.2 (Config.freeValue (free + k))
  else fitted f.2.1 f.2.2 (free + k) (toCount ((x.sums.getD k 0 : Rat) / x.dur / f.1))

/-- The fields of a format in order, flattened over `numbered`. -/
def secondFields (x : Second) (free : Nat) (fs : List (Rat × Bool × Nat)) : List (List Byte) :=
  numbered (secondField x free) 0 fs

/-- Frequency of a second in mHz, 0 where no cycle reports one (R118). -/
def secondFreq (x : Second) : Nat :=
  if x.cycleLen = 0 then 0 else (toCount ((x.cycles : Rat) * 1000000000000 / x.cycleLen)).toNat

/-- The response of 0x0200. Before the first second there is no time of one, and it is a free value. -/
def secondBytes (s : State) (o : OutletNo) : List Byte :=
  let m := s.och.meter.at o
  let x := m.last
  let tail := leBytes 4 x.flags.toNat ++ leBytes 8 (m.lastAt.getD (Config.freeValue (s.free + 22)))
  if isDc s o then (secondFields x s.free dcFormat).flatten ++ tail
  else
    let f := secondFields x s.free acFormat
    (f.take 19).flatten ++ [0, 0] ++ leBytes 4 (secondFreq x) ++ (f.drop 19).flatten ++ tail

def read1sValues (c : Cmd) : State → State :=
  runCmd 0x0200 c <| readOchre fun _ s =>
    let o := obj 63 c
    if typeOf s o = 0 then (reply .badIndex 0, s) else (okWith (secondBytes s o), { s with free := s.free + 23 })

def execRead1sValues (cmd : Cmd) (s : State) : Host.Outcome State Fault Refusal := done (read1sValues cmd s)

/-- A total as its count and fraction. -/
def totalBytes (t : BitVec 96) : List Byte := leBytes 8 (t.toNat / 2 ^ 32) ++ leBytes 4 t.toNat

def readTotals (c : Cmd) : State → State :=
  runCmd 0x0201 c <| showOchre fun _ s =>
    let m := s.och.meter.at (obj 63 c)
    okWith (m.acc.totals.toList.flatMap totalBytes ++ leBytes 8 (m.saves.at m.newer).meteredTo)

def execReadTotals (cmd : Cmd) (s : State) : Host.Outcome State Fault Refusal := done (readTotals cmd s)

/-- A harmonic window is collected. -/
def collect (w : Option HarmonicWindow) : Option HarmonicWindow := w.map fun w => { w with collected := true }

def harmonicReply (sel : Nat) (o : OutletNo) (s : State) : Reply × State :=
  let a := s.och.analysis.at o
  match if sel = 0 then a.latest else a.previous with
  | none => (okBulk [], s)
  | some w =>
    (okBulk (leBytes 8 w.start ++ leBytes 4 w.freq ++ leBytes 4 w.flags.toNat ++ leBytes 4 a.overwritten.toNat ++ w.body),
     s.onAnalysis o fun a => if sel = 0 then { a with latest := collect a.latest } else { a with previous := collect a.previous })

def readHarmonicWindow (c : Cmd) : State → State :=
  runCmd 0x0202 c <| readOchre fun p s =>
    inRange 0x0202 c [(0, byteAt p 0 ≤ 1), (0, reserved3 p)] (harmonicReply (byteAt p 0) (obj 63 c) s) s

def execReadHarmonicWindow (cmd : Cmd) (s : State) : Host.Outcome State Fault Refusal := done (readHarmonicWindow cmd s)

/-- A supraharmonic result as 2,976 bytes (R141). DESIGN CHOICE: the rule gives the sum alone, of which step number and flags
take 4 bytes each. -/
def supraBytes (r : SupraResult) : List Byte :=
  leBytes 4 r.step ++ leBytes 8 r.start ++ wordBytes r.bands ++ leBytes 4 r.flags.toNat

def readSupraharmonicResult (c : Cmd) : State → State :=
  runCmd 0x0203 c <| showOchre fun _ s =>
    match s.och.supra.at (obj 447 c) with
    | some r => okBulk (supraBytes r)
    | none => okBulk []

def execReadSupraharmonicResult (cmd : Cmd) (s : State) : Host.Outcome State Fault Refusal :=
  done (readSupraharmonicResult cmd s)

def collectRawSampleBlock (c : Cmd) : State → State :=
  runCmd 0x0204 c <| readOchre fun _ s =>
    let o := obj 63 c
    let a := s.och.analysis.at o
    (okBulk (leBytes 4 a.discards.toNat ++ (a.raw.head?.getD [])), s.onAnalysis o fun a => { a with raw := a.raw.drop 1 })

def execCollectRawSampleBlock (cmd : Cmd) (s : State) : Host.Outcome State Fault Refusal :=
  done (collectRawSampleBlock cmd s)

/-- One entry of the factory table (R97). -/
def factoryEntry (s : State) (k : Nat) : List Byte :=
  match factoryAt s (k / 8) (k % 8) with
  | some e => factoryBody e.gain e.offset e.phase ++ leBytes 4 e.check.toNat
  | none => factoryBody 0 0 0 ++ leBytes 4 (factoryTag (factoryBody 0 0 0) (k / 8) (k % 8)).toNat

/-- One entry of the user table (R99). -/
def userBytes (u : UserEntry) : List Byte := wordBytes [u.fs, u.gain, u.off, u.phase]

/-- The bytes of 0x0211. -/
def calibrationBytes (s : State) : List Byte :=
  s.och.set.user.toList.flatMap userBytes ++ wordBytes s.och.set.meter.toList ++ wordBytes [s.och.set.module]
    ++ wordBytes ((s.och.display.cfg ++ [0, 0, 0]).take 3) ++ s.och.display.map.flatMap (fun e => leBytes 2 e.toNat)

/-- The role assignment record. -/
def recordBytesOf (r : RoleRecord) : List Byte := wordBytes r.groups.toList ++ wordBytes r.outlets.toList

/-- An entry of the lane record: input, lane, time, result of the comparison. -/
def laneSwapBytes (x : LaneSwap) : List Byte :=
  leBytes 2 x.input.val ++ leBytes 2 x.lane.val ++ leBytes 8 x.time ++ leBytes 4 (if x.passed then 1 else 0)

/-- A metrology table. -/
def tableBytes (s : State) (sel : Nat) : List Byte :=
  match sel with
  | 0 => (List.range 4160).flatMap (factoryEntry s)
  | 1 => calibrationBytes s
  | 2 => (indices 511).flatMap fun i => leBytes 4 (slotStatus s i).toNat
  | 3 => outlets.flatMap fun o => leBytes 4 (meteringStatus s o).toNat
  | 4 => padTo 128 (s.och.laneRecord.flatMap laneSwapBytes)
  | _ => recordBytesOf s.och.set.role ++ leBytes 4 s.och.set.role.clock.toNat

def readMetrologyTable (c : Cmd) : State → State :=
  runCmd 0x0205 c <| readOchre fun p s =>
    inRange 0x0205 c [(0, byteAt p 0 ≤ 5), (0, reserved3 p)] (okBulk (tableBytes s (byteAt p 0)), s) s

def execReadMetrologyTable (cmd : Cmd) (s : State) : Host.Outcome State Fault Refusal := done (readMetrologyTable cmd s)

/-! ### Outlet role assignment (R74, R91 to R94) -/

/-- A group word holds permitted values only. -/
def groupOk (w : Word) : Bool := w &&& 0xD == w

/-- SLOT_EN agrees with TYPE (R92). -/
def slotsAgree (type en : Nat) : Bool :=
  match type with
  | 0 => en == 0
  | 1 => en == 0xBF || en == 0xFF
  | 2 => en == 0x89 || en == 0xC9
  | _ => en == 0xFF

/-- An outlet word holds permitted values only. -/
def outletWordOk (w : Word) : Bool := w &&& 0xFF03 == w && slotsAgree (wFld w 0 2) (wFld w 8 8)

/-- The clock word holds permitted values only. -/
def clockWordOk (w : Word) : Bool := w &&& 0xC0 == w && wFld w 6 2 ≠ 3

/-- The first word of a role assignment buffer that is out of range. -/
def roleBad (ws : List Word) : Option Nat :=
  firstBad (numbered (fun k (w : Word) => (k, if k < 32 then groupOk w else if k < 96 then outletWordOk w else clockWordOk w)) 0 ws)

/-- The record that a buffer carries. -/
def roleOf (ws : List Word) : RoleRecord :=
  { groups := (Tab.all 32 (0 : Word)).mapN fun k _ => ws.getD k 0,
    outlets := (Tab.all 64 (0 : Word)).mapN fun k _ => ws.getD (32 + k) 0, clock := ws.getD 96 0 }

/-- Two records, the clock word apart, are the same. -/
def sameRecord (a b : RoleRecord) : Bool := a.groups == b.groups && a.outlets == b.outlets

/-- A role assignment is pending. -/
def rolePending (s : State) : Bool := s.och.set.rolePend.toList.any id

/-- The number of the step counter for role assignment in the order of 0x0906. -/
def roleStep : Fin 9 := 6

/-- A step was consumed, and no boundary at which that change commits has passed. -/
def roleStepOpen (s : State) : Bool := s.och.set.roleStep.toList.any id

/-- The record needs a step: it differs from the one in force and none is open (R11). -/
def roleNeedsStep (s : State) (r : RoleRecord) : Bool := !sameRecord r s.och.set.roleNow && !roleStepOpen s

/-- Some group or outlet word of a buffer is in range and differs from the one in force. -/
def roleWordDiffers (ws : List Word) (s : State) : Bool :=
  let r := roleOf ws
  (indices 31).any (fun g => groupOk (r.groups.at g) && r.groups.at g != s.och.set.roleNow.groups.at g) ||
    outlets.any (fun o => outletWordOk (r.outlets.at o) && r.outlets.at o != s.och.set.roleNow.outlets.at o)

/-- A step of a counter is consumed. -/
def useStep (k : Fin 9) (s : State) : State := { s with keys.steps := s.keys.steps.upd k (· - 1) }

/-- Entries that an accepted record writes. -/
def roleEntries (s : State) (r : RoleRecord) : Nat :=
  (if sameRecord r s.och.set.role then 0 else 1) + (if r.clock = s.och.set.role.clock then 0 else 1)

/-- Ochre's refusal of a role assignment, in the order of R24. -/
def roleRefusal (ws : List Word) (s : State) : Option Reply :=
  let r := roleOf ws
  if !logRoom s (roleEntries s r) then some (reply .legalLogFull 0)
  else if ws.length = 97 && roleWordDiffers ws s && !roleStepOpen s && s.keys.steps.at roleStep = 0 then some (reply .otpExhausted 0)
  else if ws.length ≠ 97 then some (rangeAt 1)
  else (roleBad ws).map rangeAt

/-- Numbers of the outlets and groups whose words differ. -/
def changedOutlets (a b : RoleRecord) : List OutletNo := outlets.filter fun o => a.outlets.at o != b.outlets.at o

def changedGroups (a b : RoleRecord) : List GroupNo := (indices 31).filter fun g => a.groups.at g != b.groups.at g

/-- A bitmap of `n` bytes. -/
def bitmap (n : Nat) (l : List Nat) : List Byte := leBytes n (l.foldl (fun a k => a + 2 ^ k) 0)

/-- What a role change keeps (R93, R170). -/
def roleChange (s : State) (r : RoleRecord) : RoleChange :=
  { old := s.och.set.roleNow, new := r,
    totals := (changedOutlets s.och.set.roleNow r).map fun o =>
      let t := (s.och.meter.at o).acc.totals
      (o.val, t.at 0, t.at 1) }

/-- The entry of a record: history index, checks, bitmaps. -/
def logRole (index : Nat) (old new : RoleRecord) (s : State) : State :=
  logWhitelist 0x0030
    ([BitVec.ofNat 8 index] ++ leBytes 4 (Config.check (recordBytesOf old)).toNat
      ++ leBytes 4 (Config.check (recordBytesOf new)).toNat ++ bitmap 8 ((changedOutlets old new).map (·.val))
      ++ bitmap 4 ((changedGroups old new).map (·.val))) s

/-- The outlets that a record touches. -/
def touched (a b : RoleRecord) : List OutletNo :=
  outlets.filter fun o => a.outlets.at o != b.outlets.at o || a.groups.at (groupOf o) != b.groups.at (groupOf o)

/-- The role history with a record accepted: a step appends to it, and a later write replaces what has not committed. -/
def roleHistory (s : State) (r : RoleRecord) : List RoleChange :=
  let h := s.och.set.history
  if roleNeedsStep s r then h ++ [roleChange s r]
  else if roleStepOpen s then h.dropLast ++ [roleChange s r]
  else h.dropLast ++ (h.getLast?.map fun c => { c with new := r }).toList

/-- TYPE of an outlet in a record. -/
def typeIn (r : RoleRecord) (o : OutletNo) : Nat := wFld (r.outlets.at o) 0 2

/-- The user entries of an outlet become neutral at the commit: its TYPE changes, and no user calibration has been accepted
since it was asked to (R94). -/
def neutralAfter (s : State) (r : RoleRecord) (o : OutletNo) : Bool :=
  if typeIn r o = typeIn s.och.set.role o then s.och.set.neutral.at o else typeIn r o != typeIn s.och.set.roleNow o

/-- The record is accepted: step, history, entry, pending outlets. -/
def acceptRecord (r : RoleRecord) (s : State) : State :=
  let now := s.och.set.roleNow
  let pend := (touched now r).foldl (fun t o => t.put o true) (Tab.all 64 false)
  let neutral := (Tab.all 64 false).mapN fun o _ => neutralAfter s r (Fin.ofNat 64 o)
  let h := roleHistory s r
  let step := (touched now r).foldl (fun t o => t.put o true) s.och.set.roleStep
  let s := if roleNeedsStep s r then useStep roleStep { s with och.set.roleStep := step } else s
  let s := logRole h.length now r { s with och.set.history := h }
  { s with och.set.role := { r with clock := s.och.set.role.clock }, och.set.rolePend := pend,
           och.set.neutral := neutral, och.set.passed := Tab.all 64 false }

/-- The clock word is accepted; it takes effect on leaving Commissioning (R47). -/
def acceptClock (w : Word) (s : State) : State :=
  let old := wFld s.och.set.role.clock 6 2
  let s := logWhitelist 0x0025 [BitVec.ofNat 8 old, BitVec.ofNat 8 (wFld w 6 2)] s
  { s with och.set.role := { s.och.set.role with clock := w }, och.set.mclkPend := true }

/-- The effect of an accepted role assignment. -/
def assignRoles (ws : List Word) (s : State) : Reply × State :=
  let r := roleOf ws
  let same := sameRecord r s.och.set.role
  let sameClock := r.clock = s.och.set.role.clock
  let s := if same then s else acceptRecord r s
  let s := if sameClock then s else acceptClock r.clock s
  (if same && sameClock && !rolePending s then okReply else pendingReply, s)

def outletRoleAssignment (c : Cmd) : State → State :=
  runCmd 0x0210 c fun p s =>
    let b := bulkOf 0x0210 c s
    let ws := wordsOf (b.length / 4) b
    whitelist (fun _ => roleRefusal ws) (fun _ => assignRoles ws) p s

def execOutletRoleAssignment (cmd : Cmd) (s : State) : Host.Outcome State Fault Refusal :=
  done (outletRoleAssignment cmd s)

/-! ### User calibration (R99, R100, R121, R187, R200) -/

/-- Offsets of the parts of a calibration buffer, in words. -/
def meterAt : Nat := 2048
def moduleAt : Nat := 2112
def displayAt : Nat := 2113
def mapAt : Nat := 2116
def calibrationWords : Nat := 2436

/-- A signed word lies within a magnitude. -/
def magnitude (w : Word) (n : Nat) : Bool := decide (w.toInt.natAbs ≤ n)

/-- SLOT_EN and TYPE of an outlet last accepted. -/
def acceptedSlot (s : State) (o : OutletNo) (k : Nat) : Bool := wBit (s.och.set.role.outlets.at o) (8 + k)

def acceptedType (s : State) (o : OutletNo) : Nat := wFld (s.och.set.role.outlets.at o) 0 2

/-- Word `k` of the user table holds a permitted value. -/
def userWordOk (s : State) (k : Nat) (w : Word) : Bool :=
  let i : InputNo := Fin.ofNat 512 (k / 4)
  match k % 4 with
  | 0 => w ≠ 0 || !acceptedSlot s (outletOf i) (slotOf i).val
  | 1 => magnitude w 107374182
  | 2 => wFld w 30 2 = 0
  | _ => magnitude w 100000000

/-- A metering settings word holds permitted values only. -/
def meterWordOk (s : State) (o : OutletNo) (w : Word) : Bool :=
  let t := acceptedType s o
  wFld w 4 12 = 0 && !wBit w 0 && (wFld w 16 16 ≠ 0 || !(t == 1 || t == 2))

/-- The module metering word holds permitted values only. -/
def moduleWordOk (s : State) (w : Word) : Bool :=
  let t := acceptedType s (Fin.ofNat 64 (wFld w 0 6))
  wFld w 7 25 = 0 && (!wBit w 6 || t == 1 || t == 2)

/-- A display word on its own. -/
def displayWordOk (ws : List Word) (k : Nat) : Bool :=
  let shipped := displayShipped
  displayWordsOk ((shipped.take k) ++ [dispWord ws k] ++ shipped.drop (k + 1))

/-- The two map entries of a word. -/
def mapPair (w : Word) : List (BitVec 16) := [BitVec.ofNat 16 w.toNat, BitVec.ofNat 16 (w.toNat / 2 ^ 16)]

/-- Word `k` of a calibration buffer holds permitted values. -/
def calibrationWordOk (s : State) (ws : List Word) (k : Nat) (w : Word) : Bool :=
  if k < meterAt then userWordOk s k w
  else if k < moduleAt then meterWordOk s (Fin.ofNat 64 (k - meterAt)) w
  else if k < displayAt then moduleWordOk s w
  else if k < mapAt then displayWordOk (ws.drop displayAt) (k - displayAt)
  else (mapPair w).all mapEntryOk

/-- Display words and map of a calibration buffer. -/
def displayPart (ws : List Word) : List Word := (ws.drop displayAt).take 3

def mapPart (ws : List Word) : List (BitVec 16) := (ws.drop mapAt).flatMap mapPair

/-- Ochre's refusal of a calibration buffer. -/
def calibrationRefusal (ws : List Word) (s : State) : Option Reply :=
  if !logRoom s 1 then some (reply .legalLogFull 0)
  else if ws.length ≠ calibrationWords then some (rangeAt 1)
  else match firstBad (numbered (fun k (w : Word) => (k, calibrationWordOk s ws k w)) 0 ws) with
    | some k => some (rangeAt k)
    | none => if displayOk (displayPart ws) (mapPart ws) then none else some (rangeAt 0xFFFF)

/-- The user entries of a calibration buffer. -/
def userOf (ws : List Word) : Tab UserEntry 512 :=
  (Tab.all 512 UserEntry.neutral).mapN fun i _ =>
    { fs := ws.getD (4 * i) 0, gain := ws.getD (4 * i + 1) 0, off := ws.getD (4 * i + 2) 0, phase := ws.getD (4 * i + 3) 0 }

/-- The display part waits for its boundary; with no frame and no update running that is now (R109). -/
def acceptDisplay (mono : Nat) (cfg : List Word) (map : List (BitVec 16)) (d : Display) : Display :=
  let d := { d with cfg := cfg, map := map, pend := true }
  if dmodeOf d.cfgNow = 0 || (bistable d && d.rows.isNone) then commitDisplay mono d else d

/-- The effect of an accepted calibration. -/
def calibrateUser (ws : List Word) (s : State) : Reply × State :=
  let user := userOf ws
  let changed := (indices 511).filter fun i => user.at i != s.och.set.user.at i
  let old := Config.check (calibrationBytes s)
  let s := logWhitelist 0x0031
    (leBytes 4 old.toNat ++ leBytes 4 (Config.check (wordBytes ws)).toNat ++ bitmap 64 (changed.map (·.val))) s
  let s := { s with och.set.user := user, och.set.meter := (Tab.all 64 (0 : Word)).mapN fun o _ => ws.getD (meterAt + o) 0,
                    och.set.module := ws.getD moduleAt 0, och.set.calPend := Tab.all 64 true,
                    och.set.neutral := Tab.all 64 false }
  (pendingReply, s.onDisplay (acceptDisplay s.och.clock.mono (displayPart ws) (mapPart ws)))

def userCalibration (c : Cmd) : State → State :=
  runCmd 0x0211 c fun p s =>
    let b := bulkOf 0x0211 c s
    let ws := wordsOf (b.length / 4) b
    whitelist (fun _ => calibrationRefusal ws) (fun _ => calibrateUser ws) p s

def execUserCalibration (cmd : Cmd) (s : State) : Host.Outcome State Fault Refusal := done (userCalibration cmd s)

/-! ### Metering mode (R40, R42) -/

/-- The outlet has a session in progress; one that has ended lasts until pilot state A (R42, R229). -/
def inSession (s : State) (o : OutletNo) : Bool :=
  let n := (s.veh.session.at o).phase
  n ≠ 0 && !(n = 9 && (s.veh.pilot.at o).state == .A)

/-- A change of metering mode: at once, or pending while a session is in progress. -/
def setMeteringMode (o : OutletNo) (ha : Bool) (s : State) : Reply × State :=
  if inSession s o && s.och.ha.at o != ha then
    (pendingReply, { s with och.haPend := s.och.haPend.put o (some ha) })
  else (okReply, { s with och.ha := s.och.ha.put o ha, och.haPend := s.och.haPend.put o none })

def meteringMode (c : Cmd) : State → State :=
  runCmd 0x0212 c <| acts fun p s =>
    inRange 0x0212 c [(0, byteAt p 0 ≤ 1), (0, reserved3 p)] (setMeteringMode (obj 63 c) (byteAt p 0 == 1) s) s

def execMeteringMode (cmd : Cmd) (s : State) : Host.Outcome State Fault Refusal := done (meteringMode cmd s)

end Sys2Proof.Machine
end

