-- ==== Sys2Proof/Machine/Images.lean ====
section
/-! DEFINITION. Image slots as the resets and the update group share them: the slot that a start chooses, a waiting image
brought into use, a failed trial, and the end of a staging session (R511, R518 to R526, R68). -/

namespace Sys2Proof.Machine

/-- EPOCH and MINOR of a header (R510). -/
def headerEpoch (h : List Byte) : Nat := headerVersion h / 2 ^ 24
def headerMinor (h : List Byte) : Nat := headerVersion h % 2 ^ 24

/-- Anti-rollback steps of a type at first. -/
def fullSteps : Nat := 64

/-- The step counter of an image type, in the order of 0x0906. -/
def imageStep (t : ImageNo) : Fin 9 := Fin.ofNat 9 t.val

/-- The burned epoch of a type (R511). -/
def burned (s : State) (t : ImageNo) : Nat := fullSteps - s.keys.steps.at (imageStep t)

/-- A version is not below the burned epoch and the high-water mark (R511, R521). -/
def notBelow (s : State) (t : ImageNo) (h : List Byte) : Bool :=
  burned s t < headerEpoch h || (burned s t == headerEpoch h && (s.upd.image.at t).mark ≤ headerMinor h)

/-- The boot ROM may start a slot (R521). What its checks of header, body and signature find stands in the slot's status. -/
def startable (s : State) (t : ImageNo) (k : Fin 2) : Bool :=
  let x := (s.upd.image.at t).slot.at k
  (x.status == .trial || x.status == .inService || x.status == .superseded)
    && notBelow s t x.header

/-- The slot that is not in use. -/
def otherSlot (i : Image) : Fin 2 := i.active + 1

/-- The other slot is started: it may be, and its version is higher or the slot in use may not. -/
def prefersOther (s : State) (t : ImageNo) : Bool :=
  let i := s.upd.image.at t
  startable s t (otherSlot i)
    && (!startable s t i.active
        || decide (headerVersion (i.slot.at i.active).header < headerVersion (i.slot.at (otherSlot i)).header))

/-- Steps are consumed up to the epoch of a header, and the mark becomes its MINOR (R477, R511, R517, R521). -/
def burnTo (t : ImageNo) (h : List Byte) (s : State) : State :=
  if burned s t < headerEpoch h then
    let s := { s with keys.steps := s.keys.steps.upd (imageStep t) (· - (headerEpoch h - burned s t)) }
    s.onImage t fun i => { i with mark := headerMinor h }
  else s

/-- The other slot of a type is brought into use. -/
def bringIn (t : ImageNo) (s : State) : State :=
  let h := ((s.upd.image.at t).slot.at (otherSlot (s.upd.image.at t))).header
  let s := burnTo t h s
  s.onImage t fun i => { i with active := otherSlot i, waiting := false, wdAt := none }

/-- A committed image that waits is brought into use at its die's reset (R520 to R526). -/
def bringWaiting (t : ImageNo) (s : State) : State := if (s.upd.image.at t).waiting then bringIn t s else s

/-- Every type's slot is chosen at Measured start (R521). -/
def chooseSlots (s : State) : State :=
  forEach (indices 4) (fun t s => if prefersOther s t then bringIn t s else s.onImage t fun i => { i with waiting := false }) s

/-- Some type has no slot that can be started. -/
def noSlot (s : State) : Bool := (indices 4).any fun t => !startable s t 0 && !startable s t 1

/-- M of R466, over the header hashes of the images started and LIFECYCLE. -/
def measurement (s : State) : List Byte :=
  sha384 (((indices 4).flatMap fun t =>
      let i := s.upd.image.at t
      sha384 (i.slot.at i.active).header) ++ [BitVec.ofNat 8 (lifecycleCode s.keys.lifecycle)])

/-- A trial fails: the module returns to the other slot unless that one lies below the burned epoch (R519). The failed slot
counts as corrupt, a status the spec does not name for it. -/
def failTrial (t : ImageNo) (s : State) : State :=
  let i := s.upd.image.at t
  if headerEpoch (i.slot.at (otherSlot i)).header < burned s t then s
  else
    let s := s.onImage t fun i =>
      { i with slot := i.slot.upd i.active fun x => { x with status := .corrupt }, active := otherSlot i, waiting := false,
               wdAt := none }
    let s := if t = 1 then { s with upd.sessionSlot := Tab.all 64 (s.upd.image.at 1).active } else s
    raise 118 t.val 1 [] s

/-- A watchdog reset of the die that runs a type: the second within 10 min fails a trial. -/
def watchTrial (t : ImageNo) (s : State) : State :=
  let i := s.upd.image.at t
  if (i.slot.at i.active).status != .trial then s
  else match i.wdAt with
    | some at_ =>
      if s.och.clock.mono ≤ at_ + 600000000 then failTrial t s
      else s.onImage t fun i => { i with wdAt := some s.och.clock.mono }
    | none => s.onImage t fun i => { i with wdAt := some s.och.clock.mono }

/-- An open staging session is aborted: the slot becomes incomplete (R68, R514, R529). -/
def abortStaging (s : State) : State :=
  match s.upd.staging with
  | none => s
  | some g =>
    let s := s.onImage g.type fun i => { i with slot := i.slot.upd (otherSlot i) fun x => { x with status := .incomplete } }
    settle (raise 117 g.type.val 2 [] { dropDerived .stage s with upd.staging := none, modes.staging := false })

end Sys2Proof.Machine
end

