-- ==== Sys2Proof/Machine/Resets.lean ====
section
/-! DEFINITION. The resets of every die, the vault wipe, PFW, the supplies and the power-up (R53 to R62, R69 to R73, R443 to
R445, R604). -/

namespace Sys2Proof.Machine

/-! ### Reset cause and die numbers (R62, R418) -/

/-- A bit of the reset cause register is set. -/
def setCause (bit : Nat) (s : State) : State := { s with rus.cause := s.rus.cause ||| BitVec.ofNat 32 (2 ^ bit) }

/-- DIE of 0x0104. -/
def dieControl : Nat := 0
def dieFescue : Nat := 1
def dieSpelt : Nat := 2
def dieRusset : Nat := 3
def dieOchre : Nat := 4

/-- Why a die is reset. -/
inductive ResetBy where
  | watchdog | command | hostrst
deriving DecidableEq, Repr

/-- The event of a die reset: source 10 for a watchdog, source 11 otherwise (R547, R603). -/
def resetEvent (die : Nat) (why : ResetBy) (s : State) : State :=
  match why with
  | .watchdog => raise 10 die 0 [] s
  | .command => raise 11 die 0 [0] s
  | .hostrst => raise 11 die 0 [1] s

/-! ### Vault wipe (R443 to R445) -/

/-- A session loses its TLS state and falls back (R445). -/
def sessionLosesTls (o : OutletNo) (s : State) : State := if onCore s o then holdSession o s else s

/-- A resynchronisation begins: a state transfer is in progress (R493, R494). -/
def startTransfer (s : State) : State :=
  { s with pair.transfer := 1, pair.replay := [], pair.resyncs := satAdd 16 s.pair.resyncs 1 }

/-- The vault is wiped, in a standby with the shadow sessions rebuilt by a transfer (R507): its trigger is 1 tamper, 2 lifecycle move, 3 Recovery, 4 debug token. -/
def wipeVault (trigger : Nat) (s : State) : State :=
  let s := raise 98 moduleIndex trigger [] { dropDerived .stage s with mem.vault := [], mem.wiping := true }
  let s := forEach outlets sessionLosesTls s
  let s := abortStaging (closeConnections s)
  if servingRole s == .standby && s.pair.keyed then startTransfer s else s

/-! ### Recovery (R60, R66) -/

/-- The service role that a base mode is left for. -/
def priorOf (m : Modes) : Role := if m.base = .service then m.role else m.prior

/-- The module enters Recovery, where the boot ROM serves the mailbox (R66, R528). -/
def enterRecovery (s : State) : State :=
  let s := { s with modes := { s.modes with base := .recovery, role := .none, prior := priorOf s.modes, handover := false,
                                            staging := false,
                                            failedStarts := 0, repaired := false },
                    dies.control := .running, dies.hbSeen := false, mbx.ready := true, mbx.handover := false }
  settle (wipeVault 3 (raise 3 moduleIndex 0 [] s))

/-- Commissioning is left for the prior service role; an accepted modulator clock takes effect (R47, R66). -/
def leaveCommissioning (s : State) : State :=
  if s.modes.base != .commissioning then s
  else
    let s := { s with modes := { s.modes with base := .service, role := s.modes.prior, prior := .none,
                                              staging := s.upd.staging.isSome } }
    if s.och.set.mclkPend && allCoilsOff s then
      { s with clocks.mclkSel := BitVec.ofNat 2 (wFld s.och.set.role.clock 6 2), och.set.mclkPend := false,
               och.set.roleNow := { s.och.set.roleNow with clock := s.och.set.role.clock } }
    else s

/-! ### Control die reset (R54 to R56, R60, R61, R68, R411, R552) -/

/-- Keys with reset expiry are cleared, the derived ones among them, and every shadow must be tested again (R461, R464). -/
def expireKeys (s : State) : State :=
  { dropDerived .mbxTicket (dropDerived .pairLink s) with keys.slot := s.keys.slot.each fun x =>
      let x := if wBit x.key.w0 22 then { x with key := .cleared, uses := 0, bad := false } else x
      { x with tested := false } }

/-- A fault entry that was not flushed goes back to the queue of the die that raised it. -/
def requeue (s : State) (e : FaultEntry) : State :=
  match sourceDie e.occ.source.val e.occ.index.toNat with
  | some d => { s with evt.dieQ := s.evt.dieQ.upd d (queueOcc · { e.occ with seq := 0 }) }
  | none => s

/-- The aggregator loses its pending flags and counters, and what it had not acknowledged returns to the dies (R552). -/
def aggregatorReset (s : State) : State :=
  let back := s.evt.unflushed
  let s := { s with evt.src := s.evt.src.each fun x => { x with pending := false, counter := 0 },
                    evt.routed := [], evt.unflushed := [], evt.bundle := none,
                    evt.fseq := s.evt.fseq - BitVec.ofNat 32 back.length }
  back.foldl requeue s

/-- A port block takes its Reset values; the stored settings stay (R604). -/
def portReset (q : Port) : Port := { Port.reset with net := q.net }

/-- The mailbox after a control die reset: fetched commands have no response (R411). -/
def mailboxReset (s : State) : State :=
  { s with mbx := { Mailbox.reset with port := s.mbx.port.each portReset, qspiLvl := s.mbx.qspiLvl } }

/-- Pool and scratchpads read 0, owners 0x1F, conflict counters 0; the remap table stays (R56, R436, R441, R452). -/
def memoryReset (s : State) : State :=
  { s with mem := { MemState.reset with vault := s.mem.vault, wiping := s.mem.wiping, bankMap := s.mem.bankMap,
                                        copies := s.mem.copies, corrected := s.mem.corrected,
                                        correctedAll := s.mem.correctedAll,
                                        unitFixed := s.mem.unitFixed } }

/-- What the control die alone held of the pair: link, forwarded commands that no standby acknowledged, transfers. -/
def linkReset (s : State) : State :=
  { s with pair := { s.pair with lane := Tab.all 2 false, peerSeen := false, keyed := false, resendSeq := [], sent := [],
                                 handoverAt := none, handoverCmd := none } }

/-- Jobs restart; what Millet had staged for the tag or held for host software is dropped. -/
def milletReset (s : State) : State :=
  { s with thm.job := s.thm.job.each fun j => { j with running := false, suspended := false, debt := 0 },
           tag.staged := [], tag.reads := [], upd.peerStaging := none }

/-- The control die and the image store controller are reset. Outputs, dies and legal state stay (R56). -/
def controlReset (bit : Nat) (why : ResetBy) (s : State) : State :=
  let s := lateStops (abortStaging (leaveCommissioning s))
  let s := { s with dies := { s.dies with control := .starting, hbSeen := false, resetAfterResponse := false } }
  let s := linkReset (memoryReset (mailboxReset (expireKeys (aggregatorReset (milletReset s)))))
  let s := bringWaiting 2 (bringWaiting 1 s)
  let s := { s with upd.sessionSlot := Tab.all 64 (s.upd.image.at 1).active }
  let s := if why = .watchdog then watchTrial 2 (watchTrial 1 s) else s
  settle (resetEvent dieControl why (setCause bit s))

/-- A low pulse on HOSTRST (R54). -/
def hostrst (widthNs : Nat) (s : State) : Host.Outcome State Fault Refusal :=
  if widthNs < 100 then .next s
  else if widthNs < 1000 then .fault .hostrstUndefined
  else .next (if s.modes.base = .backupWatch then s else controlReset 8 .hostrst s)

def execHostrstPulse (widthNs : Nat) (s : State) : Host.Outcome State Fault Refusal := hostrst widthNs s

/-- 500 ms after the latest heartbeat, counted from the first one after a start (R55, R61). -/
def controlWatchdog (s : State) : State :=
  if controlRuns s && s.dies.hbSeen then controlReset 9 .watchdog s else s

def execControlWatchdogExpiry (s : State) : Host.Outcome State Fault Refusal := done (controlWatchdog s)

/-- A start of the control die fails; the second in succession enters Recovery (R60). -/
def failedStart (s : State) : State :=
  let s := { s with modes.failedStarts := s.modes.failedStarts + 1 }
  if s.modes.base = .recovery then s
  else if 2 ≤ s.modes.failedStarts then enterRecovery (setCause 14 s)
  else s

/-- The start limit passes without a heartbeat: WDT_CTL, and the control die is reset again (R61). -/
def startLimit (s : State) : State :=
  if s.dies.control != .starting then s else failedStart (controlReset 9 .watchdog s)

def execControlStartLimitExpiry (s : State) : Host.Outcome State Fault Refusal := done (startLimit s)

/-- 10 ms after the response of a commanded control die reset (R418). -/
def resetAfterResponse (s : State) : State := if s.dies.resetAfterResponse then controlReset 3 .command s else s

def execControlResetAfterResponse (s : State) : Host.Outcome State Fault Refusal := done (resetAfterResponse s)

/-! ### Fescue and Spelt resets (R34, R53, R55, R56, R322) -/

/-- An outlet's pilot filter restarts; drive and duty are held. -/
def pilotReset (p : Pilot) : Pilot := { p with cls := none, held := 0 }

/-- Every session has left phases 2 to 8, so a Fescue image may be brought into use (R522). -/
def fescueQuiet (s : State) : Bool := s.veh.session.toList.all fun n => n.phase < 2 || n.phase = 9

/-- Fescue is reset: pilots and outputs are held, and sessions resume from what Russet holds (R43, R56, R522). -/
def fescueReset (bit : Nat) (why : ResetBy) (s : State) : State :=
  let s := { s with dies := { s.dies with fescue := .starting, fescueBeat := false },
                    veh.pilot := s.veh.pilot.each pilotReset,
                    veh.slac := { s.veh.slac with runs := [], ambiguous := [], answering := Tab.all 64 none } }
  let s := if fescueQuiet s then bringWaiting 0 s else s
  let s := if why = .watchdog then watchTrial 0 s else s
  resetEvent dieFescue why (setCause bit s)

/-- Fescue's heartbeat reaches Russet. -/
def fescueBeat (s : State) : State :=
  if s.dies.fescue = .held then s
  else
    let missed := holds s 57 moduleIndex
    let s := { s with dies := { s.dies with fescue := .running, fescueBeat := true } }
    if missed then refreshDrives (raiseEnd 57 moduleIndex [] s) else refreshDrives s

def execFescueHeartbeat (s : State) : Host.Outcome State Fault Refusal := done (fescueBeat s)

/-- 2 ms without a heartbeat of Fescue (R34). -/
def fescueMissing (s : State) : State :=
  if s.dies.russet != .running then s
  else
    let t := { s with dies.fescueBeat := false }
    if holds s 57 moduleIndex then t else raise 57 moduleIndex 0 [] t

def execFescueHeartbeatMissing (s : State) : Host.Outcome State Fault Refusal := done (fescueMissing s)

/-- An energised outlet opens with a recorded cause. -/
def openRecorded (cause : Byte) (o : OutletNo) (s : State) : State :=
  if (s.rus.pair.at (coilOf o)).cmd then recordCause o cause (openPair o s) else s

/-- 200 ms without a heartbeat of Fescue: energised outlets open with cause 0x32, and Fescue is reset (R34, R55). -/
def fescueLoss (s : State) : State :=
  if s.dies.russet != .running || s.dies.fescue = .held then s
  else fescueReset 10 .watchdog (forEach outlets (openRecorded 0x32) s)

def execFescueHeartbeatLoss (s : State) : Host.Outcome State Fault Refusal := done (fescueLoss s)

/-- Spelt is reset with its outputs held (R322, R526). -/
def speltReset (bit : Nat) (why : ResetBy) (s : State) : State :=
  let s := bringWaiting 4 { s with dies.spelt := .starting, spe.imageWaits := false }
  let s := if why = .watchdog then watchTrial 4 s else s
  resetEvent dieSpelt why (setCause bit s)

def speltReady (s : State) : State := if s.dies.spelt = .starting then { s with dies.spelt := .running } else s

def execSpeltReady (s : State) : Host.Outcome State Fault Refusal := done (speltReady s)

/-- A heartbeat of Spelt restarts its watchdog, which the model does not count. -/
def execSpeltHeartbeat (s : State) : Host.Outcome State Fault Refusal := done s

def speltWatchdog (s : State) : State := if s.dies.spelt = .held then s else speltReset 11 .watchdog s

def execSpeltWatchdogExpiry (s : State) : Host.Outcome State Fault Refusal := done (speltWatchdog s)

/-! ### Russet reset (R44, R56, R57, R62, R290) -/

/-- The fault word as the lockout record gives it back: Lockout with its cause, and Class E. -/
def FaultWord.restored (f : FaultWord) : FaultWord :=
  let kept := f.classP || f.classE
  { f with first := if kept then f.first else 0, relayed := kept && f.relayed, last := 0, count := 0, foff := true,
           weldNt := false }

/-- An outlet after a Russet reset: settings, lockout record and pair map stay (R57, R290, R604). -/
def Guard.afterReset (g : Guard) : Guard :=
  { Guard.reset with fault := g.fault.restored,
                     ce := { ClassE.none with causes := g.ce.causes, expired := g.ce.expired, saved := g.ce.saved },
                     residual := { Guard.reset.residual with acCurve := g.residual.acCurve, dcCurve := g.residual.dcCurve },
                     dcProt := g.dcProt, coilCfg := g.coilCfg, pilot := g.pilot, mirror := g.mirror, onMap := g.onMap }

/-- A brake after a Russet reset: its pair is off and it engages. -/
def Brake.afterReset (b : Brake) : Brake := { Brake.reset with cfg := b.cfg, state := .engaged }

/-- A pair after a Russet reset: both switches off. -/
def Pair.afterReset (now : Nat) (p : Pair) : Pair :=
  { Pair.reset with lsRb := true, changed := if p.cmd then now else p.changed }

/-- Russet's working state after a reset. -/
def Russet.afterReset (now : Nat) (r : Russet) : Russet :=
  { Russet.reset with outlet := r.outlet.each Guard.afterReset, pair := r.pair.each (Pair.afterReset now),
                      brake := r.brake.each Brake.afterReset, estopCfg := r.estopCfg, outCfg := r.outCfg, fast := r.fast,
                      capture := r.capture.each fun c => { c with unlocked := c.manchester },
                      cause := r.cause, pend := r.pend, ceStep := r.ceStep }

/-- Russet is reset, with the cause bit that it will set when it runs again. -/
def russetReset (bit : Nat) (s : State) : State :=
  let s := { s with rus := s.rus.afterReset s.och.clock.mono,
                    dies := { s.dies with russet := .starting, russetCause := some bit } }
  bringWaiting 3 s

def lockstepMismatch (s : State) : State := if s.dies.russet = .held then s else russetReset 12 s

def execLockstepMismatch (s : State) : Host.Outcome State Fault Refusal := done (lockstepMismatch s)

def russetWatchdog (s : State) : State := if s.dies.russet = .held then s else russetReset 12 s

def execRussetWatchdogExpiry (s : State) : Host.Outcome State Fault Refusal := done (russetWatchdog s)

/-- Class E runs on from the timer last saved; a stopped one has expired. -/
def ClassE.resume (now : Nat) (e : ClassE) : ClassE :=
  { e with ends := if e.expired || e.saved = 0 then 0 else now + 1000 * e.saved }

/-- Outlets marked on in the pair map get cause 0x30, and the map is cleared (R290). -/
def recordMapped (o : OutletNo) (s : State) : State :=
  if (s.rus.outlet.at o).onMap then recordCause o 0x30 (s.onGuard o fun g => { g with onMap := false }) else s

/-- Class E timers of every outlet run on. -/
def resumeTimers (s : State) : State :=
  { s with rus.outlet := s.rus.outlet.each fun g =>
      if g.fault.classE then { g with ce := g.ce.resume s.och.clock.mono } else g }

/-- Russet runs again: lockout record restored, cause bit and event, pair map (R57, R62, R290). -/
def russetRestart (s : State) : State :=
  if s.dies.russet != .starting then s
  else
    let s := { s with dies.russet := .running }
    let s := match s.dies.russetCause with
      | some bit =>
        let why : ResetBy := if bit = 12 then .watchdog else .command
        let s := if bit = 12 then watchTrial 3 s else s
        resetEvent dieRusset why (setCause bit s)
      | none => s
    let s := { s with dies.russetCause := none }
    settle (refreshDrives (resumeTimers (forEach outlets recordMapped s)))

def execRussetRestartComplete (s : State) : Host.Outcome State Fault Refusal := done (russetRestart s)

/-! ### Ochre reset (R22, R56, R58, R107) -/

/-- An input's working state restarts, and a comparison that the reset cut is made again (R107). -/
def Input.restart (x : Input) : Input := { x with ovr := false, compared := none, seen := 0 }

/-- Ochre looks at its inputs anew: a Manchester input is out of lock until 32 good cells (R79, R80). -/
def relock (s : State) : State :=
  let anew := (List.zip (indices 511) s.och.input.toList).filter fun p =>
    p.2.clockBad || p.2.stuck || p.2.unlocked != manchester s p.1
  anew.foldl
    (fun s p => setValidity p.1 (fun x => { x with clockBad := false, stuck := false, unlocked := manchester s p.1 }) s) s

/-- A meter's working state restarts. -/
def Meter.restart (m : Meter) : Meter :=
  { m with p := 0, q := 0, s := 0, flags := 0, now := .zero, last := .zero, lastAt := none, freq := 0, synth := false, held := false }

/-- Ochre's working state restarts; what its ferroelectric memory holds stays. -/
def ochreRestartState (s : State) : State :=
  { s with och := { s.och with input := s.och.input.each Input.restart, meter := s.och.meter.each Meter.restart,
                               analysis := Tab.all 64 .reset, supra := Tab.all 448 none, supraStep := 0 } }

/-- Ochre is reset: final save, then no metering until the stream restarts. -/
def ochreReset (bit : Nat) (why : ResetBy) (tails : List Tail) (s : State) : State :=
  let s := if s.dies.ochre = .running && !s.sup.saveDone then finalSave tails s else s
  let from_ := match s.och.clock.gapFrom with
    | some u => u
    | none => s.och.clock.us
  let s := ochreRestartState s
  let s := displayStop { s with dies.ochre := .starting, och.clock.gapFrom := some from_ }
  resetEvent dieOchre why (setCause bit s)

def ochreWatchdog (tails : List Tail) (s : State) : State :=
  if s.dies.ochre = .held then s else ochreReset 13 .watchdog tails s

def execOchreWatchdogExpiry (tails : List Tail) (s : State) : Host.Outcome State Fault Refusal :=
  done (ochreWatchdog tails s)

/-- GAP and INCOMPLETE in every interval the gap overlaps, GAP in every open session record (R58). -/
def markGap (s : State) : State :=
  forEach outlets (fun o s => markSession o flagGap (markInterval o (flagGap ||| flagIncomplete) s)) s

/-- The ticks that Ochre missed from a legal time in µs on are processed, up to a power failure in its reset, which defers the
later ones (R73, R165). -/
def missedTicks (from_ : Nat) (s : State) : State :=
  if s.dies.pfwInOchreReset then
    let s := { s with dies.pfwInOchreReset := false }
    if s.sup.pfw then { processUpTo from_ s.sup.pfwTick s with och.clock.failedAt := some s.sup.pfwTick }
    else processDeferred from_ s
  else if s.och.clock.failedAt.isSome then s
  else processDeferred from_ s

/-- Ochre runs again after its reset; the gap is logged, and the ticks it missed are processed: an interval that opened in the
gap overlaps it too (R58, R73). -/
def ochreRestart (gap : Nat) (s : State) : State :=
  if s.dies.ochre != .starting then s
  else
    let s := relock { s with dies.ochre := .running }
    let from_ := match s.och.clock.gapFrom with
      | some u => u
      | none => s.och.clock.us
    let s := { s with och.clock.gapFrom := none }
    let s := markGap (logOchre 0x0005 (leBytes 4 gap) s)
    let s := markGap (missedTicks from_ s)
    compose (if s.sup.pfw then s else displayRestart s)

def execOchreStreamRestart (gap : Nat) (s : State) : Host.Outcome State Fault Refusal := done (ochreRestart gap s)

end Sys2Proof.Machine
end

