-- ==== Sys2Proof/Machine/Power.lean ====
section
/-! DEFINITION. Power failure, the loss and the return of the main supplies, and Teal's power-on (R53, R56, R59, R69 to R73,
R132 to R134, R164, R165, R176, R177, R184, R501). -/

namespace Sys2Proof.Machine

/-! ### PFW (R70 to R73, R198, R501) -/

/-- An active module yields the lease: it makes no lease-gated request and drives no pilot from now on (R495, R501). -/
def yieldLease (s : State) : State :=
  if roleNow s.modes == .active && !s.pair.yielded then
    refreshDrives { s with pair.yielded := true, pair.sent := s.pair.sent ++ [.yield] }
  else s

/-- Entries that the fault log holds (R555). -/
def faultLogSize : Nat := 16384

/-- The fault log is flushed to the image store; the oldest entries are overwritten (R537, R555). -/
def flushFaults (s : State) : State :=
  let l := s.evt.log ++ s.evt.unflushed
  { s with evt.log := l.drop (l.length - faultLogSize), evt.unflushed := [] }

/-- A bundle's build is abandoned and its response lost (R558). -/
def abandonBundle (s : State) : State :=
  match s.evt.bundle with
  | some c => { s with evt.bundle := none, mbx.fetched := dropFetch 0x0C01 c s.mbx.fetched }
  | none => s

/-- The control die's part at PFW: fault-log marker, tag mirror, staging and bundle lost (R70 step 3, R529, R558). -/
def controlAtPfw (s : State) : State :=
  let s := abandonBundle s
  let s := if controlRuns s then mirrorFaults (flushFaults { s with evt.marker := true }) else s
  abortStaging s

/-- An Ochre reset has written its marker already: it takes the PFW tick (R73). -/
def pfwInReset (at_ : Nat) (s : State) : State :=
  { s with dies.pfwInOchreReset := true, sup.marker := s.sup.marker.map fun m => { m with tick := at_ } }

/-- PFW asserts, `us` µs into the running tick (R70). An assertion that follows no deassertion starts nothing (R72). Where the
supplies leave their range before the final save completes, `saved` is false: no save and no marker (R73, R134). -/
def pfwAssert (us : Nat) (tails : List Tail) (saved : Bool) (s : State) : State :=
  if s.modes.base = .backupWatch || s.sup.pfw || !s.sup.pfwArmed then s
  else
    let s := advance (min us (999 - s.och.clock.us % 1000)) s
    let at_ := s.och.clock.us
    let s := { s with sup := { s.sup with pfw := true, pfwArmed := false, pfwTick := at_ } }
    let s := if s.dies.ochre = .running then
        (let s := { s with och.clock.failedAt := some at_ }
         if saved then finalSave tails s else s)
      else pfwInReset at_ s
    let s := { s with sup := { s.sup with saveDone := saved || s.dies.pfwInOchreReset } }
    yieldLease (controlAtPfw (displayStop s))

def execPfwAssert (us : Nat) (tails : List Tail) (saved : Bool) (s : State) : Host.Outcome State Fault Refusal :=
  done (pfwAssert us tails saved s)

/-- The outlets whose pair is on. -/
def energised (s : State) : List OutletNo := outlets.filter fun o => (s.rus.pair.at (coilOf o)).cmd

/-- 2.5 ms after PFW, while it is still asserted, every pair opens (R70 step 4). -/
def pfwOpen (s : State) : State :=
  if !s.sup.pfw || s.sup.pfwArmed || s.dies.russet != .running then s
  else
    let on := energised s
    let s := forEach outlets (openRecorded 0x31) s
    let s := forEach (indices 3) engageBrake s
    { s with sup := { s.sup with opened := true, dropped := on } }

def execPfwOutputOpen (s : State) : Host.Outcome State Fault Refusal := done (pfwOpen s)

/-- A dip ends with the supplies in range: counted below 3 ms, logged from 3 ms on (R71). -/
def dipEnded (start durationUs : Nat) (s : State) : State :=
  if durationUs < 3000 then { s with sup.dips := s.sup.dips + 1 }
  else logOchre 0x0004 (leBytes 8 (start / 64) ++ leBytes 4 (durationUs / 64)) s

/-- PFW deasserts with every supply in range (R71, R72). -/
def pfwDeassert (durationUs : Nat) (s : State) : State :=
  if s.modes.base = .backupWatch || !s.sup.pfw then s
  else
    let ran := s.sup.saveDone || s.och.clock.failedAt.isSome
    let dropped := s.sup.dropped
    let s := { s with sup := { s.sup with pfw := false, pfwArmed := true, saveDone := false, opened := false, dropped := [] } }
    if !ran then s
    else
      let s := match s.och.clock.failedAt with
        | some u => if s.dies.ochre = .running then processDeferred u { s with och.clock.failedAt := none } else s
        | none => s
      let s := dipEnded s.sup.pfwTick durationUs s
      let s := dropped.foldl (fun s o => stopSession o s) s
      if s.dies.ochre = .running then compose (displayRestart s) else s

def execPfwDeassert (durationUs : Nat) (s : State) : Host.Outcome State Fault Refusal := done (pfwDeassert durationUs s)

/-! ### Supplies lost (R66, R73, R187) -/

/-- A main supply leaves its range: outputs and display dark, every die but Teal without power. -/
def supplyLost (s : State) : State :=
  if s.modes.base = .backupWatch then s
  else
    let s := abortStaging s
    let s := { s with sup.mainOk := false,
                      modes := { s.modes with base := .backupWatch, role := .none, prior := .none, handover := false,
                                              checked := false, hbLoss := false, refLoss := false },
                      dies := { control := .held, ochre := .held, russet := .held, fescue := .held, spelt := .held,
                                hbSeen := false, resetAfterResponse := false, russetCause := none, fescueBeat := false,
                                pfwInOchreReset := false },
                      rus.pair := s.rus.pair.each fun (p : Pair) => { Pair.reset with changed := p.changed },
                      spe.chan := s.spe.chan.each fun (c : Channel) => { c with output := false },
                      mbx.ready := false }
    s.onDisplay fun d => { d with driven := false, shown := if bistable d then d.shown else .blank }

def execMainSupplyOutOfRange (s : State) : Host.Outcome State Fault Refusal := done (supplyLost s)

/-- VBAT returns after a fall below its minimum while main power is absent: ring and counters are lost (R53, R59). -/
def tealPowerOn (s : State) : State :=
  if s.sup.mainOk then s
  else
    { s with sup := { s.sup with vbatOk := true, tealPor := true },
             teal := { s.teal with ring := [], openings := Tab.all 4 0, tseq := 0, uncopied := 0, lost := true } }

def execTealPowerOn (s : State) : Host.Outcome State Fault Refusal := done (tealPowerOn s)

/-- A tamper input changes: Teal's record and counter; an opening wipes the vault (R175, R176, R443). -/
def tamperChange (k : TamperNo) (opened : Bool) (s : State) : State :=
  if (s.teal.level.at k) == opened || (!s.sup.mainOk && !s.sup.vbatOk) then s
  else
    let t := s.teal
    let r : TealRecord := { time := legalUnits s, tseq := t.tseq, opened := opened, onVbat := !s.sup.mainOk, input := k }
    let ring := t.ring ++ [r]
    let s := { s with teal := { t with ring := ring.drop (ring.length - 64), tseq := t.tseq + 1, level := t.level.put k opened,
                                       uncopied := t.uncopied + 1,
                                       openings := if opened then t.openings.upd k (satAdd 32 · 1) else t.openings } }
    -- An opening on main power flags what is open now; one on VBAT is applied at power-up (R177).
    if opened && s.modes.base != .backupWatch then wipeVault 1 (markAll flagTamper s) else s

def execTamperChange (input : TamperNo) (opened : Bool) (s : State) : Host.Outcome State Fault Refusal :=
  done (tamperChange input opened s)

/-! ### Power-up: what the ferroelectric memories give back (R56, R57, R130 to R134, R322, R604) -/

/-- A meter after power-up: accumulators and P, Q, S of its save, its saves, and the coefficient set number; every status field
at its Reset value (R8). -/
def Meter.powerUp (m : Meter) : Meter :=
  let r := restoredSave m
  { Meter.reset with acc := r.acc, saves := m.saves, newer := m.newer, p := r.p, q := r.q, s := r.s, coefId := m.coefId }

/-- Ochre after power-up: status fields of inputs and lanes take their Reset values, and each Manchester input is out of lock
(R8, R80). -/
def Ochre.powerUp (h : Ochre) : Ochre :=
  { h with input := Ochre.reset.input.mapN fun i x => { x with unlocked := wBit (h.set.roleNow.groups.at (Fin.ofNat 32 (i / 16))) 0 },
           lane := Ochre.reset.lane,
           meter := h.meter.each Meter.powerUp, analysis := Tab.all 64 .reset, supra := Tab.all 448 none, supraStep := 0,
           clock := { h.clock with failedAt := none, gapFrom := none },
           tariffs := { h.tariffs with announced := none } }

/-- A channel after power-up: off, with the settings, control word and latch state of the image store. -/
def Channel.powerUp (c : Channel) : Channel :=
  { Channel.reset with cfg0 := c.cfg0, cfg1 := c.cfg1, rule := c.rule, ha := c.ha, fallback := c.fallback, on := c.on,
                       prot := if c.prot = .latched then .latched else .none,
                       events := if c.prot = .latched then List.replicate (wFld c.cfg0.now 11 4) 0 else [] }

/-- The vehicle link after power-up: every session ended, the stored words loaded. -/
def Vehicle.powerUp (v : Vehicle) : Vehicle :=
  { Vehicle.reset with
    pilot := v.pilot.each fun p => { Pilot.reset with word0 := p.word0, word1 := p.word1, classE := p.classE, limitE := p.limitE }
    ha := v.ha, haPend := v.haPend, keyMap := v.keyMap, module := v.module,
    core := v.core.each fun c => { c with silent := false }, carries := v.carries, spare := v.spare }

/-- The site line after power-up: its stored words. -/
def SiteLine.powerUp (l : SiteLine) : SiteLine :=
  { SiteLine.reset with word := l.word, link := l.link.each fun x => { Link.reset with words := x.words } }

/-- The readers after power-up. -/
def Reader.powerUp (r : Reader) : Reader :=
  { Reader.reset with aerial := (r.aerial).mapN fun k a => { Aerial.reset k with word := a.word },
                      port := r.port, auth := r.auth, authPend := r.authPend, allow := r.allow }

/-- The tag after power-up: it lives from the field, and only the host's accesses are lost (R368). -/
def Tag.powerUp (t : Tag) : Tag := { t with staged := [], reads := [] }

/-- The pair after power-up: binding, pin and the numbers that must not repeat. -/
def PairState.powerUp (p : PairState) : PairState :=
  { PairState.reset with peer := p.peer, pin := p.pin, sealedRefused := p.sealedRefused }

/-- Wear counts after power-up. -/
def Thermal.powerUp (t : Thermal) : Thermal :=
  { Thermal.reset with stageTime := t.stageTime, powerH := t.powerH, mgmtSpare := t.mgmtSpare, mgmtRetired := t.mgmtRetired,
                       framOchFree := t.framOchFree, framFesFree := t.framFesFree, nandFree := t.nandFree,
                       eraseMax := t.eraseMax, eraseMean := t.eraseMean, tcMax := t.tcMax }

/-- Events after power-up: routes, masks and the flushed fault log are in the image store. -/
def Events.powerUp (e : Events) : Events :=
  { Events.reset with src := e.src.each fun x => { x with pending := false, counter := 0, holding := [] },
                      log := e.log, fseq := BitVec.ofNat 32 (e.fseq.toNat - e.unflushed.length) }

/-- Every die after a module power-on, with the stored state in place. -/
def rebuilt (pfwLow : Bool) (s : State) : State :=
  let rus := s.rus.afterReset s.och.clock.mono
  { State.reset with
    sup := { State.reset.sup with pfw := pfwLow, pfwArmed := !pfwLow, pfwTick := s.sup.pfwTick, vbatOk := s.sup.vbatOk,
                                  tealPor := s.sup.tealPor, marker := s.sup.marker, dips := s.sup.dips }
    clocks := { State.reset.clocks with pll1Lock := true, pll2Lock := true, xrefOk := true,
                                        mclkSel := if s.och.set.mclkPend then BitVec.ofNat 2 (wFld s.och.set.role.clock 6 2)
                                                   else s.clocks.mclkSel,
                                        outSince := s.clocks.outSince }
    teal := s.teal
    och := s.och.powerUp
    rus := { rus with pair := s.rus.pair.each fun (p : Pair) => { Pair.reset with changed := p.changed },
                      outlet := rus.outlet.each fun g => { g with onMap := false, mirror := false },
                      cause := if s.sup.tealPor then 3 else 1 }
    veh := s.veh.powerUp
    spe := { Spelt.reset with chan := s.spe.chan.each Channel.powerUp, aggMax := s.spe.aggMax, pulse := s.spe.pulse }
    site := s.site.powerUp
    rdr := s.rdr.powerUp
    tag := s.tag.powerUp
    keys := { (expireKeys s).keys with derived := [], powerOnDue := false,
                                       debugOpen := s.keys.lifecycle == .blank || s.keys.lifecycle == .factory }
    pair := s.pair.powerUp
    upd := { s.upd with staging := none, peerStaging := none, sessionSlot := Tab.all 64 (s.upd.image.at 1).active }
    thm := s.thm.powerUp
    evt := s.evt.powerUp
    mbx := { Mailbox.reset with port := s.mbx.port.each portReset, qspiLvl := s.mbx.qspiLvl }
    mem := { MemState.reset with bankMap := s.mem.bankMap, corrected := s.mem.corrected, unitFixed := s.mem.unitFixed }
    reported := s.reported, free := s.free, pending := s.pending }

/-! ### Power-up: Ochre's records of the absence (R59, R73, R134, R164, R165, R176, R177, R184) -/

/-- The latest metered-to time of the saves, in units of 64 µs. -/
def meteredTo (s : State) : Nat := (s.och.meter.toList.map fun m => (restoredSave m).meteredTo).foldl max 0

/-- The monotonic time of a legal time in µs that lies behind. -/
def monoAt (s : State) (us : Nat) : Nat := s.och.clock.mono - (s.och.clock.us - us)

/-- Without a final save, the saved open cycle or period closes truncated at its metered-to time (R134). -/
def closeSaved (o : OutletNo) (s : State) : State :=
  let r := restoredSave (s.och.meter.at o)
  if r.openLength = 0 then s
  else truncate o (monoAt s (r.meteredTo * 64) - r.openLength / 1000) r.openEnergy r.openVehicle r.openLength s

/-- An outlet whose newer save copy is lost while the older one is read (R450). -/
def lostNewer (s : State) (o : OutletNo) : Bool :=
  let m := s.och.meter.at o
  (m.saves.at m.newer).lost && !(m.saves.at (m.newer + 1)).lost

/-- The outlets whose last energy is lost: all of them without a final save, or those whose newer copy is lost. -/
def lostOutlets (s : State) : List OutletNo := outlets.filter fun o => s.sup.marker.isNone || lostNewer s o

/-- The open cycle of a lost save closes truncated, and the interval and record that overlap the loss are flagged (R134). -/
def closeLost (o : OutletNo) (s : State) : State :=
  markSession o flagSaveLost (markInterval o flagSaveLost (finalIntervals o (closeSaved o s)))

/-- The power failure is recorded with the legal clock at its moment: entries 0x0003 and 0x0001, INCOMPLETE (R73, R165). -/
def recordFailure (s : State) : State :=
  let upTo := leBytes 8 (match s.sup.marker with
    | some m => m.meteredTo
    | none => meteredTo s)
  let lost := lostOutlets s
  let s := if lost.isEmpty then s else forEach lost closeLost (logOchre 0x0003 upTo s)
  let s := logOchre 0x0001 upTo s
  forEach outlets (fun o s => markInterval o flagIncomplete s) s

/-- After a Teal power-on: time restored and invalid, tamper records lost (R59, R170). -/
def recordTealLoss (s : State) : State :=
  if s.teal.lost then
    let s := { s with och.clock.timeInvalid := true }
    let s := logOchre 0x0014 (leBytes 8 (legalUnits s)) s
    let s := logOchre 0x0041 (leBytes 4 0xFFFFFFFF ++ leBytes 4 s.teal.copied.toNat ++ leBytes 4 0xFFFFFFFF) s
    let s := raise 29 moduleIndex 1 [] s
    { s with teal := { s.teal with lost := false, copied := 0 } }
  else s

/-- Billing boundaries and activations after one legal time and up to another within a day of it, a boundary of the same tick
before the activation (R164). -/
def absenceTo (from_ to_ : Nat) (s : State) : State :=
  if activationDue s to_ then
    let at_ := max (calActTime s.och.tariffs.passive * 1000000) from_
    billBetween at_ to_ (activate at_ (billBetween from_ at_ s))
  else billBetween from_ to_ s

/-- The days of a stretch of the absence in order, `n` of them from a legal time on, none past another. -/
def absenceDays (to_ : Nat) : Nat → Nat → State → State
  | 0, _, s => s
  | n + 1, from_, s =>
    let next := min to_ ((from_ / dayUs + 1) * dayUs)
    absenceDays to_ n next (absenceTo from_ next s)

/-- Billing boundaries and activations of a stretch of the absence. -/
def absenceStretch (from_ to_ : Nat) (s : State) : State := absenceDays to_ (to_ / dayUs + 1 - from_ / dayUs) from_ s

/-- The label of the first demand boundary after a legal time that has not been closed yet: the old length holds up to the hour of
an accepted one (R158, R166). -/
def nextDemand (s : State) (us : Nat) : Nat :=
  let f := s.och.tariffs
  let from_ := max us (f.demandMark * minuteUs)
  let n := match f.lenPend with
    | some (n, hour) => if hour * 1000000 ≤ from_ then n else f.len
    | none => f.len
  lastDemand n from_ + n

/-- The interval of power-up opens INCOMPLETE (R165). -/
def openAtPowerUp (s : State) : State :=
  let s := lengthAt (s.och.clock.us / minuteUs) s
  let label := lastDemand s.och.tariffs.len s.och.clock.us
  let next := Interval.fresh label s.och.tariffs.len s.och.clock.mono (flagIncomplete ||| openFlags s)
  { s with och.meter := s.och.meter.each fun m => { m with acc := { m.acc with cur := next } },
           och.tariffs.demandMark := label }

/-- The interval in which power failed closes at its nominal end, a label in minutes. -/
def closeFailed (label : Nat) (s : State) : State :=
  forEach outlets finalIntervals (closeIntervals label (monoAt s (label * minuteUs)) 0 s)

/-- The tariff of power-up, without an entry. -/
def silentTariff (s : State) : State :=
  let t := tariffAt s.och.tariffs.active s.och.clock.us
  let f : Tariffs := { s.och.tariffs with tariff := BitVec.ofNat 3 t }
  { s with och.tariffs := f.switchTo (mapRegister s.och.set.tariff1Now t) s.och.clock.mono }

/-- The ticks between the power failure and power-up, in tick order: a demand boundary before what else falls into its tick
(R164, R165). -/
def absence (failed : Nat) (s : State) : State :=
  let now := s.och.clock.us
  let first := nextDemand s failed
  let s := if now < first * minuteUs then absenceStretch failed now s
    else
      let before := max failed (first * minuteUs - 1)
      openAtPowerUp (absenceStretch before now (closeFailed first (absenceStretch failed before s)))
  silentTariff s

/-- A period out of specification that was open at the power failure ends with its entry. DESIGN CHOICE: the spec gives the end
entry only at the completed return to XREF, and a module that starts runs on XREF again. -/
def closeOutPeriod (s : State) : State :=
  match s.clocks.outSince with
  | some since =>
    let s := logOchre 0x0013 (leBytes 8 ((s.och.clock.us - since) / 64)) s
    { s with clocks.outSince := none }
  | none => s

/-- Ochre's step 5 of R69: `failed` is the legal time of the power failure and `now` that of power-up, in µs. -/
def ochrePowerUp (failed now : Nat) (s : State) : State :=
  let clock := s.och.clock
  let s := recordFailure { s with och.clock.us := failed, och.clock.mono := clock.mono - (clock.us - failed) }
  let s := { s with sup.marker := none, och.clock.us := now, och.clock.mono := clock.mono + (now - clock.us) }
  let s := copyTealRecords (recordTealLoss s)
  let s := forEach outlets powerStop s
  let s := absence failed (closeOutPeriod s)
  logOchre 0x0002 (leBytes 8 ((now - failed) / 64) ++ leBytes 4 (if s.sup.tealPor then 1 else 0)) s

/-- A kill by the field is reported at the next power-up (R375). -/
def reportKill (s : State) : State :=
  if s.tag.killReport then raise 88 moduleIndex 0 [] { s with tag.killReport := false } else s

/-- The legal firmware's check: with a CRC-32 over ROM and parameters that differs, no metering and no stream (R185). -/
def legalCheck (romCrc : BitVec 32) (s : State) : State :=
  let bad := romCrc != Config.legalCrc
  let s := { s with och.clock.checkFailed := bad }
  if bad then raise 29 moduleIndex 0 [] s else s

/-- Every factory entry is checked; a lane with one that fails counts as failed (R98). -/
def checkFactory (s : State) : State :=
  ((indices 519).filter fun l => !factoryOk s l.val).foldl (fun s l => laneFails l s) s

/-- PFW asserted during the start, after a deassertion, before step 5: the power failure is recorded at that moment, in µs after
the supplies' return, with no final save (R72). -/
def pfwAtStart (at_ : Option Nat) (s : State) : State :=
  match at_ with
  | none => s
  | some us =>
    let t := s.och.clock.us + us
    { s with sup := { s.sup with pfw := true, pfwArmed := false, pfwTick := t, saveDone := true,
                                 marker := some { tick := t, meteredTo := meteredTo s, tails := [] } },
             och.clock.failedAt := some t }

/-- The Teal power-on and the clock selection that waited have been taken. -/
def startTaken (s : State) : State := { s with sup.tealPor := false, och.set.mclkPend := false }

/-- The last main supply enters its range: steps 1 to 7 of R69. `absenceMs` is the absence since the last legal tick that the
model was given, `pfwAt` the moment of a PFW assertion before step 5, and `romCrc` what Ochre's check finds. -/
def supplyReturns (pfwLow : Bool) (absenceMs : Nat) (pfwAt : Option Nat) (romCrc : BitVec 32) (s : State) : State :=
  if s.modes.base != .backupWatch then s
  else
    let failed := match s.sup.marker with
      | some m => m.tick
      | none => meteredTo s * 64
    let now := if s.sup.tealPor then s.och.clock.savedUs else s.och.clock.us + absenceMs * 1000
    let t := startTaken (ochrePowerUp (min failed now) now (rebuilt pfwLow s))
    let t := pfwAtStart pfwAt (checkFactory (legalCheck romCrc t))
    let t := displayPowerOn (resumeTimers t)
    reportKill (settle (if pfwAt.isSome then displayStop t else t))

def execMainSuppliesInRange (pfwLow : Bool) (absenceMs : Nat) (pfwAt : Option Nat) (romCrc : BitVec 32) (s : State) :
    Host.Outcome State Fault Refusal :=
  done (supplyReturns pfwLow absenceMs pfwAt romCrc s)

end Sys2Proof.Machine
end

