-- ==== Sys2Proof/Machine/CmdSystem.lean ====
section
/-! DEFINITION. The system commands 0x0100 to 0x0107 (R66, R67, R384 to R387, R418). -/

namespace Sys2Proof.Machine

/-- Checks with their word offsets, then an effect; nothing is done where a check fails. -/
def checked (op : Nat) (c : Cmd) (bad : List (Nat × Bool)) (effect : State → Reply × State) (s : State) : Reply × State :=
  match firstBad bad with
  | some k => (rangeReply op c k, s)
  | none => effect s

def echo (c : Cmd) : State → State := runCmd 0x0100 c <| reads fun p _ => okWith p

def execEcho (cmd : Cmd) (s : State) : Host.Outcome State Fault Refusal := done (echo cmd s)

/-- The identity bytes of the tag as written last. -/
def readIdentity (c : Cmd) : State → State := runCmd 0x0101 c <| reads fun _ s => okWith (memRead s.tag.mem 0 96)

def execReadIdentity (cmd : Cmd) (s : State) : Host.Outcome State Fault Refusal := done (readIdentity cmd s)

/-! ### Commissioning (R66, R67) -/

/-- Commissioning is entered from the service role in force. -/
def goCommissioning (s : State) : State :=
  refreshDrives { s with modes := { s.modes with base := .commissioning, role := .none, prior := s.modes.role } }

/-- A condition holds that does not hold together with Commissioning (R64). -/
def barsCommissioning (s : State) : Bool := degraded s || s.modes.handover || s.modes.staging

/-- A happening begins an epoch. -/
def beginsEpoch (i : Instr) : Bool :=
  match i with
  | .legalTick _ => true
  | .epochStart _ _ => true
  | _ => false

/-- A supervision trigger that takes a service role to Degraded service or to Backup watch. -/
def supervises (s : State) (i : Instr) : Bool :=
  match i with
  | .milletHeartbeatLoss => s.dies.russet == .running
  | .referenceLoss => true
  | .mainSupplyOutOfRange => true
  | _ => false

/-- A supervision trigger of the running epoch is waiting: it applies before a commanded one (R67). -/
def supervisionWaits (s : State) : Bool := (s.pending.takeWhile fun i => !beginsEpoch i).any (supervises s)

def enterCommissioning (c : Cmd) : State → State :=
  runCmd 0x0102 c <| acts fun _ s =>
    if barsCommissioning s || supervisionWaits s then (modeReply s, s)
    else if !allCoilsOff s then (refusedReply 1, s)
    else (okReply, goCommissioning s)

def execEnterCommissioning (cmd : Cmd) (s : State) : Host.Outcome State Fault Refusal := done (enterCommissioning cmd s)

def leaveCommissioningCmd (c : Cmd) : State → State :=
  runCmd 0x0103 c <| acts fun _ s => (okReply, refreshDrives (leaveCommissioning s))

def execLeaveCommissioning (cmd : Cmd) (s : State) : Host.Outcome State Fault Refusal :=
  done (leaveCommissioningCmd cmd s)

/-! ### Resets and settings (R54, R384 to R387, R418) -/

/-- A commanded reset of a die; the control die's follows 10 ms after the response. -/
def commandedReset (die : Nat) (tails : List Tail) (s : State) : State :=
  match die with
  | 0 => { s with dies.resetAfterResponse := true }
  | 1 => fescueReset 4 .command s
  | 2 => speltReset 5 .command s
  | 3 => russetReset 6 s
  | _ => ochreReset 7 .command tails s

def dieReset (c : Cmd) (tails : List Tail) : State → State :=
  runCmd 0x0104 c <| acts fun p s =>
    checked 0x0104 c [(0, byteAt p 0 ≤ 4), (0, leAt p 1 3 == 0)] (fun s => (okReply, commandedReset (byteAt p 0) tails s)) s

def execDieReset (cmd : Cmd) (tails : List Tail) (s : State) : Host.Outcome State Fault Refusal :=
  done (dieReset cmd tails s)

/-- An Ethernet port by its number. -/
def portOf (n : Nat) : PortNo := Fin.ofNat 3 n

def networkSettings (c : Cmd) : State → State :=
  runCmd 0x0105 c <| acts fun p s =>
    checked 0x0105 c
      [(0, byteAt p 0 ≤ 1 && byteAt p 1 < 4 && leAt p 2 2 == 0), (8, byteAt p 32 ≤ 128 && leAt p 33 3 == 0)]
      (fun s => (okReply, s.onPort (portOf (byteAt p 0)) fun q => { q with net := { q.net with addressing := some (p.drop 1) } })) s

def execNetworkSettings (cmd : Cmd) (s : State) : Host.Outcome State Fault Refusal := done (networkSettings cmd s)

/-- The slot of a number is there and fits a role. -/
def slotFits (s : State) (n : Nat) (fits : Key → Bool) : Bool :=
  match namedSlot s n with
  | some x => fits x.key
  | none => false

def mailboxKeySlots (c : Cmd) : State → State :=
  runCmd 0x0106 c <| acts fun p s =>
    let server := leAt p 2 2
    let operate := leAt p 4 2
    let commission := leAt p 6 2
    checked 0x0106 c
      [(0, byteAt p 0 ≤ 1 && byteAt p 1 == 0 && slotFits s server fitsServer),
       (1, slotFits s operate fitsRoot && slotFits s commission fitsRoot)]
      (fun s => (okReply, s.onPort (portOf (byteAt p 0)) fun q =>
        { q with net := { q.net with serverSlot := BitVec.ofNat 16 server, operateSlot := BitVec.ofNat 16 operate,
                                     commissionSlot := BitVec.ofNat 16 commission } })) s

def execMailboxKeySlots (cmd : Cmd) (s : State) : Host.Outcome State Fault Refusal := done (mailboxKeySlots cmd s)

/-- QSPI_LVL is set from an Ethernet connection only. -/
def setQspiAuthority (c : Cmd) : State → State :=
  runCmd 0x0107 c <| acts fun p s =>
    checked 0x0107 c [(0, byteAt p 0 ≤ 3), (0, leAt p 1 3 == 0)]
      (fun s => if c.port = 2 then (refusedReply 2, s)
        else (okReply, { s with mbx.qspiLvl := BitVec.ofNat 2 (byteAt p 0) })) s

def execSetQspiAuthority (cmd : Cmd) (s : State) : Host.Outcome State Fault Refusal := done (setQspiAuthority cmd s)

end Sys2Proof.Machine
end

