-- ==== Sys2Proof/Machine/Modes.lean ====
section
/-! DEFINITION. The mode logic and the clocks: Millet's heartbeat, the start, Recovery, Commissioning's end, loss and return
of the reference, and the session cores' clock step (R35, R47 to R51, R60, R61, R66, R69, R504, R521). -/

namespace Sys2Proof.Machine

/-! ### Start (R66, R69, R504) -/

/-- The mailbox accepts commands once Millet runs and the start has ended, or for reading in lifecycle Ended (R69, R411,
R472). -/
def becomeReady (s : State) : State :=
  let starts := s.modes.base == .backupWatch || (s.modes.base == .measuredStart && s.keys.lifecycle != .ended)
  if !controlRuns s || starts || s.mbx.ready then s
  else raise 1 moduleIndex 0 (leBytes 4 s.rus.cause.toNat) { s with mbx.ready := true }

/-- A service role is entered: Fescue drives the pilots (R69 step 10). -/
def enterRole (r : Role) (s : State) : State :=
  let s := { s with modes := { s.modes with base := .service, role := r, prior := .none, checked := false,
                                            failedStarts := 0 },
                    rus.lease := s.rus.lease || r == .active }
  becomeReady (settle (refreshDrives s))

/-- The PLLs have locked at step 2, on XREF or on the fallback (R50, R69). -/
def pllsLocked (s : State) : State :=
  { s with clocks := { s.clocks with pll1Lock := true, pll2Lock := true, xrefOk := !s.modes.refLoss } }

/-- Images chosen and measured, switch settings loaded: what has happened when the checks pass. -/
def startChecked (s : State) : State :=
  let s := chooseSlots s
  { s with keys.measure := measurement s, spe.loaded := true }

/-- Paired standby is entered, unless the peer's lifecycle or legal firmware differs: the module then stays in Measured start,
and reports it (R475, R488, R507). -/
def joinStandby (s : State) : State :=
  if s.pair.diverged then raise 116 moduleIndex 0 [] s else enterRole .standby s

/-- The role decision of R66 and R504. -/
def decideRole (peer : PeerAtStart) (s : State) : State :=
  if s.pair.peer = 0 then enterRole .solo s
  else match peer with
    | .holdsLease => joinStandby s
    | .deciding => if positionCode s = 1 then enterRole .active s else joinStandby s
    | .silent => { s with modes.checked := true }

/-- The Measured start checks end. -/
def startEnds (checks : StartChecks) (peer : PeerAtStart) (s : State) : State :=
  if s.modes.base != .measuredStart then s
  else
    let s := pllsLocked s
    match checks with
    | .failed => failedStart { s with dies.control := .starting, dies.hbSeen := false }
    | .bothFailed => enterRecovery s
    | .pass =>
      if noSlot s then enterRecovery s
      else
        let s := startChecked s
        match s.keys.lifecycle with
        | .blank | .factory =>
          becomeReady (settle { s with modes := { s.modes with base := .factoryTest, failedStarts := 0 } })
        | .ended => becomeReady s
        | _ => decideRole peer s

def execMeasuredStartComplete (checks : StartChecks) (peer : PeerAtStart) (s : State) :
    Host.Outcome State Fault Refusal :=
  done (startEnds checks peer s)

/-- The configured peer stays silent for 100 ms: Paired active, lease taken. -/
def peerSilent (s : State) : State :=
  if s.modes.base = .measuredStart && s.modes.checked && s.pair.peer ≠ 0 then enterRole .active s else s

def execPeerSilentAtStart (s : State) : Host.Outcome State Fault Refusal := done (peerSilent s)

/-! ### Millet's heartbeat (R35, R61, R66) -/

/-- A control die reset that starts successfully leaves Recovery once a repaired image has been verified (R66). -/
def leaveRecovery (s : State) : State :=
  if s.modes.base != .recovery || !s.modes.repaired then s
  else
    let m := s.modes
    { s with modes := { m with base := if m.prior = .none then .measuredStart else .service, role := m.prior, prior := .none,
                               repaired := false },
             mbx.ready := false }

/-- The first heartbeat after a start. Sessions that ran through the reset are held in hardware mode (R56). -/
def firstBeat (s : State) : State :=
  let s := leaveRecovery { s with dies.control := .running, dies.hbSeen := true }
  let s := if s.modes.base = .measuredStart then s else holdAll { s with modes.failedStarts := 0 }
  becomeReady (settle (refreshDrives s))

/-- Russet receives Millet's heartbeat. -/
def milletBeat (s : State) : State :=
  match s.dies.control with
  | .held => s
  | .starting => firstBeat { s with mbx.hbCount := s.mbx.hbCount + 1 }
  | .running => { s with mbx.hbCount := s.mbx.hbCount + 1, dies.hbSeen := true }

def execMilletHeartbeat (s : State) : Host.Outcome State Fault Refusal := done (milletBeat s)

/-- The 50 ms rule runs: from the first heartbeat after a start on, and through a control die reset in a service role (R61). -/
def beatWatched (s : State) : Bool :=
  s.modes.base != .backupWatch && s.modes.base != .measuredStart && s.dies.russet == .running
    && (s.dies.hbSeen || s.modes.base == .service)

/-- 50 ms without a heartbeat: Degraded service, every session in hardware mode. -/
def beatLost (s : State) : State :=
  if !beatWatched s || s.modes.hbLoss then s
  else settle (lateStops (holdAll { s with modes.hbLoss := true }))

def execMilletHeartbeatLoss (s : State) : Host.Outcome State Fault Refusal := done (beatLost s)

/-- Millet has confirmed or ended every held session. -/
def sessionsConfirmed (s : State) : State :=
  if !controlRuns s || !s.modes.hbLoss then s
  else settle { s with modes.hbLoss := false, veh.toConfirm := Tab.all 64 false }

def execHeldSessionsConfirmed (s : State) : Host.Outcome State Fault Refusal := done (sessionsConfirmed s)

/-- 60 min in Commissioning without a command. -/
def commissioningTimeout (s : State) : State := settle (refreshDrives (leaveCommissioning s))

def execCommissioningTimeout (s : State) : Host.Outcome State Fault Refusal := done (commissioningTimeout s)

/-! ### Reference (R49 to R51) -/

/-- Loss of reference is declared. During an open out-of-specification period no second begin entry is written (R51). -/
def refLost (s : State) : State :=
  if s.modes.base = .backupWatch then s
  else
    let again := s.modes.refLoss
    let s := setCause 15 { s with
      clocks := { s.clocks with xrefOk := false, trimmed := false, fallback := true, slew := false, corrections := 0 },
      modes.refLoss := true }
    let s := if s.clocks.outSince.isSome then s
      else markAll flagOos (logOchre 0x0012 [] { s with clocks.outSince := some s.och.clock.us })
    settle (if again then s else raise 4 moduleIndex 0 [] s)

def execReferenceLoss (s : State) : Host.Outcome State Fault Refusal := done (refLost s)

/-- The 1 s correction of the fallback oscillator; it is trimmed from the tenth on. -/
def fallbackCorrected (s : State) : State :=
  if s.clocks.fallback then
    let n := s.clocks.corrections + 1
    { s with clocks := { s.clocks with corrections := n, trimmed := decide (10 ≤ n) } }
  else s

def execFallbackCorrection (s : State) : Host.Outcome State Fault Refusal := done (fallbackCorrected s)

/-- XREF has stayed good for 1 s: the slew back begins. -/
def xrefBack (s : State) : State :=
  if s.clocks.fallback then { s with clocks := { s.clocks with slew := true, xrefOk := true } } else s

def execXrefReturn (s : State) : Host.Outcome State Fault Refusal := done (xrefBack s)

/-- The slew ends: one end entry for the whole span. -/
def slewDone (s : State) : State :=
  if !s.clocks.slew then s
  else
    let s := closeOutPeriod s
    let s := { s with clocks := { s.clocks with slew := false, fallback := false, trimmed := false, corrections := 0 },
                      modes.refLoss := false }
    settle (raiseEnd 4 moduleIndex [] s)

def execXrefSlewComplete (s : State) : Host.Outcome State Fault Refusal := done (slewDone s)

/-- The clock step that the stages in force ask for (R533). -/
def wantedStep (t : Thermal) : BitVec 2 := if t.stage.at 4 then 2 else if t.stage.at 3 then 1 else 0

/-- The session cores take the step that the scheduler asks for; a further step down is asked for next (R48, R533). -/
def clockStep (s : State) : State :=
  let s := { s with clocks.scStep := s.thm.stepTarget }
  if s.thm.stepTarget.toNat < (wantedStep s.thm).toNat then { s with thm.stepTarget := s.thm.stepTarget + 1 } else s

def execClockStepChange (s : State) : Host.Outcome State Fault Refusal := done (clockStep s)

end Sys2Proof.Machine
end

