-- ==== Sys2Proof/Machine/Grants.lean ====
section
/-! DEFINITION. The beginning of a session, its authorisation by a credential or a contract, and policy requests, shared by the
pilot, the high-level session, the readers and the host's answers (R40, R229, R236, R364 to R367, R606). -/

namespace Sys2Proof.Machine

/-! ### Authorisation (R229, R366) -/

/-- An authorisation word's fields (R382). -/
def authWord (s : State) (o : OutletNo) : Word := s.rdr.auth.at o
def authHosted (s : State) (o : OutletNo) : Bool := wBit (authWord s o) 0
def authFallback (s : State) (o : OutletNo) : Nat := wFld (authWord s o) 1 2

/-- The outlet may charge in basic form: I_MAX is not 0 and HLC_REQ is clear (R214, R239). -/
def basicAllowed (s : State) (o : OutletNo) : Bool :=
  isAc s o && !wBit (linkWord s o) 9 && wFld (linkWord s o) 25 7 ≠ 0

/-- A session in phase 1 that waits for an authorisation in basic form. -/
def basicWaits (s : State) (o : OutletNo) : Bool :=
  (s.veh.session.at o).phase = 1 && basicAllowed s o && (!offersHlc s o || s.veh.slac.left.at o)

/-- A high-level session whose vehicle has asked for authorisation and is answered Ongoing. -/
def hlcWaits (s : State) (o : OutletNo) : Bool :=
  let n := s.veh.session.at o
  n.phase = 2 && n.answer == some .ongoing && !n.contract && n.cert.isNone

/-- The session enters phase 3 with its authorisation reference; Millet then sends the session start (R229). -/
def authorise (o : OutletNo) (ref : BitVec 64) (s : State) : State :=
  let s := { s with veh.grant := s.veh.grant.put o none }
  refreshDrive o (setPhase o 3 (s.onSession o fun n => { n with granted := true, auth := ref }))

/-- A granted credential is used at once under the lease, or held (R229, R366, R496). -/
def grant (o : OutletNo) (ref : BitVec 64) (s : State) : State :=
  if leaseHeld s && (basicWaits s o || hlcWaits s o) then authorise o ref s
  else
    let early := (s.veh.session.at o).phase = 1 || (s.veh.session.at o).phase = 2
    { s with veh.grant := s.veh.grant.put o (some { ref := ref, whilePlugged := early }) }

/-- A grant held for the outlet is used when its session comes to wait for it, under the lease. -/
def useHeld (o : OutletNo) (s : State) : State :=
  match s.veh.grant.at o with
  | some g => if leaseHeld s && (basicWaits s o || hlcWaits s o) then authorise o g.ref s else s
  | none => s

/-! ### Beginning of a session (R35, R229, R239) -/

/-- A new session may start: a service role, and Millet neither silent nor lost. -/
def sessionsStart (s : State) : Bool := s.modes.base == .service && !milletSilent s

/-- A vehicle has been plugged in: phase 1. -/
def plugged (o : OutletNo) (s : State) : State :=
  if !sessionsStart s then s
  else
    let s := s.onSession o fun _ => Session.none
    let s := { s with veh.slac.left := s.veh.slac.left.put o false }
    useHeld o (setPhase o 1 s)

/-! ### Allowlist (R364, R365) -/

/-- The allowlist grants a reference. -/
def allowed (s : State) (ref : BitVec 64) : Bool :=
  s.rdr.allow.any fun a => a.ref == ref && !a.blocked && (a.validTo == 0 || lt32 s < a.validTo.toNat)

/-- The decision when host software has not answered (R40, R382). -/
def fallbackDecision (s : State) (o : OutletNo) (ref : BitVec 64) : Bool :=
  match authFallback s o with
  | 0 => false
  | 1 => true
  | _ => allowed s ref

/-! ### Configured limit (R286, R606) -/

/-- The outlet's configured current limit, 0.1 A; in Class E at most CE_FRAC of the limit in force
at entry. -/
def configuredLimit (s : State) (o : OutletNo) : Nat :=
  match (s.veh.pilot.at o).limitE with
  | some l => min l (fullLimit s o)
  | none => fullLimit s o

/-! ### Policy requests (R236, R554) -/

/-- Kind of a policy request in event 36 and 0x0420. -/
def policyCode : PolicyKind → Nat
  | .authorisation => 0
  | .limits => 1
  | .scheduleChange => 2
  | .discharge => 3

/-- A request of a kind for an outlet waits for host software. -/
def asked (s : State) (o : OutletNo) (kind : PolicyKind) : Bool :=
  s.veh.policies.any fun r => r.outlet == o && r.kind == policyCode kind && (kind != .authorisation || r.aerial.isNone)

/-- Host software is asked: request identifier, and event 36 with the DATA of R554. -/
def askHost (o : OutletNo) (kind : PolicyKind) (auth : BitVec 64) (tech : BitVec 2) (aerial : Option AerialNo)
    (limit : Nat) (s : State) : State :=
  let id := s.veh.reqId + 1
  let r : PolicyRequest := { id := id, outlet := o, kind := policyCode kind, auth := auth, aerial := aerial, tech := tech }
  let a : Nat := match aerial with
    | some k => k.val
    | none => 0xFF
  let data := match kind with
    | .authorisation => leBytes 8 auth.toNat ++ [BitVec.ofNat 8 tech.toNat, BitVec.ofNat 8 a]
    | _ => leBytes 4 limit
  raise 36 o.val 0 (leBytes 4 id.toNat ++ [BitVec.ofNat 8 (policyCode kind)] ++ data)
    { s with veh.reqId := id, veh.policies := s.veh.policies ++ [r] }

/-! ### Failures sent to a vehicle (R223, R226) -/

/-- A failure is sent and the session ends. -/
def v2gEnd (o : OutletNo) (a : V2gAnswer) (s : State) : State :=
  endSessionNow o (raise 40 o.val 0 [] (s.onSession o fun n => { n with answer := some a }))

/-! ### Credentials (R364 to R367) -/

/-- INDEX of an event about an aerial. -/
def aerialIndex (aerial : Option AerialNo) : Nat :=
  match aerial with
  | some a => a.val
  | none => moduleIndex

/-- The outlet has a session that has been authorised and has not ended. -/
def authorised (s : State) (o : OutletNo) : Bool := within 3 8 (s.veh.session.at o).phase

/-- Event 85 with its DATA, and TECH and RESULT of the aerial (R383, R554). -/
def reportCredential (aerial : Option AerialNo) (ref : BitVec 64) (tech : BitVec 2) (result : Nat) (s : State) : State :=
  let s := match aerial with
    | some a =>
      s.onAerial a fun x =>
        { x with tech := tech, ref := ref, result := if result = 0 then x.result else BitVec.ofNat 2 result }
    | none => s
  raise 85 (aerialIndex aerial) 0 (leBytes 8 ref.toNat ++ [BitVec.ofNat 8 result, BitVec.ofNat 8 tech.toNat]) s

/-- A credential has been decided: 1 granted, 2 refused, 3 granted by fallback. One that is decided after the session began
is reported as ignored. -/
def credentialDecided (o : OutletNo) (ref : BitVec 64) (tech : BitVec 2) (aerial : Option AerialNo) (result : Nat) (s : State) : State :=
  if authorised s o then reportCredential aerial ref tech 0 s
  else
    let s := reportCredential aerial ref tech result s
    match aerial with
    | none => if result = 2 then v2gEnd o .failed s else authorise o ref s
    | some _ => if result = 2 then s else grant o ref s

/-- A credential or a contract is presented for an outlet (R364, R366, R228). -/
def present (o : OutletNo) (ref : BitVec 64) (tech : BitVec 2) (aerial : Option AerialNo) (s : State) : State :=
  if aerial.isNone && !leaseHeld s then s
  else if authorised s o then
    if (s.veh.session.at o).auth = ref then stopSession o s else reportCredential aerial ref tech 0 s
  else if authHosted s o then askHost o .authorisation ref tech aerial 0 s
  else credentialDecided o ref tech aerial (if allowed s ref then 1 else 2) s

/-- The request's fallback when the host has not answered (R40, R236). -/
def policyFallback (r : PolicyRequest) (s : State) : State :=
  let o := r.outlet
  match r.kind with
  | 0 => credentialDecided o r.auth r.tech r.aerial (if fallbackDecision s o r.auth then 3 else 2) s
  | 1 =>
    let limit := configuredLimit s o
    s.onSession o fun n => { n with hostLimit := some limit, schedules := [] }
  | 2 => s
  | _ => s.onSession o fun n => { n with discharge := some false }

/-- The host's answer to a request (R236, R421). A refusal of limits leaves no current to offer; schedules are entries of a
start offset, a power limit and a current limit, and the first one's current is the limit in force. -/
def policyAnswered (r : PolicyRequest) (accept : Bool) (schedules : List Byte) (s : State) : State :=
  let o := r.outlet
  match r.kind with
  | 0 => credentialDecided o r.auth r.tech r.aerial (if accept then 1 else 2) s
  | 3 => s.onSession o fun n => { n with discharge := some accept }
  | k =>
    let full := configuredLimit s o
    let limit := if schedules.isEmpty then full else min full (leAt schedules 8 4)
    if accept then s.onSession o fun n => { n with hostLimit := some limit, schedules := schedules }
    else if k = 1 then s.onSession o fun n => { n with hostLimit := some 0, schedules := [] }
    else s

end Sys2Proof.Machine
end

