-- ==== Sys2Proof/Machine/CmdVehicle.lean ====
section
/-! DEFINITION. The vehicle-link commands 0x0400 to 0x0422 (R227, R236, R239, R367, R421). -/

namespace Sys2Proof.Machine

/-- A command that Fescue answers; a die that does not run gives none (R407). -/
def onFescue (f : List Byte → State → Reply × State) : Body :=
  acts fun p s => if s.dies.fescue == .running then f p s else (reply .timeout 0, s)

/-- Bytes of 0x0400. -/
def linkStatusBytes (s : State) (o : OutletNo) : List Byte :=
  let n := s.veh.session.at o
  leBytes 4 (pilotStatus (s.veh.pilot.at o)).toNat ++ [BitVec.ofNat 8 n.phase, BitVec.ofNat 8 n.proto.toNat, 0, 0]
    ++ leBytes 8 n.sid.toNat ++ leBytes 8 n.auth.toNat ++ leBytes 4 n.agreed

def vehicleLinkStatus (c : Cmd) : State → State := 
  runCmd 0x0400 c <| onFescue fun _ s => (okWith (linkStatusBytes s (obj 63 c)), s)

def execVehicleLinkStatus (cmd : Cmd) (s : State) : Host.Outcome State Fault Refusal := done (vehicleLinkStatus cmd s)

/-! ### Configuration (R227, R239) -/

/-- The protocols that link word 0 enables have their key map entry (R227). -/
def keysFor (s : State) (w : Word) : Bool :=
  (!wBit w 13 || s.veh.keyMap.at 0 != 0xFFFF) && (!wBit w 12 || s.veh.keyMap.at 1 != 0xFFFF)

/-- Link word 0 of an outlet holds permitted values (R239). -/
def linkWord0Ok (s : State) (o : OutletNo) (w : Word) : Bool :=
  let iMax := wFld w 25 7
  (iMax = 0 || within 6 80 iMax) && within 1 15 (wFld w 21 4) && within 1 20 (wFld w 16 5) && !wBit w 8
    && within 1 250 (wFld w 0 8) && (acceptedType s o ≠ 3 || wBit w 9) && keysFor s w

/-- Link word 1 holds permitted values. -/
def linkWord1Ok (w : Word) : Bool := decide (w.toNat ≤ 80)

/-- The module link word holds permitted values. -/
def moduleLinkOk (w : Word) : Bool := wFld w 16 16 = 0 && within 2 40 (wFld w 0 8) && within 10 80 (wFld w 8 8)

/-- Some outlet enables a protocol, in its word as written last or in force. -/
def protocolOn (s : State) (bit : Nat) : Bool :=
  outlets.any fun o => wBit (s.veh.pilot.at o).word0.written bit || wBit (linkWord s o) bit

/-- An entry of a key map is accepted. -/
def keyEntryOk (s : State) (entry n : Nat) : Bool :=
  if n = 0xFFFF then !(entry = 0 && protocolOn s 13) && !(entry = 1 && protocolOn s 12)
  else match namedSlot s n with
    | some x => fitsMap entry x.key
    | none => false

/-- The entries of a key map as carried. -/
def mapEntries (p : List Byte) : List Nat := (List.range 8).map fun k => leAt p (4 + 2 * k) 2

def configureLink (c : Cmd) (p : List Byte) (s : State) : Reply × State :=
  let sel := byteAt p 0
  let w0 := BitVec.ofNat 32 (leAt p 4 4)
  let w1 := BitVec.ofNat 32 (leAt p 8 4)
  let head : List (Nat × Bool) := [(0, sel ≤ 2 && reserved3 p)]
  match sel with
  | 0 =>
    let o := obj 63 c
    checked 0x0410 c (head ++ [(1, linkWord0Ok s o w0), (2, linkWord1Ok w1)])
      (fun s => (pendingReply, s.onPilot o fun x => { x with word0 := x.word0.write w0, word1 := x.word1.write w1 })) s
  | 1 => checked 0x0410 c (head ++ [(1, moduleLinkOk w0)]) (fun s => (pendingReply, { s with veh.module := s.veh.module.write w0 })) s
  | _ =>
    checked 0x0410 c (head ++ numbered (fun k n => (1 + k / 2, keyEntryOk s k n)) 0 (mapEntries p))
      (fun s => (okReply, { s with veh.keyMap := s.veh.keyMap.mapN fun k _ => BitVec.ofNat 16 ((mapEntries p).getD k 0xFFFF) })) s

/-- The key map is the control die's; the link words are Fescue's. -/
def vehicleLinkConfiguration (c : Cmd) : State → State :=
  runCmd 0x0410 c fun p s => if byteAt p 0 = 2 then acts (configureLink c) p s else onFescue (configureLink c) p s

def execVehicleLinkConfiguration (cmd : Cmd) (s : State) : Host.Outcome State Fault Refusal :=
  done (vehicleLinkConfiguration cmd s)

def loadLimit (c : Cmd) : State → State :=
  runCmd 0x0411 c <| onFescue fun p s =>
    checked 0x0411 c [(0, byteAt p 0 ≤ 80 && reserved3 p)]
      (fun s => (pendingReply, s.onPilot (obj 63 c) fun x => { x with word1 := x.word1.write (BitVec.ofNat 32 (byteAt p 0)) })) s

def execLoadLimit (cmd : Cmd) (s : State) : Host.Outcome State Fault Refusal := done (loadLimit cmd s)

/-- A change of session mode: at once, or pending while a session is in progress (R42). -/
def setSessionMode (o : OutletNo) (ha : Bool) (s : State) : Reply × State :=
  if inSession s o && s.veh.ha.at o != ha then (pendingReply, { s with veh.haPend := s.veh.haPend.put o (some ha) })
  else (okReply, { s with veh.ha := s.veh.ha.put o ha, veh.haPend := s.veh.haPend.put o none })

def sessionMode (c : Cmd) : State → State :=
  runCmd 0x0412 c <| acts fun p s =>
    checked 0x0412 c [(0, byteAt p 0 ≤ 1 && reserved3 p)] (setSessionMode (obj 63 c) (byteAt p 0 == 1)) s

def execSessionMode (cmd : Cmd) (s : State) : Host.Outcome State Fault Refusal := done (sessionMode cmd s)

/-! ### Answers of host software (R236, R367) -/

/-- A late answer: counted and reported (R367). -/
def lateAnswer (aerial : Option AerialNo) (s : State) : Reply × State :=
  (refusedReply 1, raise 86 (aerialIndex aerial) 0 [] { s with veh.lateAnswers := satAdd 32 s.veh.lateAnswers 1 })

/-- Schedules of a policy answer: entries of 12 bytes, a start offset of 0 beginning each, 3 of 24 entries at most. -/
def schedulesOk : Nat → Nat → Nat → List Byte → Bool
  | 0, _, _, l => l.isEmpty
  | _ + 1, _, _, [] => true
  | n + 1, made, entries, l =>
    let start := leAt l 0 4 = 0
    let made := if start then made + 1 else made
    let entries := if start then 1 else entries + 1
    decide (12 ≤ l.length) && within 1 3 made && entries ≤ 24 && schedulesOk n made entries (l.drop 12)

/-- A request with this identifier, outlet and kind. -/
def matchesRequest (o : OutletNo) (id kind : Nat) (r : PolicyRequest) : Bool :=
  r.id.toNat == id && r.outlet == o && r.kind == kind

def answerPolicy (c : Cmd) (p : List Byte) (s : State) : Reply × State :=
  let o := obj 63 c
  let id := leAt p 0 4
  let kind := byteAt p 4
  let bulk := bulkOf 0x0420 c s
  checked 0x0420 c [(1, kind ≤ 3 && byteAt p 5 ≤ 1 && leAt p 6 2 == 0)]
    (fun s =>
      if !schedulesOk 72 0 0 bulk then (rangeAt 0xFFFF, s)
      else match s.veh.policies.find? (matchesRequest o id kind) with
        | some r =>
          (okReply, policyAnswered r (byteAt p 5 == 1) bulk
            { s with veh.policies := s.veh.policies.filter fun x => x.id != r.id })
        | none =>
          match s.veh.expired.find? (matchesRequest o id kind) with
          | some r => lateAnswer r.aerial s
          | none => (refusedReply 2, s)) s

def policyAnswer (c : Cmd) : State → State := runCmd 0x0420 c <| acts (answerPolicy c)

def execPolicyAnswer (cmd : Cmd) (s : State) : Host.Outcome State Fault Refusal := done (policyAnswer cmd s)

/-- The host's answer to a certificate request goes back to the vehicle (R228). -/
def answerCertificate (c : Cmd) (p : List Byte) (s : State) : Reply × State :=
  let o := obj 63 c
  let id := leAt p 0 4
  let body := bulkOf 0x0421 c s
  checked 0x0421 c [(1, byteAt p 4 ≤ 1 && leAt p 5 3 == 0)]
    (fun s =>
      if 8192 < body.length then (rangeAt 0xFFFF, s)
      else if (match (s.veh.session.at o).cert with
          | some (n, _) => n.toNat == id
          | none => false) then
        (okReply, s.onSession o fun n =>
          { n with cert := none, answer := some (if byteAt p 4 = 1 then .body body else .failed) })
      else if s.veh.expiredCerts.any fun x => x.1.toNat == id && x.2 == o then lateAnswer none s
      else (refusedReply 2, s)) s

def certificateAnswer (c : Cmd) : State → State := runCmd 0x0421 c <| acts (answerCertificate c)

def execCertificateAnswer (cmd : Cmd) (s : State) : Host.Outcome State Fault Refusal := done (certificateAnswer cmd s)

/-- An end session enters phase 7, and Fescue sends the open request. -/
def endSession (c : Cmd) : State → State :=
  runCmd 0x0422 c <| onFescue fun p s =>
    checked 0x0422 c [(0, byteAt p 0 ≤ 2 && reserved3 p)]
      (fun s =>
        let n := (s.veh.session.at (obj 63 c)).phase
        if n = 0 || n = 9 then (refusedReply 3, s) else (okReply, stopSession (obj 63 c) s)) s

def execEndSession (cmd : Cmd) (s : State) : Host.Outcome State Fault Refusal := done (endSession cmd s)

end Sys2Proof.Machine
end

