-- ==== Sys2Proof/Machine/Pilot.lean ====
section
/-! DEFINITION. Pilot periods and filtered states, proximity, the withdrawal of an offer, and SLAC (R206 to R220, R229, R232,
R255, R256). -/

namespace Sys2Proof.Machine

/-! ### Classes (R209, R210) -/

/-- The rank of a class from high voltage to low: above A, A to E, the gap, F. -/
def classRank : PilotClass → Option Nat
  | .A => some 1
  | .B => some 2
  | .C => some 3
  | .D => some 4
  | .E => some 5
  | .F => some 7
  | .invalid => none

/-- The limits between ranks 0 to 7, mV. -/
def classLimit (k : Nat) : Int :=
  match k with
  | 0 => 13500
  | 1 => 10500
  | 2 => 7500
  | 3 => 4500
  | 4 => 1500
  | 5 => -1500
  | _ => -10500

/-- A limit, moved 0.2 V away from the class of the previous period. Above rank 0 and in the gap the class is Invalid, whose
two ranges are told apart by the plateau before. -/
def movedLimit (before : Option Nat) (k : Nat) : Int :=
  match before with
  | some r => if r = k then classLimit k - 200 else if r = k + 1 then classLimit k + 200 else classLimit k
  | none => classLimit k

/-- The class of each rank. -/
def rankClass (k : Nat) : PilotClass :=
  match k with
  | 1 => .A
  | 2 => .B
  | 3 => .C
  | 4 => .D
  | 5 => .E
  | 7 => .F
  | _ => .invalid

/-- The rank of a plateau: a value on a limit falls below it. -/
def rankOf (before : Option Nat) (mv : Rat) : Nat :=
  ((List.range 7).filter fun k => decide (mv ≤ (movedLimit before k : Rat))).length

/-- The rank of the period before, from its class and plateau. -/
def rankBefore (p : Pilot) : Option Nat :=
  match p.cls with
  | some .invalid => some (if 0 < p.vpos then 0 else 6)
  | some c => classRank c
  | none => none

/-- The drive is PWM, in which the diode is checked. -/
def pwm (p : Pilot) : Bool := p.drive == 2

/-- Samples from 8 µs after the first of a part of a period to 2 µs before its end, at 2 MS/s (R208). -/
def plateauOf (part : List Int) : Rat := meanOf (((part.drop 16).dropLast.dropLast.dropLast.dropLast).map fun (v : Int) => (v : Rat))

/-- The positive plateau of a period's samples: over the high time in PWM, whose unit of 0.05 % is one sample, and over the
whole period in another drive. -/
def positivePlateau (p : Pilot) (samples : List Int) : Rat :=
  if pwm p then plateauOf (samples.take p.duty) else meanOf (samples.map fun (v : Int) => (v : Rat))

/-- The negative plateau: over the low time. -/
def negativePlateau (p : Pilot) (samples : List Int) : Rat := plateauOf (samples.drop p.duty)

/-- A period with these samples: class, diode, and for how many periods the class has held. None is formed in −12 V drive, and
none is classified in three-state (R208, R211). -/
def measurePeriod (samples : List Int) (p : Pilot) : Pilot :=
  let vpos := positivePlateau p samples
  let q := { p with vpos := if p.drive = 3 then p.vpos else vpos }
  if p.drive = 0 || p.drive = 3 then { q with cls := none, held := 0 }
  else
    let c := rankClass (rankOf (rankBefore p) vpos)
    let vehicle := c == .B || c == .C || c == .D
    let diode := decide (negativePlateau p samples ≤ -10500)
    let seen := if pwm p && vehicle && !diode then PilotClass.E else c
    { q with cls := some seen, held := if p.cls = some seen then p.held + 1 else 1,
             diodeOk := if pwm p && vehicle then diode else p.diodeOk }

/-! ### The pilot boundary (R109, R207, R239) -/

/-- Link words commit; those of the module at the boundary of outlet 0. -/
def commitLink (o : OutletNo) (s : State) : State :=
  let s := s.onPilot o fun p => { p with word0 := p.word0.commit, word1 := p.word1.commit }
  if o = 0 then { s with veh.module := s.veh.module.commit } else s

/-- The waiting drive takes effect. A fall of the offer on an energised outlet is remembered (R215). While Fescue drives
−12 V, the state is F and is no filtered change (R211). -/
def commitDrive (o : OutletNo) (s : State) : State :=
  match (s.veh.pilot.at o).next with
  | none => s
  | some (d, duty) =>
    let on := (s.rus.pair.at (coilOf o)).cmd
    let s := s.onPilot o fun p =>
      { p with drive := d, duty := duty, next := none, withdrawn := p.drive == 2 && d == 1 && on,
               cls := if d = 3 || d = 0 then none else p.cls, held := if d = 3 || d = 0 then 0 else p.held,
               state := if d = 3 then .F else p.state, inval := p.inval && d != 3 }
    if d = 3 then s.onGuard o fun g => { g with pilot := .F } else s

/-- A PWM period of an outlet ends. Settings accepted too late wait for the next (R111). -/
def pilotBoundary (o : OutletNo) (samples : List Int) (late : Bool) (s : State) : State :=
  if s.dies.fescue != .running then s
  else
    let s := s.onPilot o (measurePeriod samples)
    commitDrive o (refreshDrive o (if late then s else commitLink o s))

def execPilotBoundary (outlet : OutletNo) (samples : List Int) (late : Bool) (s : State) :
    Host.Outcome State Fault Refusal := done (pilotBoundary outlet samples late s)

/-! ### Filtered states (R207, R211, R229, R232, R255, R256) -/

/-- The state that a class gives. -/
def stateOf : PilotClass → PilotState
  | .A => .A
  | .B => .B
  | .C => .C
  | .D => .D
  | .E => .E
  | .F => .F
  | .invalid => .E

/-- A pending duty is discarded by a change to A, E or F (R207). -/
def discardDuty (o : OutletNo) (s : State) : State :=
  s.onPilot o fun p =>
    match p.next with
    | some (2, d) => if p.drive = 2 && d = p.duty then p else { p with next := none, dutyDisc := true }
    | _ => p

/-- PROX_CODE shows a plugged cable (R256). -/
def proxPlugged (p : Pilot) : Bool := within 1 5 p.prox.toNat

/-- The session runs in basic form: no protocol, or an AC session held in hardware mode. -/
def basicForm (s : State) (o : OutletNo) : Bool :=
  let n := s.veh.session.at o
  n.proto == 0 || (n.held && isAc s o)

/-- The vehicle has gone: the session ends, and what belonged to the association is discarded (R220, R229). -/
def unplugged (o : OutletNo) (s : State) : State :=
  let s := endSessionNow o s
  let keep := (s.veh.grant.at o).filter fun g => !g.whilePlugged
  refreshDrive o { s with
    veh.slac.vehicle := s.veh.slac.vehicle.put o none, veh.slac.nmk := s.veh.slac.nmk.put o none,
    veh.slac.answering := s.veh.slac.answering.put o none, veh.slac.left := s.veh.slac.left.put o false,
    veh.grant := s.veh.grant.put o keep }

/-- The vehicle is no longer ready: an energised pair opens; a high-level session stops, a basic one pauses (R229, R232). -/
def notReady (o : OutletNo) (s : State) : State :=
  let n := s.veh.session.at o
  let s := if (s.rus.pair.at (coilOf o)).cmd then fescueOpen o s else s
  if !basicForm s o && (n.phase = 5 || n.phase = 6) then stopSession o s else s

/-- What a change of the filtered state does to the session. -/
def sessionOnState (o : OutletNo) (old new : PilotState) (s : State) : State :=
  let n := s.veh.session.at o
  let wasReady := old == .C || old == .D
  match new with
  | .A => unplugged o s
  | .B =>
    let s := if wasReady then notReady o s else s
    if (old == .A || old == .F) && (n.phase = 0 || n.phase = 9) then plugged o s else s
  | .C | .D => if wasReady then s else nowReady o s
  | _ => s

/-- Russet's decisions on a report (R255, R256). -/
def judgeReport (o : OutletNo) (old new : PilotState) (s : State) : State :=
  if s.dies.russet != .running || !(s.rus.pair.at (coilOf o)).cmd then s
  else match new with
    | .E => tripP o 0x07 false s
    | .F => tripP o 0x08 false s
    | .A => if (old == .C || old == .D) && proxPlugged (s.veh.pilot.at o) then tripP o 0x09 false s else s
    | _ => s

/-- The DATA of source 32 (R554). -/
def stateData (p : Pilot) : List Byte :=
  [BitVec.ofNat 8 (pilotCode p.state), if p.inval then 1 else 0] ++ leInt 2 (toCount (p.vpos / 40))

/-- The filtered state changes and is reported to Russet. -/
def changeState (o : OutletNo) (new : PilotState) (inval : Bool) (s : State) : State :=
  let old := (s.veh.pilot.at o).state
  let now := s.och.clock.mono
  let s := s.onPilot o fun p =>
    { p with state := new, inval := inval, aToB := if old == .A && new == .B then some now else p.aToB }
  let s := s.onGuard o fun g => { g with pilot := new }
  let s := raise 32 o.val 0 (stateData (s.veh.pilot.at o)) s
  let s := if new == .A || new == .E || new == .F then discardDuty o s else s
  refreshDrive o (sessionOnState o old new (judgeReport o old new s))

/-- A class has held for its filter time: N_FILT periods for A to D, EF_FILT for the others (R211, R239). -/
def filterDone (p : Pilot) (c : PilotClass) : Bool :=
  p.cls == some c &&
    (if c == .A || c == .B || c == .C || c == .D then decide (wFld p.word0.now 21 4 ≤ p.held)
     else decide (wFld p.word0.now 16 5 ≤ 2 * p.held))

/-- A class reaches its filter time. While Fescue drives −12 V or, in service, three-state, nothing is classified; the standby
takes the states forwarded by the active module (R211, R486). -/
def filteredChange (o : OutletNo) (c : PilotClass) (s : State) : State :=
  let p := s.veh.pilot.at o
  let forwarded := servingRole s == .standby && !s.pair.carry.at o
  let measured := (p.drive = 1 || p.drive = 2) && filterDone p c
  let inval := c == .invalid
  if s.dies.fescue != .running || !(forwarded || measured) then s
  else if p.state = stateOf c then s.onPilot o fun p => { p with inval := inval }
  else changeState o (stateOf c) inval s

def execFilteredStateChange (outlet : OutletNo) (cls : PilotClass) (s : State) : Host.Outcome State Fault Refusal :=
  done (filteredChange outlet cls s)

/-! ### Proximity (R212, R213) -/

/-- A resistance lies in a band; on a limit it falls in the lower band. -/
def inBand (lo hi r : Nat) : Bool := decide (lo < r) && decide (r ≤ hi)

/-- PROX_CODE of a resistance, none for an open input. -/
def proxCode (plug : Bool) (ohms : Option Nat) : Nat :=
  match ohms with
  | none => 0
  | some r =>
    if 4500 < r then 0
    else if plug then (if r ≤ 400 then 5 else if r ≤ 2700 then 6 else 7)
    else if inBand 1100 2460 r then 1
    else if inBand 400 936 r then 2
    else if inBand 164 308 r then 3
    else if inBand 80 140 r then 4
    else 7

/-- A new code on an energised outlet that ends the session (R213). -/
def proxStops (code : Nat) : Bool := code == 0 || code == 6 || code == 7

/-- Start of the module's measurement window in each 1 ms of the epoch grid, µs: 0 in Solo service and on module A, 500 on
module B, and 250 later for each move (R570). -/
def proxWindow (s : State) : Nat := ((if positionCode s = 2 then 500 else 0) + 250 * s.veh.proxMoves) % 1000

/-- The sample before the window shows another source, while the peer is not seen: the measurement does not count. -/
def proxDiscarded (s : State) (r : ProxRead) : Bool := !s.pair.peerSeen && decide (200 < r.before)

/-- Each discarded measurement moves the window by 250 µs. -/
def moveWindow (reads : List ProxRead) (s : State) : State :=
  { s with veh.proxMoves := s.veh.proxMoves + (reads.filter (proxDiscarded s)).length }

/-- The code that ten consecutive measurements share. -/
def proxAgreed (plug : Bool) (reads : List ProxRead) : Option Nat :=
  let codes := reads.map fun r => proxCode plug r.ohms
  match codes with
  | c :: cs => if 10 ≤ codes.length && cs.all (· == c) then some c else none
  | [] => none

/-- Ten measurements in a new band, those discarded apart. -/
def proxChange (o : OutletNo) (reads : List ProxRead) (s : State) : State :=
  let kept := reads.filter fun r => !proxDiscarded s r
  let code := (proxAgreed (wBit (linkWord s o) 15) kept).getD (s.veh.pilot.at o).prox.toNat
  if s.dies.fescue != .running then s
  else if (s.veh.pilot.at o).prox.toNat = code then moveWindow reads s
  else
    let s := moveWindow reads s
    let s := s.onPilot o fun p => { p with prox := BitVec.ofNat 3 code }
    let s := raise 33 o.val 0 [BitVec.ofNat 8 code] s
    let s := if proxStops code && (s.rus.pair.at (coilOf o)).cmd then stopSession o (fescueOpen o s) else s
    refreshDrive o s

def execProxCodeChange (outlet : OutletNo) (reads : List ProxRead) (s : State) : Host.Outcome State Fault Refusal :=
  done (proxChange outlet reads s)

/-- 5 s after an energised outlet's offer fell below 6 A (R215). -/
def offerTimeout (o : OutletNo) (s : State) : State :=
  if s.dies.fescue = .running && (s.veh.pilot.at o).withdrawn && (s.rus.pair.at (coilOf o)).cmd then
    (fescueOpen o s).onPilot o fun p => { p with withdrawn := false }
  else s

def execOfferWithdrawalTimeout (outlet : OutletNo) (s : State) : Host.Outcome State Fault Refusal :=
  done (offerTimeout outlet s)

/-! ### SLAC (R216 to R220) -/

/-- The drive of an outlet, in the standby the one that its shadow session wants (R486). -/
def driveSeen (s : State) (o : OutletNo) : BitVec 2 × Nat :=
  let p := s.veh.pilot.at o
  if servingRole s == .standby then wish s o else (p.drive, p.duty)

/-- The outlet is a candidate (R217). -/
def candidate (s : State) (o : OutletNo) : Bool :=
  let st := (s.veh.pilot.at o).state
  (st == .B || st == .C || st == .D) && driveSeen s o == (2, 100) && (s.veh.slac.vehicle.at o).isNone
    && !s.veh.slac.left.at o && s.dies.fescue == .running

/-- A run identifier's profiles. -/
def slacRun (s : State) (run : BitVec 64) : Option SlacRun := s.veh.slac.runs.find? fun r => r.run == run

/-- A SLAC message on a candidate's line. -/
def slacMessage (o : OutletNo) (m : SlacMsg) (s : State) : State :=
  if !candidate s o then s
  else match m with
    | .parmReq run mac =>
      if (slacRun s run).isSome then s
      else { s with veh.slac.runs := s.veh.slac.runs ++ [{ run := run, mac := mac, profiles := [] }] }
    | .profile run groups =>
      { s with veh.slac.runs := s.veh.slac.runs.map fun r =>
          if r.run == run then { r with profiles := (r.profiles.filter fun p => p.1 != o) ++ [(o, groups)] } else r }
    | .startAtten _ | .sound _ | .validate => s

def execSlacMessage (outlet : OutletNo) (msg : SlacMsg) (s : State) : Host.Outcome State Fault Refusal :=
  done (slacMessage outlet msg s)

/-- The mean of a profile's group attenuations, dB (R217). -/
def meanAttenuation (groups : List Byte) : Rat := meanOf (groups.map fun b => (b.toNat : Rat))

/-- The candidates of a run identifier within ATT_MAX, with their means. -/
def withinMax (s : State) (r : SlacRun) : List (OutletNo × Rat) :=
  (r.profiles.map fun p => (p.1, meanAttenuation p.2)).filter fun p =>
    candidate s p.1 && decide (p.2 ≤ (wFld s.veh.module.now 8 8 : Rat))

/-- The candidate with the lowest mean. -/
def bestOf : List (OutletNo × Rat) → Option (OutletNo × Rat)
  | [] => none
  | x :: xs =>
    match bestOf xs with
    | some y => if y.2 < x.2 then some y else some x
    | none => some x

/-- The outlet that alone answers, none where none does; the margin is in 0.5 dB (R218, R239). -/
def clearBest (margin : Nat) (l : List (OutletNo × Rat)) : Option OutletNo :=
  match bestOf l with
  | none => none
  | some b =>
    match bestOf (l.filter fun p => p.1 != b.1) with
    | none => some b.1
    | some n => if (margin : Rat) / 2 ≤ n.2 - b.2 then some b.1 else none

/-- Chosen to answer a vehicle's run identifier. -/
def answerOn (o : OutletNo) (run : BitVec 64) (mac : BitVec 48) (s : State) : State :=
  { s with veh.slac.answering := s.veh.slac.answering.put o (some (run, mac)) }

/-- No outlet answers a vehicle's earlier run identifiers. -/
def forgetAnswers (mac : BitVec 48) (s : State) : State :=
  { s with veh.slac.answering := s.veh.slac.answering.each fun a =>
      a.filter fun x => x.2 != mac }

/-- The candidate whose A-to-B change is the latest, and lies in the 60 s before a moment (R219). -/
def lastPlugged (s : State) (first : Nat) (cands : List OutletNo) : Option OutletNo :=
  let at_ (o : OutletNo) : Nat := ((s.veh.pilot.at o).aToB).getD 0
  cands.find? fun o =>
    (s.veh.pilot.at o).aToB.isSome && decide (first ≤ at_ o + 60000000) && decide (at_ o ≤ first)
      && cands.all fun p => p == o || decide (at_ p < at_ o)

/-- One more ambiguous run identifier of a vehicle; the third in succession with one set of candidates is resolved. -/
def ambiguous (run : BitVec 64) (mac : BitVec 48) (cands : List OutletNo) (s : State) : State :=
  let s := { s with veh.slac.ambiguousCount := satAdd 32 s.veh.slac.ambiguousCount 1 }
  let before := s.veh.slac.ambiguous.find? fun a => a.mac == mac && a.cands == cands
  let others := s.veh.slac.ambiguous.filter fun a => a.mac != mac
  let a : Ambiguity := match before with
    | some a => { a with count := a.count + 1 }
    | none => { mac := mac, count := 1, cands := cands, first := s.och.clock.mono }
  let s := cands.foldl (fun s o => raise 34 o.val 1 [] s) s
  if a.count < 3 then { s with veh.slac.ambiguous := others ++ [a] }
  else
    let s := { s with veh.slac.ambiguous := others }
    match lastPlugged s a.first cands with
    | some o => answerOn o run mac s
    | none => s

/-- The sounding interval of a run identifier ends (R218). -/
def soundingEnd (run : BitVec 64) (s : State) : State :=
  match slacRun s run with
  | none => s
  | some r =>
    let s := forgetAnswers r.mac { s with veh.slac.runs := s.veh.slac.runs.filter fun x => x.run != run }
    let l := withinMax s r
    let cleared := { s with veh.slac.ambiguous := s.veh.slac.ambiguous.filter fun a => a.mac != r.mac }
    match clearBest (wFld s.veh.module.now 0 8) l with
    | some o => answerOn o run r.mac cleared
    | none => if l.isEmpty then cleared else ambiguous run r.mac ((outlets).filter fun o => l.any fun p => p.1 == o) s

def execSlacSoundingEnd (run : BitVec 64) (s : State) : Host.Outcome State Fault Refusal := done (soundingEnd run s)

/-- Another outlet uses a network key (R220). -/
def keyTaken (s : State) (o : OutletNo) (nmk : BitVec 128) : Bool := outlets.any fun p => p != o && s.veh.slac.nmk.at p == some nmk

/-- A match of the run identifier that the outlet answers completes under the lease: phase 2, where a core can carry the session
(R218, R220, R229, R496). -/
def slacMatch (o : OutletNo) (run : BitVec 64) (nmk : BitVec 128) (s : State) : State :=
  match s.veh.slac.answering.at o with
  | none => s
  | some (asked, mac) =>
    if asked ≠ run || keyTaken s o nmk || !leaseHeld s then s
    else
    let s := { s with veh.slac.vehicle := s.veh.slac.vehicle.put o (some mac), veh.slac.nmk := s.veh.slac.nmk.put o (some nmk),
                      veh.slac.answering := s.veh.slac.answering.put o none }
    let s := raise 34 o.val 0 [] s
    if (s.veh.session.at o).phase = 1 && coreUp s o && sessionsStart s then setPhase o 2 s else s

def execSlacMatch (outlet : OutletNo) (run : BitVec 64) (nmk : BitVec 128) (s : State) : Host.Outcome State Fault Refusal :=
  done (slacMatch outlet run nmk s)

/-- 60 s in state B without association (R219). -/
def slacTimeout (o : OutletNo) (s : State) : State :=
  if !candidate s o || (s.veh.pilot.at o).state != .B then s
  else
    let s := raise 34 o.val 2 [] { s with veh.slac.left := s.veh.slac.left.put o true }
    if isDc s o then refreshDrive o (s.onPilot o fun p => { p with dcRestart := true })
    else refreshDrive o (useHeld o s)

def execSlacTimeout (outlet : OutletNo) (s : State) : Host.Outcome State Fault Refusal := done (slacTimeout outlet s)

/-- A DC outlet restarts at 5 % after 3 s of −12 V. -/
def slacRestart (o : OutletNo) (s : State) : State :=
  if !(s.veh.pilot.at o).dcRestart then s
  else refreshDrive o
    ({ s with veh.slac.left := s.veh.slac.left.put o false }.onPilot o fun p => { p with dcRestart := false })

def execDcSlacRestart (outlet : OutletNo) (s : State) : Host.Outcome State Fault Refusal := done (slacRestart outlet s)

end Sys2Proof.Machine
end

