-- ==== Sys2Proof/Machine/V2g.lean ====
section
/-! DEFINITION. High-level communication with the vehicle: its requests and their answers, transport security, policy and
certificate timeouts, and the session cores (R221 to R238, R540, R541, R606). -/

namespace Sys2Proof.Machine

/-! ### A request is served (R222, R223, R229) -/

/-- A session core serves the outlet: associated, not held, its core and Millet running. -/
def v2gRuns (s : State) (o : OutletNo) : Bool :=
  let n := s.veh.session.at o
  controlRuns s && !milletSilent s && coreUp s o && within 2 8 n.phase && !n.held

/-- Protocol codes of 0x0400. -/
def protoCode : Proto → Nat
  | .din => 1
  | .iso2 => 2
  | .iso20 => 3

/-- Link bit that enables a protocol (R239). -/
def protoBit : Proto → Nat
  | .din => 14
  | .iso2 => 13
  | .iso20 => 12

/-- The protocol in force, as a number. -/
def protoOf (s : State) (o : OutletNo) : Nat := (s.veh.session.at o).proto.toNat

def sessionPhase (s : State) (o : OutletNo) : Nat := (s.veh.session.at o).phase

/-- An answer to the vehicle. -/
def sendAnswer (o : OutletNo) (a : V2gAnswer) (s : State) : State := s.onSession o fun n => { n with answer := some a }

/-- A suite belongs to TLS 1.3. -/
def isTls13 (x : CipherSuite) : Bool := x == .aes128Gcm || x == .aes256Gcm

/-- The transport that a protocol admits: none for DIN SPEC 70121, TLS 1.2 or none for ISO 15118-2, TLS 1.3 for ISO 15118-20,
and any before the protocol is chosen (R221, R226). -/
def transportOk (proto : Nat) (tls : Option CipherSuite) : Bool :=
  match proto with
  | 0 => true
  | 1 => tls.isNone
  | 2 => !(tls.any isTls13)
  | _ => tls.any isTls13

/-- A request of a message that these protocols have, in these phases and over a transport that the protocol admits; otherwise
the failure code is sent and the session ends. -/
def request (o : OutletNo) (protos phases : List Nat) (act : State → State) (s : State) : State :=
  if !v2gRuns s o then s
  else
    let p := protoOf s o
    if protos.contains p && phases.contains (sessionPhase s o) && transportOk p (s.veh.session.at o).tls then act s
    else v2gEnd o .failed s

/-- An act of a message that needs a condition. -/
def requiring (o : OutletNo) (ok : State → Bool) (act : State → State) (s : State) : State :=
  if ok s then act s else v2gEnd o .failed s

/-- Contract authorisation is offered: PNC_EN, and TLS in force (R221). -/
def offersContract (s : State) (o : OutletNo) : Bool :=
  wBit (linkWord s o) 11 && 2 ≤ protoOf s o && (s.veh.session.at o).tls.isSome

/-- Bidirectional services are offered (R221). -/
def offersBpt (s : State) (o : OutletNo) : Bool := wBit (linkWord s o) 10 && protoOf s o = 3

/-- The protocol has the outlet's energy transfer: DIN SPEC 70121 has none for AC (R221). -/
def transferOk (s : State) (o : OutletNo) : Bool := isDc s o || 2 ≤ protoOf s o

/-- A service is offered (R221, R222). -/
def offersService (s : State) (o : OutletNo) (v : V2gService) : Bool :=
  match v with
  | .ac => isAc s o && 2 ≤ protoOf s o
  | .dc => isDc s o
  | .acBpt => isAc s o && offersBpt s o
  | .dcBpt => isDc s o && offersBpt s o
  | .certificate => 2 ≤ protoOf s o
  | .valueAdded => false

/-! ### Session setup and services -/

/-- The first enabled protocol of a ranking. -/
def chosenProto (s : State) (o : OutletNo) (ranking : List Proto) : Option Proto :=
  ranking.find? fun p => wBit (linkWord s o) (protoBit p)

def supportedAppProtocol (o : OutletNo) (ranking : List Proto) : State → State :=
  request o [0] [2] fun s =>
    match chosenProto s o ranking with
    | some p => sendAnswer o (.proto p) (s.onSession o fun n => { n with proto := BitVec.ofNat 2 (protoCode p) })
    | none => v2gEnd o .failed s

def execV2gSupportedAppProtocol (outlet : OutletNo) (ranking : List Proto) (s : State) :
    Host.Outcome State Fault Refusal := done (supportedAppProtocol outlet ranking s)

def sessionSetup (o : OutletNo) : State → State := request o [1, 2, 3] [2] (sendAnswer o .ok)

def execV2gSessionSetup (outlet : OutletNo) (s : State) : Host.Outcome State Fault Refusal := done (sessionSetup outlet s)

def serviceDiscovery (o : OutletNo) : State → State :=
  request o [1, 2, 3] [2, 3] fun s =>
    sendAnswer o (.services (isDc s o) (offersBpt s o) (offersContract s o) (2 ≤ protoOf s o) (protoOf s o == 2)) s

def execV2gServiceDiscovery (outlet : OutletNo) (s : State) : Host.Outcome State Fault Refusal :=
  done (serviceDiscovery outlet s)

def serviceDetail (o : OutletNo) (v : V2gService) : State → State :=
  request o [2, 3] [2, 3] (requiring o (offersService · o v) (sendAnswer o .ok))

def execV2gServiceDetail (outlet : OutletNo) (service : V2gService) (s : State) : Host.Outcome State Fault Refusal :=
  done (serviceDetail outlet service s)

def serviceSelection (o : OutletNo) (v : V2gService) (contract : Bool) : State → State :=
  request o [1, 2, 3] [2, 3] (requiring o (fun s => offersService s o v && (!contract || offersContract s o)) fun s =>
    sendAnswer o .ok (s.onSession o fun n => { n with contract := contract, bpt := v == .acBpt || v == .dcBpt }))

def execV2gServiceSelection (outlet : OutletNo) (service : V2gService) (contract : Bool) (s : State) :
    Host.Outcome State Fault Refusal := done (serviceSelection outlet service contract s)

/-! ### Authorisation (R228) -/

/-- The authorisation reference of a contract. -/
def contractRef (id : List Byte) : BitVec 64 := BitVec.ofNat 64 (ofLe ((sha256 id).take 8))

/-- A root of the key map verifies: the first of these entries whose slot serves (R227, R461). -/
def verifyRoot (entries : List (Fin 8)) (s : State) : Bool × State :=
  match entries with
  | [] => (false, s)
  | k :: ks => match useMapped (s.veh.keyMap.at k) 1 30 s with
    | (true, t) => (true, t)
    | (false, t) => verifyRoot ks t

def paymentDetails (o : OutletNo) (id : List Byte) (chainOk : Bool) : State → State :=
  request o [2] [2] (requiring o (fun s => (s.veh.session.at o).contract && offersContract s o) fun s =>
    match verifyRoot [5, 6] s with
    | (ok, s) =>
      if ok && chainOk then sendAnswer o .ok (s.onSession o fun n => { n with auth := contractRef id, chained := true })
      else v2gEnd o .failed s)

def execV2gPaymentDetails (outlet : OutletNo) (contractId : List Byte) (chainOk : Bool) (s : State) :
    Host.Outcome State Fault Refusal := done (paymentDetails outlet contractId chainOk s)

def authorizationSetup (o : OutletNo) : State → State := request o [3] [2] (sendAnswer o .ok)

def execV2gAuthorizationSetup (outlet : OutletNo) (s : State) : Host.Outcome State Fault Refusal :=
  done (authorizationSetup outlet s)

/-- The contract's reference is decided by the rules of a card, once (R228, R364). -/
def authorizeContract (o : OutletNo) (ref : BitVec 64) (s : State) : State :=
  let s := sendAnswer o .ongoing (s.onSession o fun n => { n with contract := true, auth := ref })
  if asked s o .authorisation then s else present o ref 0 none s

/-- Authorisation by other means waits for a grant, or takes the one that is held. -/
def authorizeOther (o : OutletNo) (s : State) : State :=
  let s := sendAnswer o .ongoing s
  match s.veh.grant.at o with
  | some g => authorise o g.ref s
  | none => s

/-- The contract chain behind an authorisation request: verified in PaymentDetails, or carried by the request itself and
verified against entries 5 and 6 (R228). -/
def contractChain (o : OutletNo) (chainOk : Bool) (s : State) : Bool × State :=
  if protoOf s o = 2 then ((s.veh.session.at o).chained, s)
  else match verifyRoot [5, 6] s with
    | (ok, s) => (ok && chainOk, s)

/-- A contract asks for authorisation: offered, its signature and its chain verified. -/
def contractAsks (o : OutletNo) (sigOk chainOk : Bool) (id : List Byte) (s : State) : State :=
  if !sigOk || !offersContract s o then v2gEnd o .failed s
  else match contractChain o chainOk s with
    | (true, s) => authorizeContract o (if protoOf s o = 2 then (s.veh.session.at o).auth else contractRef id) s
    | (false, s) => v2gEnd o .failed s

/-- An Authorization or ContractAuthentication request. -/
def authorization (o : OutletNo) (sigOk chainOk : Bool) (id : List Byte) : State → State :=
  request o [1, 2, 3] [2, 3] <| requiring o (transferOk · o) fun s =>
    let n := s.veh.session.at o
    let contract := (n.proto = 2 && n.contract) || (n.proto = 3 && !id.isEmpty)
    if n.phase = 3 then sendAnswer o (if n.accepted then .ok else .ongoing) s
    else if contract then contractAsks o sigOk chainOk id s
    else authorizeOther o s

def execV2gAuthorization (outlet : OutletNo) (sigOk chainOk : Bool) (contractId : List Byte) (s : State) :
    Host.Outcome State Fault Refusal := done (authorization outlet sigOk chainOk contractId s)

/-! ### Parameters (R236, R606) -/

/-- The limit offered: the configured one, bounded by the host's. -/
def offeredLimit (s : State) (o : OutletNo) : Nat :=
  let full := configuredLimit s o
  match (s.veh.session.at o).hostLimit with
  | some l => min full l
  | none => full

/-- Schedules offered: at most three by host software, each beginning at offset 0, one by the module, and one at most for
DIN SPEC 70121. -/
def scheduleCount (s : State) (o : OutletNo) : Nat :=
  let b := (s.veh.session.at o).schedules
  let starts := ((List.range (b.length / 12)).filter fun k => leAt b (12 * k) 4 = 0).length
  max 1 (min starts (if protoOf s o = 1 then 1 else 3))

/-- A host decision of a kind is still to come, and is asked for once. -/
def waitFor (o : OutletNo) (kind : PolicyKind) (s : State) : State :=
  sendAnswer o .ongoing (if asked s o kind then s else askHost o kind 0 0 none (offeredLimit s o) s)

/-- ChargeParameterDiscovery: limits, and with DIN SPEC 70121 and ISO 15118-2 the schedules. -/
def parameters (o : OutletNo) (most : Nat) (s : State) : State :=
  if isDc s o && ratedAmps s o = 0 then v2gEnd o .failed s
  else
    let s := if sessionPhase s o = 3 then setPhase o 4 s else s
    if s.veh.ha.at o && (s.veh.session.at o).hostLimit.isNone then waitFor o .limits s
    else
      let limit := offeredLimit s o
      let s := s.onSession o fun n => { n with agreed := min limit most }
      sendAnswer o (if protoOf s o = 3 then .limit limit else .schedules (scheduleCount s o) limit) s

def chargeParameterDiscovery (o : OutletNo) (most : Nat) : State → State :=
  request o [1, 2, 3] [3, 4, 6] (requiring o (fun s => (s.veh.session.at o).accepted && transferOk s o) (parameters o most))

def execV2gChargeParameterDiscovery (outlet : OutletNo) (maxCurrent : Nat) (s : State) :
    Host.Outcome State Fault Refusal := done (chargeParameterDiscovery outlet maxCurrent s)

/-- Discharge is permitted by the module alone in hardware mode. -/
def settleDischarge (o : OutletNo) (s : State) : State :=
  if s.veh.ha.at o then s
  else s.onSession o fun n => { n with discharge := some n.bpt }

/-- ScheduleExchange, in scheduled or in dynamic control (R221). -/
def scheduleExchange (o : OutletNo) (dynamic : Bool) : State → State :=
  request o [3] [4, 6] fun s =>
    let s := settleDischarge o (s.onSession o fun n => { n with dynamic := dynamic })
    let n := s.veh.session.at o
    if n.bpt && n.discharge.isNone then waitFor o .discharge s
    else sendAnswer o (if dynamic then .dynamic (offeredLimit s o) else .schedules (scheduleCount s o) (offeredLimit s o)) s

def execV2gScheduleExchange (outlet : OutletNo) (dynamic : Bool) (s : State) : Host.Outcome State Fault Refusal :=
  done (scheduleExchange outlet dynamic s)

/-! ### Cable check to power delivery (R229) -/

/-- The filtered state is C or D. -/
def vehicleReady (s : State) (o : OutletNo) : Bool :=
  let st := (s.veh.pilot.at o).state
  st == .C || st == .D

def cableCheck (o : OutletNo) : State → State :=
  request o [1, 2, 3] [4, 5] (requiring o (isDc · o) fun s =>
    let s := if sessionPhase s o = 4 && vehicleReady s o then setPhase o 5 s else s
    sendAnswer o (if sessionPhase s o = 5 && pairOn s o then .ok else .ongoing) s)

def execV2gCableCheck (outlet : OutletNo) (s : State) : Host.Outcome State Fault Refusal := done (cableCheck outlet s)

def preCharge (o : OutletNo) : State → State :=
  request o [1, 2, 3] [5] (requiring o (fun s => isDc s o && pairOn s o) (sendAnswer o .ok))

def execV2gPreCharge (outlet : OutletNo) (s : State) : Host.Outcome State Fault Refusal := done (preCharge outlet s)

/-- PowerDelivery start: phase 6, after phase 4 on an AC outlet and phase 5 on a DC one. -/
def powerStart (o : OutletNo) : State → State :=
  requiring o (fun s => sessionPhase s o = (if isDc s o then 5 else 4) || sessionPhase s o = 6) fun s =>
    sendAnswer o .ok (if sessionPhase s o = 6 then s else setPhase o 6 s)

/-- PowerDelivery asks for a renegotiation: the host is asked for a change of schedule. -/
def renegotiate (o : OutletNo) : State → State :=
  requiring o (fun s => 2 ≤ protoOf s o && sessionPhase s o = 6) fun s =>
    let s := if s.veh.ha.at o && !asked s o .scheduleChange
      then askHost o .scheduleChange 0 0 none (offeredLimit s o) s else s
    sendAnswer o .ok s

def powerDelivery (o : OutletNo) (k : PowerKind) : State → State :=
  request o [1, 2, 3] [4, 5, 6, 7] fun s =>
    match k with
    | .start => powerStart o s
    | .stop => sendAnswer o .ok (stopSession o s)
    | .renegotiate => renegotiate o s

def execV2gPowerDelivery (outlet : OutletNo) (kind : PowerKind) (s : State) : Host.Outcome State Fault Refusal :=
  done (powerDelivery outlet kind s)

/-! ### Charge loops (R223, R235) -/

/-- Meter information of R223 and the current that the loop allows. -/
def loopAnswer (o : OutletNo) (current : Nat) (s : State) : State :=
  let t := (s.och.meter.at o).acc.totals
  let n := s.veh.session.at o
  sendAnswer o (.meter (countOf (t.at 0)) (countOf (t.at 1)) (min current (min n.agreed (offeredLimit s o)))) s

/-- A charge loop of protocols, for an AC or a DC outlet. -/
def chargeLoop (o : OutletNo) (protos : List Nat) (dc : Bool) (current : Nat) : State → State :=
  request o protos [6] (requiring o (fun s => isDc s o == dc) (loopAnswer o current))

def currentDemand (o : OutletNo) (current : Nat) : State → State := chargeLoop o [1, 2] true current

def execV2gCurrentDemand (outlet : OutletNo) (current : Nat) (s : State) : Host.Outcome State Fault Refusal :=
  done (currentDemand outlet current s)

/-- ChargingStatus asks for no current: the agreed one is answered. -/
def chargingStatus (o : OutletNo) (s : State) : State := chargeLoop o [2] false (s.veh.session.at o).agreed s

def execV2gChargingStatus (outlet : OutletNo) (s : State) : Host.Outcome State Fault Refusal :=
  done (chargingStatus outlet s)

def acChargeLoop (o : OutletNo) (current : Nat) : State → State := chargeLoop o [3] false current

def execV2gAcChargeLoop (outlet : OutletNo) (current : Nat) (s : State) : Host.Outcome State Fault Refusal :=
  done (acChargeLoop outlet current s)

def dcChargeLoop (o : OutletNo) (current : Nat) : State → State := chargeLoop o [3] true current

def execV2gDcChargeLoop (outlet : OutletNo) (current : Nat) (s : State) : Host.Outcome State Fault Refusal :=
  done (dcChargeLoop outlet current s)

def meteringReceipt (o : OutletNo) : State → State := request o [2, 3] [6, 7] (sendAnswer o .ok)

def execV2gMeteringReceipt (outlet : OutletNo) (s : State) : Host.Outcome State Fault Refusal :=
  done (meteringReceipt outlet s)

/-! ### The end of a session -/

/-- Uveh, mV: slot 6 of the last quantity frame. -/
def uvehNow (s : State) (o : OutletNo) : Int := toCount ((((s.rus.outlet.at o).window.head?.getD []).getD 6 0) / 1000)

def weldingDetection (o : OutletNo) : State → State :=
  request o [1, 2, 3] [7, 8] (requiring o (isDc · o) fun s =>
    sendAnswer o (.voltage (uvehNow s o)) (if sessionPhase s o = 7 then setPhase o 8 s else s))

def execV2gWeldingDetection (outlet : OutletNo) (s : State) : Host.Outcome State Fault Refusal :=
  done (weldingDetection outlet s)

/-- A normal stop, carried to its end. -/
def completeStop (o : OutletNo) (s : State) : State := endSessionNow o (stopSession o s)

def sessionStopMessage (o : OutletNo) (pause : Bool) : State → State :=
  request o [1, 2, 3] [2, 3, 4, 5, 6, 7, 8] (requiring o (fun s => !pause || 2 ≤ protoOf s o) fun s =>
    sendAnswer o .ok (completeStop o (s.onSession o fun n => { n with paused := pause })))

def execV2gSessionStop (outlet : OutletNo) (pause : Bool) (s : State) : Host.Outcome State Fault Refusal :=
  done (sessionStopMessage outlet pause s)

/-- A message outside R222. -/
def unsupported (o : OutletNo) (s : State) : State := if v2gRuns s o then v2gEnd o .failed s else s

def execV2gUnsupportedMessage (outlet : OutletNo) (s : State) : Host.Outcome State Fault Refusal :=
  done (unsupported outlet s)

/-- A sequence timeout ends the session as a normal stop (R224). -/
def sequenceTimeout (o : OutletNo) (s : State) : State := if v2gRuns s o then completeStop o s else s

def execSequenceTimeout (outlet : OutletNo) (s : State) : Host.Outcome State Fault Refusal :=
  done (sequenceTimeout outlet s)

/-! ### Certificates (R228) -/

/-- A certificate request, of kind 0 installation or 1 update, is checked against entry 7 and relayed with event 37. -/
def relayCertificate (o : OutletNo) (kind : Nat) (checkOk : Bool) (s : State) : State :=
  match verifyRoot [7] s with
  | (ok, s) =>
    if !ok || !checkOk then v2gEnd o .failed s
    else if (s.veh.session.at o).cert.isSome then sendAnswer o .ongoing s
    else
      let id := s.veh.reqId + 1
      let s := s.onSession o fun n => { n with cert := some (id, kind), answer := some .ongoing }
      raise 37 o.val 0 (leBytes 4 id.toNat ++ [BitVec.ofNat 8 kind]) { s with veh.reqId := id }

def certificateInstallation (o : OutletNo) (checkOk : Bool) : State → State :=
  request o [2, 3] [2, 3] (relayCertificate o 0 checkOk)

def execV2gCertificateInstallation (outlet : OutletNo) (checkOk : Bool) (s : State) :
    Host.Outcome State Fault Refusal := done (certificateInstallation outlet checkOk s)

def certificateUpdate (o : OutletNo) (checkOk : Bool) : State → State :=
  request o [2] [2, 3] (relayCertificate o 1 checkOk)

def execV2gCertificateUpdate (outlet : OutletNo) (checkOk : Bool) (s : State) : Host.Outcome State Fault Refusal :=
  done (certificateUpdate outlet checkOk s)

/-- Host software has not answered within 4 s. -/
def certificateTimeout (o : OutletNo) (s : State) : State :=
  if !controlRuns s then s
  else match (s.veh.session.at o).cert with
  | some (id, _) =>
    let s := s.onSession o fun n => { n with cert := none, answer := some .failed }
    { s with veh.expiredCerts := s.veh.expiredCerts ++ [(id, o)] }
  | none => s

def execCertificateAnswerTimeout (outlet : OutletNo) (s : State) : Host.Outcome State Fault Refusal :=
  done (certificateTimeout outlet s)

/-! ### Transport security (R226, R227) -/

/-- The TLS version that a handshake runs: 3 for TLS 1.3, 2 for TLS 1.2, none where neither is offered on both sides. -/
def tlsVersion (s : State) (o : OutletNo) (f : TlsOffer) : Option Nat :=
  let w := linkWord s o
  let p := protoOf s o
  if f.tls13 && wBit w 12 && (p = 0 || p = 3) then some 3
  else if wBit w 13 && (p = 0 || p = 2) then some 2
  else none

/-- A suite is supported in a TLS version (R226). -/
def suiteOk (version : Nat) (x : CipherSuite) : Bool :=
  if version = 3 then isTls13 x else x == .ecdhAes128Cbc || x == .ecdheAes128Cbc

/-- The suite that a handshake takes, none where suite or curve is not supported. DESIGN CHOICE: of several, the first of the
vehicle's. -/
def tlsSuite (version : Nat) (f : TlsOffer) : Option CipherSuite :=
  if f.p256 || (version == 3 && f.p384) then f.suites.find? (suiteOk version) else none

/-- A handshake signs with entry 0 for ISO 15118-2 and entry 1 for ISO 15118-20. -/
def tlsKey (version : Nat) : Fin 2 := if version = 3 then 1 else 0

/-- The certificate chain of an entry as the image store holds it at a handshake. The spec names no command that stores one,
so that it is a free value. -/
def readChain (entry : Fin 2) (s : State) : State :=
  { s with veh.chains := s.veh.chains.put entry (Config.storedChain entry.val s.free), free := s.free + 1 }

/-- The leaf of an entry's chain carries the public key of the entry's slot (R227). -/
def leafCarries (s : State) (entry : Fin 2) : Bool :=
  match namedSlot s (s.veh.keyMap.at (Fin.ofNat 8 entry.val)).toNat with
  | some x => Config.leafKey (s.veh.chains.at entry) == Config.publicPoint x.key.ktype x.key.bytes
  | none => false

/-- A handshake with a version and a suite: the module presents its chain and signs. -/
def tlsPresent (o : OutletNo) (version : Nat) (suite : CipherSuite) (s : State) : State :=
  let s := readChain (tlsKey version) s
  if !leafCarries s (tlsKey version) then v2gEnd o .tlsAlert s
  else match useMapped (s.veh.keyMap.at (Fin.ofNat 8 (tlsKey version).val)) 1 31 s with
    | (true, s) => s.onSession o fun n => { n with tls := some suite }
    | (false, s) => v2gEnd o .tlsAlert s

def tlsHandshake (o : OutletNo) (f : TlsOffer) (s : State) : State :=
  if !v2gRuns s o || sessionPhase s o ≠ 2 then s
  else match tlsVersion s o f with
    | none => v2gEnd o .tlsAlert s
    | some v =>
      match tlsSuite v f with
      | none => v2gEnd o .tlsAlert s
      | some x => tlsPresent o v x s

def execTlsHandshake (outlet : OutletNo) (offer : TlsOffer) (s : State) : Host.Outcome State Fault Refusal :=
  done (tlsHandshake outlet offer s)

/-! ### Policy requests (R236) -/

/-- The oldest request of a kind for an outlet runs out of time. -/
def policyTimeout (o : OutletNo) (kind : PolicyKind) (s : State) : State :=
  if !controlRuns s then s
  else match s.veh.policies.find? fun r => r.outlet == o && r.kind == policyCode kind with
  | none => s
  | some r =>
    policyFallback r { s with veh.policies := s.veh.policies.filter (fun x => x.id != r.id),
                              veh.expired := s.veh.expired ++ [r] }

def execPolicyTimeout (outlet : OutletNo) (kind : PolicyKind) (s : State) : Host.Outcome State Fault Refusal :=
  done (policyTimeout outlet kind s)

/-! ### Session cores (R237, R238, R540, R541) -/

/-- The outlets of a core. -/
def coreOutlets (s : State) (k : CoreNo) : List OutletNo :=
  outlets.filter fun o => s.veh.carries.at (Fin.ofNat 8 (o.val / 8)) == k

/-- The spare takes over a core's outlets for new sessions. -/
def bringSpare (k : CoreNo) (s : State) : State :=
  if s.veh.spare = some k then { s with veh.spare := none }
  else match s.veh.spare with
    | none => s
    | some x =>
      raise 103 moduleIndex 0 []
        { s with veh.carries := s.veh.carries.each (fun c => if c = k then x else c), veh.spare := none }

/-- A core has sent no heartbeat for 20 ms; its sessions fall back to basic signalling. -/
def coreSilent (k : CoreNo) (s : State) : State :=
  let c := s.veh.core.at k
  if !controlRuns s || c.silent || c.retired then s
  else
    let s := { s with veh.core := s.veh.core.put k { c with silent := true } }
    let s := raise 38 k.val 0 [] s
    let s := (coreOutlets s k).foldl (fun s o => if onCore s o then holdSession o s else s) s
    bringSpare k s

def execSessionCoreSilent (core : CoreNo) (s : State) : Host.Outcome State Fault Refusal := done (coreSilent core s)

/-- The core under self-test: the first silent one that is not retired. -/
def testedCore (s : State) : Option CoreNo :=
  (indices 8).find? fun k => (s.veh.core.at k).silent && !(s.veh.core.at k).retired

/-- The restarted core's self-test ends: it becomes the spare, or goes on with the outlets that no spare took over, or is
retired. -/
def coreTested (pass : Bool) (s : State) : State :=
  if !controlRuns s then s
  else match testedCore s with
    | none => s
    | some k =>
      if !pass then { s with veh.core := s.veh.core.put k { silent := true, retired := true } }
      else
        let s := { s with veh.core := s.veh.core.put k { silent := false, retired := false } }
        if (coreOutlets s k).isEmpty && s.veh.spare.isNone then { s with veh.spare := some k } else s

def execSessionCoreSelfTestEnd (pass : Bool) (s : State) : Host.Outcome State Fault Refusal := done (coreTested pass s)

/-- DC_HOLD has passed on a held DC session. -/
def dcHoldExpiry (o : OutletNo) (s : State) : State :=
  let n := s.veh.session.at o
  if s.dies.fescue = .running && n.held && isDc s o && n.phase = 6 then fescueOpen o s else s

def execDcHoldExpiry (outlet : OutletNo) (s : State) : Host.Outcome State Fault Refusal := done (dcHoldExpiry outlet s)

end Sys2Proof.Machine
end

