-- ==== Sys2Proof/Machine/Readers.lean ====
section
/-! DEFINITION. The contactless readers: pings and their baselines, polls with the order in which cards are resolved,
credentials, and the holds of cards and grants (R352 to R367). -/

namespace Sys2Proof.Machine

/-! ### Pings (R354 to R356) -/

/-- The readers transmit: Fescue runs, the module serves as Solo or active, and as active it holds the lease (R354, R496,
R498). -/
def readersRun (s : State) : Bool :=
  s.dies.fescue == .running && (servingRole s == .solo || servingRole s == .active) && !s.veh.txStopped && !s.pair.yielded

/-- The port of an aerial. -/
def aerialPort (a : AerialNo) : Fin 4 := Fin.ofNat 4 (a.val / 16)

/-- A ping differs from the baselines by more than the thresholds. -/
def pingDetects (x : Aerial) (amp : Nat) (phase : Int) : Bool :=
  let da : Rat := (amp : Rat) - x.baseAmp
  let dp : Rat := (phase : Rat) - x.basePh
  let abs (q : Rat) : Rat := if q < 0 then -q else q
  decide ((wFld x.word 16 8 : Rat) * x.baseAmp < abs da * 1000) || decide ((wFld x.word 8 8 : Rat) < abs dp)

/-- The baselines are set to a ping. -/
def setBaselines (amp : Nat) (phase : Int) (x : Aerial) : Aerial :=
  { x with baseAmp := (amp : Rat), basePh := (phase : Rat), based := true }

/-- The baselines move a sixteenth of the way to a ping. -/
def trackBaselines (amp : Nat) (phase : Int) (x : Aerial) : Aerial :=
  { x with baseAmp := x.baseAmp + ((amp : Rat) - x.baseAmp) / 16, basePh := x.basePh + ((phase : Rat) - x.basePh) / 16 }

/-- A poll ends: a card stays present, or the baselines are set to the ping that detected. -/
def endPoll (x : Aerial) : Aerial :=
  if x.state ≠ .polling then x
  else if x.found then { x with state := .present }
  else { setBaselines x.pingAmp x.pingPh x with state := .idle }

/-- A change of active module abandons a poll in progress, and halts the cards that are kept selected (R354). -/
def abandonPolls (s : State) : State :=
  { s with rdr.aerial := s.rdr.aerial.each fun x =>
      { x with selected := false, state := if x.state = .polling then .idle else x.state } }

/-- The aerial that a port energises between pings: the one that it polls, or on which it keeps a card selected. ASEL of every
other aerial of the port is low (R352, R364). -/
def energisedAerial (s : State) (p : Fin 4) : Option AerialNo :=
  ((List.range 16).map fun k => (Fin.ofNat 64 (16 * p.val + k) : AerialNo)).find? fun a =>
    let x := s.rdr.aerial.at a
    readersRun s && (x.state == .polling || x.selected)

/-! ### The order of a poll (R357 to R360) -/

/-- The bits that a Type A card sends in anticollision, in the order of transmission, cascade tags included. -/
def typeABits (uid : List Byte) : List Bool :=
  let levels := match uid.length with
    | 7 => 0x88#8 :: uid.take 3 ++ uid.drop 3
    | 10 => 0x88#8 :: uid.take 3 ++ (0x88#8 :: (uid.drop 3).take 3) ++ uid.drop 6
    | _ => uid
  levels.flatMap fun b => (List.range 8).map b.getLsbD

/-- Of two Type A cards, the first is resolved before the second: it has bit 1 at their first collision. -/
def bitsBefore : List Bool → List Bool → Bool
  | a :: as, b :: bs => if a = b then bitsBefore as bs else a
  | _, _ => false

/-- A card put in its place by that order. -/
def insertA (c : Card) : List Card → List Card
  | [] => [c]
  | d :: ds => if bitsBefore (typeABits d.uid) (typeABits c.uid) then d :: insertA c ds else c :: d :: ds

/-- The nibble of an ISO/IEC 15693 identifier, as written, at a depth of the inventory. -/
def nibbleAt (uid : List Byte) (depth : Nat) : Nat :=
  let b := byteAt uid.reverse (depth / 2)
  if depth % 2 = 0 then b % 16 else b / 16

/-- The order of a 16-slot inventory: single answers by slot, then each collided slot in its own inventory. -/
def inventoryOrder : Nat → Nat → List Card → List Card
  | 0, _, l => l
  | fuel + 1, depth, l =>
    let slots := (List.range 16).map fun k => l.filter fun c => nibbleAt c.uid depth == k
    (slots.filter fun g => g.length == 1).flatten
      ++ ((slots.filter fun g => 1 < g.length).map (inventoryOrder fuel (depth + 1))).flatten

/-- Cards of a technology in a field, those that a poll may report. -/
def cardsOf (w : Word) (tech : Nat) (cards : List Card) : List Card :=
  if wBit w (4 + tech) then cards.filter fun c => c.tech.toNat == tech else []

/-- The built-in tag's identifier as it is written (R362). -/
def tagUidBytes : List Byte := (leBytes 8 Config.tagUid.toNat).reverse

/-- The cards of a poll in the order in which they are resolved, POLL_MAX at most. -/
def resolved (s : State) (a : AerialNo) (cards : List Card) : List Card :=
  let w := (s.rdr.aerial.at a).word
  let most := wFld (s.rdr.port.at (aerialPort a)) 23 4
  let all := (cardsOf w 1 cards).foldr insertA [] ++ cardsOf w 2 cards ++ inventoryOrder 16 0 (cardsOf w 3 cards)
  (all.take most).filter fun c => c.uid != tagUidBytes

/-! ### Credentials (R363, R364, R366) -/

/-- The reference of a card. -/
def cardRef (c : Card) : BitVec 64 := BitVec.ofNat 64 (ofLe ((sha256 (BitVec.ofNat 8 c.tech.toNat :: c.uid)).take 8))

/-- A grant stands for an outlet with a reference. -/
def granted (s : State) (o : OutletNo) (ref : BitVec 64) : Bool :=
  (authorised s o && (s.veh.session.at o).auth == ref) || (s.veh.grant.at o).any fun g => g.ref == ref

/-- A card of a poll: reported only, or presented unless a card of the same poll has been granted. -/
def handleCard (a : AerialNo) (used : Bool) (c : Card) (s : State) : Bool × State :=
  let ref := cardRef c
  let w := (s.rdr.aerial.at a).word
  let o : OutletNo := Fin.ofNat 64 (wFld w 24 6)
  let s := s.onAerial a fun x => { x with uid := c.uid, ref := ref, tech := c.tech, found := true }
  if !controlRuns s then (used, s)
  else if !wBit w 30 || used then (used, reportCredential (some a) ref c.tech 0 s)
  else
    let s := s.onAerial a fun x => { x with selected := authHosted s o }
    let stops := authorised s o
    let t := present o ref c.tech (some a) s
    (!stops && granted t o ref, t)

/-- The cards of a poll in turn. -/
def handleCards (a : AerialNo) : Bool → List Card → State → State
  | _, [], s => s
  | used, c :: cs, s => match handleCard a used c s with
    | (used, s) => handleCards a used cs s

/-- A detection starts a full poll. -/
def startPoll (a : AerialNo) (amp : Nat) (phase : Int) (cards : List Card) (s : State) : State :=
  let s := s.onAerial a fun x =>
    { x with state := .polling, pingAmp := amp, pingPh := phase, found := false, selected := false, polls := satAdd 8 x.polls 1 }
  handleCards a false (resolved s a cards) s

/-- The port is free for a ping: polls on it have ended. -/
def freePort (p : Fin 4) (s : State) : State :=
  (List.range 16).foldl (fun s k => s.onAerial (Fin.ofNat 64 (16 * p.val + k)) endPoll) s

/-- An aerial is pinged, with the cards that a poll would resolve. -/
def aerialPing (a : AerialNo) (amp : Nat) (phase : Int) (cards : List Card) (s : State) : State :=
  if !readersRun s || !wBit (s.rdr.aerial.at a).word 31 then s
  else
    let s := freePort (aerialPort a) s
    let x := s.rdr.aerial.at a
    if !x.based then s.onAerial a (setBaselines amp phase)
    else
      match pingDetects x amp phase, x.state with
      | true, .present => s
      | true, _ => startPoll a amp phase cards s
      | false, _ => s.onAerial a fun x => trackBaselines amp phase { x with state := .idle }

def execAerialPing (aerial : AerialNo) (amp : Nat) (phase : Int) (cards : List Card) (s : State) :
    Host.Outcome State Fault Refusal := done (aerialPing aerial amp phase cards s)

/-- A poll still running at 300 ms is abandoned; the cards already resolved stand. -/
def execPollTimeout (aerial : AerialNo) (s : State) : Host.Outcome State Fault Refusal := done (s.onAerial aerial endPoll)

/-! ### Holds (R364, R366) -/

/-- 800 ms without the host's answer to a card or contract. -/
def authFallbackNow (o : OutletNo) (s : State) : State := policyTimeout o .authorisation s

def execAuthFallback (outlet : OutletNo) (s : State) : Host.Outcome State Fault Refusal := done (authFallbackNow outlet s)

/-- The selected card is halted. -/
def execCardHoldExpiry (aerial : AerialNo) (s : State) : Host.Outcome State Fault Refusal :=
  done (s.onAerial aerial fun x => { x with selected := false })

/-- A held grant lapses; one held while the vehicle stays plugged does not. -/
def grantLapse (o : OutletNo) (s : State) : State :=
  { s with veh.grant := s.veh.grant.put o ((s.veh.grant.at o).filter (·.whilePlugged)) }

def execAuthHoldExpiry (outlet : OutletNo) (s : State) : Host.Outcome State Fault Refusal := done (grantLapse outlet s)

end Sys2Proof.Machine
end

