-- ==== Sys2Proof/Machine/TagOps.lean ====
section
/-! DEFINITION. The built-in tag: its states and commands over the reader field, and the sharing of its memory with the host
(R368 to R379). -/

namespace Sys2Proof.Machine

/-! ### Field (R370, R377) -/

/-- The field reaches operating strength: FDET is pulled low, unless the tag is killed. -/
def tagFieldOn (s : State) : State :=
  if s.tag.state = .killed || s.tag.field then s
  else
    let s := { s with tag := { s.tag with state := .ready, field := true, answer := none } }
    if s.dies.fescue = .running then raise 87 moduleIndex 0 [] s else s

def execTagFieldOn (s : State) : Host.Outcome State Fault Refusal := done (tagFieldOn s)

/-- The field is lost: Selected and Quiet are lost, and no sector is held. -/
def tagFieldLost (s : State) : State :=
  { s with tag := { s.tag with field := false, held := [], answer := none,
                               state := if s.tag.state = .killed then .killed else .ready } }

def execTagFieldLost (s : State) : Host.Outcome State Fault Refusal := done (tagFieldLost s)

/-! ### Requests (R370, R374) -/

/-- The request names the tag. -/
def addressedTo (r : TagReq) : Bool := r.uid == some Config.tagUid

/-- The tag answers a request: field on, one subcarrier, and the state lets it. -/
def tagHears (t : Tag) (r : TagReq) : Bool :=
  t.field && !r.twoSub &&
    (match t.state with
     | .killed => false
     | .quiet => addressedTo r && !r.select
     | .ready => !r.select && (addressedTo r || r.uid.isNone)
     | .selected => r.select || addressedTo r || r.uid.isNone)

/-- The tag's answer, and the sectors that the request addresses, which the field holds (R378). -/
def tagSay (a : Option (List Byte)) (sectors : List Nat) (s : State) : State :=
  { s with tag.answer := a, tag.held := sectors.map (Fin.ofNat 512) }

/-- An answer without error. -/
def tagOk (data : List Byte) : Option (List Byte) := some (0 :: data)

/-- An error answer. -/
def tagError (code : Nat) : Option (List Byte) := some [1, BitVec.ofNat 8 code]

/-- A request that the tag hears; one that it does not hear gets no answer. -/
def tagRequest (r : TagReq) (f : State → State) (s : State) : State :=
  if tagHears s.tag r then f s else tagSay none [] s

/-- The sectors of blocks. -/
def blockSectors (first count : Nat) : List Nat := ((List.range count).map fun k => (first + k) / 4).eraseDups

/-- The bytes of a block. -/
def blockBytes (s : State) (n : Nat) : List Byte := memRead s.tag.mem (4 * n) 4

/-- The sector's code word, which holds two sectors, is uncorrectable (R448, R450). -/
def sectorBad (s : State) (n : Nat) : Bool := s.tag.bad.contains (Fin.ofNat 256 (n / 2))

/-- Blocks are read; one beyond the last gives error 0x10, more than 32 the error without information. -/
def tagRead (first count last : Nat) (s : State) : State :=
  if 32 < count then tagSay (tagError 0x0F) [] s
  else if last < first + count - 1 then tagSay (tagError 0x10) [] s
  else if (List.range count).any fun k => sectorBad s ((first + k) / 4) then tagSay (tagError 0x0F) [] s
  else tagSay (tagOk ((List.range count).flatMap fun k => blockBytes s (first + k))) (blockSectors first count) s

/-- A block is written: the user area only, and before the answer is sent. -/
def tagWrite (n : Nat) (data : BitVec 32) (s : State) : State :=
  if 2047 < n then tagSay (tagError 0x10) [] s
  else if n < 800 then tagSay (tagError 0x12) [n / 4] s
  else tagSay (tagOk []) [n / 4] { s with tag.mem := memWrite s.tag.mem (4 * n) (leBytes 4 data.toNat) }

/-- Inventory: the mask agrees, and with 16 slots the next four bits are the slot. -/
def tagInventory (v : InventoryReq) (s : State) : State :=
  let id := Config.tagUid.toNat
  let hears := s.tag.field && !v.twoSub && (s.tag.state == .ready || s.tag.state == .selected)
  let named := id % 2 ^ v.maskLen == v.mask % 2 ^ v.maskLen && (!v.slots16 || id / 2 ^ v.maskLen % 16 == v.slot)
  tagSay (if hears && named then tagOk (0 :: leBytes 8 id) else none) [] s

def execTagInventory (inv : InventoryReq) (s : State) : Host.Outcome State Fault Refusal := done (tagInventory inv s)

/-- Stay quiet with the tag's identifier. -/
def tagStayQuiet (r : TagReq) (s : State) : State :=
  if tagHears s.tag r && addressedTo r then tagSay none [] { s with tag.state := .quiet } else tagSay none [] s

def execTagStayQuiet (req : TagReq) (s : State) : Host.Outcome State Fault Refusal := done (tagStayQuiet req s)

def execTagReadSingleBlock (req : TagReq) (block : Byte) (s : State) : Host.Outcome State Fault Refusal :=
  done (tagRequest req (tagRead block.toNat 1 255) s)

def execTagWriteSingleBlock (req : TagReq) (block : Byte) (data : BitVec 32) (s : State) :
    Host.Outcome State Fault Refusal := done (tagRequest req (tagWrite block.toNat data) s)

def execTagReadMultipleBlocks (req : TagReq) (first : Byte) (count : Nat) (s : State) :
    Host.Outcome State Fault Refusal := done (tagRequest req (tagRead first.toNat count 255) s)

/-- Select with its identifier; one naming another returns a Selected tag to Ready. -/
def tagSelect (r : TagReq) (s : State) : State :=
  if !s.tag.field || r.twoSub || s.tag.state = .killed then tagSay none [] s
  else if addressedTo r then tagSay (tagOk []) [] { s with tag.state := .selected }
  else if r.uid.isSome && s.tag.state = .selected then tagSay none [] { s with tag.state := .ready }
  else tagSay none [] s

def execTagSelect (req : TagReq) (s : State) : Host.Outcome State Fault Refusal := done (tagSelect req s)

def execTagResetToReady (req : TagReq) (s : State) : Host.Outcome State Fault Refusal :=
  done (tagRequest req (fun s => tagSay (tagOk []) [] { s with tag.state := .ready }) s)

/-- System information: DSFID and AFI 0x00, and the memory size as number of blocks less 1 and block size less 1. -/
def systemInfo (size : List Byte) : Option (List Byte) :=
  tagOk ([7] ++ leBytes 8 Config.tagUid.toNat ++ [0, 0] ++ size)

def execTagGetSystemInformation (req : TagReq) (s : State) : Host.Outcome State Fault Refusal :=
  done (tagRequest req (tagSay (systemInfo [0xFF, 3]) []) s)

/-- Every block reports unlocked. -/
def blockSecurity (first count last : Nat) (s : State) : State :=
  if last < first + count - 1 then tagSay (tagError 0x10) [] s else tagSay (tagOk (List.replicate count 0)) [] s

def execTagGetBlockSecurity (req : TagReq) (first : Byte) (count : Nat) (s : State) :
    Host.Outcome State Fault Refusal := done (tagRequest req (blockSecurity first.toNat count 255) s)

def execTagExtReadSingleBlock (req : TagReq) (block : BitVec 16) (s : State) : Host.Outcome State Fault Refusal :=
  done (tagRequest req (tagRead block.toNat 1 2047) s)

def execTagExtWriteSingleBlock (req : TagReq) (block : BitVec 16) (data : BitVec 32) (s : State) :
    Host.Outcome State Fault Refusal := done (tagRequest req (tagWrite block.toNat data) s)

def execTagExtReadMultipleBlocks (req : TagReq) (first : BitVec 16) (count : Nat) (s : State) :
    Host.Outcome State Fault Refusal := done (tagRequest req (tagRead first.toNat count 2047) s)

def execTagExtGetSystemInformation (req : TagReq) (s : State) : Host.Outcome State Fault Refusal :=
  done (tagRequest req (tagSay (systemInfo [0xFF, 0x07, 3]) []) s)

def execTagExtGetBlockSecurity (req : TagReq) (first : BitVec 16) (count : Nat) (s : State) :
    Host.Outcome State Fault Refusal := done (tagRequest req (blockSecurity first.toNat count 2047) s)

/-! ### Custom commands (R374 to R376) -/

/-- Error 0x01 where the request is addressed or the tag is Selected, no answer otherwise. -/
def notSupported (r : TagReq) (s : State) : State :=
  tagSay (if r.uid.isSome || s.tag.state = .selected then tagError 1 else none) [] s

/-- A custom command carries byte 6 of the identifier as its manufacturer code. -/
def tagCustom (r : TagReq) (f : State → State) : State → State :=
  tagRequest r fun s => if r.mfr.toNat = Config.tagUid.toNat / 2 ^ 48 % 256 then f s else notSupported r s

def execTagReadSignature (req : TagReq) (s : State) : Host.Outcome State Fault Refusal :=
  done (tagCustom req (tagSay (tagOk (padTo 64 Config.tagSignature)) []) s)

/-- Kill: no answer after 8 failures in succession; the password 0 matches nothing. -/
def tagKill (password : BitVec 32) (s : State) : State :=
  if 8 ≤ s.tag.failures.toNat then tagSay none [] s
  else if s.tag.killPassword ≠ 0 && password = s.tag.killPassword then
    tagSay (tagOk []) [] { s with tag := { s.tag with state := .killed, failures := 0, killReport := true } }
  else tagSay (tagError 0x0F) [] { s with tag.failures := s.tag.failures + 1 }

def execTagKill (req : TagReq) (password : BitVec 32) (s : State) : Host.Outcome State Fault Refusal :=
  done (tagCustom req (tagKill password) s)

def execTagReadMirrorIndex (req : TagReq) (s : State) : Host.Outcome State Fault Refusal :=
  done (tagCustom req
    (fun s => tagSay (tagOk (leBytes 2 s.tag.head.toNat ++ leBytes 4 s.tag.fcount.toNat)) [5] s) s)

/-- Whether the code is supported is the command's own row; every other code is not. -/
def execTagUnsupportedCommand (req : TagReq) (code : Byte) (s : State) : Host.Outcome State Fault Refusal :=
  let _ := code
  done (tagRequest req (notSupported req) s)

/-! ### Field and host on one memory (R378, R379) -/

/-- The bytes of a sector. -/
def sectorBytes (s : State) (n : SectorNo) : List Byte := memRead s.tag.mem (16 * n.val) 16

/-- What a host read of a sector answers: HW_ERROR where its code word is uncorrectable (R450). -/
def sectorReply (s : State) (n : SectorNo) : Reply :=
  if sectorBad s n.val then reply .hwError 0 else okWith (sectorBytes s n)

/-- The answers of host reads that waited for a sector. -/
def answerReads (n : SectorNo) (r : State → Reply) (s : State) : State :=
  let due := s.tag.reads.filter fun x => x.1 == n
  due.foldl (fun s x => answer 0x0805 x.2 (r s) s) { s with tag.reads := s.tag.reads.filter fun x => x.1 != n }

/-- A staged write of a sector, its command answered. -/
def commitStaged (x : SectorNo × List Byte × Option Cmd) (s : State) : State :=
  let s := { s with tag.mem := memWrite s.tag.mem (16 * x.1.val) (padTo 16 x.2.1) }
  match x.2.2 with
  | some c => answer 0x0805 c okReply s
  | none => s

/-- The field's answer has ended: what was staged for the sector commits, reads are answered, and faults not mirrored yet are
mirrored. -/
def sectorCommit (n : SectorNo) (s : State) : State :=
  let s := { s with tag.held := s.tag.held.filter fun k => k != n }
  if s.dies.fescue != .running then s
  else
    let due := s.tag.staged.filter fun x => x.1 == n
    let s := due.foldl (fun s x => commitStaged x s) { s with tag.staged := s.tag.staged.filter fun x => x.1 != n }
    mirrorFaults (answerReads n (fun s => sectorReply s n) s)

def execTagSectorCommit (sector : SectorNo) (s : State) : Host.Outcome State Fault Refusal := done (sectorCommit sector s)

/-- BUSY with a retry-after of 20 ms. -/
def tagBusy : Reply := reply .busy 20

/-- A retry finds the sector held; after the last one the host's accesses get BUSY, and Millet's own writes go on. -/
def busyRetry (n : SectorNo) (last : Bool) (s : State) : State :=
  if !last || !controlRuns s then s
  else
    let due := s.tag.staged.filter fun x => x.1 == n && x.2.2.isSome
    let s := { s with tag.staged := s.tag.staged.filter fun x => !(x.1 == n && x.2.2.isSome) }
    let s := due.foldl (fun s x => match x.2.2 with
      | some c => answer 0x0805 c tagBusy s
      | none => s) s
    answerReads n (fun _ => tagBusy) s

def execTagBusyRetry (sector : SectorNo) (last : Bool) (s : State) : Host.Outcome State Fault Refusal :=
  done (busyRetry sector last s)

end Sys2Proof.Machine
end

