-- ==== Sys2Proof/Machine/CmdContact.lean ====
section
/-! DEFINITION. The contactless commands 0x0800 to 0x0806 (R364 to R366, R375, R378 to R383, R426). -/

namespace Sys2Proof.Machine

/-- Bytes of 0x0800. -/
def aerialBytes (x : Aerial) : List Byte :=
  leBytes 4 (aerialStatus x).toNat ++ leBytes 8 x.ref.toNat ++ [BitVec.ofNat 8 x.uid.length] ++ padTo 11 x.uid

/-- The read clears POLLS (R383). -/
def contactlessStatus (c : Cmd) : State → State :=
  runCmd 0x0800 c <| onFescue fun _ s =>
    (okWith (aerialBytes (s.rdr.aerial.at (obj 63 c))), s.onAerial (obj 63 c) fun x => { x with polls := 0 })

def execContactlessStatus (cmd : Cmd) (s : State) : Host.Outcome State Fault Refusal := done (contactlessStatus cmd s)

/-! ### Configuration (R380 to R382) -/

def aerialWordOk (w : Word) : Bool :=
  wFld w 16 8 ≠ 0 && wFld w 8 8 ≠ 0 && (!wBit w 31 || wFld w 5 3 ≠ 0) && wFld w 0 5 = 0

def portWordOk (w : Word) : Bool :=
  wFld w 30 2 ≠ 3 && wFld w 28 2 ≠ 3 && wFld w 23 4 ≠ 0 && wFld w 18 5 ≠ 0 && wFld w 0 18 = 0

def authWordOk (w : Word) : Bool := wFld w 16 16 = 0 && 10 ≤ wFld w 8 8 && wFld w 3 5 = 0 && wFld w 1 2 ≠ 3

/-- An aerial word takes effect at once: disabling abandons a poll, enabling starts the baselines anew. -/
def setAerial (w : Word) (x : Aerial) : Aerial :=
  if wBit w 31 && wBit x.word 31 then { x with word := w }
  else { x with word := w, state := .idle, based := false, found := false, selected := false }

/-- An authorisation word: a change of HA waits while a session is in progress (R42). -/
def setAuth (o : OutletNo) (w : Word) (s : State) : Reply × State :=
  let was := wBit (s.rdr.auth.at o) 0
  if inSession s o && wBit w 0 != was then
    (pendingReply, { s with rdr.auth := s.rdr.auth.put o (wSetFld w 0 1 (if was then 1 else 0)),
                            rdr.authPend := s.rdr.authPend.put o (some (wBit w 0)) })
  else (okReply, { s with rdr.auth := s.rdr.auth.put o w, rdr.authPend := s.rdr.authPend.put o none })

def configureReader (c : Cmd) (p : List Byte) (s : State) : Reply × State :=
  let sel := byteAt p 0
  let w := BitVec.ofNat 32 (leAt p 4 4)
  let fits := match sel with
    | 0 => aerialWordOk w
    | 1 => portWordOk w
    | _ => authWordOk w
  checked 0x0801 c [(0, sel ≤ 2 && reserved3 p), (1, fits)]
    (fun s =>
      match sel with
      | 0 => (okReply, s.onAerial (obj 63 c) (setAerial w))
      | 1 => (okReply, { s with rdr.port := s.rdr.port.put (obj 3 c) w })
      | _ => setAuth (obj 63 c) w s) s

def contactlessConfiguration (c : Cmd) : State → State :=
  runCmd 0x0801 c fun p s => if byteAt p 0 = 2 then acts (configureReader c) p s else onFescue (configureReader c) p s

def execContactlessConfiguration (cmd : Cmd) (s : State) : Host.Outcome State Fault Refusal :=
  done (contactlessConfiguration cmd s)

/-! ### Allowlist (R365) -/

/-- The entries of a list as carried; a buffer below one entry holds none. -/
def allowEntries : Nat → List Byte → List (Nat × Nat × Nat)
  | 0, _ => []
  | n + 1, l => (leAt l 0 8, leAt l 8 4, leAt l 12 4) :: allowEntries n (l.drop 16)

/-- The word offset of the first entry out of order, or with a reserved bit set. -/
def allowBad : Nat → Option Nat → List (Nat × Nat × Nat) → Option Nat
  | _, _, [] => none
  | k, before, e :: es =>
    if !(match before with
      | some r => decide (r < e.1)
      | none => true) then some (4 * k)
    else if e.2.2 % 2 ^ 31 ≠ 0 then some (4 * k + 3)
    else allowBad (k + 1) (some e.1) es

def allowOf (e : Nat × Nat × Nat) : Allow :=
  { ref := BitVec.ofNat 64 e.1, validTo := BitVec.ofNat 32 e.2.1, blocked := e.2.2 ≠ 0 }

def replaceAllowlist (l : List Byte) (s : State) : Reply × State :=
  let es := allowEntries (l.length / 16) l
  if (16 ≤ l.length && l.length % 16 ≠ 0) || 65536 < es.length then (rangeAt 0xFFFF, s)
  else match allowBad 0 none es with
    | some k => (rangeAt k, s)
    | none => (okWith (leBytes 4 es.length), { s with rdr.allow := es.map allowOf })

/-- BUSY with a retry-after of 10,000 ms while the image store is hot (R535). -/
def hotReply : Reply := reply .busy 10000

def loadAllowlist (c : Cmd) : State → State :=
  runCmd 0x0802 c <| acts fun _ s =>
    if s.thm.nandHot then (hotReply, s) else replaceAllowlist (bulkOf 0x0802 c s) s

def execLoadAllowlist (cmd : Cmd) (s : State) : Host.Outcome State Fault Refusal := done (loadAllowlist cmd s)

def allowBytes (a : Allow) : List Byte :=
  leBytes 8 a.ref.toNat ++ leBytes 4 a.validTo.toNat ++ leBytes 4 (flag a.blocked 31)

def allowlistLookup (c : Cmd) : State → State :=
  runCmd 0x0803 c <| reads fun p s =>
    okWith (match s.rdr.allow.find? fun a => a.ref.toNat == leAt p 0 8 with
      | some a => allowBytes a
      | none => [])

def execAllowlistLookup (cmd : Cmd) (s : State) : Host.Outcome State Fault Refusal := done (allowlistLookup cmd s)

/-! ### Card exchange (R364) -/

/-- The answer of the card, cut to the buffer, or its silence. -/
def exchange (room : Nat) (answer : Option (List Byte)) (s : State) : Reply × State :=
  match answer with
  | some b => ({ okWith (leBytes 4 (min room b.length)) with bulk := [b.take room] }, s)
  | none => (refusedReply 2, s)

def outRoom (op : Nat) (c : Cmd) : Nat :=
  match (cmdDescs op c).find? fun d => d.dir % 2 = 1 with
  | some d => d.len
  | none => 0

def cardExchange (c : Cmd) (answer : Option (List Byte)) : State → State :=
  runCmd 0x0804 c <| onFescue fun _ s =>
    if !(s.rdr.aerial.at (obj 63 c)).selected then (refusedReply 1, s) else exchange (outRoom 0x0804 c) answer s

def execCardExchange (cmd : Cmd) (answer : Option (List Byte)) (s : State) : Host.Outcome State Fault Refusal :=
  done (cardExchange cmd answer s)

/-! ### Tag memory (R375, R378, R379) -/

/-- A host write of a sector: at once, or staged while the field holds it. -/
def writeSector (n : SectorNo) (bytes : List Byte) (c : Cmd) (s : State) : Option Reply × State :=
  if n.val < 200 then (some (rangeAt 0xFFFF), s)
  else if sectorHeld s n.val then (none, { s with tag.staged := s.tag.staged ++ [(n, bytes, some c)] })
  else (some okReply, { s with tag.mem := memWrite s.tag.mem (16 * n.val) bytes })

/-- A host read of a sector: at once, or when the field has let go of it. -/
def readSector (n : SectorNo) (c : Cmd) (s : State) : Option Reply × State :=
  if sectorHeld s n.val then (none, { s with tag.reads := s.tag.reads ++ [(n, c)] }) else (some (sectorReply s n), s)

/-- What 0x0805 does, by its ACTION. -/
def tagAccess (c : Cmd) : Body := fun p s =>
  let n : SectorNo := obj 511 c
  if s.dies.fescue != .running then (some (reply .timeout 0), s)
  else if 1 < byteAt p 0 || !reserved3 p then (some (rangeReply 0x0805 c 0), s)
  else if byteAt p 0 = 1 then writeSector n (slice p 4 16) c s else readSector n c s

/-- 0x0805, which the table lists once for each ACTION. -/
def tagMemory (c : Cmd) : State → State := runCmd 0x0805 c (tagAccess c)

def execTagMemoryRead (cmd : Cmd) (s : State) : Host.Outcome State Fault Refusal := done (tagMemory cmd s)

def execTagMemoryWrite (cmd : Cmd) (s : State) : Host.Outcome State Fault Refusal := done (tagMemory cmd s)

def tagKillPassword (c : Cmd) : State → State :=
  runCmd 0x0806 c <| onFescue fun p s =>
    (okReply, { s with tag := { s.tag with killPassword := BitVec.ofNat 32 (leAt p 0 4), failures := 0 } })

def execTagKillPassword (cmd : Cmd) (s : State) : Host.Outcome State Fault Refusal := done (tagKillPassword cmd s)

end Sys2Proof.Machine
end

