-- ==== Sys2Proof/Machine/CmdLegal.lean ====
section
/-! DEFINITION. The legal commands 0x0300 to 0x0315 and the whitelist timeout (R152 to R174, R203, R416, R420). -/

namespace Sys2Proof.Machine

/-! ### Readouts -/

/-- SEL 0 of 0x0300. -/
def energyBytes (a : Accum) : List Byte :=
  (a.tarImp.toList ++ a.tarExp.toList ++ [a.dcVeh, a.sessImp, a.sessExp]).flatMap totalBytes

/-- SEL 1 of 0x0300. -/
def demandBytes (a : Accum) : List Byte :=
  ([a.totals.at 2, a.totals.at 3, a.totals.at 4, a.totals.at 5].flatMap totalBytes)
    ++ (a.mdImp.toList ++ a.mdExp.toList).flatMap fun m => leBytes 4 m.value.toNat ++ leBytes 4 m.time.toNat

def readRegisters (c : Cmd) : State → State :=
  runCmd 0x0300 c <| readOchre fun p s =>
    let a := (s.och.meter.at (obj 63 c)).acc
    inRange 0x0300 c [(0, byteAt p 0 ≤ 1), (0, reserved3 p)]
      (okWith (if byteAt p 0 = 0 then energyBytes a else demandBytes a), s) s

def execReadRegisters (cmd : Cmd) (s : State) : Host.Outcome State Fault Refusal := done (readRegisters cmd s)

/-- A billing snapshot: boundary time, then each outlet's energies and demands. -/
def snapshotBytes (x : Snapshot) : List Byte :=
  leBytes 8 x.time ++ x.regs.toList.flatMap fun a => energyBytes a ++ demandBytes a

def readBillingSnapshot (c : Cmd) : State → State :=
  runCmd 0x0301 c <| readOchre fun p s =>
    let x := s.och.snapshots.reverse.getD (byteAt p 0) { time := 0, regs := Tab.all 64 .zero }
    let there := byteAt p 0 < s.och.snapshots.length
    inRange 0x0301 c [(0, byteAt p 0 ≤ 1), (0, reserved3 p)] (okBulk (if there then snapshotBytes x else []), s) s

def execReadBillingSnapshot (cmd : Cmd) (s : State) : Host.Outcome State Fault Refusal :=
  done (readBillingSnapshot cmd s)

/-- The length of a command's buffer to the host. -/
def outLength (op : Nat) (c : Cmd) : Nat :=
  match (cmdDescs op c).find? fun d => d.dir % 2 = 1 with
  | some d => d.len
  | none => 0

/-- The unacknowledged entries with SEQ in a range. -/
def logRange (s : State) (first count : Nat) : List LogEntry :=
  s.och.log.entries.filter fun e => first ≤ e.seq.toNat && e.seq.toNat < first + count

/-- Entries with SEQ in a range marked as read. -/
def markRead (first count : Nat) (l : List LogEntry) : List LogEntry :=
  l.map fun e => if first ≤ e.seq.toNat && e.seq.toNat < first + count then { e with read := true } else e

def readLegalLog (c : Cmd) : State → State :=
  runCmd 0x0302 c <| readOchre fun p s =>
    let first := leAt p 0 4
    let n := leAt p 4 4
    let es := logRange s first n
    let fit := min n (outLength 0x0302 c / 96)
    inRange 0x0302 c
      [(0, es.any fun e => e.seq.toNat == first), (1, within 1 4096 n && es.length = n)]
      (okBulk (es.flatMap logBytes), { s with och.log.entries := markRead first fit s.och.log.entries }) s

def execReadLegalLog (cmd : Cmd) (s : State) : Host.Outcome State Fault Refusal := done (readLegalLog cmd s)

/-- A record in its place by REC_NO. -/
def insertRecord (r : SessionRecord) : List SessionRecord → List SessionRecord
  | [] => [r]
  | x :: xs => if r.recNo.toNat < x.recNo.toNat then r :: x :: xs else x :: insertRecord r xs

/-- Records that wait in their outlet's slot. -/
def waitingRecords (s : State) : List SessionRecord :=
  s.och.recs.slots.toList.filterMap fun x =>
    match x with
    | .waiting r => some r
    | _ => none

/-- The records that a readout covers, in REC_NO order. -/
def recordsFrom (s : State) (first : Nat) (unexported : Bool) : List SessionRecord :=
  let kept := (s.och.recs.retained.filter fun x => !unexported || !x.exported).map (·.record)
  ((kept ++ waitingRecords s).filter fun r => first ≤ r.recNo.toNat).foldr insertRecord []

def readSessionRecords (c : Cmd) : State → State :=
  runCmd 0x0305 c <| readOchre fun p s =>
    let n := leAt p 4 4
    inRange 0x0305 c [(1, within 1 8192 n), (2, leAt p 8 4 ≤ 1)]
      (okBulk (((recordsFrom s (leAt p 0 4) (leAt p 8 4 = 1)).take n).flatMap recordAll), s) s

def execReadSessionRecords (cmd : Cmd) (s : State) : Host.Outcome State Fault Refusal := done (readSessionRecords cmd s)

/-- The 32 bytes of an interval record (R161). -/
def intervalBytes (r : IntervalRecord) : List Byte :=
  leBytes 8 r.tEnd ++ leBytes 4 r.elapsed.toNat ++ leBytes 4 r.flags.toNat ++ leBytes 8 r.imp.toNat ++ leBytes 8 r.exp.toNat

/-- A legal object of 0x0304. -/
def legalObject (s : State) (sel index : Nat) : Reply :=
  match sel with
  | 0 => okBulk (s.och.log.acks.flatMap logBytes)
  | 1 => okBulk (padTo 1024 (s.teal.ring.flatMap tealBytes) ++ wordBytes s.teal.openings.toList)
  | 2 => okWith ((s.och.intervals.at (Fin.ofNat 64 index)).flatMap intervalBytes)
  | 3 => okWith (wordBytes s.och.refusals.toList)
  | 4 => okWith (journalBytes s.och.display.journal)
  | 5 => okWith (padTo 68 (Config.signingPublic index))
  | 6 => okBulk s.och.tariffs.active
  | _ => okBulk s.och.tariffs.passive

def readLegalObject (c : Cmd) : State → State :=
  runCmd 0x0304 c <| readOchre fun p s =>
    inRange 0x0304 c [(0, byteAt p 0 ≤ 7), (0, reserved3 p)] (legalObject s (byteAt p 0) c.index.toNat, s) s

def execReadLegalObject (cmd : Cmd) (s : State) : Host.Outcome State Fault Refusal := done (readLegalObject cmd s)

/-! ### Export (R181) -/

/-- The pairs of 0x0306: REC_NO and bytes 0x80 to 0x83. -/
def exportPairs : Nat → List Byte → List (Nat × Nat)
  | 0, _ => []
  | n + 1, p => (leAt p 0 4, leAt p 4 4) :: exportPairs n (p.drop 8)

/-- A pair matches a retained record. -/
def pairMatches (s : State) (p : Nat × Nat) : Bool :=
  s.och.recs.retained.any fun x => x.record.recNo.toNat == p.1 && leAt x.record.sig 0 4 == p.2

/-- Records of the pairs marked as exported. -/
def confirmPairs (ps : List (Nat × Nat)) (l : List Retained) : List Retained :=
  l.map fun x => { x with exported := x.exported || ps.any fun p => p.1 == x.record.recNo.toNat }

def confirmExport (c : Cmd) : State → State :=
  runCmd 0x0306 c <| readOchre fun p s =>
    let ps := exportPairs (p.length / 8) p
    let exported (l : List Retained) : Nat := (l.filter (·.exported)).length
    let l := confirmPairs ps s.och.recs.retained
    inRange 0x0306 c (numbered (fun k x => (2 * k, pairMatches s x)) 0 ps)
      (okWith (leBytes 4 (exported l - exported s.och.recs.retained)), { s with och.recs.retained := l }) s

def execConfirmExport (cmd : Cmd) (s : State) : Host.Outcome State Fault Refusal := done (confirmExport cmd s)

/-! ### Acknowledgement (R172 to R174) -/

/-- The entries up to a SEQ. -/
def ackRange (s : State) (last : Nat) : List LogEntry := s.och.log.entries.filter fun e => e.seq.toNat ≤ last

/-- The checks of R173. -/
def ackRefusal (op : Nat) (c : Cmd) (p : List Byte) (s : State) : Option Reply :=
  let es := ackRange s (leAt p 0 4)
  if !(es.any fun e => e.seq.toNat == leAt p 0 4) || !es.all (·.read) then some (rangeReply op c 0)
  else if crc32 (es.flatMap logBytes) ≠ leAt p 4 4 then some (rangeReply op c 1)
  else none

/-- The acknowledgement as it stands in the overflow area. -/
def ackEntry (s : State) (first last crc : Nat) : LogEntry :=
  let n := s.och.log.ackNo + 1
  { newEntry s n 0x00F0 1 0xFF (leBytes 4 first ++ leBytes 4 last ++ leBytes 4 crc ++ leBytes 4 n.toNat) with read := true }

/-- The log is acknowledged up to a SEQ. -/
def acknowledge (p : List Byte) (s : State) : Reply × State :=
  let l := s.och.log
  let last := leAt p 0 4
  let first := match l.entries with
    | e :: _ => e.seq.toNat
    | [] => last
  let acks := l.acks ++ [ackEntry s first last (leAt p 4 4)]
  let s := { s with och.log := { l with acks := acks.drop (acks.length - 16), ackNo := l.ackNo + 1, suppressed := [],
                                        entries := l.entries.filter fun e => last < e.seq.toNat } }
  let s := if holds s 20 moduleIndex then raiseEnd 20 moduleIndex [] s else s
  (okReply, writeSummaries l.suppressed s)

def acknowledgeLegalLog (c : Cmd) : State → State :=
  runCmd 0x0303 c <| whitelist (ackRefusal 0x0303 c) acknowledge

def execAcknowledgeLegalLog (cmd : Cmd) (s : State) : Host.Outcome State Fault Refusal :=
  done (acknowledgeLegalLog cmd s)

/-! ### Tariffs, calendar, time (R152 to R158, R166 to R168) -/

/-- Ochre's refusal of tariff parameters. -/
def tariffRefusal (op : Nat) (c : Cmd) (p : List Byte) (s : State) : Option Reply :=
  let w0 := BitVec.ofNat 32 (leAt p 0 4)
  let n := wFld w0 0 4
  let names (cal : List Byte) : Bool := !cal.isEmpty && calendarNames cal n
  if !logRoom s 1 then some (reply .legalLogFull 0)
  else if w0 &&& 0x10F ≠ w0 || !within 1 8 n || names s.och.tariffs.active || names s.och.tariffs.passive then
    some (rangeReply op c 0)
  else if byteAt p 7 ≠ 0 then some (rangeReply op c 1)
  else none

def setTariffs (p : List Byte) (s : State) : Reply × State :=
  let s := logWhitelist 0x0020 (leBytes 4 s.och.set.tariff0.toNat ++ leBytes 4 s.och.set.tariff1.toNat ++ slice p 0 8) s
  (pendingReply, { s with och.set.tariff0 := BitVec.ofNat 32 (leAt p 0 4), och.set.tariff1 := BitVec.ofNat 32 (leAt p 4 4),
                          och.set.tariffPend := true })

def tariffParameters (c : Cmd) : State → State := runCmd 0x0310 c <| whitelist (tariffRefusal 0x0310 c) setTariffs

def execTariffParameters (cmd : Cmd) (s : State) : Host.Outcome State Fault Refusal := done (tariffParameters cmd s)

/-- Ochre's refusal of a passive calendar (R155, R157). -/
def calendarRefusal (cal : List Byte) (s : State) : Option Reply :=
  let act := calActTime cal
  if !logRoom s 1 then some (reply .legalLogFull 0)
  else if cal.length ≠ 916 then some (rangeAt 1)
  else if !calendarOk cal (wFld s.och.set.tariff0 0 4) then some (rangeAt 0xFFFF)
  else if act % 60 ≠ 0 || act * 1000000 < s.och.clock.us + 60000000 then some (rangeAt 3)
  else none

/-- CAL_ID of a calendar, 0xFFFF_FFFF for none. -/
def idOrNone (cal : List Byte) : Nat := if cal.isEmpty then 0xFFFFFFFF else calId cal

def loadCalendar (cal : List Byte) (s : State) : Reply × State :=
  let s := logWhitelist 0x0021
    (leBytes 4 (calId cal) ++ leBytes 4 (calActTime cal) ++ slice cal 0x390 4 ++ leBytes 4 (idOrNone s.och.tariffs.passive)) s
  (okReply, { s with och.tariffs.passive := cal })

def loadPassiveCalendar (c : Cmd) : State → State :=
  runCmd 0x0311 c fun p s =>
    let cal := bulkOf 0x0311 c s
    whitelist (fun _ => calendarRefusal cal) (fun _ => loadCalendar cal) p s

def execLoadPassiveCalendar (cmd : Cmd) (s : State) : Host.Outcome State Fault Refusal :=
  done (loadPassiveCalendar cmd s)

/-- Units of 64 µs in an hour. -/
def hourUnits : Nat := 56250000

/-- Ochre's refusal of a time set (R23, R146). -/
def timeRefusal (op : Nat) (c : Cmd) (p : List Byte) (s : State) : Option Reply :=
  let new := leAt p 0 8
  if s.modes.base != .commissioning && new + hourUnits < legalUnits s then some (modeReply s)
  else if !logRoom s 1 then some (reply .legalLogFull 0)
  else if 2 ^ 32 * 15625 ≤ new then some (rangeReply op c 0)
  else none

/-- Legal time takes a value; a time set ends the time-invalid flag, which the spans it fell into keep (R59, R162). -/
def takeTime (us : Nat) (s : State) : State :=
  let was := s.och.clock.timeInvalid
  let s := if was then markAll flagInvalidTime s else s
  let s := { s with och.clock.us := us, och.clock.timeInvalid := false }
  if was && !s.och.clock.checkFailed && holds s 29 moduleIndex then raiseEnd 29 moduleIndex [] s else s

/-- A forward set, or a set-back. -/
def setTime (p : List Byte) (s : State) : Reply × State :=
  let old := legalUnits s
  let new := leAt p 0 8
  let us := new * 64
  let mono := s.och.clock.mono
  let s := logWhitelist (if old ≤ new then 0x0010 else 0x0011) (leBytes 8 old ++ leBytes 8 new) s
  let s := markAll flagTime s
  let s := if old ≤ new then crossTo us mono flagTime s else s
  let s := applyTariff us mono (takeTime us s)
  (okWith (leBytes 8 old), s)

def setLegalTime (c : Cmd) : State → State := runCmd 0x0312 c <| whitelist (timeRefusal 0x0312 c) setTime

def execSetLegalTime (cmd : Cmd) (s : State) : Host.Outcome State Fault Refusal := done (setLegalTime cmd s)

/-- Ochre's refusal of a demand interval length (R158). -/
def lengthRefusal (op : Nat) (c : Cmd) (p : List Byte) (s : State) : Option Reply :=
  if !logRoom s 1 then some (reply .legalLogFull 0)
  else if ! [1, 2, 3, 4, 5, 6, 10, 12, 15, 20, 30, 60].contains (byteAt p 0) || !reserved3 p then some (rangeReply op c 0)
  else none

def setLength (p : List Byte) (s : State) : Reply × State :=
  let hour := (lt32 s / 3600 + 1) * 3600
  let old := match s.och.tariffs.lenPend with
    | some (n, _) => n
    | none => s.och.tariffs.len
  let s := logWhitelist 0x0024 ([BitVec.ofNat 8 old, BitVec.ofNat 8 (byteAt p 0)] ++ leBytes 4 hour) s
  ({ pendingReply with payload := leBytes 4 hour }, { s with och.tariffs.lenPend := some (byteAt p 0, hour) })

def demandInterval (c : Cmd) : State → State := runCmd 0x0313 c <| whitelist (lengthRefusal 0x0313 c) setLength

def execDemandInterval (cmd : Cmd) (s : State) : Host.Outcome State Fault Refusal := done (demandInterval cmd s)

/-- A confirmation matches the announced switch (R40, R41). -/
def announcedMatch (p : List Byte) (s : State) : Bool :=
  match s.och.tariffs.announced with
  | some (t, _, after, _) => t == leAt p 0 8 && after.val == byteAt p 8 && (slice p 9 3).all (· == 0)
  | none => false

def confirmRefusal (op : Nat) (c : Cmd) (p : List Byte) (s : State) : Option Reply :=
  if announcedMatch p s then none else some (rangeReply op c 0)

def confirmSwitch (_ : List Byte) (s : State) : Reply × State :=
  (okReply, { s with och.tariffs.announced := s.och.tariffs.announced.map fun x => (x.1, x.2.1, x.2.2.1, true) })

def confirmTariffSwitch (c : Cmd) : State → State := runCmd 0x0314 c <| whitelist (confirmRefusal 0x0314 c) confirmSwitch

def execConfirmTariffSwitch (cmd : Cmd) (s : State) : Host.Outcome State Fault Refusal :=
  done (confirmTariffSwitch cmd s)

/-! ### Display selection (R203) -/

def selectionOf (p : List Byte) : Item := { item := byteAt p 0, outlet := byteAt p 1, index := byteAt p 2 }

def selectionRefusal (op : Nat) (c : Cmd) (p : List Byte) (s : State) : Option Reply :=
  if selectionOk s (selectionOf p) && byteAt p 3 = 0 then none else some (rangeReply op c 0)

def selectItem (p : List Byte) (s : State) : Reply × State :=
  let x := selectionOf p
  (okReply, compose (s.onDisplay fun d => { d with sel := some (x.item, x.outlet, x.index) }))

def displaySelection (c : Cmd) : State → State := runCmd 0x0315 c <| whitelist (selectionRefusal 0x0315 c) selectItem

def execDisplaySelection (cmd : Cmd) (s : State) : Host.Outcome State Fault Refusal := done (displaySelection cmd s)

/-! ### Timeout (R416) -/

/-- The opcodes marked "whitelist". -/
def whitelistOps : List Nat := [0x0210, 0x0211, 0x0303, 0x0310, 0x0311, 0x0312, 0x0313, 0x0314, 0x0315]

/-- Ochre has not answered for 10 ms. -/
def whitelistTimeout (c : Cmd) (op : Nat) (s : State) : State :=
  if whitelistOps.contains op && (findFetch op c s).isSome && controlRuns s then answer op c (reply .timeout 0) s else s

def execWhitelistTimeout (cmd : Cmd) (opcode : BitVec 16) (s : State) : Host.Outcome State Fault Refusal :=
  done (whitelistTimeout cmd opcode.toNat s)

end Sys2Proof.Machine
end

