-- ==== Sys2Proof/Machine/Spelt.lean ====
section
/-! DEFINITION. The protected load switches: the control tick, thermal protection, pulse following, rules and conditions,
diagnostics, shedding and the aggregate cap (R298 to R323, R503). -/

namespace Sys2Proof.Machine

/-- Spelt's control logic runs. -/
def speltRuns (s : State) : Bool := s.dies.spelt == .running

/-- Channels 0 to 47. -/
def channels : List ChanNo := indices 47

/-! ### Demand and output (R299, R305, R311, R503) -/

/-- The raw demand of a rule word under the conditions last received. -/
def rawDemand (k : Conditions) (w : Word) : Bool :=
  let o : OutletNo := Fin.ofNat 64 (wFld w 22 6)
  let c : Bool := match wFld w 28 4 with
    | 1 => true
    | 2 => k.pairOn.at o
    | 3 => k.connected.at o
    | 4 => k.classE.at o
    | 5 => k.lockout.at o
    | 6 => k.degraded
    | 7 => k.estop
    | 8 => k.flags.getLsbD (wFld w 22 6)
    | _ => false
  c != wBit w 21

/-- The delay, in ms, of a change of the rule's result to `on`. -/
def ruleDelay (w : Word) (on : Bool) : Nat := if on then wFld w 14 7 * 100 else wFld w 7 7 * 1000

/-- The rule word at a tick: a raw demand against the result counts, and without a delay changes it. -/
def ruleTick (k : Conditions) (c : Channel) : Channel :=
  let raw := rawDemand k c.rule.now
  if raw = c.ruleOut then { c with against := 0 }
  else if ruleDelay c.rule.now raw = 0 then { c with ruleOut := raw, against := 0 }
  else { c with against := c.against + 1 }

/-- The demand of a channel (R299, R313, R322). -/
def channelDemand (s : State) (c : Channel) : Bool :=
  s.spe.loaded && (if c.ha && !fallbackActs s c then c.on else c.ruleOut)

/-- Channels are held off in the standby (R503). -/
def channelsHeld (s : State) : Bool := servingRole s == .standby

/-- The output of a channel. -/
def outputOf (s : State) (c : Channel) : Bool :=
  c.demand && c.prot == .none && !c.shed && pulseActive s c && !channelsHeld s

def refreshOutput (c : ChanNo) (s : State) : State := s.onChan c fun x => { x with output := outputOf s x }

/-- The demand is taken over: off from on clears the retry count, the state retries exhausted and a shed. A latched channel's
count is frozen (R305, R306, R321). -/
def takeDemand (d : Bool) (c : Channel) : Channel :=
  if c.demand && !d then
    { c with demand := false, retryCnt := if c.prot = .latched then c.retryCnt else 0,
             prot := if c.prot = .exhausted then .none else c.prot, shed := false, freeRestart := false }
  else { c with demand := d }

/-! ### Control tick (R109, R299, R312, R314, R317, R320, R321) -/

/-- Thermal events age, and leave the window after LATCH_WIN (R306). -/
def ageEvents (c : Channel) : Channel :=
  { c with events := (c.events.map (· + 1)).filter fun a => decide (a ≤ wFld c.cfg0.now 3 8 * 1000) }

/-- I_LIM in mA. -/
def currentLimit (c : Channel) : Nat := wFld c.cfg0.now 26 6 * 100

/-- What a tick measures of a channel, whose current I_LIM limits; one that is not listed was off (R300, R301, R314). -/
def measured (meas : List ChanMeas) (substrate : Int) (k : ChanNo) (c : Channel) : Channel :=
  match meas.find? fun m => m.chan == k with
  | some m =>
    let asked := m.loads.filterMap id
    let sum := (asked.map fun x => min x (currentLimit c)).foldl (· + ·) 0
    { c with iSense := sum / asked.length / 10, tickI := (sum : Rat) / m.loads.length, tj := m.tj, dt := m.tj - substrate,
             iLimit := match m.loads.getLast? with
               | some (some x) => decide (currentLimit c < x)
               | _ => false }
  | none => { c with iSense := 0, tickI := 0, iLimit := false }

/-- A channel's settings commit. -/
def commitChannel (c : Channel) : Channel := { c with cfg0 := c.cfg0.commit, cfg1 := c.cfg1.commit, rule := c.rule.commit }

/-- A channel at a tick: settings commit unless they came late, measurements, rule, demand, output. -/
def tickChannel (meas : List ChanMeas) (substrate : Int) (late : Bool) (k : ChanNo) (s : State) : State :=
  let s := s.onChan k fun c =>
    ruleTick s.spe.cond (ageEvents (measured meas substrate k (if late then c else commitChannel c)))
  let was := s.spe.chan.at k
  let s := refreshOutput k (s.onChan k fun c => takeDemand (channelDemand s c) c)
  let now := s.spe.chan.at k
  let s := if was.shed && !now.shed then { s with spe.restoreTicks := 0 } else s
  if was.prot = .exhausted && now.prot ≠ .exhausted then raiseEnd 66 k.val [] s else s

/-- AGG_I in 0.5 A units: the channels' mean currents over the tick, rounded down (R317). -/
def aggregate (s : State) : Nat := (sumRat (s.spe.chan.toList.map (·.tickI)) / 500).floor.toNat

/-- PRIO of a channel. -/
def prioOf (c : Channel) : Nat := wFld c.cfg1.now 19 2

/-- The channel restored next: highest PRIO, then lowest number (R321). -/
def restoreNext (s : State) : Option ChanNo :=
  channels.foldl (fun (best : Option ChanNo) k =>
    if !(s.spe.chan.at k).shed then best
    else match best with
      | some b => if prioOf (s.spe.chan.at b) < prioOf (s.spe.chan.at k) then some k else best
      | none => some k) none

/-- AGG_I plus the stored current of the next channel lies at or below 0.9 × AGG_CAP, in 10 mA. -/
def restoreFits (s : State) : Bool :=
  match restoreNext s with
  | some k => decide (10 * (s.spe.aggI * 50 + (s.spe.chan.at k).shedI) ≤ 9 * (s.spe.aggCap * 50))
  | none => false

/-- A 1 ms Spelt control tick; settings accepted less than 10 µs before it wait for the next one (R111). -/
def speltTick (meas : List ChanMeas) (substrate : Int) (late : Bool) (s : State) : State :=
  if !speltRuns s then s
  else
    let s := { s with spe.aggMax := if late then s.spe.aggMax else s.spe.aggMax.commit }
    let s := forEach channels (tickChannel meas substrate late) s
    let s := { s with spe.aggI := aggregate s }
    { s with spe.overTicks := if s.spe.aggCap < s.spe.aggI then s.spe.overTicks + 1 else 0,
             spe.restoreTicks := if restoreFits s then s.spe.restoreTicks + 1 else 0 }

def execSpeltControlTick (meas : List ChanMeas) (substrate : Int) (late : Bool) (s : State) :
    Host.Outcome State Fault Refusal := done (speltTick meas substrate late s)

/-! ### Thermal events (R302 to R307, R323) -/

/-- The latch trips: LATCH_N events lie in the window. -/
def latchTrips (c : Channel) : Bool :=
  let n := wFld c.cfg0.now 11 4
  n ≠ 0 && decide (n ≤ c.events.length)

/-- The state after a thermal event: latch, then retry rule. -/
def protAfter (kind : Protection) (c : Channel) : Protection :=
  if latchTrips c then .latched else if wFld c.cfg0.now 15 4 ≤ c.retryCnt then .exhausted else kind

/-- A turn-off under R302 or R303. -/
def thermalEvent (k : ChanNo) (kind : Protection) (s : State) : State :=
  let s := s.onChan k fun c =>
    let c := { c with events := 0 :: c.events }
    { c with prot := protAfter kind c, output := false, freeRestart := false }
  let s := raise 64 k.val 0 [] s
  match (s.spe.chan.at k).prot with
  | .latched => raise 65 k.val 0 [] s
  | .exhausted => raise 66 k.val 0 [] s
  | _ => s

/-- A junction reaches 175 °C. The shutdown acts while Spelt is reset too; its count waits for Spelt (R322). -/
def thermalShutdown (k : ChanNo) (tj : Int) (s : State) : State :=
  let c := s.spe.chan.at k
  if s.dies.spelt = .held || tj < 175 then s
  else match c.prot with
    | .none =>
      if !c.demand then s
      else if speltRuns s then thermalEvent k .thermal s
      else s.onChan k fun c => { c with prot := .thermal, output := false }
    | .difference => s.onChan k fun c => { c with prot := .thermal }
    | _ => s

def execThermalShutdown (channel : ChanNo) (tj : Int) (s : State) : Host.Outcome State Fault Refusal :=
  done (thermalShutdown channel tj s)

/-- DT_LIM, K. -/
def differenceMax (c : Channel) : Int := (wFld c.cfg0.now 19 7 : Nat)

/-- A junction exceeds the substrate by more than DT_LIM; with 175 °C reached too the event is a thermal shutdown (R304). -/
def differenceLimit (k : ChanNo) (tj substrate : Int) (s : State) : State :=
  let c := s.spe.chan.at k
  if speltRuns s && c.prot = .none && c.demand && decide (differenceMax c < tj - substrate) then
    thermalEvent k (if 175 ≤ tj then .thermal else .difference) s
  else s

def execDifferenceLimit (channel : ChanNo) (tj substrate : Int) (s : State) : Host.Outcome State Fault Refusal :=
  done (differenceLimit channel tj substrate s)

/-- The restart condition of R302 or R303. -/
def cooled (c : Channel) (tj substrate : Int) : Bool :=
  match c.prot with
  | .thermal => decide (tj < 160)
  | .difference => decide (tj - substrate ≤ differenceMax c - 15)
  | _ => false

/-- A channel's restart condition holds with its demand on. -/
def channelRestart (k : ChanNo) (tj substrate : Int) (s : State) : State :=
  let c := s.spe.chan.at k
  if speltRuns s && cooled c tj substrate && c.demand && pulseActive s c then
    refreshOutput k (s.onChan k fun c =>
      { c with prot := .none, freeRestart := false, retryCnt := if c.freeRestart then c.retryCnt else c.retryCnt + 1 })
  else s

def execChannelRestart (channel : ChanNo) (tj substrate : Int) (s : State) : Host.Outcome State Fault Refusal :=
  done (channelRestart channel tj substrate s)

/-! ### Pulse inputs (R308) -/

/-- An edge on a pulse input; the pulse path runs through a Spelt reset too. -/
def pulseEdge (p : PulseNo) (high : Bool) (s : State) : State :=
  let s := { s with spe.pulse := s.spe.pulse.put p high }
  if s.dies.spelt = .held then s
  else
    forEach channels (fun k s =>
      let w := (s.spe.chan.at k).cfg1.now
      if wBit w 31 && wFld w 28 3 = p.val then refreshOutput k s else s) s

def execPulseEdge (pulse : PulseNo) (high : Bool) (s : State) : Host.Outcome State Fault Refusal :=
  done (pulseEdge pulse high s)

/-! ### Conditions and rules (R310, R311) -/

/-- The filtered state is B, C or D. -/
def connected (p : Pilot) : Bool := p.state == .B || p.state == .C || p.state == .D

/-- The conditions of a broadcast. -/
def conditionsNow (s : State) : Conditions :=
  { pairOn := (Tab.all 64 ()).mapN fun o _ => (s.rus.pair.at (Fin.ofNat 68 o)).cmd,
    connected := s.veh.pilot.each connected, classE := s.rus.outlet.each (·.fault.classE),
    lockout := s.rus.outlet.each (·.fault.classP), degraded := degraded s, estop := estopActive s, flags := s.spe.flags }

/-- The 1 ms broadcast arrives; it ends an absence. -/
def broadcast (s : State) : State :=
  if !speltRuns s || !controlRuns s then s
  else
    let was := s.spe.absent
    let s := { s with spe.cond := conditionsNow s, spe.absent := false }
    if was then raiseEnd 69 moduleIndex [] s else s

def execConditionBroadcast (s : State) : Host.Outcome State Fault Refusal := done (broadcast s)

/-- 50 ms without a broadcast. -/
def broadcastAbsent (s : State) : State :=
  if !speltRuns s || s.spe.absent then s else raise 69 moduleIndex 0 [] { s with spe.absent := true }

def execBroadcastAbsent (s : State) : Host.Outcome State Fault Refusal := done (broadcastAbsent s)

/-- A rule's delay has run out: the ticks for which its raw demand held against the result reach it. The demand follows at
the next tick. -/
def ruleExpiry (k : ChanNo) (s : State) : State :=
  let c := s.spe.chan.at k
  let raw := rawDemand s.spe.cond c.rule.now
  if speltRuns s && raw ≠ c.ruleOut && decide (ruleDelay c.rule.now raw ≤ c.against) then
    s.onChan k fun c => { c with ruleOut := raw, against := 0 }
  else s

def execRuleDelayExpiry (channel : ChanNo) (s : State) : Host.Outcome State Fault Refusal := done (ruleExpiry channel s)

/-! ### Diagnostics (R315, R316) -/

/-- Event 67 where a flag of a channel's diagnostics has changed. -/
def reportDiag (k : ChanNo) (d : ChanDiag) (s : State) : State :=
  let e := (s.spe.chan.at k).diag
  if e.olOn = d.olOn && e.olOff = d.olOff && e.shortVin = d.shortVin then s else raise 67 k.val 0 [] s

/-- OL_ON after 10 ms of on-time with samples in mA: set without one at OL_TH or more, cleared with samples above it only. -/
def openLoad (threshold : Nat) (samples : List Nat) (was : Bool) : Bool :=
  if samples.all fun x => decide (x < threshold) then true
  else if samples.all fun x => decide (threshold < x) then false
  else was

/-- 10 ms of on-time have been sampled. -/
def onOpenLoad (k : ChanNo) (samples : List Nat) (s : State) : State :=
  let c := s.spe.chan.at k
  if speltRuns s && c.output && !c.iLimit && wFld c.cfg1.now 22 5 ≠ 0 && !samples.isEmpty then
    reportDiag k c.diag (s.onChan k fun c =>
      { c with diag := { c.diag with olOn := openLoad (wFld c.cfg1.now 22 5 * 5) samples c.diag.olOn } })
  else s

def execOnStateOpenLoad (channel : ChanNo) (samples : List Nat) (s : State) : Host.Outcome State Fault Refusal :=
  done (onOpenLoad channel samples s)

/-- One off-state check: two readings alike set or clear SHORT_VIN; OL_OFF is judged with OLOFF_EN. -/
def offDiag (olEn : Bool) (x : OffCheck) (d : ChanDiag) : ChanDiag :=
  let near := decide (x.vin - 1500 < x.out)
  let run := if near = d.shortLast then min 2 (d.shortRun + 1) else 1
  { d with shortLast := near, shortRun := run, shortVin := if run = 2 then near else d.shortVin,
           olOff := if olEn then decide (4000 < x.sourced) else d.olOff }

/-- A channel whose demand is off is checked. -/
def offCheck (x : OffCheck) (s : State) : State :=
  let c := s.spe.chan.at x.chan
  if c.demand then s
  else reportDiag x.chan c.diag (s.onChan x.chan fun c => { c with diag := offDiag (wBit c.cfg1.now 21) x c.diag })

/-- The 100 ms off-state checks. -/
def offDiagnostic (checks : List OffCheck) (s : State) : State :=
  if speltRuns s then checks.foldl (fun s x => offCheck x s) s else s

def execOffStateDiagnostic (checks : List OffCheck) (s : State) : Host.Outcome State Fault Refusal :=
  done (offDiagnostic checks s)

/-! ### Shedding (R318 to R321) -/

/-- The channel shed next: on, PRIO below 3, lowest PRIO, then highest number. -/
def shedNext (s : State) : Option ChanNo :=
  channels.foldl (fun (best : Option ChanNo) k =>
    let c := s.spe.chan.at k
    if !(c.demand && c.prot == .none && !c.shed && prioOf c < 3) then best
    else match best with
      | some b => if prioOf c ≤ prioOf (s.spe.chan.at b) then some k else best
      | none => some k) none

/-- AGG_I has exceeded AGG_CAP at 10 ticks in succession: one channel is shed, and the next tick above the cap sheds again. -/
def shedOne (s : State) : State :=
  if !speltRuns s || s.spe.overTicks < 10 then s
  else match shedNext s with
    | none => s
    | some k =>
      let s := s.onChan k fun c => { c with shed := true, shedI := c.iSense, output := false }
      raise 68 k.val 0 [] { s with spe.overTicks := 9, spe.restoreTicks := 0 }

def execChannelShed (s : State) : Host.Outcome State Fault Refusal := done (shedOne s)

/-- The next channel's current has fitted for 1 s: it is restored. -/
def restoreOne (s : State) : State :=
  if !speltRuns s || s.spe.restoreTicks < 1000 then s
  else match restoreNext s with
    | none => s
    | some k =>
      let s := refreshOutput k (s.onChan k fun c => { c with shed := false })
      raise 68 k.val 1 [] { s with spe.restoreTicks := 0 }

def execChannelRestore (s : State) : Host.Outcome State Fault Refusal := done (restoreOne s)

/-- AGG_CAP of a maximum at a case temperature in 0.0625 K (R318). -/
def capAt (max_ : Nat) (tc : Int) : Nat := max_ * (320 - min 160 (tc - 1840).toNat) / 320

/-- The scheduler's cap arrives, unless broadcasts are absent. -/
def capUpdate (s : State) : State :=
  if !speltRuns s || !controlRuns s || s.spe.absent then s
  else { s with spe.aggCap := capAt (wFld s.spe.aggMax.now 23 9) s.thm.tc }

def execAggregateCapUpdate (s : State) : Host.Outcome State Fault Refusal := done (capUpdate s)

/-! ### CLR (R305, R306, R323) -/

/-- The condition of R302 or R303 that still forbids a restart, from the last measurement. -/
def stillHot (c : Channel) : Protection :=
  if 160 ≤ c.tj then .thermal else if (wFld c.cfg0.now 19 7 : Int) - 15 < c.dt then .difference else .none

/-- CLR: latch, exhausted state, count and window are cleared; a restart that is still due does not count. -/
def clearChannel (c : Channel) : Channel :=
  let hot := match c.prot with
    | .none => .none
    | .thermal | .difference => c.prot
    | _ => stillHot c
  { c with prot := hot, retryCnt := 0, events := [], freeRestart := hot != .none }

/-- CLR ends the level sources of the latch and of the exhausted retries. -/
def clearEvents (k : ChanNo) (was : Protection) (s : State) : State :=
  match was with
  | .latched => raiseEnd 65 k.val [] s
  | .exhausted => raiseEnd 66 k.val [] s
  | _ => s

end Sys2Proof.Machine
end

