-- ==== Sys2Proof/Machine/CmdLoad.lean ====
section
/-! DEFINITION. The load switch commands 0x0600 to 0x0606 (R311 to R317, R424). -/

namespace Sys2Proof.Machine

/-- A command that Spelt answers; a die that does not run gives none (R407). -/
def onSpelt (f : List Byte → State → Reply × State) : Body :=
  acts fun p s => if speltRuns s then f p s else (reply .timeout 0, s)

/-- Bytes of 0x0600. -/
def loadStatusBytes (s : State) (c : Cmd) : List Byte :=
  if c.index = 0xFFFF then leBytes 4 (aggStatus s).toNat
  else
    let x := s.spe.chan.at (obj 47 c)
    leBytes 4 (chanStatus0 s x).toNat ++ leBytes 4 (chanStatus1 x).toNat

def loadSwitchStatus (c : Cmd) : State → State := runCmd 0x0600 c <| onSpelt fun _ s => (okWith (loadStatusBytes s c), s)

def execLoadSwitchStatus (cmd : Cmd) (s : State) : Host.Outcome State Fault Refusal := done (loadSwitchStatus cmd s)

/-- Configuration words 0 and 1 (R312). -/
def chanWord0Ok (w : Word) : Bool :=
  within 5 40 (wFld w 26 6) && within 30 80 (wFld w 19 7) && wFld w 3 8 ≠ 0 && wFld w 0 3 = 0

def chanWord1Ok (w : Word) : Bool := wFld w 0 19 = 0

def channelConfiguration (c : Cmd) : State → State :=
  runCmd 0x0601 c <| onSpelt fun p s =>
    let w0 := BitVec.ofNat 32 (leAt p 0 4)
    let w1 := BitVec.ofNat 32 (leAt p 4 4)
    checked 0x0601 c [(0, chanWord0Ok w0), (1, chanWord1Ok w1)]
      (fun s => (pendingReply, s.onChan (obj 47 c) fun x => { x with cfg0 := x.cfg0.write w0, cfg1 := x.cfg1.write w1 })) s

def execChannelConfiguration (cmd : Cmd) (s : State) : Host.Outcome State Fault Refusal :=
  done (channelConfiguration cmd s)

/-- The control word takes effect at once; the demand follows at the next tick (R313). -/
def controlChannel (k : ChanNo) (w : Word) (s : State) : State :=
  let was := (s.spe.chan.at k).prot
  let s := if wBit w 3 then clearEvents k was (s.onChan k clearChannel) else s
  s.onChan k fun x => { x with ha := wBit w 2, fallback := wBit w 1, on := wBit w 0 }

def channelControl (c : Cmd) : State → State :=
  runCmd 0x0602 c <| onSpelt fun p s =>
    let w := BitVec.ofNat 32 (leAt p 0 4)
    checked 0x0602 c [(0, wFld w 4 28 = 0)] (fun s => (okReply, controlChannel (obj 47 c) w s)) s

def execChannelControl (cmd : Cmd) (s : State) : Host.Outcome State Fault Refusal := done (channelControl cmd s)

/-- The rule word (R311). -/
def ruleWordOk (w : Word) : Bool :=
  let src := wFld w 28 4
  let arg := wFld w 22 6
  wFld w 0 7 = 0 && src ≤ 8 && (within 2 5 src || (src = 8 && arg ≤ 15) || arg = 0)

def channelRule (c : Cmd) : State → State :=
  runCmd 0x0603 c <| onSpelt fun p s =>
    let w := BitVec.ofNat 32 (leAt p 0 4)
    checked 0x0603 c [(0, ruleWordOk w)]
      (fun s => (pendingReply, s.onChan (obj 47 c) fun x => { x with rule := x.rule.write w })) s

def execChannelRule (cmd : Cmd) (s : State) : Host.Outcome State Fault Refusal := done (channelRule cmd s)

/-- Host flags, which the next broadcast carries. -/
def hostFlags (c : Cmd) : State → State :=
  runCmd 0x0604 c <| acts fun p s =>
    let mask := BitVec.ofNat 16 (leAt p 0 2)
    let f := (s.spe.flags &&& ~~~mask) ||| (BitVec.ofNat 16 (leAt p 2 2) &&& mask)
    (okWith (leBytes 2 f.toNat ++ [0, 0]), { s with spe.flags := f })

def execHostFlags (cmd : Cmd) (s : State) : Host.Outcome State Fault Refusal := done (hostFlags cmd s)

def aggregateMaximum (c : Cmd) : State → State :=
  runCmd 0x0605 c <| onSpelt fun p s =>
    let w := BitVec.ofNat 32 (leAt p 0 4)
    checked 0x0605 c [(0, within 2 384 (wFld w 23 9) && wFld w 0 23 = 0)]
      (fun s => (pendingReply, { s with spe.aggMax := s.spe.aggMax.write w })) s

def execAggregateMaximum (cmd : Cmd) (s : State) : Host.Outcome State Fault Refusal := done (aggregateMaximum cmd s)

/-- Configuration words, rule word and control word as written last; CLR reads 0. -/
def setupBytes (x : Channel) : List Byte :=
  wordBytes [x.cfg0.written, x.cfg1.written, x.rule.written, word [flag x.ha 2, flag x.fallback 1, flag x.on 0]]

def readChannelSetup (c : Cmd) : State → State :=
  runCmd 0x0606 c <| onSpelt fun _ s => (okWith (setupBytes (s.spe.chan.at (obj 47 c))), s)

def execReadChannelSetup (cmd : Cmd) (s : State) : Host.Outcome State Fault Refusal := done (readChannelSetup cmd s)

end Sys2Proof.Machine
end

