-- ==== Sys2Proof/Machine/Release.lean ====
section
/-! DEFINITION. Release from Lockout: reset inputs, the checks of Russet and of its peer (R283, R284, R423). -/

namespace Sys2Proof.Machine

/-- 10 ms, within which the peer's result belongs to the own one, in µs (R284). -/
def peerCheckUs : Nat := 10000

/-- No emergency-stop channel that covers the outlet is in the stop state or in discrepancy. -/
def estopClear (s : State) (o : OutletNo) : Bool :=
  (indices 1).all fun c =>
    let e := s.rus.estop.at c
    !(e.stop || e.disc) || !(estopOutlets s c).contains o

/-- No residual-current quantity lies at or above its warning level. -/
def residualBelowWarn (g : Guard) : Bool :=
  let xs := slotWindow g 7
  !reaches false xs (levelOf (g.residual.acCurve.now.getD 0 0) * 100)
    && !reaches true xs (levelOf (g.residual.dcCurve.now.getD 0 0) * 100)

/-- The latest insulation result of a DC outlet is not below ISO_TRIP; none yet passes. -/
def insulationNotBelow (s : State) (o : OutletNo) : Bool :=
  let g := s.rus.outlet.at o
  !rusDc s o ||
    (match g.iso.result with
     | some r => isoAboveTrip g r
     | none => true)

/-- The number of the first check of step 4 that fails. -/
def releaseCheckFailing (s : State) (o : OutletNo) : Option Nat :=
  firstFailing 1 [estopClear s o, residualBelowWarn (s.rus.outlet.at o), insulationNotBelow s o, !brakeFailedFor s o,
                  !(s.rus.pair.at (coilOf o)).hsRb]

/-- The outcome of a press: RELEASE_ARMED clears and the result is reported (R423). -/
def releaseOutcome (o : OutletNo) (result : Nat) (s : State) : State :=
  raise 49 o.val 0 [BitVec.ofNat 8 result]
    (s.onGuard o fun g => { g with releaseArmed := false, awaitsPeer := false, peerPassed := none })

/-- Step 5: the outlet leaves Lockout. -/
def releaseOutlet (o : OutletNo) (s : State) : State :=
  let s := s.onGuard o fun g =>
    { g with fault := { g.fault with classP := false, first := 0, last := 0, count := 0, relayed := false } }
  settle (refreshDrive o (releaseOutcome o 0 s))

/-- The result of the own checks goes to the peer. -/
def reportCheck (o : OutletNo) (passed : Bool) (s : State) : State :=
  if s.pair.peer = 0 then s else { s with pair.sent := s.pair.sent ++ [.releaseCheck o passed] }

/-- The peer reported passed checks within 10 ms. -/
def peerInTime (s : State) (g : Guard) : Bool :=
  match g.peerPassed with
  | some t => decide (s.och.clock.mono ≤ t + peerCheckUs)
  | none => false

/-- A press of an armed outlet's reset input (R283 step 4, R284). -/
def press (o : OutletNo) (s : State) : State :=
  let g := s.rus.outlet.at o
  if !g.releaseArmed then s
  else match releaseCheckFailing s o with
    | some n => releaseOutcome o n (reportCheck o false s)
    | none =>
      if s.pair.peer = 0 then releaseOutlet o s
      else if peerInTime s g then releaseOutlet o (reportCheck o true s)
      else reportCheck o true (s.onGuard o fun g => { g with awaitsPeer := true })

/-- A press counts: at least 100 ms and at most 5 s low, and after one held longer only from 100 ms high on. -/
def pressCounts (held : Bool) (highMs lowMs : Nat) : Bool :=
  (!held || decide (100 ≤ highMs)) && decide (100 ≤ lowMs) && decide (lowMs ≤ 5000)

/-- OUTRSTn or HUBRST is released, after a time high and a time low, in ms. -/
def resetReleased (i : ResetInput) (highMs lowMs : Nat) (s : State) : State :=
  if !russetRuns s then s
  else match i with
    | .out o =>
      if pressCounts (s.rus.outHeld.at o) highMs lowMs then press o { s with rus.outHeld := s.rus.outHeld.put o false } else s
    | .hub =>
      if pressCounts s.rus.hubHeld highMs lowMs then forEach outlets press { s with rus.hubHeld := false } else s

def execResetInputRelease (input : ResetInput) (highMs lowMs : Nat) (s : State) : Host.Outcome State Fault Refusal :=
  done (resetReleased input highMs lowMs s)

/-- A reset input has been low for more than 5 s. -/
def resetHeld (i : ResetInput) (s : State) : State :=
  if !russetRuns s then s
  else match i with
    | .out o => raise 58 o.val 0 [] { s with rus.outHeld := s.rus.outHeld.put o true }
    | .hub => raise 58 moduleIndex 0 [] { s with rus.hubHeld := true }

def execResetInputHeld (input : ResetInput) (s : State) : Host.Outcome State Fault Refusal := done (resetHeld input s)

/-- REL_WIN runs out before a press. -/
def releaseWindow (o : OutletNo) (s : State) : State :=
  if russetRuns s && !(s.rus.outlet.at o).awaitsPeer then s.onGuard o fun g => { g with releaseArmed := false } else s

def execReleaseWindowExpiry (outlet : OutletNo) (s : State) : Host.Outcome State Fault Refusal :=
  done (releaseWindow outlet s)

/-- The peer's Russet reports its own checks. -/
def peerResult (o : OutletNo) (passed : Bool) (s : State) : State :=
  if !russetRuns s then s
  else if (s.rus.outlet.at o).awaitsPeer then
    if passed then releaseOutlet o s else releaseOutcome o 6 s
  else if passed then s.onGuard o fun g => { g with peerPassed := some s.och.clock.mono }
  else s

def execReleasePeerResult (outlet : OutletNo) (passed : Bool) (s : State) : Host.Outcome State Fault Refusal :=
  done (peerResult outlet passed s)

/-- The peer's result has not come within 10 ms: neither module releases. -/
def peerTimeout (o : OutletNo) (s : State) : State :=
  if russetRuns s && (s.rus.outlet.at o).awaitsPeer then releaseOutcome o 6 s else s

def execReleasePeerTimeout (outlet : OutletNo) (s : State) : Host.Outcome State Fault Refusal :=
  done (peerTimeout outlet s)

end Sys2Proof.Machine
end

