-- ==== Sys2Proof/Machine/CmdSafety.lean ====
section
/-! DEFINITION. The safety commands 0x0500 to 0x0511 (R28 to R31, R242 to R296, R422, R423). -/

namespace Sys2Proof.Machine

/-- A command that Russet answers; a die that does not run gives none (R407). -/
def onRusset (f : List Byte → State → Reply × State) : Body :=
  acts fun p s => if russetRuns s then f p s else (reply .timeout 0, s)

/-- FLAGS of 0x0500. -/
def safetyFlags (s : State) (g : Guard) : Nat :=
  flag g.enable 0 + flag s.rus.lease 1 + flag g.ce.req2E 2 + flag g.ce.req2F 3

/-- Bytes of 0x0500. -/
def safetyBytes (s : State) (index : Nat) : List Byte :=
  if index < 64 then
    let o : OutletNo := Fin.ofNat 64 index
    let g := s.rus.outlet.at o
    leBytes 4 (faultWord g.fault).toNat ++ leBytes 4 (coilStatus s o).toNat ++ leBytes 4 (safetyFlags s g)
  else if index < 68 then leBytes 4 (brakeStatus (s.rus.brake.at (Fin.ofNat 4 (index - 64)))).toNat
  else leBytes 4 (estopWord s).toNat

def safetyStatus (c : Cmd) : State → State :=
  runCmd 0x0500 c <| onRusset fun _ s => (okWith (safetyBytes s c.index.toNat), s)

def execSafetyStatus (cmd : Cmd) (s : State) : Host.Outcome State Fault Refusal := done (safetyStatus cmd s)

/-! ### Enable flag and open request (R28, R30, R35, R288) -/

/-- Russet holds every output against the control die: Millet's heartbeat is missing, or sessions wait for Millet (R35). -/
def outputsHeld (s : State) : Bool := s.modes.hbLoss

/-- What a command of the control die does to an output, none while Russet holds it. -/
def unlessHeld (f : State → State) (s : State) : State := if outputsHeld s then s else f s

def enableOutlet (o : OutletNo) (s : State) : State :=
  refreshDrive o (tryEndClassE o (s.onGuard o fun g => { g with enable := true }))

def setEnable (c : Cmd) : State → State := runCmd 0x0501 c <| onRusset fun _ s => (okReply, enableOutlet (obj 63 c) s)

def execSetEnable (cmd : Cmd) (s : State) : Host.Outcome State Fault Refusal := done (setEnable cmd s)

/-- Clearing the enable flag opens the pair; in the expired state it is the first half of what ends Class E. -/
def disableOutlet (o : OutletNo) (s : State) : State :=
  refreshDrive o <| unlessHeld (openPair o) <| s.onGuard o fun g =>
    { g with enable := false, ce := { g.ce with cleared := g.ce.cleared || g.ce.expired } }

def clearEnable (c : Cmd) : State → State := runCmd 0x0502 c <| onRusset fun _ s => (okReply, disableOutlet (obj 63 c) s)

def execClearEnable (cmd : Cmd) (s : State) : Host.Outcome State Fault Refusal := done (clearEnable cmd s)

def openRequest (c : Cmd) : State → State := runCmd 0x0503 c <| onRusset fun _ s => (okReply, unlessHeld (openPair (obj 63 c)) s)

def execOpenRequest (cmd : Cmd) (s : State) : Host.Outcome State Fault Refusal := done (openRequest cmd s)

/-! ### Lockout release (R283, R423) -/

/-- The outlets that a release names: those of the object in Lockout. -/
def releasable (s : State) (c : Cmd) : List OutletNo :=
  outlets.filter fun o => (c.index = 0xFFFF || c.index.toNat = o.val) && lockedOut s o

def armRelease (o : OutletNo) (s : State) : State := s.onGuard o fun g => { g with releaseArmed := true }

def lockoutRelease (c : Cmd) : State → State :=
  runCmd 0x0504 c <| onRusset fun _ s =>
    let l := releasable s c
    if l.isEmpty then (refusedReply 1, s) else (okWith (leBytes 4 l.length), forEach l armRelease s)

def execLockoutRelease (cmd : Cmd) (s : State) : Host.Outcome State Fault Refusal := done (lockoutRelease cmd s)

/-! ### Brakes (R278 to R281) -/

/-- What 0x0505 does to a brake, by its ACTION. An engage is always carried out (R278). -/
def brakeAction (c : Cmd) (p : List Byte) (s : State) : Reply × State :=
  let b : BrakeNo := obj 3 c
  checked 0x0505 c [(0, byteAt p 0 ≤ 2 && reserved3 p)]
    (fun s =>
      match byteAt p 0 with
      | 0 => (okReply, engageBrake b s)
      | 1 =>
        match releaseRefusal s b with
        | some n => (refusedReply n, s)
        | none => (okReply, unlessHeld (releaseBrake b) s)
      | _ =>
        match testRefusal s b with
        | some n => (refusedReply n, s)
        | none => (okReply, unlessHeld (startHolding b) s)) s

/-- 0x0505, which the table lists once for each ACTION. -/
def brakeCommand (c : Cmd) : State → State := runCmd 0x0505 c <| onRusset (brakeAction c)

def execBrakeEngage (cmd : Cmd) (s : State) : Host.Outcome State Fault Refusal := done (brakeCommand cmd s)

def execBrakeRelease (cmd : Cmd) (s : State) : Host.Outcome State Fault Refusal := done (brakeCommand cmd s)

def execBrakeHoldingTest (cmd : Cmd) (s : State) : Host.Outcome State Fault Refusal := done (brakeCommand cmd s)

/-! ### Class E request (R277, R288) -/

/-- Causes 0x2E and 0x2F are requested or cleared. -/
def requestClassE (o : OutletNo) (cause : Byte) (set : Bool) (s : State) : State :=
  let was := if cause = 0x2E then (s.rus.outlet.at o).ce.req2E else (s.rus.outlet.at o).ce.req2F
  let s := s.onGuard o fun g =>
    { g with ce := if cause = 0x2E then { g.ce with req2E := set } else { g.ce with req2F := set } }
  if set then (if was then s else tripE o cause false s) else clearCause o cause s

def classERequest (c : Cmd) : State → State :=
  runCmd 0x0506 c <| onRusset fun p s =>
    checked 0x0506 c [(0, (byteAt p 0 == 0x2E || byteAt p 0 == 0x2F) && byteAt p 1 ≤ 1 && leAt p 2 2 == 0)]
      (fun s => (okReply, settle (requestClassE (obj 63 c) (BitVec.ofNat 8 (byteAt p 0)) (byteAt p 1 == 1) s))) s

def execClassERequest (cmd : Cmd) (s : State) : Host.Outcome State Fault Refusal := done (classERequest cmd s)

/-! ### Limited settings (R38, R242, R248, R253, R260, R293 to R296) -/

/-- A fast-window word (R242). -/
def fastWordOk (w : Word) : Bool :=
  let t := wFld w 6 6
  let n := wFld w 0 6
  wFld w 16 16 = 0 && wFld w 13 2 ≠ 3 && within 4 32 n && n < 2 * t && t ≤ n

/-- Point `k` of a curve: its ranges, and its place after the point before (R248). -/
def curvePointOk (ws : List Word) (k : Nat) : Bool :=
  let w := ws.getD (k + 1) 0
  let level := wFld w 16 16
  within 1 30000 level &&
    (k = 0 || (wFld (ws.getD k 0) 16 16 < level && wFld w 0 16 < wFld (ws.getD k 0) 0 16))

/-- The header of a curve. -/
def curveHeadOk (ws : List Word) : Bool :=
  let h := ws.getD 0 0
  wFld h 4 12 = 0 && within 1 8 (wFld h 0 4) && wFld h 16 16 < wFld (ws.getD 1 0) 16 16

/-- Checks of a curve, from word offset 1 on. -/
def curveChecks (ws : List Word) : List (Nat × Bool) :=
  (1, curveHeadOk ws) :: (List.range (wFld (ws.getD 0 0) 0 4)).map fun k => (k + 2, curvePointOk ws k)

/-- The DC protection word (R253). -/
def dcProtOk (w : Word) : Bool :=
  let trip := wFld w 16 8
  within 1 254 trip && trip < wFld w 24 8 && wFld w 12 4 ≠ 0 && wFld w 8 4 ≠ 0 && wFld w 4 4 ≠ 0 && wFld w 0 4 ≠ 0

/-- The module safety-output word, CE_TIME apart, and CE_TIME (R294). -/
def outWordOk (w : Word) : Bool :=
  within 1 60 (wFld w 26 6) && within 10 90 (wFld w 19 7) && within 10 120 (wFld w 6 7) && wFld w 0 6 = 0

def ceTimeOk (w : Word) : Bool := within 1 60 (wFld w 13 6)

/-- The coil configuration word (R295). -/
def coilWordOk (w : Word) : Bool :=
  wFld w 20 12 ≤ 4000 && within 2 50 (wFld w 12 8) && wFld w 8 2 = 0 && within 2 8 (wFld w 4 4) && wFld w 0 4 = 0

/-- Checks of the brake configuration words (R296). -/
def brakeChecks (ws : List Word) : List (Nat × Bool) :=
  let w0 := ws.getD 0 0
  let w1 := ws.getD 1 0
  [(1, within 2 100 (wFld w0 24 8) && within 2 100 (wFld w0 16 8) && within 1 254 (wFld w0 8 8)
        && wFld w0 8 8 < wFld w0 0 8),
   (2, wFld w1 24 8 ≠ 0 && within 1 10 (wFld w1 20 4) && wFld w1 16 4 ≠ 0 && wFld w1 0 16 ≤ 8760)]

/-- Checks of a limited setting by SEL, with their word offsets. -/
def limitedChecks (sel : Nat) (ws : List Word) : List (Nat × Bool) :=
  let w := ws.getD 0 0
  match sel with
  | 0 => [(1, fastWordOk w)]
  | 1 | 2 => curveChecks ws
  | 3 => [(1, dcProtOk w)]
  | 4 => [(1, wFld w 12 20 = 0 && within 1 9 (wFld w 0 4))]
  | 5 => [(1, outWordOk w && ceTimeOk w)]
  | 6 => [(1, coilWordOk w)]
  | 7 => brakeChecks ws
  | _ => []

/-- A limited setting is written, to take effect at the Russet protection boundary (R293). -/
def writeLimited (sel index : Nat) (ws : List Word) (s : State) : State :=
  let o : OutletNo := Fin.ofNat 64 index
  let w := ws.getD 0 0
  let s := { s with rus.pend := true }
  match sel with
  | 0 => { s with rus.fast := s.rus.fast.upd (Fin.ofNat 512 index) (·.write w) }
  | 1 => s.onGuard o fun g => { g with residual := { g.residual with acCurve := g.residual.acCurve.write ws } }
  | 2 => s.onGuard o fun g => { g with residual := { g.residual with dcCurve := g.residual.dcCurve.write ws } }
  | 3 => s.onGuard o fun g => { g with dcProt := g.dcProt.write w }
  | 4 => { s with rus.estopCfg := s.rus.estopCfg.write ws }
  | 5 => { s with rus.outCfg := s.rus.outCfg.write w }
  | 6 => s.onGuard o fun g => { g with coilCfg := g.coilCfg.write w }
  | _ => s.onBrake (Fin.ofNat 4 index) fun b => { b with cfg := b.cfg.write ws }

/-- Place of the degraded-mode time limit among the step counters. -/
def ceTimeStep : Fin 9 := 7

/-- A safety-output word needs a step: CE_TIME differs from the one in force, and none was consumed since the last boundary
(R11). -/
def ceNeedsStep (s : State) (w : Word) : Bool := wFld w 13 6 != wFld s.rus.outCfg.now 13 6 && !s.rus.ceStep

/-- A step of CE_TIME is consumed. -/
def useCeStep (s : State) : State := useStep ceTimeStep { s with rus.ceStep := true }

def setLimited (c : Cmd) (p : List Byte) (s : State) : Reply × State :=
  let sel := byteAt p 0
  let ws := wordsOf (limitedLen sel / 4) (p.drop 4)
  let w := ws.getD 0 0
  let step := sel = 5 && ceTimeOk w && ceNeedsStep s w
  if step && s.keys.steps.at ceTimeStep = 0 then (reply .otpExhausted 0, s)
  else
    checked 0x0510 c ((0, sel < 8 && reserved3 p) :: limitedChecks sel ws)
      (fun s => (pendingReply, writeLimited sel c.index.toNat ws (if step then useCeStep s else s))) s

def writeLimitedSetting (c : Cmd) : State → State := runCmd 0x0510 c <| onRusset (setLimited c)

def execWriteLimitedSetting (cmd : Cmd) (s : State) : Host.Outcome State Fault Refusal :=
  done (writeLimitedSetting cmd s)

/-- A limited setting as written last. -/
def limitedWords (s : State) (sel index : Nat) : List Word :=
  let g := s.rus.outlet.at (Fin.ofNat 64 index)
  match sel with
  | 0 => [(s.rus.fast.at (Fin.ofNat 512 index)).written]
  | 1 => g.residual.acCurve.written
  | 2 => g.residual.dcCurve.written
  | 3 => [g.dcProt.written]
  | 4 => s.rus.estopCfg.written
  | 5 => [s.rus.outCfg.written]
  | 6 => [g.coilCfg.written]
  | _ => (s.rus.brake.at (Fin.ofNat 4 index)).cfg.written

def readLimitedSetting (c : Cmd) : State → State :=
  runCmd 0x0511 c <| onRusset fun p s =>
    checked 0x0511 c [(0, byteAt p 0 < 8 && reserved3 p)]
      (fun s => (okWith (wordBytes (limitedWords s (byteAt p 0) c.index.toNat)), s)) s

def execReadLimitedSetting (cmd : Cmd) (s : State) : Host.Outcome State Fault Refusal := done (readLimitedSetting cmd s)

end Sys2Proof.Machine
end

