-- ==== Sys2Proof/Machine/CmdUpdate.lean ====
section
/-! DEFINITION. Field update: the commands 0x0B00 to 0x0B04, trial confirmation, and the ways an image comes into use (R508 to
R529, R429). -/

namespace Sys2Proof.Machine

/-! ### Header (R508 to R512) -/

/-- Largest body of a type. -/
def bodyLimit (t : Nat) : Nat :=
  match t with
  | 0 => 0x1000000
  | 1 | 2 => 0x4000000
  | 3 => 0x400000
  | _ => 0x100000

def headerType (h : List Byte) : Nat := byteAt h 5
def headerBody (h : List Byte) : Nat := leAt h 0x14 4
def headerRelease (h : List Byte) : Nat := leAt h 0x18 4

/-- The reserved bytes of a header are 0. -/
def headerZeros (h : List Byte) : Bool :=
  leAt h 6 2 == 0 && leAt h 0x1D 3 == 0 && (slice h 0x88 280).all (· == 0)

/-- Step 2: the header is one of an image for this part and silicon. -/
def headerFits (h : List Byte) : Bool :=
  h.length == 512 && leAt h 0 4 == 0x4D49475A && byteAt h 4 == 1 && decide (headerType h ≤ 4) && headerZeros h
    && leAt h 8 4 == 0x5A476451 && within (leAt h 0xC 2) (leAt h 0xE 2) Config.siRev.toNat
    && headerBody h % 4 == 0 && within 4 (bodyLimit (headerType h)) (headerBody h)

/-- Header of the image in service of a type. -/
def serviceHeader (s : State) (t : ImageNo) : List Byte :=
  let i := s.upd.image.at t
  (i.slot.at i.active).header

/-- Entry `u` of a header's COMPAT admits a version. -/
def admits (h : List Byte) (u version : Nat) : Bool :=
  within (leAt h (0x50 + 8 * u) 4) (leAt h (0x54 + 8 * u) 4) version

/-- The set of five versions with one type replaced is compatible, for every ordered pair of types (R515). -/
def setCompatible (hs : List (List Byte)) : Bool :=
  (List.range 5).all fun t => (List.range 5).all fun u =>
    t == u || admits (hs.getD t []) u (headerVersion (hs.getD u []))

/-- The legal firmware identifier appears in LEGAL, or LEGAL is all 0. -/
def legalAdmitted (h : List Byte) : Bool :=
  let ids := (List.range 4).map fun k => leAt h (0x78 + 4 * k) 4
  ids.all (· == 0) || ids.contains Config.legalFw.toNat

/-- New image and the peer's image of the type admit each other. -/
def peerAdmits (s : State) (t : Nat) (h : List Byte) : Bool :=
  match s.pair.peerHeaders[t]? with
  | some p => s.pair.peer == 0 || (admits h t (headerVersion p) && admits p t (headerVersion h))
  | none => true

/-- Step 6: the compatibility rule of R515. -/
def compatible (s : State) (t : ImageNo) (h : List Byte) : Bool :=
  setCompatible ((indices 4).map fun u => if u = t then h else serviceHeader s u) && legalAdmitted h
    && peerAdmits s t.val h

/-- Step 7: every earlier type of the release has an image of it in service (R516). -/
def ordered (s : State) (t : ImageNo) (h : List Byte) : Bool :=
  (indices 4).all fun u =>
    !(decide (u.val < t.val) && (byteAt h 0x1C).testBit u.val) || headerRelease (serviceHeader s u) == headerRelease h

/-- Step 3: a Russet image is staged in Commissioning or Recovery, or for the peer. -/
def russetBarred (s : State) (h : List Byte) (target : Nat) : Bool :=
  let r := roleNow s.modes
  headerType h == 3 && (r == .solo || (r == .active && target == 0))

/-- Step 8: the signature, with key slot 0 (R510). -/
def signatureOk (h : List Byte) (s : State) : Bool × State :=
  match useKey 0 4 30 s with
  | (true, s) => (Config.verify (s.keys.slot.at 0).key.bytes (h.take 0x1A0) (h.drop 0x1A0), s)
  | (false, s) => (false, s)

/-- Steps 2 to 7 of R512. -/
def headerRefusal (s : State) (h : List Byte) (target : Nat) : Option Reply :=
  let t : ImageNo := Fin.ofNat 5 (headerType h)
  if !headerFits h then some (refusedReply 1)
  else if russetBarred s h target then some (modeReply s)
  else if !notBelow s t h then some (refusedReply 2)
  else if s.keys.steps.at (imageStep t) < headerEpoch h - burned s t then some (reply .otpExhausted 0)
  else if !compatible s t h || !ordered s t h then some (refusedReply 3)
  else none

/-! ### Opening (R513, R527) -/

/-- Bit 31 of a handle: the session is the peer's. -/
def peerBit : Nat := 2 ^ 31

/-- The next handle, for this module or for the peer. -/
def nextHandle (s : State) (peer : Bool) : Word :=
  BitVec.ofNat 32 ((s.upd.handleSeq + 1).toNat + (if peer then peerBit else 0))

def newStaging (s : State) (peer : Bool) (h : List Byte) : Staging :=
  { handle := nextHandle s peer, type := Fin.ofNat 5 (headerType h), header := h, body := [],
    touched := s.och.clock.mono / 1000 }

/-- The erasures of a slot raise the erase counts by amounts that depend on the block layout: free values (R513, R543). -/
def eraseSlot (s : State) : State :=
  { s with thm.eraseMax := satAdd 32 s.thm.eraseMax (Config.freeValue s.free),
           thm.eraseMean := satAdd 32 s.thm.eraseMean (Config.freeValue (s.free + 1)), free := s.free + 2 }

/-- A session opens on this module: its body key is derived with the handle as context, and the free slot is erased. -/
def openHere (peer : Bool) (h : List Byte) (s : State) : State :=
  let g := newStaging s peer h
  let s := eraseSlot (derive .stage (leBytes 4 g.handle.toNat) s)
  let s := s.onImage g.type fun i =>
    { i with slot := i.slot.put (otherSlot i) { status := .staging, time := 0, header := [], body := [] }, waiting := false }
  raise 117 g.type.val 0 []
    { s with upd.staging := some g, upd.handleSeq := s.upd.handleSeq + 1,
             modes.staging := s.modes.base == .service }

/-- A header for this module, checked in the order of R512. -/
def stageHere (peer : Bool) (target : Nat) (h : List Byte) (s : State) : Reply × State :=
  if s.upd.staging.isSome then (reply .busy 1000, s)
  else match headerRefusal s h target with
    | some r => (r, s)
    | none =>
      match signatureOk h s with
      | (false, s) => (refusedReply 4, s)
      | (true, s) => (okWith (leBytes 4 (nextHandle s peer).toNat), openHere peer h s)

/-- A header for the peer, whose own checks answer: which of the outcomes of R512 it finds is a free value. -/
def stageAtPeer (h : List Byte) (s : State) : Reply × State :=
  let (n, s) := takeFree s
  match n % 7 with
  | 0 =>
    let g := newStaging s true h
    (okWith (leBytes 4 g.handle.toNat), { s with upd.peerStaging := some g, upd.handleSeq := s.upd.handleSeq + 1 })
  | 1 => (reply .busy 1000, s)
  | 2 => (reply .otpExhausted 0, s)
  | k => (refusedReply (k - 2), s)

/-- What 0x0B00 does: in the standby only a header forwarded for it is staged; TARGET 1 is there for an active module. -/
def openStaging (c : Cmd) : State → State :=
  runCmd 0x0B00 c <| acts fun p s =>
    let h := bulkOf 0x0B00 c s
    let target := byteAt p 0
    if c.fwd.isSome then (if target = 1 then stageHere true 1 h s else (okReply, s))
    else
      checked 0x0B00 c [(0, target ≤ 1 && reserved3 p && (target == 0 || roleNow s.modes == .active))]
        (fun s => if target = 1 then stageAtPeer h s else stageHere false 0 h s) s

def execOpenStaging (cmd : Cmd) (s : State) : Host.Outcome State Fault Refusal := done (openStaging cmd s)

/-! ### Body (R514, R535) -/

/-- A session with its next part stored. -/
def Staging.add (part : List Byte) (now : Nat) (g : Staging) : Staging :=
  { g with body := g.body ++ part, touched := now }

/-- The offset is the next one expected, and the part ends within the body. -/
def partFits (g : Staging) (off : Nat) (part : List Byte) : Bool :=
  off == g.body.length && decide (off + part.length ≤ headerBody g.header)

/-- A handle names an open session; in the standby a forwarded one names the session staged for its peer. -/
def names (c : Cmd) (handle : Nat) (g : Staging) : Bool :=
  if c.fwd.isSome then decide (peerBit ≤ handle) && decide (peerBit ≤ g.handle.toNat) else g.handle.toNat == handle

/-- The open session of this module that a handle names. -/
def ownSession (c : Cmd) (handle : Nat) (s : State) : Option Staging := s.upd.staging.filter (names c handle)

/-- The open session that this module carries for the peer. -/
def peerSession (c : Cmd) (handle : Nat) (s : State) : Option Staging :=
  if c.fwd.isSome then none else s.upd.peerStaging.filter (names c handle)

/-- The next part of a body. The peer may be too hot for it: whether it is so is a free value. -/
def takePart (c : Cmd) (p : List Byte) (s : State) : Reply × State :=
  let part := bulkOf 0x0B01 c s
  let handle := leAt p 0 4
  let now := s.och.clock.mono / 1000
  match ownSession c handle s, peerSession c handle s with
  | some g, _ =>
    if s.thm.nandHot then (hotReply, s)
    else if partFits g (leAt p 4 4) part then (okReply, { s with upd.staging := some (g.add part now) })
    else (rangeReply 0x0B01 c 1, s)
  | none, some g =>
    let (n, s) := takeFree s
    if n % 2 = 1 then (hotReply, s)
    else if partFits g (leAt p 4 4) part then
      (okReply, { s with upd.peerStaging := some (g.add part now), pair.sent := s.pair.sent ++ [.image part] })
    else (rangeReply 0x0B01 c 1, s)
  | none, none => (if s.thm.nandHot then hotReply else rangeReply 0x0B01 c 0, s)

def imageBody (c : Cmd) : State → State := runCmd 0x0B01 c <| acts (takePart c)

def execImageBody (cmd : Cmd) (s : State) : Host.Outcome State Fault Refusal := done (imageBody cmd s)

/-! ### Commit (R517, R520 to R526, R528) -/

/-- The body is complete and its hash is the header's. -/
def bodyOk (g : Staging) : Bool :=
  g.body.length == headerBody g.header && sha384 g.body == slice g.header 0x20 48

/-- A committed image starts to come into use; one that Recovery has verified is repaired (R524, R526, R528). -/
def startUse (t : ImageNo) (s : State) : State :=
  let recovers := s.modes.base == .recovery
  let s := s.onImage t fun i => { i with waiting := true }
  let s := if recovers then { s with modes.repaired := true } else s
  if t = 2 && s.thm.mgmtSpare && !recovers then { s with mbx.handover := true }
  else if t = 4 then { s with spe.imageWaits := true } else s

/-- The staged image is committed as trial. -/
def commitStaging (g : Staging) (s : State) : State :=
  let x : ImageSlot := { status := .trial, time := legalUnits s, header := g.header, body := g.body }
  let s := s.onImage g.type fun i => { i with slot := i.slot.put (otherSlot i) x }
  let s := burnTo g.type g.header s
  let s := { s with upd.staging := none, upd.committed := some g.handle, modes.staging := false }
  startUse g.type (raise 117 g.type.val 1 [] s)

def takeCommit (c : Cmd) (p : List Byte) (s : State) : Reply × State :=
  let handle := leAt p 0 4
  match ownSession c handle s, peerSession c handle s with
  | some g, _ =>
    if bodyOk g then (okReply, commitStaging g s)
    else (refusedReply 5, { s with upd.staging := some { g with touched := s.och.clock.mono / 1000 } })
  | none, some g =>
    if bodyOk g then (okReply, { s with upd.peerStaging := none, upd.committed := some g.handle }) else (refusedReply 5, s)
  | none, none =>
    if s.upd.committed = some (BitVec.ofNat 32 handle) then (refusedReply 5, s) else (rangeReply 0x0B02 c 0, s)

def imageCommit (c : Cmd) : State → State := runCmd 0x0B02 c <| acts (takeCommit c)

def execImageCommit (cmd : Cmd) (s : State) : Host.Outcome State Fault Refusal := done (imageCommit cmd s)

/-- An abort of a session of this module or of the peer's. -/
def takeAbort (c : Cmd) (p : List Byte) (s : State) : Reply × State :=
  let handle := leAt p 0 4
  match ownSession c handle s, peerSession c handle s with
  | some _, _ => (okReply, abortStaging s)
  | none, some _ => (okReply, { s with upd.peerStaging := none })
  | none, none => (rangeReply 0x0B03 c 0, s)

def stagingAbort (c : Cmd) : State → State := runCmd 0x0B03 c <| acts (takeAbort c)

def execStagingAbort (cmd : Cmd) (s : State) : Host.Outcome State Fault Refusal := done (stagingAbort cmd s)

/-- 10 min without a part or a commit. -/
def stagingTimeout (s : State) : State :=
  if s.upd.staging.isSome then abortStaging s else { s with upd.peerStaging := none }

def execStagingTimeout (s : State) : Host.Outcome State Fault Refusal := done (stagingTimeout s)

/-! ### Status (R429, R522) -/

/-- The version staged: of the open session, or of a committed image that waits to be brought into use. -/
def stagedVersion (s : State) (t : ImageNo) : Nat :=
  let i := s.upd.image.at t
  let waits := if i.waiting then headerVersion (i.slot.at (otherSlot i)).header else 0
  match s.upd.staging with
  | some g => if g.type = t then headerVersion g.header else waits
  | none => waits

/-- Bytes of 0x0B04. -/
def updateBytes (s : State) : List Byte :=
  (indices 4).flatMap fun t =>
    leBytes 4 (versionOf s t) ++ leBytes 4 (stagedVersion s t) ++ leBytes 4 (s.upd.image.at t).mark

def updateStatus (c : Cmd) : State → State := runCmd 0x0B04 c <| reads fun _ s => okWith (updateBytes s)

def execUpdateStatus (cmd : Cmd) (s : State) : Host.Outcome State Fault Refusal := done (updateStatus cmd s)

/-! ### Trial and use (R519, R522 to R526) -/

/-- The other slot's image has been superseded. -/
def ImageSlot.supersede (x : ImageSlot) : ImageSlot := if x.status = .inService then { x with status := .superseded } else x

/-- A trial image is confirmed: in service, and the mark rises to its MINOR where its epoch is the burned one. -/
def confirmTrial (t : ImageNo) (s : State) : State :=
  let i := s.upd.image.at t
  let x := i.slot.at i.active
  if x.status != .trial then s
  else
    let mark := if headerEpoch x.header = burned s t then max i.mark (headerMinor x.header) else i.mark
    let s := s.onImage t fun i =>
      { i with slot := (i.slot.upd (otherSlot i) ImageSlot.supersede).put i.active { x with status := .inService },
               mark := mark, wdAt := none }
    raise 118 t.val 0 [] s

def execTrialConfirmation (image : ImageNo) (s : State) : Host.Outcome State Fault Refusal := done (confirmTrial image s)

/-- Fescue is reset onto its new image, with outputs and drive held. -/
def fescueNewImage (s : State) : State :=
  if !(s.upd.image.at 0).waiting || !fescueQuiet s || s.dies.fescue = .held then s
  else
    bringIn 0 { s with dies := { s.dies with fescue := .starting, fescueBeat := false },
                       veh.pilot := s.veh.pilot.each pilotReset,
                       veh.slac := { s.veh.slac with runs := [], ambiguous := [], answering := Tab.all 64 none } }

def execFescueImageBringIn (s : State) : Host.Outcome State Fault Refusal := done (fescueNewImage s)

/-- An idle outlet's next session runs the new session image; when every outlet does, the old one is released. -/
def sessionNewImage (o : OutletNo) (s : State) : State :=
  let i := s.upd.image.at 1
  let idle := (s.veh.pilot.at o).state = .A && !(s.rus.pair.at (coilOf o)).cmd
  if !i.waiting || !controlRuns s || !idle then s
  else
    let s := { s with upd.sessionSlot := s.upd.sessionSlot.put o (otherSlot i) }
    if s.upd.sessionSlot.toList.all (· == otherSlot i) then bringIn 1 s else s

def execSessionImageBringIn (outlet : OutletNo) (s : State) : Host.Outcome State Fault Refusal :=
  done (sessionNewImage outlet s)

/-- The new Millet image has the state and sends its first heartbeat; the former core becomes the spare. -/
def milletHandover (s : State) : State :=
  if !(s.upd.image.at 2).waiting || !s.mbx.handover || !controlRuns s then s
  else
    bringIn 2 { s with mbx.handover := false, mbx.hbCount := s.mbx.hbCount + 1, thm.mgmtCore := s.thm.mgmtCore + 1 }

def execMilletStateHandover (s : State) : Host.Outcome State Fault Refusal := done (milletHandover s)

/-- The Spelt reset that follows a commit, with channel states held. -/
def speltNewImage (s : State) : State :=
  if !s.spe.imageWaits || s.dies.spelt = .held then s
  else bringWaiting 4 { s with dies.spelt := .starting, spe.imageWaits := false }

def execSpeltImageReset (s : State) : Host.Outcome State Fault Refusal := done (speltNewImage s)

end Sys2Proof.Machine
end

