-- ==== Sys2Proof/Machine/CmdPair.lean ====
section
/-! DEFINITION. The pair commands 0x0A00 to 0x0A04 (R428, R480, R493, R502, R505, R506). -/

namespace Sys2Proof.Machine

/-- Bytes of 0x0A00. -/
def pairBytes (s : State) : List Byte :=
  let p := s.pair
  leBytes 4 (pairStatus s).toNat ++ leBytes 8 p.peer.toNat ++ leBytes 8 p.epoch ++ leBytes 8 p.lastMismatch
    ++ leBytes 2 p.resyncs.toNat ++ leBytes 2 p.transfer.toNat

def pairDetail (c : Cmd) : State → State := runCmd 0x0A00 c <| reads fun _ s => okWith (pairBytes s)

def execPairDetail (cmd : Cmd) (s : State) : Host.Outcome State Fault Refusal := done (pairDetail cmd s)

/-! ### Binding (R480, R483, R505, R506) -/

/-- Place of the pair binding among the step counters. -/
def bindStep : Fin 9 := 5

/-- Every group has one value of MCLK_DIR (R480). -/
def onePosition (s : State) : Bool :=
  let l := s.och.set.roleNow.groups.toList
  l.all (fun g => wBit g 3) || l.all (fun g => !wBit g 3)

/-- The binding takes a value; the pin is learnt again, and the tag names the peer. -/
def setPeer (serial : BitVec 64) (s : State) : State :=
  let s := if s.pair.peer = serial then s else useStep bindStep s
  writeIdentity { s with pair.peer := serial, pair.pin := none, pair.keyed := false, pair.peerAbsent := false,
                         pair.diverged := false, pair.peerHeaders := [] }

/-- A changed binding needs a step (R477). -/
def bindRefusal (s : State) (serial : BitVec 64) : Option Reply :=
  if s.pair.peer ≠ serial && s.keys.steps.at bindStep = 0 then some (reply .otpExhausted 0) else none

def takeBinding (c : Cmd) (p : List Byte) (s : State) : Reply × State :=
  let serial := BitVec.ofNat 64 (leAt p 0 8)
  match if serial = 0 then none else bindRefusal s serial with
  | some r => (r, s)
  | none =>
    if !onePosition s then (rangeAt 0xFFFF, s)
    else checked 0x0A01 c [(0, serial ≠ 0)] (fun s => (okReply, setPeer serial s)) s

def bindPeer (c : Cmd) : State → State := runCmd 0x0A01 c <| acts (takeBinding c)

def execBindPeer (cmd : Cmd) (s : State) : Host.Outcome State Fault Refusal := done (bindPeer cmd s)

def unbindPeer (c : Cmd) : State → State :=
  runCmd 0x0A02 c <| acts fun _ s =>
    match bindRefusal s 0 with
    | some r => (r, s)
    | none => (okReply, setPeer 0 s)

def execUnbindPeer (cmd : Cmd) (s : State) : Host.Outcome State Fault Refusal := done (unbindPeer cmd s)

/-! ### Handover and resynchronisation (R493, R494, R502, R507) -/

/-- The peer reports Paired standby: its mode number, or that of a condition that stands before it (R65). -/
def peerStands (s : State) : Bool :=
  let m := s.pair.peerMode.toNat
  s.pair.peerSeen && !s.pair.peerAbsent && (m = 6 || within 8 10 m)

/-- A resynchronisation runs. -/
def resyncing (s : State) : Bool := s.pair.transfer = 1

/-- The handover takes place at epoch n + 2, or waits for the end of a resynchronisation. The answer comes with the exchange
of the roles; in the standby the command sets Handover. -/
def takeHandover (c : Cmd) (s : State) : Option Reply × State :=
  if c.fwd.isSome then (none, if servingRole s == .standby then raise 112 moduleIndex 0 [] { s with modes.handover := true } else s)
  else if s.pair.suspect then (some (refusedReply 1), s)
  else if !peerStands s || s.upd.peerStaging.isSome then (some (refusedReply 2), s)
  else
    (none, { s with pair.handoverCmd := some c,
                    pair.handoverAt := if resyncing s then none else some (s.pair.epoch + 2) })

def plannedHandover (c : Cmd) : State → State := runCmd 0x0A03 c fun _ s => takeHandover c s

def execPlannedHandover (cmd : Cmd) (s : State) : Host.Outcome State Fault Refusal := done (plannedHandover cmd s)

/-- SUSPECT and the count of mismatches are cleared. -/
def clearSuspect (s : State) : State :=
  let was := s.pair.suspect
  let s := { s with pair.suspect := false, pair.mismatches := [] }
  if was && holds s 115 moduleIndex then raiseEnd 115 moduleIndex [] s else s

/-- 0x0A04: in the standby it arrives forwarded, and the transfer is the one it receives. -/
def clearSuspectCmd (c : Cmd) : State → State :=
  runCmd 0x0A04 c <| acts fun _ s =>
    if c.fwd.isNone && !peerStands s then (refusedReply 2, s)
    else (okReply, { startTransfer (clearSuspect s) with pair.sent := s.pair.sent ++ [.transfer true] })

def execClearSuspectResynchronise (cmd : Cmd) (s : State) : Host.Outcome State Fault Refusal :=
  done (clearSuspectCmd cmd s)

end Sys2Proof.Machine
end

