-- ==== Sys2Proof/Machine/Code.lean ====
section
/-! DEFINITION. The burst-correcting code of the memories and links: where each bit of a code word is stored, and what an error
comes to (R446, R447, R449). -/

namespace Sys2Proof.Machine

/-- Data bits of sub-word `k` of a data word: D[16m + k] for m from 0 to 15. -/
def subWord (d : BitVec 256) (k : Nat) : BitVec 16 :=
  BitVec.ofNat 16 (((List.range 16).map fun m => if d.getLsbD (16 * m + k) then 2 ^ m else 0).foldl (· + ·) 0)

/-- The 22 bits of a sub-word: data below, check bits above. -/
def subCode (w : BitVec 16) : BitVec 22 := Config.checkBits w ++ w

/-- Bit `i` of the stored code word is bit i div 16 of sub-word i mod 16. -/
def codeBit (d : BitVec 256) (i : Fin 352) : Bool := (subCode (subWord d (i.val % 16))).getLsbD (i.val / 16)

/-- The 352 stored bits of a data word; on a link they go in this order. -/
def codeWord (d : BitVec 256) : List Bool := (List.finRange 352).map (codeBit d)

/-- The flipped bits that fall in sub-word `k`, each stored bit counted once. -/
def hits (flips : List (Fin 352)) (k : Nat) : Nat := (flips.eraseDups.filter fun i => i.val % 16 == k).length

/-- What a read of a code word comes to. -/
inductive CodeResult where
  | clean | corrected | uncorrectable
deriving DecidableEq, Repr

/-- One flipped bit in each sub-word is corrected, two are detected. Of more in one sub-word the spec says nothing: UNVERIFIED,
they are detected beside a sub-word with two, or where `Config.codeDetects` says so, and else pass for a corrected word. -/
def codeResult (flips : List (Fin 352)) : CodeResult :=
  let n := (List.range 16).map (hits flips)
  if n.all (· == 0) then .clean
  else if n.all (decide <| · ≤ 1) then .corrected
  else if n.contains 2 || Config.codeDetects flips then .uncorrectable
  else .corrected

/-- Adjacent stored bits, from `a` on. -/
def burst (a n : Nat) : List (Fin 352) := (List.range n).map fun k => Fin.ofNat 352 (a + k)

end Sys2Proof.Machine
end

