-- ==== Sys2Proof/Machine/Memory.lean ====
section
/-! DEFINITION. On-chip memory: the order of accesses at a bank, atomic operations, scratchpad ownership, the vault after a wipe,
scrubbing, uncorrectable errors and spare banks (R433 to R453, R540, R548). -/

namespace Sys2Proof.Machine

/-! ### Accesses, their order at a bank, and atomic operations (R433, R435 to R437) -/

/-- The bytes of an operand. -/
def operandBytes (wide : Bool) : Nat := if wide then 8 else 4

/-- The operation is atomic. -/
def isAtomic : MemOp → Bool
  | .fetchAdd _ | .swap _ => true
  | _ => false

/-- What an operation leaves in a word of `n` bytes, none where it leaves the word alone. -/
def opResult (n old : Nat) : MemOp → Option Nat
  | .read => none
  | .write v | .swap v => some (v.toNat % 2 ^ (8 * n))
  | .fetchAdd v => some ((old + v.toNat) % 2 ^ (8 * n))

/-- What an operation gives its master. -/
def opGives (old : Nat) : MemOp → BitVec 64
  | .write _ => 0
  | _ => BitVec.ofNat 64 old

/-- A naturally aligned word inside a memory of a size, of a master that has the operation: QSPI has no atomic ones. -/
def accessOk (size : Nat) (a : MemAccess) : Bool :=
  !(isAtomic a.op && a.master.val == 13) && a.addr % operandBytes a.wide == 0
    && decide (a.addr + operandBytes a.wide ≤ size)

/-- An access is answered. -/
def giveMaster (a : MemAccess) (v : Option (BitVec 64)) (s : State) : State :=
  { s with mem.returned := s.mem.returned ++ [(a.master, v)] }

/-- Bank cycles of an access: a write of less than a code word is a read-modify-write, as an atomic operation is. -/
def accessCycles (a : MemAccess) : Nat := if a.op = .read then 1 else 2

/-- The bank group of a pool offset. -/
def memGroup (addr : Nat) : Fin 8 := Fin.ofNat 8 ((codeWordOf addr).1 / 8)

/-- An access is counted for its master and bank group. -/
def countPoolAccess (a : MemAccess) (s : State) : State :=
  { s with mem.conflicts := s.mem.conflicts.upd a.master fun c =>
      { c with acc := c.acc.upd (memGroup a.addr) fun w => satAdd 32 w 1 } }

/-- Bank cycles in which an access waited are counted for its master. -/
def countWait (cycles : Nat) (a : MemAccess) (s : State) : State :=
  { s with mem.conflicts := s.mem.conflicts.upd a.master fun c =>
      { c with conf := c.conf.upd (memGroup a.addr) fun w => satAdd 32 w cycles } }

/-- One access runs at its bank, whole. A misaligned atomic operation, and an access to a bad code word, is not performed and gets
an access error. -/
def poolAccess (a : MemAccess) (s : State) : State :=
  let n := operandBytes a.wide
  let s := countPoolAccess a s
  match if accessOk poolSize a then poolRead s a.addr n else none with
  | none => giveMaster a none s
  | some b =>
    let s := match opResult n (ofLe b) a.op with
      | some v => poolWrite s a.addr (leBytes n v)
      | none => s
    giveMaster a (some (opGives (ofLe b) a.op)) s

/-- Place of a master in the order of R435 at a bank that served `last` before: 15, 14, then round robin from the next one. -/
def bankRank (last : MasterNo) (m : MasterNo) : Nat :=
  if m.val = 15 then 0 else if m.val = 14 then 1 else 2 + (m.val + 15 - last.val) % 16

/-- The waiting access that the bank serves next. -/
def nextServed (last : MasterNo) : List MemAccess → Option MemAccess
  | [] => none
  | a :: l =>
    match nextServed last l with
    | some b => if bankRank last b.master < bankRank last a.master then some b else some a
    | none => some a

/-- The accesses that wait for one bank are served one after the other: at most `n` of them. -/
def serveBank : Nat → List MemAccess → State → State
  | 0, _, s => s
  | n + 1, l, s =>
    match l.head?.bind fun a => nextServed (s.mem.lastServed.at (Fin.ofNat 64 (codeWordOf a.addr).1)) l with
    | none => s
    | some a =>
      let rest := l.erase a
      let s := poolAccess a { s with mem.lastServed := s.mem.lastServed.put (Fin.ofNat 64 (codeWordOf a.addr).1) a.master }
      serveBank n rest (rest.foldl (fun s b => countWait (accessCycles a) b s) s)

/-- Accesses of several masters reach one bank in one cycle. -/
def atomicOperation (accesses : List MemAccess) (s : State) : State :=
  serveBank accesses.length accesses { s with mem.returned := [] }

def execAtomicOperation (accesses : List MemAccess) (s : State) : Host.Outcome State Fault Refusal :=
  done (if controlRuns s then atomicOperation accesses s else s)

/-! ### Scratchpads (R438 to R441) -/

def State.onPad (s : State) (p : PadNo) (f : Pad → Pad) : State := { s with mem.pads := s.mem.pads.upd p f }

/-- An access that is not allowed: ignored, and counted in DENIED. -/
def denyPad (p : PadNo) (s : State) : State := s.onPad p fun x => { x with denied := satAdd 8 x.denied 1 }

/-- The session core that a master number names, none for another master. -/
def coreOfMaster (n : Nat) : Option CoreNo := if 2 ≤ n ∧ n ≤ 10 then some (Fin.ofNat 9 (n - 2)) else none

/-- The owner is a session core that Millet has declared silent (R440). -/
def silentOwner (s : State) (x : Pad) : Bool :=
  match coreOfMaster x.owner.toNat with
  | some k => (s.veh.core.at k).silent
  | none => false

/-- RECLAIM by a master: the active management core becomes the owner of an unowned scratchpad, or of one whose owner is
silent, which is cleared first. -/
def reclaimPad (p : PadNo) (m : MasterNo) (s : State) : State :=
  let x := s.mem.pads.at p
  let mine := BitVec.ofNat 5 s.thm.mgmtCore.val
  if m.val ≠ s.thm.mgmtCore.val then denyPad p s
  else if x.owner = 0x1F then s.onPad p fun x => { x with owner := mine }
  else if silentOwner s x then s.onPad p fun x => { x with owner := mine, bytes := [], bad := [] }
  else denyPad p s

/-- OWNER written by its owner; the values 16 to 30 are ignored. -/
def passOwner (p : PadNo) (owner : Nat) (s : State) : State :=
  if owner < 16 || owner = 31 then s.onPad p fun x => { x with owner := BitVec.ofNat 5 owner } else s

/-- Size of a scratchpad. -/
def padSize : Nat := 0x8000

/-- An access to a scratchpad by its owner: there are no atomic operations, and a word marked bad fails until it is written
whole, which no single access does. -/
def ownerAccess (p : PadNo) (a : MemAccess) (s : State) : State :=
  let n := operandBytes a.wide
  let x := s.mem.pads.at p
  if isAtomic a.op || !accessOk padSize a || x.bad.contains (a.addr / 32) then giveMaster a none s
  else
    let old := ofLe (memRead x.bytes a.addr n)
    let s := match opResult n old a.op with
      | some v => s.onPad p fun x => { x with bytes := memWrite x.bytes a.addr (leBytes n v) }
      | none => s
    giveMaster a (some (opGives old a.op)) s

/-- An access to a scratchpad: of another master a write is ignored, a read returns 0, and each is counted (R439). -/
def padAccess (p : PadNo) (a : MemAccess) (s : State) : State :=
  if (s.mem.pads.at p).owner.toNat = a.master.val then ownerAccess p a s else giveMaster a (some 0) (denyPad p s)

/-- A write of the owner word. Accesses of the same cycle run first, under the owner before it (R441). -/
def writeOwner (p : PadNo) (m : MasterNo) (value : Word) (same : List MemAccess) (s : State) : State :=
  let s := same.foldl (fun s a => padAccess p a s) { s with mem.returned := [] }
  if wBit value 5 then reclaimPad p m s
  else if (s.mem.pads.at p).owner.toNat = m.val then passOwner p (wFld value 0 5) s
  else denyPad p s

def execScratchpadOwnerWrite (pad : PadNo) (master : MasterNo) (value : Word) (same : List MemAccess) (s : State) :
    Host.Outcome State Fault Refusal := done (if controlRuns s then writeOwner pad master value same s else s)

def execScratchpadReclaim (pad : PadNo) (master : MasterNo) (s : State) : Host.Outcome State Fault Refusal :=
  done (if controlRuns s then reclaimPad pad master s else s)

/-! ### Spare banks (R449, R452) -/

/-- The logical bank that a physical bank serves. -/
def logicalOf (s : State) (bank : Fin 68) : Option (Fin 64) := (indices 63).find? fun l => s.mem.bankMap.at l == bank

/-- The lowest free spare: spares are taken in ascending order, and a replaced one is not free again. -/
def freeSpare (s : State) : Option (Fin 68) :=
  let used := s.mem.bankMap.toList ++ s.mem.copies.map (·.spare)
  let top := used.foldl (fun (a : Nat) (b : Fin 68) => max a b.val) 63
  if top < 67 then some (Fin.ofNat 68 (top + 1)) else none

/-- A bank qualifies for replacement: its copy starts, or waits for the running one; with no spare left it stays in service. -/
def replaceBank (bank : Fin 68) (s : State) : State :=
  match logicalOf s bank, freeSpare s with
  | some l, some spare =>
    if s.mem.copies.any (fun c => c.logical == l) then s
    else { s with mem.copies := s.mem.copies ++ [{ logical := l, spare := spare }] }
  | _, _ => s

/-- The copy ends: the spare serves the logical bank, and the next copy runs. -/
def copyEnds (s : State) : State :=
  match s.mem.copies with
  | [] => s
  | c :: rest =>
    raise 97 c.spare.val 0 [] { s with mem.bankMap := s.mem.bankMap.put c.logical c.spare, mem.copies := rest }

def execBankSpareCopyEnd (s : State) : Host.Outcome State Fault Refusal := done (if controlRuns s then copyEnds s else s)

/-- A day in µs. -/
def dayMicros : Nat := 86400000000

/-- Corrected code words of a bank within the last 24 h. -/
def correctedToday (now : Nat) (l : List (Nat × Nat)) : List (Nat × Nat) := l.filter fun x => now - x.1 < dayMicros

/-- A corrected code word of a bank is counted; 32 within 24 h replace it. -/
def bankFixed (bank : Fin 68) (s : State) : State :=
  let now := s.och.clock.mono
  let l := (now, 1) :: correctedToday now (s.mem.corrected.at bank)
  let s := { s with mem.corrected := s.mem.corrected.put bank l,
                    mem.correctedAll := s.mem.correctedAll.upd bank fun w => satAdd 32 w 1 }
  if 32 ≤ (l.map (·.2)).foldl (· + ·) 0 then replaceBank bank s else s

/-! ### Uncorrectable errors (R450, R540, R548) -/

/-- The event of an uncorrectable error: memory code and unit, and what the place gives as DATA. -/
def memEvent (code unit : Nat) (data : List Byte) (s : State) : State := raise 96 (code * 256 + unit) 0 data s

/-- A code word is bad, listed once. -/
def addBad {α : Type} [DecidableEq α] (w : α) (l : List α) : List α := if w ∈ l then l else l ++ [w]

/-- A pool code word is marked bad, and its bank is replaced. -/
def poolError (bank : Fin 68) (word : Nat) (s : State) : State :=
  let s := memEvent 1 bank.val [] s
  match logicalOf s bank with
  | some l => replaceBank bank { s with mem.badWords := addBad (l.val, word) s.mem.badWords }
  | none => s

/-- The size of an outlet's vault region, and the place of the host region (R442). -/
def vaultRegion : Nat := 0x3C00
def vaultHostBase : Nat := 0xF0000

def vaultOutletError (o : OutletNo) (s : State) : State :=
  let s := { s with mem.vault := memClear s.mem.vault (vaultRegion * o.val) vaultRegion }
  sessionLosesTls o (memEvent 3 o.val [] s)

def vaultHostError (s : State) : State :=
  let s := { s with mem.vault := memClear s.mem.vault vaultHostBase 0x10000 }
  abortStaging (closeConnections (memEvent 4 0xFF [] s))

/-- A spare takes the place of a ferroelectric sector or of an erase block while one is free (R540, R542). -/
def takeSpare (n : Nat) (put : Nat → State → State) (s : State) : State :=
  if n = 0 then s else raise 103 moduleIndex 0 [] (put (n - 1) s)

/-- One copy of a save record is lost, and its sector is replaced. -/
def loseSave (o : OutletNo) (newer : Bool) (s : State) : State :=
  let s := s.onMeter o fun m =>
    { m with saves := m.saves.upd (if newer then m.newer else m.newer + 1) fun (x : Save) => { x with lost := true } }
  takeSpare s.thm.framOchFree (fun n s => { s with thm.framOchFree := n }) (raise 28 o.val 0 [] (memEvent 5 o.val [] s))

/-- Both copies are lost: the outlet is not metered any more, and no session starts on it. -/
def loseSaves (o : OutletNo) (s : State) : State :=
  let s := s.onMeter o fun m => { m with saves := m.saves.each fun (x : Save) => { x with lost := true } }
  raise 28 o.val 0 [] (memEvent 5 o.val [] s)

def tagMemoryError (w : Fin 256) (s : State) : State :=
  let s := memEvent 7 w.val [] { s with tag.bad := addBad w s.tag.bad }
  takeSpare s.thm.framFesFree (fun n s => { s with thm.framFesFree := n }) s

/-- A page stays unreadable: its image slot counts as corrupt, and its erase block is replaced. -/
def storeError (page : Word) (image : Option (ImageNo × Fin 2)) (s : State) : State :=
  let s := memEvent 8 0xFF (leBytes 4 page.toNat) s
  let s := match image with
    | some (t, k) => s.onImage t fun i => { i with slot := i.slot.upd k fun x => { x with status := .corrupt } }
    | none => s
  takeSpare s.thm.nandFree (fun n s => { s with thm.nandFree := n }) s

/-- A link frame is discarded; an epoch frame is asked for again by its sequence number (R482). -/
def linkError (lane : LaneHas) (seq : Option Nat) (s : State) : State :=
  let s := memEvent 9 lane.val [] s
  match seq with
  | some n => { s with pair.resendSeq := addBad n s.pair.resendSeq, pair.sent := s.pair.sent ++ [.resend n] }
  | none => s

/-- An uncorrectable error by its place. A quantity frame with one has no correct check, and nothing more follows here. -/
def uncorrectable (place : MemPlace) (s : State) : State :=
  match place with
  | .pool bank word => poolError bank word s
  | .pad p word => memEvent 2 p.val [] (s.onPad p fun x => { x with bad := addBad word x.bad })
  | .vaultOutlet o => vaultOutletError o s
  | .vaultHost => vaultHostError s
  | .save o newer => loseSave o newer s
  | .saveBoth o => loseSaves o s
  | .ochre unit => memEvent 6 unit.val [] s
  | .tag w => tagMemoryError w s
  | .store page image => storeError page image s
  | .hasulin lane seq => linkError lane seq s
  | .quantity => memEvent 10 0xFF [] s

/-- Memory code and unit of a place, as source 96 names them (R548). -/
def placeUnit : MemPlace → Nat
  | .pool bank _ => 0x100 + bank.val
  | .pad p _ => 0x200 + p.val
  | .vaultOutlet o => 0x300 + o.val
  | .vaultHost => 0x4FF
  | .save o _ | .saveBoth o => 0x500 + o.val
  | .ochre u => 0x600 + u.val
  | .tag w => 0x700 + w.val
  | .store _ _ => 0x8FF
  | .hasulin lane _ => 0x900 + lane.val
  | .quantity => 0xAFF

/-- A ferroelectric unit has reached 16 corrected code words within 24 h: a spare sector takes its place (R540). -/
def sectorFixed (unit : Nat) (s : State) : State :=
  if unit / 256 = 5 || unit / 256 = 6 then takeSpare s.thm.framOchFree (fun n s => { s with thm.framOchFree := n }) s
  else if unit / 256 = 7 then takeSpare s.thm.framFesFree (fun n s => { s with thm.framFesFree := n }) s
  else s

/-- A corrected code word outside the pool is counted. -/
def unitCorrected (unit : Nat) (s : State) : State :=
  let now := s.och.clock.mono
  let l := (unit, now) :: s.mem.unitFixed.filter fun x => now - x.2 < dayMicros
  if 16 ≤ (l.filter fun x => x.1 == unit).length then
    sectorFixed unit { s with mem.unitFixed := l.filter fun x => x.1 != unit }
  else { s with mem.unitFixed := l }

/-- A corrected error: the data stands corrected, and the count of its bank or sector rises (R449). -/
def correctedAt (place : MemPlace) (s : State) : State :=
  match place with
  | .pool bank _ => bankFixed bank s
  | p => unitCorrected (placeUnit p) s

/-- A code word is read with an error: the code corrects it, or the outcome of its memory applies (R446, R449, R450). -/
def foundError (e : FoundError) (s : State) : State :=
  match codeResult e.flips with
  | .clean => s
  | .corrected => correctedAt e.place s
  | .uncorrectable => uncorrectable e.place s

/-- The scrubber's pass finds errors in some code words (R451). -/
def scrubPass (found : List FoundError) (s : State) : State := found.foldl (fun s e => foundError e s) s

def execScrubPass (found : List FoundError) (s : State) : Host.Outcome State Fault Refusal :=
  done (if controlRuns s then settle (scrubPass found s) else s)

def execUncorrectableError (error : FoundError) (s : State) : Host.Outcome State Fault Refusal :=
  done (if s.modes.base = .backupWatch then s else settle (foundError error s))

/-! ### The vault after a wipe (R442, R444) -/

/-- Size of the vault. -/
def vaultSize : Nat := 0x100000

/-- The unit that an access to the vault is made for: the crypto engine acts for another one. -/
def vaultUser (a : MemAccess) : Option MasterNo := if a.master.val = 11 then a.behalf else some a.master

/-- The master that a region is for: the session core of its outlet, or the active management core. -/
def vaultOwner (s : State) (addr : Nat) : Nat :=
  if addr < vaultHostBase then
    2 + (s.veh.carries.at (Fin.ofNat 8 (addr / vaultRegion / 8))).val
  else s.thm.mgmtCore.val

/-- An access to the vault: any but those of the table is refused with an access error and event 99. -/
def vaultAccess (a : MemAccess) (s : State) : State :=
  let n := operandBytes a.wide
  if isAtomic a.op || !accessOk vaultSize a then giveMaster a none s
  else if (vaultUser a).map (·.val) ≠ some (vaultOwner s a.addr) then raise 99 a.master.val 0 [] (giveMaster a none s)
  else
    let old := ofLe (memRead s.mem.vault a.addr n)
    let s := match opResult n old a.op with
      | some v => { s with mem.vault := memWrite s.mem.vault a.addr (leBytes n v) }
      | none => s
    giveMaster a (some (opGives old a.op)) s

/-- The wipe ends: the vault opens again, and the accesses that waited run on it. -/
def wipeEnds (waiting : List MemAccess) (s : State) : State :=
  waiting.foldl (fun s a => vaultAccess a s) { s with mem := { s.mem with wiping := false, returned := [] } }

def execVaultWipeComplete (waiting : List MemAccess) (s : State) : Host.Outcome State Fault Refusal :=
  done (if s.mem.wiping then settle (wipeEnds waiting s) else s)

end Sys2Proof.Machine
end

