-- ==== Sys2Proof/Machine/CmdDiag.lean ====
section
/-! DEFINITION. The diagnostics commands 0x0C00 to 0x0C08 and the diagnostic bundle (R430, R436, R532, R543, R549 to R557). -/

namespace Sys2Proof.Machine

/-- Free bytes, in the order of the counter. -/
def freeBytes : Nat → Nat → List Byte
  | _, 0 => []
  | k, n + 1 => BitVec.ofNat 8 (Config.freeValue k) :: freeBytes (k + 1) n

/-! ### Fault log (R555) -/

/-- The flushed entries with FSEQ in a range. -/
def faultRange (s : State) (first count : Nat) : List FaultEntry :=
  s.evt.log.filter fun e => first ≤ e.fseq.toNat && e.fseq.toNat < first + count

def readFaultLog (c : Cmd) : State → State :=
  runCmd 0x0C00 c <| acts fun p s =>
    let first := leAt p 0 4
    let n := leAt p 4 4
    let es := faultRange s first n
    checked 0x0C00 c
      [(0, es.any fun e => e.fseq.toNat == first), (1, within 1 faultLogSize n && es.length == n)]
      (fun s => (okBulk (es.flatMap faultBytes), s)) s

def execReadFaultLog (cmd : Cmd) (s : State) : Host.Outcome State Fault Refusal := done (readFaultLog cmd s)

/-! ### Sources (R549, R550) -/

def eventRouting (c : Cmd) : State → State :=
  runCmd 0x0C02 c <| acts fun p s =>
    checked 0x0C02 c [(0, byteAt p 0 ≤ 1 && byteAt p 1 ≤ 3 && leAt p 2 2 == 0)]
      (fun s => (okReply, s.onSource (obj 127 c) fun x =>
        { x with mask := byteAt p 0 == 1, route := BitVec.ofNat 2 (byteAt p 1) })) s

def execEventRouting (cmd : Cmd) (s : State) : Host.Outcome State Fault Refusal := done (eventRouting cmd s)

/-- Bytes of 0x0C03. -/
def sourceBytes (x : Source) : List Byte :=
  [BitVec.ofNat 8 (flag x.pending 0), BitVec.ofNat 8 (flag x.mask 0), BitVec.ofNat 8 x.route.toNat, 0]
    ++ leBytes 4 x.counter.toNat

def eventSourceState (c : Cmd) : State → State :=
  runCmd 0x0C03 c <| reads fun _ s => okWith (sourceBytes (s.evt.src.at (obj 127 c)))

def execEventSourceState (cmd : Cmd) (s : State) : Host.Outcome State Fault Refusal := done (eventSourceState cmd s)

/-- A source cleared; a level source whose condition holds keeps its flag. -/
def clearSource (bits : List Byte) (k : Nat) (x : Source) : Source :=
  if (byteAt bits (k / 8)).testBit (k % 8) && x.holding.isEmpty then { x with pending := false } else x

def clearPending (c : Cmd) : State → State :=
  runCmd 0x0C04 c <| acts fun p s => (okReply, { s with evt.src := s.evt.src.mapN (clearSource p) })

def execClearPending (cmd : Cmd) (s : State) : Host.Outcome State Fault Refusal := done (clearPending cmd s)

/-! ### Wear report (R540, R543) -/

/-- Spare lanes that are free: no input is served by them or swaps to them, and they are not out. -/
def freeLanes (s : State) : Nat :=
  let used := s.och.input.toList.flatMap fun x => x.lane :: x.swap.toList
  min 8 ((indices 519).filter fun l => !(s.och.lane.at l).out && !used.contains l).length

/-- Spare SRAM banks that are free. -/
def freeBanks (s : State) : Nat :=
  match freeSpare s with
  | some b => 68 - b.val
  | none => 0

def freeTones (s : State) : Nat := (s.site.unit.toList.filter fun u => u.tone.isNone && !u.failed).length

def freeCells (s : State) : Nat := (s.keys.cell.toList.filter fun c => !c.used && !c.retired).length

/-- Retired session cores as bits. -/
def retiredCores (s : State) : Nat := ((indices 8).map fun k => flag (s.veh.core.at k).retired k.val).foldl (· + ·) 0

/-- A job's 16 bytes. -/
def jobBytes (j : Job) : List Byte :=
  leBytes 4 j.debt ++ leBytes 4 j.maxDebt.toNat ++ leBytes 4 j.late.toNat ++ leBytes 4 j.merged.toNat

/-- The 416-byte wear report. -/
def wearBytes (s : State) : List Byte :=
  let t := s.thm
  leBytes 4 (schedStatus s).toNat ++ leBytes 4 t.powerH.toNat
    ++ [BitVec.ofNat 8 (flag t.mgmtSpare 0), BitVec.ofNat 8 (flag s.veh.spare.isSome 0)] ++ leBytes 2 (retiredCores s)
    ++ [BitVec.ofNat 8 t.mgmtRetired.toNat, BitVec.ofNat 8 (freeLanes s), BitVec.ofNat 8 (freeBanks s),
        BitVec.ofNat 8 (freeTones s)]
    ++ leBytes 2 (freeCells s) ++ leBytes 2 t.framOchFree ++ leBytes 2 t.framFesFree ++ leBytes 2 t.nandFree
    ++ leBytes 4 t.eraseMax.toNat ++ leBytes 4 t.eraseMean.toNat ++ [BitVec.ofNat 8 (20 - s.keys.returns), 0, 0, 0]
    ++ wordBytes s.mem.correctedAll.toList ++ wordBytes t.stageTime.toList ++ leInt 2 t.tcMax ++ [0, 0]
    ++ t.job.toList.flatMap jobBytes

def wearAndSpares (c : Cmd) : State → State := runCmd 0x0C05 c <| reads fun _ s => okBulk (wearBytes s)

def execWearAndSpares (cmd : Cmd) (s : State) : Host.Outcome State Fault Refusal := done (wearAndSpares cmd s)

/-! ### Site line, pool, temperatures (R341, R436, R532) -/

/-- Down and up SNR of a link. -/
def snrBytes (l : Link) : List Byte := padTo 64 l.report ++ padTo 64 l.upSnr

def siteLineNoise (c : Cmd) : State → State :=
  runCmd 0x0C06 c <| reads fun _ s =>
    okWith (if c.index = 0xFFFF then padTo 192 s.site.noise else snrBytes (s.site.link.at (Fin.ofNat 32 (c.index.toNat - 1))))

def execSiteLineNoise (cmd : Cmd) (s : State) : Host.Outcome State Fault Refusal := done (siteLineNoise cmd s)

/-- A counter with the accesses that the model does not see added: a free value. -/
def seenCount (free : Nat) (w : Word) : Word := satAdd 32 w (Config.freeValue free)

/-- A master's counters as they are read: waits, then accesses. -/
def conflictBytes (free : Nat) (x : Conflicts) : List Byte :=
  wordBytes (numbered (fun k w => seenCount (free + k) w) 0 (x.conf.toList ++ x.acc.toList))

def poolConflictCounters (c : Cmd) : State → State :=
  runCmd 0x0C07 c <| acts fun _ s =>
    (okBulk (conflictBytes s.free (s.mem.conflicts.at (obj 15 c))),
     { s with mem.conflicts := s.mem.conflicts.put (obj 15 c) { conf := Tab.all 8 0, acc := Tab.all 8 0 },
              free := s.free + 16 })

def execPoolConflictCounters (cmd : Cmd) (s : State) : Host.Outcome State Fault Refusal :=
  done (poolConflictCounters cmd s)

/-- Bytes of 0x0C08: own raw readings, and Tc in force. -/
def tempBytes (s : State) : List Byte := (s.thm.sensor.toList.flatMap fun x => leInt 2 x.raw) ++ leInt 2 s.thm.tc

def temperatures (c : Cmd) : State → State := runCmd 0x0C08 c <| reads fun _ s => okWith (tempBytes s)

def execTemperatures (cmd : Cmd) (s : State) : Host.Outcome State Fault Refusal := done (temperatures cmd s)

/-! ### Diagnostic bundle (R556, R557) -/

/-- A bundle is being built: its command is answered when it is complete. A second one gets BUSY, with a free retry-after. -/
def startBundle (c : Cmd) (p : List Byte) (s : State) : Option Reply × State :=
  if s.evt.bundle.isSome then
    let (n, s) := takeFree s
    (some (reply .busy (10 + n % 4991)), s)
  else if 4 ≤ leAt p 0 4 then (some (rangeReply 0x0C01 c 0), s)
  else (none, { s with evt.bundle := some c })

def diagnosticBundle (c : Cmd) : State → State := runCmd 0x0C01 c (startBundle c)

def execDiagnosticBundle (cmd : Cmd) (s : State) : Host.Outcome State Fault Refusal := done (diagnosticBundle cmd s)

/-- A section of this module or of the peer, its body padded to 4 bytes. -/
def sectionBytes (number mod_ : Nat) (body : List Byte) : List Byte :=
  leBytes 2 number ++ [BitVec.ofNat 8 mod_, 0] ++ leBytes 4 body.length ++ padTo (ceilDiv body.length 4 * 4) body

/-- A commit record (R518). -/
def commitBytes (x : ImageSlot) : List Byte := leBytes 4 (slotCode x.status) ++ leBytes 8 x.time ++ leBytes 4 0 ++ padTo 512 x.header

/-- The latest 1,024 fault log entries, oldest first. -/
def faultSection (s : State) : List Byte :=
  let l := s.evt.log
  padTo 65536 ((l.drop (l.length - 1024)).flatMap faultBytes)

/-- Direct-window words of section 0x0002. -/
def windowSection (s : State) : List Byte :=
  wordBytes [0x5A476451, mbStatus s, modeStatus s, clockStatus s, s.rus.cause, pairStatus s]

/-- Unacknowledged legal log count and newest SEQ, with the refusal counters. -/
def legalSection (s : State) : List Byte :=
  leBytes 4 s.och.log.entries.length ++ leBytes 4 s.och.log.seq.toNat ++ wordBytes s.och.refusals.toList

/-- The bodies of sections 0x0001 to 0x000F of this module. Per-sector and per-block counts are free values. -/
def sectionBodies (s : State) : List (List Byte) :=
  [memRead s.tag.mem 0 96, windowSection s, pairBytes s, s.evt.src.toList.flatMap sourceBytes, faultSection s, wearBytes s,
   tempBytes s,
   (List.range 68).flatMap (safetyBytes s) ++ safetyBytes s 0xFFFF,
   s.spe.chan.toList.flatMap (fun x => leBytes 4 (chanStatus0 s x).toNat ++ leBytes 4 (chanStatus1 x).toNat)
     ++ leBytes 4 (aggStatus s).toNat,
   s.upd.image.toList.flatMap (fun i => i.slot.toList.flatMap commitBytes), freeBytes s.free 20736,
   padTo 192 s.site.noise ++ s.site.link.toList.flatMap snrBytes,
   (numbered (fun m x => conflictBytes (s.free + 20736 + 16 * m) x) 0 s.mem.conflicts.toList).flatten,
   (indices 511).flatMap (fun i => leBytes 4 (slotStatus s i).toNat) ++ padTo 128 (s.och.laneRecord.flatMap laneSwapBytes),
   legalSection s]

/-- The sections of this module. -/
def ownSections (s : State) : List (List Byte) := numbered (fun k b => sectionBytes (k + 1) 0 b) 0 (sectionBodies s)

/-- The peer's sections as they arrived, cut apart by their lengths. -/
def splitSections : Nat → List Byte → List (List Byte)
  | 0, _ => []
  | n + 1, l =>
    if l.isEmpty then []
    else
      let k := 8 + ceilDiv (leAt l 4 4) 4 * 4
      l.take k :: splitSections n (l.drop k)

/-- The peer's sections, or the one that says it is absent. -/
def peerSections (arrived : Option (List Byte)) : List (List Byte) :=
  match arrived with
  | some l => splitSections 15 l
  | none => [sectionBytes 0xFF 1 []]

/-- Sections put in while they fit whole, and whether one did not. -/
def fitSections (room : Nat) : List (List Byte) → List Byte → List Byte × Bool
  | [], acc => (acc, false)
  | x :: xs, acc => if acc.length + x.length ≤ room then fitSections room xs (acc ++ x) else (acc, true)

/-- The bundle for a scope and a buffer length. -/
def bundleBytes (scope room : Nat) (arrived : Option (List Byte)) (s : State) : List Byte :=
  let all := (if scope.testBit 0 then ownSections s else []) ++ (if scope.testBit 1 then peerSections arrived else [])
  let (body, cut) := fitSections (room - 16) all []
  leBytes 4 0x4E44425A ++ [1, BitVec.ofNat 8 scope] ++ leBytes 2 (flag cut 0) ++ leBytes 4 (16 + body.length)
    ++ leBytes 4 (crc32 body) ++ body

/-- The bundle is complete and its command answered. -/
def bundleComplete (arrived : Option (List Byte)) (s : State) : State :=
  match s.evt.bundle with
  | none => s
  | some c =>
    if !controlRuns s then s
    else
      let b := bundleBytes (leAt (cmdFields 0x0C01 c) 0 4) (outLength 0x0C01 c) arrived s
      let s := { s with evt.bundle := none, free := s.free + 20736 + 256 }
      answer 0x0C01 c { okWith (leBytes 4 b.length) with bulk := [b] } s

def execBundleComplete (peerSections : Option (List Byte)) (s : State) : Host.Outcome State Fault Refusal :=
  done (bundleComplete peerSections s)

end Sys2Proof.Machine
end

