-- ==== Sys2Proof/Machine/CmdKeys.lean ====
section
/-! DEFINITION. The key commands 0x0900 to 0x0906, lifecycle moves and the debug unlock token (R454 to R478). -/

namespace Sys2Proof.Machine

/-! ### Cells (R455) -/

/-- The lowest-numbered free spare cell. -/
def freeCell (s : State) : Option (Fin 256) :=
  (indices 255).find? fun k => 224 ≤ k.val && !(s.keys.cell.at k).used && !(s.keys.cell.at k).retired

/-- The cell of a slot has reached its writes or failed: the next write goes to a spare one. -/
def moveCell (n : Fin 256) (s : State) : State :=
  let x := s.keys.slot.at n
  let k := s.keys.cell.at x.cell
  if !(k.retired || x.bad) then s
  else
    let s := { s with keys.cell := s.keys.cell.put x.cell { k with retired := true } }
    match freeCell s with
    | some f =>
      { (s.onSlot n fun x => { x with cell := f }) with keys.cell := s.keys.cell.upd f fun k => { k with used := true } }
    | none => s

/-- The slot's cell counts a write, and is retired at 100,000. -/
def countWrite (n : Fin 256) (s : State) : State :=
  { s with keys.cell := s.keys.cell.upd (s.keys.slot.at n).cell fun k =>
      { k with writes := k.writes + 1, retired := k.retired || decide (100000 ≤ k.writes + 1) } }

/-- A key becomes the slot's key in one step, with its use count (R461, R462). -/
def placeKey (n : Fin 256) (k : Key) (s : State) : State :=
  (countWrite n (moveCell n s)).onSlot n fun x =>
    { x with key := k, uses := wFld k.w1 0 25, bad := false, shadow := none, tested := false }

/-! ### Slots (R456, R457, R462 to R464) -/

/-- A spare slot holds no key. -/
def spareSlot (c : Cmd) : Bool := decide (224 ≤ c.index.toNat)

/-- The public part that 0x0900 returns. -/
def publicPart (k : Key) : List Byte :=
  if privateKey k.ktype.toNat then Config.publicPoint k.ktype k.bytes
  else if publicKey k.ktype.toNat then k.bytes else []

/-- Bytes of 0x0900. -/
def slotBytes (x : Slot) : List Byte :=
  leBytes 4 x.key.w0.toNat ++ leBytes 4 x.key.w1.toNat ++ leBytes 4 x.uses
    ++ leBytes 4 (flag x.bad 0 + flag x.shadow.isSome 1 + flag x.tested 2) ++ publicPart x.key

def readSlot (c : Cmd) : State → State :=
  runCmd 0x0900 c <| reads fun _ s =>
    okWith (if spareSlot c then List.replicate 16 0 else slotBytes (s.keys.slot.at (obj 255 c)))

def execReadSlot (cmd : Cmd) (s : State) : Host.Outcome State Fault Refusal := done (readSlot cmd s)

/-- The key that a payload of 0x0901 carries, RO fields filled. -/
def carriedKey (s : State) (p : List Byte) : Key :=
  let w0 : Word := BitVec.ofNat 32 (leAt p 0 4)
  let t := byteAt p 8
  { w0 := w0 ||| BitVec.ofNat 32 (lifecycleCode s.keys.lifecycle * 2 ^ 19 + t * 2 ^ 8), w1 := BitVec.ofNat 32 (leAt p 4 4),
    ktype := BitVec.ofNat 8 t, bytes := p.drop 12 }

/-- The checks of a key's attributes, type, length and value, with their word offsets. -/
def keyChecks (n : Nat) (p : List Byte) : List (Nat × Bool) :=
  let w0 : Word := BitVec.ofNat 32 (leAt p 0 4)
  let w1 : Word := BitVec.ofNat 32 (leAt p 4 4)
  let t := byteAt p 8
  let key := p.drop 12
  [(0, wFld w0 0 22 == 0 && usagesOf w0 != 0 && (w0 &&& 0xF8800000) &&& usageMask t == w0 &&& 0xF8800000 && ownerOk n t w0),
   (1, wFld w1 25 7 == 0 && decide (w1.toNat ≤ 2 ^ 24)),
   (2, byteAt p 9 == 0 && leAt p 10 2 == key.length && lengthOk t key.length),
   (3, key.any (· != 0) && Config.keyOk (BitVec.ofNat 8 t) key)]

/-- Slots 0 to 3 are written in Factory test only (R458). -/
def vendorLocked (s : State) (c : Cmd) : Bool := decide (c.index.toNat < 4) && s.modes.base != .factoryTest

def writeKey (c : Cmd) : State → State :=
  runCmd 0x0901 c <| acts fun p s =>
    if spareSlot c then (reply .badIndex 0, s)
    else if vendorLocked s c then (modeReply s, s)
    else checked 0x0901 c (keyChecks c.index.toNat p)
      (fun s => (okReply, placeKey (obj 255 c) (carriedKey s p) s)) s

def execWriteKeyInClear (cmd : Cmd) (s : State) : Host.Outcome State Fault Refusal := done (writeKey cmd s)

def loadShadow (c : Cmd) : State → State :=
  runCmd 0x0902 c <| acts fun p s =>
    if spareSlot c then (reply .badIndex 0, s)
    else if vendorLocked s c then (modeReply s, s)
    else checked 0x0902 c (keyChecks c.index.toNat p ++ [(0, meetsNaming s c.index.toNat (carriedKey s p))])
      (fun s => (okReply, s.onSlot (obj 255 c) fun x => { x with shadow := some (carriedKey s p), tested := false })) s

def execLoadShadow (cmd : Cmd) (s : State) : Host.Outcome State Fault Refusal := done (loadShadow cmd s)

/-- The self-test of a shadow ends, passed or failed (R463). -/
def testShadow (c : Cmd) (pass : Bool) : State → State :=
  runCmd 0x0903 c <| acts fun _ s =>
    if spareSlot c then (reply .badIndex 0, s)
    else match (s.keys.slot.at (obj 255 c)).shadow with
      | none => (refusedReply 2, s)
      | some _ =>
        if pass then (okReply, s.onSlot (obj 255 c) fun x => { x with tested := true }) else (refusedReply 1, s)

def execTestShadow (cmd : Cmd) (pass : Bool) (s : State) : Host.Outcome State Fault Refusal := done (testShadow cmd pass s)

/-- The shadow becomes the slot's key where it is tested and its integrity tag holds (R463). -/
def commitShadow (c : Cmd) (tagOk : Bool) : State → State :=
  runCmd 0x0904 c <| acts fun _ s =>
    if spareSlot c then (reply .badIndex 0, s)
    else
      let x := s.keys.slot.at (obj 255 c)
      match x.shadow with
      | some k => if x.tested && tagOk then (okReply, placeKey (obj 255 c) k s) else (refusedReply 3, s)
      | none => (refusedReply 3, s)

def execCommitShadow (cmd : Cmd) (tagOk : Bool) (s : State) : Host.Outcome State Fault Refusal :=
  done (commitShadow cmd tagOk s)

def readStepCounters (c : Cmd) : State → State :=
  runCmd 0x0906 c <| reads fun _ s => okWith (s.keys.steps.toList.map (BitVec.ofNat 8) ++ [0, 0, 0])

def execReadStepCounters (cmd : Cmd) (s : State) : Host.Outcome State Fault Refusal := done (readStepCounters cmd s)

/-! ### Tokens (R473, R476) -/

/-- A token of a format and number is valid: signature with slot 1, serial, number, legal time. -/
def tokenValid (format no : Nat) (t : List Byte) (s : State) : Bool × State :=
  let now := lt32 s
  let fields := t.length = 120 && byteAt t 0 = format && leAt t 1 3 = 0 && leAt t 4 8 = Config.serial.toNat
    && leAt t 0xC 4 = no && leAt t 0x10 4 ≤ now && now ≤ leAt t 0x14 4
  match useKey 1 4 30 s with
  | (false, s) => (false, s)
  | (true, s) => (fields && Config.verify (s.keys.slot.at 1).key.bytes (t.take 0x18) (t.drop 0x18), s)

/-- Number of the debug step about to be used. -/
def debugStep (s : State) : Nat := 5 - s.keys.steps.at 8

/-- A debug unlock token is presented over the debug port. -/
def debugUnlock (t : List Byte) (s : State) : State :=
  let l := s.keys.lifecycle
  if !controlRuns s || !(l == .provisioned || l == .returned) || s.keys.steps.at 8 = 0 then s
  else match tokenValid 2 (debugStep s) t s with
    | (false, s) => s
    | (true, s) =>
      let s := { s with keys := { s.keys with steps := s.keys.steps.upd 8 (· - 1), debugOpen := true } }
      settle (raise 104 moduleIndex 0 [] (wipeVault 4 s))

def execDebugUnlockToken (token : List Byte) (s : State) : Host.Outcome State Fault Refusal := done (debugUnlock token s)

/-! ### Lifecycle moves (R470 to R474) -/

/-- The state of an encoded LIFECYCLE. -/
def lifecycleOf (n : Nat) : Option Lifecycle :=
  match n with
  | 0 => some .blank
  | 1 => some .factory
  | 2 => some .provisioned
  | 3 => some .deployed
  | 4 => some .returned
  | 5 => some .ended
  | _ => none

/-- A vendor key stands in a slot. -/
def vendorKeyIn (s : State) (n : Fin 256) : Bool := keyServes (s.keys.slot.at n) 4 30

/-- Port 0 or 1 has its server and commission root slots named, or QSPI has level 3. -/
def reachable (s : State) : Bool :=
  s.mbx.qspiLvl == 3 ||
    [(0 : PortNo), 1].any fun p =>
      let n := (s.mbx.port.at p).net
      n.serverSlot != 0xFFFF && n.commissionSlot != 0xFFFF

/-- A move's row of R470 and its conditions, the token apart. -/
def moveAllowed (s : State) (dest : Lifecycle) : Bool :=
  let test := s.modes.base == .factoryTest
  let comm := s.modes.base == .commissioning
  match s.keys.lifecycle, dest with
  | .ended, _ => false
  | _, .ended => true
  | .blank, .factory => test
  | .factory, .provisioned =>
    test && vendorKeyIn s 0 && vendorKeyIn s 1 && s.och.signing.toList.all (· == .inService)
  | .provisioned, .deployed => comm && reachable s
  | .deployed, .returned => comm
  | .returned, .provisioned => comm && decide (s.keys.returns < 20)
  | _, _ => false

/-- The move needs a return token. -/
def needsToken (s : State) (dest : Lifecycle) : Bool := s.keys.lifecycle == .returned && dest == .provisioned

/-- A slot after a move: cleared where the move clears it, every shadow discarded. -/
def Slot.moved (frm dest : Lifecycle) (n : Nat) (x : Slot) : Slot :=
  let clears := match frm, dest with
    | _, .ended => true
    | .factory, .provisioned => within 4 223 n && wFld x.key.w0 19 3 == 1
    | .deployed, .returned => within 4 223 n
    | _, _ => false
  let x := if clears then { x with key := .cleared, uses := 0, bad := false } else x
  { x with shadow := none, tested := false }

/-- Routing as shipped (R550). -/
def shippedRouting (x : Source) : Source := { x with mask := false, route := 3 }

/-- The effects of a move (R471). The root in force changes, which ends every derived key and the link's frame keys (R467). -/
def makeMove (dest : Lifecycle) (s : State) : State :=
  let frm := s.keys.lifecycle
  let s := { s with keys := { s.keys with lifecycle := dest, slot := s.keys.slot.mapN (Slot.moved frm dest),
                                          debugOpen := dest == .factory,
                                          returns := s.keys.returns + (if dest = .provisioned && frm = .returned then 1 else 0),
                                          powerOnDue := s.keys.powerOnDue || frm == .factory && dest == .provisioned,
                                          derived := [],
                                          roots := if dest = .ended then Tab.all 4 false else s.keys.roots },
                    pair.keyed := false,
                    evt.src := s.evt.src.each shippedRouting }
  let s := if frm = .blank then { s with tag.fcount := 0 } else s
  let s := if dest = .ended then
      { s with och.signing := Tab.all 8 .empty, tag := { s.tag with state := .killed, answer := none } } else s
  settle (writeIdentity (raise 102 moduleIndex 0 [] (wipeVault 2 s)))

/-- What answers a move: none where it is made. -/
def moveRefusal (c : Cmd) (p : List Byte) (s : State) : Option Reply × State :=
  match lifecycleOf (byteAt p 0) with
  | none => (some (rangeReply 0x0905 c 0), s)
  | some dest =>
    if leAt p 1 3 ≠ 0 then (some (rangeReply 0x0905 c 0), s)
    else if !moveAllowed s dest then (some (refusedReply 4), s)
    else if needsToken s dest then
      match tokenValid 1 (s.keys.returns + 1) (bulkOf 0x0905 c s) s with
      | (true, s) => (none, s)
      | (false, s) => (some (refusedReply 5), s)
    else (none, s)

/-- A lifecycle move: the response is returned, then the move takes effect. -/
def lifecycleMove (c : Cmd) (s : State) : State :=
  let p := cmdFields 0x0905 c
  let t := runCmd 0x0905 c (fun p s => match moveRefusal c p s with
    | (some r, s) => (some r, s)
    | (none, s) => (some okReply, s)) s
  if accepted 0x0905 c s && (moveRefusal c p s).1.isNone then
    match lifecycleOf (byteAt p 0) with
    | some dest => makeMove dest t
    | none => t
  else t

def execLifecycleMove (cmd : Cmd) (s : State) : Host.Outcome State Fault Refusal := done (lifecycleMove cmd s)

end Sys2Proof.Machine
end

