-- ==== Sys2Proof/Machine/Blocks.lean ====
section
/-! DEFINITION. The symbols of the site line: block control, blocks with their parity, and what a receiver makes of a frame's
symbols (R329, R334, R335, R337). -/

namespace Sys2Proof.Machine

/-- A symbol: tone bit and position bit (R329). -/
abbrev Sym := Bool × Bool

/-- The low `n` bits of a number, most significant first. -/
def msbBits (n v : Nat) : List Bool := (List.range n).map fun i => v.testBit (n - 1 - i)

/-- The number that bits spell, most significant first. -/
def ofMsb (l : List Bool) : Nat := l.foldl (fun n b => 2 * n + (if b then 1 else 0)) 0

/-- Bits two by two as symbols, the tone bit first. -/
def symbolsOf : List Bool → List Sym
  | a :: b :: l => (a, b) :: symbolsOf l
  | _ => []

/-- The bits of symbols. -/
def bitsOf (l : List Sym) : List Bool := l.flatMap fun x => [x.1, x.2]

/-- Bitwise XOR of symbols. -/
def symbolParity (l : List Sym) : Sym := l.foldl (fun a b => (a.1 ^^ b.1, a.2 ^^ b.2)) (false, false)

/-- Symbols 0 to 6 of a codeword with the parity symbol. -/
def withParity (l : List Sym) : List Sym := l ++ [symbolParity l]

/-- Block control of block `i` of `n`: FIRST, LAST, BSEQ (R335). -/
def blockControl (i n : Nat) : List Bool := [i == 0, i + 1 == n] ++ msbBits 2 (i % 4)

/-- The 16 symbols of a block: the symbol at position p is symbol p div 2 of codeword p mod 2 (R334). -/
def blockSymbols (control : List Bool) (bytes : List Byte) : List Sym :=
  let d := symbolsOf (control ++ bytes.flatMap fun b => msbBits 8 b.toNat)
  let c0 := withParity (d.take 7)
  let c1 := withParity (d.drop 7)
  (List.range 16).map fun p => (if p % 2 = 0 then c0 else c1).getD (p / 2) (false, false)

/-- The blocks that carry some bytes, the last one padded with 0x00. -/
def blocksOf (bytes : List Byte) : List (List Sym) :=
  let n := ceilDiv bytes.length 3
  (List.range n).map fun i => blockSymbols (blockControl i n) (slice bytes (3 * i) 3)

/-! ### Receiver (R337) -/

/-- The four half-tone levels of a symbol with what each stands for. -/
def halfTones (x : SlSymbol) : List (Int × Sym) :=
  [(x.aEarly, (false, false)), (x.aLate, (false, true)), (x.bEarly, (true, false)), (x.bLate, (true, true))]

/-- The loudest of some half tones. -/
def loudest : List (Int × Sym) → Int × Sym
  | [] => (0, (false, false))
  | [x] => x
  | x :: l => if x.1 < (loudest l).1 then loudest l else x

/-- The largest half-tone energy exceeds the second largest by less than 6 dB. -/
def unclear (x : SlSymbol) : Bool :=
  let m := loudest (halfTones x)
  decide (m.1 - (loudest ((halfTones x).erase m)).1 < 600)

/-- A window is erased: too much wideband energy, or an unclear symbol in it. -/
def windowErased (b : SlBurst) (w : Nat) : Bool :=
  decide (2000 ≤ b.wide.getD w 0) || b.symbols.any fun x => x.windows.contains w && unclear x

/-- A symbol as it is read, none where a window of it is erased. -/
def readSymbol (b : SlBurst) (x : SlSymbol) : Option Sym :=
  if x.windows.any (windowErased b) then none else some (loudest (halfTones x)).2

/-- The seven data symbols of a codeword: one erased symbol is recovered from the parity, none with two. -/
def readCodeword (l : List (Option Sym)) : Option (List Sym) :=
  match (l.filter (·.isNone)).length with
  | 0 => some ((l.filterMap id).take 7)
  | 1 => some ((l.map fun x => x.getD (symbolParity (l.filterMap id))).take 7)
  | _ => none

/-- The 28 bits of a block, none where it is lost. -/
def readBlock (l : List (Option Sym)) : Option (List Bool) :=
  let half (k : Nat) : List (Option Sym) := (List.range 8).map fun j => (l.getD (2 * j + k) none)
  match readCodeword (half 0), readCodeword (half 1) with
  | some a, some b => some (bitsOf (a ++ b))
  | _, _ => none

/-- Symbols in groups of 16. -/
def groups16 : Nat → List (Option Sym) → List (List (Option Sym))
  | 0, _ => []
  | n + 1, l => if l.isEmpty then [] else l.take 16 :: groups16 n (l.drop 16)

/-- The three bytes of a block. -/
def blockData (bits : List Bool) : List Byte :=
  [4, 12, 20].map fun k => BitVec.ofNat 8 (ofMsb ((bits.drop k).take 8))

/-- The bytes of a frame's blocks, none where one is lost or the block controls are not those of one frame. -/
def readBlocks (b : SlBurst) : Option (List Byte) :=
  let blocks := (groups16 128 (b.symbols.map (readSymbol b))).map readBlock
  let got := blocks.filterMap id
  if blocks.any (·.isNone) || got.isEmpty then none
  else if (numbered (fun i x => x.take 4 == blockControl i got.length) 0 got).all id then some (got.flatMap blockData)
  else none

/-- The frame that symbols carry, without its CRC32: none where it is lost. -/
def readFrame (b : SlBurst) : Option (List Byte) :=
  match readBlocks b with
  | none => none
  | some l =>
    let n := 8 + leAt l 6 2
    if n + 4 ≤ l.length && l.length == 3 * ceilDiv (n + 4) 3 && leAt l n 4 == crc32 (l.take n) then some (l.take n) else none

end Sys2Proof.Machine
end

