-- ==== Sys2Proof/Machine/SiteLine.lean ====
section
/-! DEFINITION. The site line: beacons and superframes, frames with their acknowledgement, maps and their learning, tone
units, joining, and the time base (R324 to R351, R40). -/

namespace Sys2Proof.Machine

/-! ### Settings and who transmits (R40, R346 to R350) -/

/-- ROLE: 0 off, 1 coordinator, 2 station. -/
def slRole (s : State) : Nat := wFld s.site.word.now 30 2

/-- The medium access is run by host software: HA, unless the fallback has taken over. -/
def macHosted (s : State) : Bool := wBit s.site.word.now 17 && !(s.site.hostStop && wBit s.site.word.now 16)

/-- The own address as station. -/
def slAddr (s : State) : Nat := wFld s.site.word.now 0 6

/-- Fescue runs and the site line is in use. -/
def slRuns (s : State) : Bool := s.dies.fescue == .running && slRole s ≠ 0

/-- The module drives the line: time base valid, not stopped, not the standby, and as active under the lease (R350, R496,
R498). -/
def slDrives (s : State) : Bool :=
  s.site.tbOk && !s.site.txStop && servingRole s != .standby && !s.veh.txStopped && !s.pair.yielded

/-- Links 1 to 32, by number from 0. -/
def links : List LinkNo := indices 31

def linkEnabled (l : Link) : Bool := wBit (l.words.now.getD 0 0) 31
def mapFixed (l : Link) : Bool := wBit (l.words.now.getD 0 0) 30
def linkPhase (l : Link) : Nat := wFld (l.words.now.getD 0 0) 28 2
def ackTo (l : Link) : Nat := wFld (l.words.now.getD 0 0) 4 4
def retxMax (l : Link) : Nat := wFld (l.words.now.getD 0 0) 0 4

/-- The 16 host-written map entries, down first. -/
def wordMaps (ws : List Word) : List Byte := wordBytes ((ws.drop 1).take 4)

/-- STATION_ID of a link entry. -/
def stationId (ws : List Word) : BitVec 64 := BitVec.ofNat 64 (ofLe (wordBytes ((ws.drop 5).take 2)))

/-- The link that carries a station's own traffic has its address. -/
def ownLink (s : State) : LinkNo := Fin.ofNat 32 (slAddr s - 1)

/-- JOINED of a link changes, with its event. -/
def setJoined (l : LinkNo) (b : Bool) (s : State) : State :=
  if (s.site.link.at l).joined = b then s else raise 80 (l.val + 1) 0 [] (s.onLink l fun x => { x with joined := b })

/-- A frame of a link is discarded: counted, with event 81. -/
def discardFrame (l : LinkNo) (s : State) : State :=
  raise 81 (l.val + 1) 0 [] (s.onLink l fun x => { x with discarded := satAdd 32 x.discarded 1 })

/-! ### Frames and blocks (R334 to R336) -/

/-- A frame without its CRC32: header and payload. -/
def slFrame (dst src type seq ack flags : Nat) (payload : List Byte) : SlFrame :=
  [BitVec.ofNat 8 dst, BitVec.ofNat 8 src, BitVec.ofNat 8 type, BitVec.ofNat 8 seq, BitVec.ofNat 8 ack,
   BitVec.ofNat 8 flags] ++ leBytes 2 payload.length ++ payload

/-- Blocks of a frame with its CRC32: three bytes each. -/
def frameBlocks (f : SlFrame) : Nat := ceilDiv (f.length + 4) 3

/-- Symbols of a map entry in the seven cycles of a direction phase (R329, R331). -/
def entrySymbols (e : Byte) : Nat :=
  match e.toNat / 64 with
  | 0 => 0
  | 1 => 3
  | 2 => 7
  | _ => 14

/-- Blocks that a map carries in one direction phase. -/
def phaseBlocks (map : List Byte) : Nat := map.foldl (fun n e => n + entrySymbols e) 0 / 16

/-- The map in which this module sends on a link. -/
def sendMap (s : State) (l : Link) : List Byte := if slRole s = 2 then l.maps.drop 8 else l.maps.take 8

/-- The header's ACK, ACK_VALID and REMEAS, and a new SEQ, as the frame goes on air. -/
def stamp (l : Link) (seq : Byte) (f : SlFrame) : SlFrame :=
  let ack := l.lastSeq.getD 0
  let flags := BitVec.ofNat 8 (flag l.lastSeq.isSome 7 + flag l.remeas 6)
  f.take 3 ++ [seq, ack, flags] ++ f.drop 6

/-- A new frame on a link, its SEQ to be given. -/
def newFrame (s : State) (l : LinkNo) (type : Nat) (payload : List Byte) : SlFrame :=
  if slRole s = 2 then slFrame 0 (slAddr s) type 0 0 0 payload else slFrame (l.val + 1) 0 type 0 0 0 payload

/-- Bytes are sent on air in blocks, unless the line is not driven. -/
def onAir (bytes : List Byte) (s : State) : State :=
  if slDrives s then { s with site.sent := s.site.sent ++ [blocksOf bytes] } else s

/-- A frame goes on air with its CRC32. -/
def sendFrameOn (f : SlFrame) : State → State := onAir (f ++ leBytes 4 (crc32 f))

/-! ### Beacons (R332) -/

/-- One bit step of the CRC-16 with polynomial 0x1021. -/
def crc16Bit (c : Nat) : Nat := if c / 32768 % 2 = 1 then (2 * c % 65536) ^^^ 0x1021 else 2 * c % 65536

def crc16Byte (c : Nat) (b : Byte) : Nat :=
  let x := c ^^^ (b.toNat * 256)
  crc16Bit (crc16Bit (crc16Bit (crc16Bit (crc16Bit (crc16Bit (crc16Bit (crc16Bit x)))))))

/-- CRC-16 of a byte list, initial value 0xFFFF. -/
def crc16 (l : List Byte) : Nat := l.foldl crc16Byte 0xFFFF

/-- The six bytes of a beacon. -/
def beaconOf (s : State) : List Byte :=
  let w := s.site.word.now
  let b2 := if macHosted s then s.site.beacon2 else s.site.mapEpoch
  let b3 := if macHosted s then s.site.beacon3 else BitVec.ofNat 8 (flag (wBit w 7) 6)
  let b := [BitVec.ofNat 8 (wFld w 8 8), s.site.sfNum, b2, b3]
  b ++ leBytes 2 (crc16 b)

/-! ### Maps (R339 to R342) -/

def entryRate (e : Byte) : Nat := e.toNat / 64
def entryA (e : Byte) : Nat := e.toNat / 8 % 8
def entryB (e : Byte) : Nat := e.toNat % 8

/-- An entry holds permitted values only. -/
def entryOk (e : Byte) : Bool := if entryRate e = 0 then e == 0 else decide (entryA e < entryB e)

/-- A used entry names a tone. -/
def entryNames (e : Byte) (t : Nat) : Bool := entryRate e ≠ 0 && (entryA e == t || entryB e == t)

/-- Two links share a phase: one uses all three, or both the same. -/
def phasesMeet (a b : Nat) : Bool := a == 0 || b == 0 || a == b

/-- Channels of a link: three where it uses all phases. -/
def channelsOf (phase : Nat) : Nat := if phase = 0 then 3 else 1

/-- Phase and maps of every other enabled link, with new maps in place of those in force. -/
def otherMaps (s : State) (l : LinkNo) : List (Nat × List Byte) :=
  (links.filter fun k => k != l && linkEnabled (s.site.link.at k)).map fun k =>
    let x := s.site.link.at k
    (linkPhase x, x.newMaps.getD x.maps)

/-- Entry k of 16 belongs to the up phase in segments 0 or 4. -/
def joinEntry (k : Nat) : Bool := k == 8 || k == 12

/-- A tone is usable and free for a link's entry k. -/
def toneFree (s : State) (others : List (Nat × List Byte)) (phase k t : Nat) : Bool :=
  let w := s.site.word.now
  !s.site.unusable.getLsbD t
    && !(wBit w 7 && joinEntry k && (wFld w 21 3 == t || wFld w 18 3 == t))
    && others.all fun p => !(phasesMeet p.1 phase && entryNames (p.2.getD k 0) t)

/-- Channels that other links use in entry k. -/
def channelsUsed (others : List (Nat × List Byte)) (k : Nat) : Nat :=
  others.foldl (fun n p => n + (if entryRate (p.2.getD k 0) = 0 then 0 else channelsOf p.1)) 0

/-- An entry of a map is valid beside the other links' (R340). -/
def entryFits (s : State) (others : List (Nat × List Byte)) (phase k : Nat) (e : Byte) : Bool :=
  entryOk e && (entryRate e = 0 ||
    (toneFree s others phase k (entryA e) && toneFree s others phase k (entryB e)
      && decide (channelsUsed others k + channelsOf phase ≤ 8)))

/-- A link's 16 entries are valid beside the other links'. -/
def mapsFit (s : State) (l : LinkNo) (phase : Nat) (maps : List Byte) : Bool :=
  let others := otherMaps s l
  (numbered (fun k e => entryFits s others phase k e) 0 maps).all id

/-- The rate code of an SNR in 0.5 dB (R341). -/
def rateOf (snr : Nat) : Nat := if 36 ≤ snr then 3 else if 24 ≤ snr then 2 else if 12 ≤ snr then 1 else 0

/-- The tone with the highest SNR of a list, the lower one where two are equal. -/
def bestTone (snr : Nat → Nat) : List Nat → Option Nat
  | [] => none
  | t :: ts =>
    match bestTone snr ts with
    | some u => if snr t < snr u then some u else some t
    | none => some t

/-- An entry learnt: the two free tones with the highest SNR and the rate of the lower one. -/
def learnEntry (s : State) (others : List (Nat × List Byte)) (phase : Nat) (snr : List Byte) (k : Nat) : Byte :=
  let of (t : Nat) : Nat := byteAt snr (8 * (k % 8) + t)
  let free := (List.range 8).filter (toneFree s others phase k)
  match bestTone of free with
  | none => 0
  | some a =>
    match bestTone of (free.filter fun t => t != a) with
    | none => 0
    | some b =>
      let rate := rateOf (min (of a) (of b))
      if rate = 0 || 8 < channelsUsed others k + channelsOf phase then 0
      else BitVec.ofNat 8 (rate * 64 + min a b * 8 + max a b)

/-- The maps learnt for a link: down from the station's report, up from the own measurement. -/
def learnMaps (s : State) (l : LinkNo) : List Byte :=
  let x := s.site.link.at l
  let others := otherMaps s l
  (List.range 16).map fun k => learnEntry s others (linkPhase x) (if k < 8 then x.report else x.upSnr) k

/-- New maps for a link: a map frame goes into its queue, and the switch superframe lies four after the frame's last block. -/
def planMaps (l : LinkNo) (maps : List Byte) (s : State) : State :=
  let x := s.site.link.at l
  let epoch := s.site.mapEpoch + 1
  let per := max 1 (phaseBlocks (sendMap s x))
  let at_ := s.site.sfNum + BitVec.ofNat 8 (ceilDiv (x.left + ceilDiv 31 3) per + 4)
  let f := newFrame s l 2 ([epoch, at_, BitVec.ofNat 8 (linkPhase x)] ++ maps)
  s.onLink l fun x =>
    { x with newMaps := some maps, switchAt := at_, newEpoch := epoch, mapAcked := false, remeas := false, txq := f :: x.txq }

/-- The entries that a link is to have: written by the host with MAP_FIX, learnt without. -/
def wantedMaps (s : State) (l : LinkNo) : List Byte :=
  let x := s.site.link.at l
  if mapFixed x then wordMaps x.words.now else learnMaps s l

/-- A link's maps are recomputed, unless new ones wait for their switch. -/
def recomputeLink (l : LinkNo) (s : State) : State :=
  let x := s.site.link.at l
  if !linkEnabled x || x.newMaps.isSome then s
  else
    let m := wantedMaps s l
    if m = x.maps then s.onLink l fun x => { x with remeas := false } else planMaps l m s

/-- Noise and SNR have been measured, and the coordinator recomputes: every link each 64 superframes, a marked link at
once. -/
def mapRecompute (snr : List LinkSnr) (noise : List Byte) (s : State) : State :=
  if !slRuns s || slRole s ≠ 1 then s
  else
    let s := { s with site.noise := padTo 192 noise }
    let s := snr.foldl (fun s x => s.onLink x.link fun l => { l with upSnr := padTo 64 x.up }) s
    if macHosted s then s
    else
      let all := s.site.recompute = 0
      let s := if all then { s with site.recompute := 64 } else s
      forEach links (fun l s => if all || (s.site.link.at l).remeas then recomputeLink l s else s) s

def execMapRecompute (snr : List LinkSnr) (noise : List Byte) (s : State) : Host.Outcome State Fault Refusal :=
  done (mapRecompute snr noise s)

/-- No acknowledgement two superframes before the switch: the link keeps its old maps. -/
def mapAckMissing (l : LinkNo) (s : State) : State :=
  if slRuns s && slRole s = 1 && !(s.site.link.at l).mapAcked then s.onLink l fun x => { x with newMaps := none } else s

def execMapAckMissing (link : LinkNo) (s : State) : Host.Outcome State Fault Refusal := done (mapAckMissing link s)

/-- Cycle 2 of the switch superframe. -/
def mapSwitch (l : LinkNo) (s : State) : State :=
  let x := s.site.link.at l
  match x.newMaps with
  | none => s
  | some m =>
    if slRuns s && (x.mapAcked || slRole s = 2 || macHosted s) then
      let s := s.onLink l fun x => { x with maps := m, newMaps := none, epoch := x.newEpoch }
      { s with site.mapEpoch := x.newEpoch }
    else s

def execMapSwitch (link : LinkNo) (s : State) : Host.Outcome State Fault Refusal := done (mapSwitch link s)

/-! ### Superframes (R331, R338, R346) -/

/-- A link's settings commit at the beacon; with MAP_FIX written maps get their switch superframe. -/
def commitLinkEntry (l : LinkNo) (s : State) : State :=
  let was := (s.site.link.at l).words.pend.isSome
  let s := s.onLink l fun x => { x with words := x.words.commit }
  let x := s.site.link.at l
  if was && linkEnabled x && mapFixed x && wordMaps x.words.now ≠ x.newMaps.getD x.maps then
    planMaps l (wordMaps x.words.now) s
  else s

/-- The next frame of a link begins. -/
def beginFrame (l : LinkNo) (f : SlFrame) (rest : List SlFrame) (s : State) : State :=
  let x := s.site.link.at l
  let f := if macHosted s then f else stamp x (x.seq + 1) f
  let s := s.onLink l fun x =>
    { x with txq := rest, unacked := some f, left := frameBlocks f, waited := 0, tries := 0, ackDue := false,
             seq := if macHosted s then x.seq else x.seq + 1 }
  sendFrameOn f s

/-- An acknowledgement-only frame where nothing is queued. -/
def ackOnly (l : LinkNo) (s : State) : State :=
  let x := s.site.link.at l
  let f := stamp x (x.seq + 1) (newFrame s l 1 [])
  sendFrameOn f (s.onLink l fun x => { x with ackDue := false, seq := x.seq + 1 })

/-- A frame that is not acknowledged: to every station, or scheduled by host software. -/
def unackable (s : State) (f : SlFrame) : Bool := byteAt f 0 == 0xFF || macHosted s

/-- A link's share of a superframe: what it carries, and the superframe waited since a frame's last block. -/
def linkTurn (l : LinkNo) (s : State) : State :=
  let x := s.site.link.at l
  let per := phaseBlocks (sendMap s x)
  if !linkEnabled x || per = 0 then s
  else
    let s := match x.unacked, x.txq with
      | none, f :: rest => beginFrame l f rest s
      | none, [] => if x.ackDue && !macHosted s then ackOnly l s else s
      | some _, _ => s
    s.onLink l fun x =>
      match x.unacked with
      | none => x
      | some f =>
        if x.left = 0 then { x with waited := x.waited + 1 }
        else
          let left := x.left - per
          { x with left := left, unacked := if left = 0 && unackable s f then none else x.unacked }

/-- The site-line settings take effect (R109, R346). -/
def commitSite (s : State) : State := forEach links commitLinkEntry { s with site.word := s.site.word.commit }

/-- A superframe begins with the beacon. Settings accepted too late wait for the next (R111). -/
def superframe (late : Bool) (s : State) : State :=
  if !slRuns s then s
  else
    let s := if late then s else commitSite s
    let s := { s with site.sent := [] }
    if slRole s = 0 then s
    else
      let s := if s.site.tbOk && !(s.site.hostStop && !wBit s.site.word.now 16) && (slRole s = 1 || s.site.joined)
        then { s with site.txStop := false } else s
      let s := if slRole s = 1 then
          onAir (beaconOf { s with site.sfNum := s.site.sfNum + 1 })
            { s with site.sfNum := s.site.sfNum + 1, site.recompute := s.site.recompute - 1 }
        else s
      forEach links linkTurn s

def execSuperframeStart (late : Bool) (s : State) : Host.Outcome State Fault Refusal := done (superframe late s)

/-- A join request on the beacon pair, with the station's identifier. -/
def sendJoin (s : State) : State :=
  let ws := (s.site.link.at (ownLink s)).words.now
  sendFrameOn (slFrame 0 (slAddr s) 4 0 0 0 (leBytes 8 (stationId ws).toNat)) s

/-- A station, or the standby, receives a beacon of its coordinator. -/
def beaconReceived (b : List Byte) (s : State) : State :=
  let good := b.length = 6 && leAt b 4 2 = crc16 (b.take 4) && byteAt b 0 = wFld s.site.word.now 8 8
  if !slRuns s || !good || (slRole s = 1 && servingRole s != .standby) then s
  else
    let s := { s with site.sfNum := b.getD 1 0, site.mapEpoch := b.getD 2 0 }
    if slRole s = 2 && !s.site.joined && wBit (BitVec.ofNat 32 (byteAt b 3)) 6 then
      sendJoin { s with site.txStop := s.site.txStop && !s.site.tbOk }
    else s

def execBeaconReceived (beacon : List Byte) (s : State) : Host.Outcome State Fault Refusal := done (beaconReceived beacon s)

/-- Four beacons missed: the station stops transmitting and joins again. -/
def beaconsMissed (s : State) : State :=
  if slRuns s && slRole s = 2 then
    setJoined (ownLink s) false { s with site.joined := false, site.txStop := true }
  else s

def execBeaconsMissed (s : State) : Host.Outcome State Fault Refusal := done (beaconsMissed s)

/-- No join answer within 32 superframes and the random wait. -/
def joinRetry (s : State) : State := if slRuns s && slRole s = 2 && !s.site.joined then sendJoin s else s

def execJoinRetry (s : State) : Host.Outcome State Fault Refusal := done (joinRetry s)

/-! ### Received frames (R336, R338, R345, R348) -/

/-- The frame's header agrees with its length and a defined type. -/
def frameShape (f : SlFrame) : Bool :=
  decide (8 ≤ f.length) && leAt f 6 2 == f.length - 8 && decide (f.length ≤ 252) && decide (byteAt f 2 ≤ 5)

/-- A frame joins the receive queue of 8, with event 84; with the queue full it is discarded. -/
def deliverFrame (l : LinkNo) (f : SlFrame) (s : State) : Bool × State :=
  if (s.site.link.at l).rxq.length < 8 then
    (true, raise 84 (l.val + 1) 0 [] (s.onLink l fun x => { x with rxq := x.rxq ++ [f] }))
  else (false, discardFrame l s)

/-- The acknowledgement that a header carries: it ends the wait of the frame it names. -/
def takeAck (l : LinkNo) (f : SlFrame) (s : State) : State :=
  s.onLink l fun x =>
    let named := byteAt f 5 / 128 = 1 && x.left = 0 && (match x.unacked with
      | some u => byteAt u 3 == byteAt f 4
      | none => false)
    let isMap := match x.unacked with
      | some u => byteAt u 2 == 2
      | none => false
    let x := { x with remeas := x.remeas || byteAt f 5 / 64 % 2 = 1 }
    if named then { x with unacked := none, mapAcked := x.mapAcked || isMap } else x

/-- A map frame reaches a station. -/
def takeMap (l : LinkNo) (p : List Byte) (s : State) : State :=
  s.onLink l fun x =>
    { x with newMaps := some (slice p 3 16), switchAt := p.getD 1 0, newEpoch := p.getD 0 0, mapAcked := false }

/-- A join answer reaches a station that it names. -/
def takeJoin (p : List Byte) (s : State) : State :=
  let l := ownLink s
  if slRole s = 2 && leAt p 0 8 = (stationId (s.site.link.at l).words.now).toNat then
    setJoined l true { s.onLink l (fun x => { x with maps := slice p 9 16 }) with site.joined := true, site.txStop := !s.site.tbOk }
  else s

/-- What a new frame does by its type. False: it is not accepted. -/
def takeFrame (l : LinkNo) (f : SlFrame) (s : State) : Bool × State :=
  let p := f.drop 8
  match byteAt f 2 with
  | 0 => deliverFrame l f s
  | 1 => (true, s)
  | 2 => (true, if slRole s = 2 && p.length = 19 then takeMap l p s else s)
  | 3 => (true, if slRole s = 1 && p.length = 64 then s.onLink l (fun x => { x with report := p }) else s)
  | 5 => (true, takeJoin p s)
  | _ => (true, s)

/-- A frame is lost: discarded whole and counted, and the link's maps are marked for remeasurement (R337, R338). -/
def frameLost (l : LinkNo) (s : State) : State :=
  if !slRuns s then s
  else discardFrame l (if macHosted s then s else s.onLink l fun x => { x with remeas := true })

/-- A frame with a correct CRC32 is received on a link. -/
def frameReceived (l : LinkNo) (f : SlFrame) (s : State) : State :=
  if !slRuns s then s
  else if !frameShape f then discardFrame l s
  else if macHosted s then (deliverFrame l f s).2
  else
    let toAll := byteAt f 0 = 0xFF
    let s := setJoined l true (takeAck l f s)
    if !toAll && (s.site.link.at l).lastSeq = some (f.getD 3 0) then
      discardFrame l (s.onLink l fun x => { x with ackDue := true })
    else
      match takeFrame l f s with
      | (false, s) => s
      | (true, s) =>
        if toAll then s
        else s.onLink l fun x => { x with lastSeq := some (f.getD 3 0), ackDue := byteAt f 2 ≠ 1 || x.ackDue }

/-- The symbols of a frame arrive on a link. -/
def burstReceived (l : LinkNo) (b : SlBurst) (s : State) : State :=
  match readFrame b with
  | some f => frameReceived l f s
  | none => frameLost l s

def execSiteFrameReceived (link : LinkNo) (burst : SlBurst) (s : State) : Host.Outcome State Fault Refusal :=
  done (burstReceived link burst s)

/-- ACK_TO superframes have passed without an acknowledgement. -/
def frameRetransmit (l : LinkNo) (s : State) : State :=
  let x := s.site.link.at l
  match x.unacked with
  | none => s
  | some f =>
    if !slRuns s || macHosted s || x.left ≠ 0 || x.waited < ackTo x then s
    else if x.tries < retxMax x then
      sendFrameOn f (s.onLink l fun x =>
        { x with tries := x.tries + 1, left := frameBlocks f, waited := 0, retx := satAdd 8 x.retx 1, remeas := true })
    else setJoined l false (discardFrame l (s.onLink l fun x => { x with unacked := none, remeas := true }))

def execSiteFrameRetransmit (link : LinkNo) (s : State) : Host.Outcome State Fault Refusal := done (frameRetransmit link s)

/-! ### Joining (R344) -/

/-- The initial maps: rate 300 in segments 0 and 4 of both directions, on the first free pair of tones. -/
def initialMaps (s : State) (l : LinkNo) : List Byte :=
  let x := s.site.link.at l
  let others := otherMaps s l
  let free := (List.range 8).filter fun t => [0, 4, 8, 12].all fun k => toneFree s others (linkPhase x) k t
  match free with
  | a :: b :: _ =>
    (List.range 16).map fun k => if k % 4 = 0 then BitVec.ofNat 8 (64 + a * 8 + b) else 0
  | _ => List.replicate 16 0

/-- The enabled link entry with an identifier. -/
def linkOf (s : State) (id : BitVec 64) : Option LinkNo :=
  links.find? fun l => linkEnabled (s.site.link.at l) && stationId (s.site.link.at l).words.now == id

/-- A join request reaches the coordinator; with host-run medium access it is delivered as a frame. -/
def joinRequest (id : BitVec 64) (s : State) : State :=
  if !slRuns s || slRole s ≠ 1 then s
  else match linkOf s id with
    | none => { s with site.joinIgnored := satAdd 32 s.site.joinIgnored 1 }
    | some l =>
      if macHosted s then (deliverFrame l (slFrame 0 (l.val + 1) 4 0 0 0 (leBytes 8 id.toNat)) s).2
      else if !wBit s.site.word.now 7 then s
      else
        let m := initialMaps s l
        let f := slFrame 0xFF 0 5 0 0 0 (leBytes 8 id.toNat ++ [BitVec.ofNat 8 (l.val + 1)] ++ m)
        sendFrameOn f (s.onLink l fun x =>
          { x with maps := m, newMaps := none, epoch := s.site.mapEpoch, lastSeq := none, unacked := none, left := 0 })

def execJoinRequest (stationId : BitVec 64) (s : State) : Host.Outcome State Fault Refusal := done (joinRequest stationId s)

/-! ### Tone units (R326) -/

/-- A free spare unit. -/
def freeUnit (s : State) : Option ToneUnitNo :=
  (indices 9).find? fun u => (s.site.unit.at u).tone.isNone && !(s.site.unit.at u).failed

/-- A unit's loopback test ends. -/
def toneTest (u : ToneUnitNo) (pass : Bool) (s : State) : State :=
  let x := s.site.unit.at u
  if !slRuns s || pass || x.failed then s
  else
    let s := { s with site.unit := s.site.unit.put u { failed := true, tone := none } }
    match x.tone with
    | none => s
    | some t =>
      let s := match freeUnit s with
        | some k => { s with site.unit := s.site.unit.put k { failed := false, tone := some t } }
        | none =>
          let bit : Byte := BitVec.ofNat 8 (2 ^ t.val)
          let s := { s with site.unusable := s.site.unusable ||| bit }
          forEach links (fun l s =>
            if (s.site.link.at l).maps.any (entryNames · t.val) then s.onLink l fun x => { x with remeas := true } else s) s
      raise 82 t.val 0 [] s

def execToneLoopbackTest (unit : ToneUnitNo) (pass : Bool) (s : State) : Host.Outcome State Fault Refusal :=
  done (toneTest unit pass s)

/-! ### Time base and host silence (R40, R349) -/

/-- ZC_OUTLET has no boundary for 100 ms, or runs on synthetic ones. -/
def timeBaseLost (s : State) : State :=
  if !slRuns s || holds s 83 moduleIndex then s
  else raise 83 moduleIndex 0 [] { s with site.tbOk := false, site.txStop := true }

def execTimeBaseLost (s : State) : Host.Outcome State Fault Refusal := done (timeBaseLost s)

/-- Sixteen consecutive counted boundaries; transmission resumes at the next beacon. -/
def timeBaseResumed (s : State) : State :=
  if !slRuns s then s
  else
    let s := { s with site.tbOk := true }
    if holds s 83 moduleIndex then raiseEnd 83 moduleIndex [] s else s

def execTimeBaseResumed (s : State) : Host.Outcome State Fault Refusal := done (timeBaseResumed s)

/-- 5 s without host traffic in host-assisted mode: transmission stops; with FALLBACK the module runs the medium access from
the next beacon on. -/
def hostSilence (s : State) : State :=
  if slRuns s && wBit s.site.word.now 17 then { s with site.hostStop := true, site.txStop := true } else s

def execSiteLineHostSilence (s : State) : Host.Outcome State Fault Refusal := done (hostSilence s)

/-- Host traffic ends the silence. -/
def hostSpoke (s : State) : State := { s with site.hostStop := false }

end Sys2Proof.Machine
end

