-- ==== Sys2Proof/Machine/CmdSite.lean ====
section
/-! DEFINITION. The site-line commands 0x0700 to 0x0705 (R336, R340, R343 to R348, R425). -/

namespace Sys2Proof.Machine

/-- A site-line command: host traffic, which ends the silence of R40, and what it does. -/
def onSite (f : List Byte → State → Reply × State) : Body :=
  onFescue fun p s => f p (hostSpoke s)

/-- The link of an INDEX from 1 to 32. -/
def linkAt (index : Nat) : LinkNo := Fin.ofNat 32 (index - 1)

/-- The link status word, whose RETX the read clears (R347). -/
def siteRead (index : Nat) (s : State) : Reply × State :=
  if index = 0xFFFF then (okWith (leBytes 4 (siteStatus s).toNat), s)
  else
    let l := linkAt index
    (okWith (leBytes 4 (linkStatus (s.site.link.at l)).toNat), s.onLink l fun x => { x with retx := 0 })

def siteLineStatus (c : Cmd) : State → State := runCmd 0x0700 c <| onSite fun _ s => siteRead c.index.toNat s

def execSiteLineStatus (cmd : Cmd) (s : State) : Host.Outcome State Fault Refusal := done (siteLineStatus cmd s)

/-- The module site-line word holds permitted values (R346). -/
def siteWordOk (s : State) (w : Word) : Bool :=
  let role := wFld w 30 2
  let t := acceptedType s (Fin.ofNat 64 (wFld w 24 6))
  let addr := wFld w 0 6
  role ≠ 3 && (role = 0 || t = 1 || t = 2) && wFld w 21 3 < wFld w 18 3 && wFld w 8 8 ≠ 0 && !wBit w 6
    && (if role = 1 then addr = 0 else if role = 2 then within 1 32 addr else addr ≤ 32)

def siteLineConfiguration (c : Cmd) : State → State :=
  runCmd 0x0701 c <| onSite fun p s =>
    let w := BitVec.ofNat 32 (leAt p 0 4)
    checked 0x0701 c [(0, siteWordOk s w)] (fun s => (pendingReply, { s with site.word := s.site.word.write w })) s

def execSiteLineConfiguration (cmd : Cmd) (s : State) : Host.Outcome State Fault Refusal :=
  done (siteLineConfiguration cmd s)

/-! ### Link entries (R340, R343) -/

/-- The words enable a link with host-written maps. -/
def fixedOn (ws : List Word) : Bool := wBit (ws.getD 0 0) 31 && wBit (ws.getD 0 0) 30

/-- Phase and maps of the other links, as they will be once the accepted entries have committed. -/
def comingMaps (s : State) (l : LinkNo) : List (Nat × List Byte) :=
  (links.filter fun k => k != l && wBit ((s.site.link.at k).words.written.getD 0 0) 31).map fun k =>
    let x := s.site.link.at k
    let ws := x.words.written
    (wFld (ws.getD 0 0) 28 2, if fixedOn ws then wordMaps ws else x.newMaps.getD x.maps)

/-- Checks of a link entry: word 0, then each map entry (R339, R340, R343). -/
def linkChecks (s : State) (l : LinkNo) (ws : List Word) : List (Nat × Bool) :=
  let w := ws.getD 0 0
  let others := comingMaps s l
  let ok (k : Nat) (e : Byte) : Bool := if fixedOn ws then entryFits s others (wFld w 28 2) k e else entryOk e
  (0, wFld w 8 20 = 0 && wFld w 4 4 ≠ 0) :: numbered (fun k e => (1 + k / 4, ok k e)) 0 (wordMaps ws)

def linkEntry (c : Cmd) : State → State :=
  runCmd 0x0702 c <| onSite fun p s =>
    let l := linkAt c.index.toNat
    let ws := wordsOf 7 p
    checked 0x0702 c (linkChecks s l ws)
      (fun s => (pendingReply, s.onLink l fun x => { x with words := x.words.write ws })) s

def execLinkEntry (cmd : Cmd) (s : State) : Host.Outcome State Fault Refusal := done (linkEntry cmd s)

/-! ### Frames (R336, R345, R348) -/

/-- The frame of a 0x0703: with HA its first six bytes are the host's. -/
def frameToSend (s : State) (index type : Nat) (payload : List Byte) : SlFrame :=
  if wBit s.site.word.now 17 then payload.take 6 ++ leBytes 2 (payload.length - 6) ++ payload.drop 6
  else if index = 0xFF then slFrame 0xFF 0 type 0 0 0 payload
  else newFrame s (linkAt index) type payload

/-- The links whose send queues take a frame. -/
def sendTargets (s : State) (index : Nat) : List LinkNo :=
  if index = 0xFF then links.filter fun l => linkEnabled (s.site.link.at l) else [linkAt index]

/-- A frame joins the queues of its links. -/
def queueFrame (f : SlFrame) (l : LinkNo) (s : State) : State := s.onLink l fun x => { x with txq := x.txq ++ [f] }

/-- The longest send queue of some links. -/
def longestQueue (s : State) (ls : List LinkNo) : Nat := (ls.map fun l => (s.site.link.at l).txq.length).foldl max 0

def sendSiteFrame (c : Cmd) (p : List Byte) (s : State) : Reply × State :=
  let index := c.index.toNat
  let payload := p.drop 4
  checked 0x0703 c
    [(0, byteAt p 0 ≤ 5 && reserved3 p), (1, !wBit s.site.word.now 17 || decide (6 ≤ payload.length))]
    (fun s =>
      let ls := sendTargets s index
      if index = 0xFF && slRole s = 2 then (reply .badIndex 0, s)
      else if 8 ≤ longestQueue s ls then (reply .busy 320, s)
      else
        let s := forEach ls (queueFrame (frameToSend s index (byteAt p 0) payload)) s
        (okWith [BitVec.ofNat 8 (longestQueue s ls), 0, 0, 0], s)) s

def sendFrame (c : Cmd) : State → State := runCmd 0x0703 c <| onSite (sendSiteFrame c)

def execSendFrame (cmd : Cmd) (s : State) : Host.Outcome State Fault Refusal := done (sendFrame cmd s)

/-- The link that 0x0704 reads: the named one, or the lowest-numbered one with a frame. -/
def receiveFrom (s : State) (index : Nat) : Option LinkNo :=
  if index = 0xFFFF then links.find? fun l => !(s.site.link.at l).rxq.isEmpty else some (linkAt index)

/-- The oldest frame of a receive queue is handed over. -/
def takeReceived (index : Nat) (s : State) : Reply × State :=
  match receiveFrom s index with
  | none => (okBulk [0, 0, 0, 0], s)
  | some l =>
    match (s.site.link.at l).rxq with
    | [] => (okBulk [BitVec.ofNat 8 (l.val + 1), 0, 0, 0], s)
    | f :: rest =>
      (okBulk ([BitVec.ofNat 8 (l.val + 1), BitVec.ofNat 8 rest.length, 0, 0] ++ f),
       s.onLink l fun x => { x with rxq := rest })

/-- A buffer below 256 bytes is no valid descriptor of 0x0704. -/
def receiveFrame (c : Cmd) : State → State :=
  runCmd 0x0704 c <| onSite fun _ s =>
    if outLength 0x0704 c < 256 then (reply .badDescriptor 0, s) else takeReceived c.index.toNat s

def execReceiveFrame (cmd : Cmd) (s : State) : Host.Outcome State Fault Refusal := done (receiveFrame cmd s)

/-- Bytes 0x2 and 0x3 of the beacon, in host-assisted mode (R348). -/
def beaconBytes (c : Cmd) : State → State :=
  runCmd 0x0705 c <| onSite fun p s =>
    checked 0x0705 c [(0, leAt p 2 2 == 0)]
      (fun s => if wBit s.site.word.now 17 then
          (okReply, { s with site.beacon2 := p.getD 0 0, site.beacon3 := p.getD 1 0 })
        else (refusedReply 1, s)) s

def execBeaconBytes (cmd : Cmd) (s : State) : Host.Outcome State Fault Refusal := done (beaconBytes cmd s)

end Sys2Proof.Machine
end

