-- ==== Sys2Proof/Machine/Forward.lean ====
section
/-! DEFINITION. The commands that the active module forwards, run in the standby by their opcode (R405, R415, R485). -/

namespace Sys2Proof.Machine

/-- A command as the standby runs it: with no response. -/
def asForwarded (c : Cmd) : Cmd := if c.fwd.isSome then c else { c with fwd := some [] }

/-- System, metering and legal commands that change state. -/
def runForwarded1 (op : Nat) (c : Cmd) (s : State) : State :=
  match op with
  | 0x0102 => enterCommissioning c s
  | 0x0103 => leaveCommissioningCmd c s
  | 0x0104 => dieReset c [] s
  | 0x0105 => networkSettings c s
  | 0x0106 => mailboxKeySlots c s
  | 0x0107 => setQspiAuthority c s
  | 0x0210 => outletRoleAssignment c s
  | 0x0211 => userCalibration c s
  | 0x0212 => meteringMode c s
  | 0x0303 => acknowledgeLegalLog c s
  | 0x0306 => confirmExport c s
  | 0x0310 => tariffParameters c s
  | 0x0311 => loadPassiveCalendar c s
  | 0x0312 => setLegalTime c s
  | 0x0313 => demandInterval c s
  | 0x0314 => confirmTariffSwitch c s
  | 0x0315 => displaySelection c s
  | _ => s

/-- Vehicle, safety and load switch commands that change state. -/
def runForwarded2 (op : Nat) (c : Cmd) (s : State) : State :=
  match op with
  | 0x0410 => vehicleLinkConfiguration c s
  | 0x0411 => loadLimit c s
  | 0x0412 => sessionMode c s
  | 0x0420 => policyAnswer c s
  | 0x0421 => certificateAnswer c s
  | 0x0422 => endSession c s
  | 0x0501 => setEnable c s
  | 0x0502 => clearEnable c s
  | 0x0503 => openRequest c s
  | 0x0504 => lockoutRelease c s
  | 0x0505 => brakeCommand c s
  | 0x0506 => classERequest c s
  | 0x0510 => writeLimitedSetting c s
  | 0x0601 => channelConfiguration c s
  | 0x0602 => channelControl c s
  | 0x0603 => channelRule c s
  | 0x0604 => hostFlags c s
  | 0x0605 => aggregateMaximum c s
  | _ => s

/-- Site line, contactless, key, pair, update and diagnostics commands that change state. The standby has no card selected. -/
def runForwarded3 (op : Nat) (c : Cmd) (s : State) : State :=
  match op with
  | 0x0701 => siteLineConfiguration c s
  | 0x0702 => linkEntry c s
  | 0x0703 => sendFrame c s
  | 0x0705 => beaconBytes c s
  | 0x0801 => contactlessConfiguration c s
  | 0x0802 => loadAllowlist c s
  | 0x0804 => cardExchange c none s
  | 0x0805 => tagMemory c s
  | 0x0901 => writeKey c s
  | 0x0902 => loadShadow c s
  | 0x0903 => testShadow c true s
  | 0x0904 => commitShadow c true s
  | 0x0905 => lifecycleMove c s
  | 0x0A03 => plannedHandover c s
  | 0x0A04 => clearSuspectCmd c s
  | 0x0B00 => openStaging c s
  | 0x0B01 => imageBody c s
  | 0x0B02 => imageCommit c s
  | 0x0B03 => stagingAbort c s
  | 0x0C02 => eventRouting c s
  | 0x0C04 => clearPending c s
  | _ => s

/-- A forwarded command runs. -/
def runForwarded (op : Nat) (c : Cmd) (s : State) : State :=
  let c := asForwarded c
  if op < 0x0400 then runForwarded1 op c s else if op < 0x0700 then runForwarded2 op c s else runForwarded3 op c s

end Sys2Proof.Machine
end

