-- ==== Sys2Proof/Machine/Pair.lean ====
section
/-! DEFINITION. The Hasulin link, epochs and forwarding, digests, state transfers, and the lease with its takeovers (R481 to
R502, R507). -/

namespace Sys2Proof.Machine

/-- This module serves in a pair: its control die runs, a peer is bound, and the role is active or standby. -/
def paired (s : State) : Bool :=
  controlRuns s && s.pair.peer ≠ 0 && (servingRole s == .active || servingRole s == .standby)

def isActive (s : State) : Bool := servingRole s == .active

def isStandby (s : State) : Bool := servingRole s == .standby

/-! ### Roles exchanged (R66, R500, R502, R503) -/

/-- A service role takes the place of the one in force, or of the one that Commissioning and Recovery return to. -/
def setRole (r : Role) (s : State) : State :=
  if s.modes.base = .service then { s with modes.role := r } else { s with modes.prior := r }

/-- The staging session that the peer led is aborted (R529). -/
def abortForeign (s : State) : State :=
  match s.upd.staging with
  | some g => if peerBit ≤ g.handle.toNat then abortStaging s else s
  | none => s

/-- The standby becomes the active module: own values from here on, Handover ends (R490, R500). -/
def becomeActive (s : State) : State :=
  let s := flushWaiting s
  let s := setRole .active { s with modes.handover := false, veh.txStopped := false,
                                    pair := { s.pair with carry := Tab.all 64 false, yielded := false, peerYielded := false,
                                                          early := [], timedOut := [] } }
  settle (refreshDrives (raise 112 moduleIndex 0 [] (abandonPolls (abortForeign s))))

/-- What answers a planned handover when the roles have been exchanged (R502). -/
def answerHandover (s : State) : State :=
  match s.pair.handoverCmd with
  | some c => answer 0x0A03 c okReply { s with pair.handoverCmd := none, pair.handoverAt := none }
  | none => s

/-- The former active module becomes standby. -/
def becomeStandby (s : State) : State :=
  let s := setRole .standby { s with modes.handover := false, upd.peerStaging := none,
                                     pair := { s.pair with yielded := false, handoverAt := none } }
  settle (refreshDrives (raise 112 moduleIndex 0 [] (abandonPolls (answerHandover s))))

/-- The standby takes the lease: Handover holds until the roles are exchanged. -/
def takeLease (s : State) : State :=
  settle (refreshDrives (raise 112 moduleIndex 0 []
    { s with modes.handover := true, rus.lease := s.rus.lease || s.dies.russet == .running, pair.peerYielded := false }))

/-! ### Link (R481 to R483, R495, R507) -/

/-- A lane comes up or goes down: CAUSE 1 or 0. -/
def setLane (l : LaneHas) (up : Bool) (s : State) : State :=
  if s.pair.lane.at l == up then s
  else raise 113 l.val (if up then 1 else 0) [] { s with pair.lane := s.pair.lane.put l up }

/-- The yield flag reaches the standby. -/
def noteYield (s : State) : State := if isStandby s then { s with pair.peerYielded := true } else s

/-- An active module sees that its peer acts under the lease: it yields, and after a yield the roles are exchanged. -/
def seesLease (s : State) : State :=
  if !isActive s then s
  else if s.pair.yielded then becomeStandby s
  else refreshDrives { s with pair.yielded := true, pair.sent := s.pair.sent ++ [.yield] }

/-- An active module sees its peer drive pilots on after a carry-over without the lease: it yields (R507). -/
def seesCarry (s : State) : State := if isActive s && !s.pair.yielded then seesLease s else s

/-- A heartbeat of the peer. A peer that is treated as absent is not seen. -/
def heartbeat (b : Heartbeat) (s : State) : State :=
  if !controlRuns s || s.pair.peer = 0 || s.pair.peerAbsent then s
  else
    let s := setLane b.lane true s
    let s := { s with pair := { s.pair with peerSeen := true, peerMode := b.mode,
                                            epoch := if isStandby s && !s.modes.handover then b.epoch else s.pair.epoch,
                                            leaseFlagAt := if b.lease then s.och.clock.mono else s.pair.leaseFlagAt } }
    let s := if b.yield then noteYield s else s
    if b.lease then seesLease s else if b.drives then seesCarry s else s

def execPairHeartbeat (beat : Heartbeat) (s : State) : Host.Outcome State Fault Refusal := done (heartbeat beat s)

def execLaneDown (lane : LaneHas) (s : State) : Host.Outcome State Fault Refusal :=
  done (if controlRuns s then setLane lane false s else s)

/-- A transfer that cannot be completed is abandoned. -/
def abandonTransfer (s : State) : State := if resyncing s then { s with pair.transfer := 4 } else s

/-- Both lanes are down: the link is lost, and each module goes on by itself (R482, R497). -/
def linkLost (s : State) : State :=
  if !controlRuns s || !s.pair.peerSeen then s
  else
    let s := setLane 1 false (setLane 0 false s)
    abandonTransfer (raise 116 moduleIndex 0 [] { s with pair := { s.pair with peerSeen := false, keyed := false } })

def execPeerHeartbeatLoss (s : State) : Host.Outcome State Fault Refusal := done (linkLost s)

/-- A total as bytes are not needed: the values of a table as numbers. -/
def totalsOf {n k : Nat} (t : Tab (BitVec k) n) : List Nat := t.toList.map (·.toNat)

/-- The open record of an outlet for the peer. -/
def recordCopy (x : OpenSlot) : Option LegalRecord :=
  match x with
  | .opened r _ =>
    some { sid := r.sid, auth := r.auth, type := r.type, start := r.tStart, impStart := r.impStart, expStart := r.expStart,
           flags := r.flags }
  | _ => none

/-- The legal state of an outlet for the peer (R490). -/
def legalOutlet (s : State) (o : OutletNo) : LegalOutlet :=
  let a := (s.och.meter.at o).acc
  { totals := totalsOf a.totals, tarImp := totalsOf a.tarImp, tarExp := totalsOf a.tarExp, dcVeh := a.dcVeh.toNat,
    sessImp := a.sessImp.toNat, sessExp := a.sessExp.toNat, sessTar := totalsOf a.sessTar, sessVeh := a.sessVeh.toNat,
    maxima := (a.mdImp.toList ++ a.mdExp.toList).map (fun m => (m.value, m.time)),
    record := recordCopy (s.och.recs.slots.at o) }

def legalCopy (s : State) : LegalCopy := { outlets := outlets.map (legalOutlet s), recNo := s.och.recs.recNo }

/-- The identity of the peer is pinned, or is the one pinned (R483). -/
def pinHolds (s : State) (point : BitVec 256) : Bool :=
  match s.pair.pin with
  | some p => p == point
  | none => true

/-- The serials of modules A and B, the context of the link's keys (R467). -/
def pairContext (s : State) : List Byte :=
  if positionCode s = 1 then leBytes 8 Config.serial.toNat ++ leBytes 8 s.pair.peer.toNat
  else leBytes 8 s.pair.peer.toNat ++ leBytes 8 Config.serial.toNat

/-- The link is keyed with the pair identity key: the standby resynchronises fully, and the active module sends what it needs (R483, R488, R490, R497). -/
def linkKeyed (point : BitVec 256) (legalId : Word) (signing : BitVec 8) (headers : List (List Byte)) (s : State) : State :=
  let s := derive .pairLink (pairContext s) s
  let s := { s with pair := { s.pair with pin := some point, peerAbsent := false, keyed := true, peerHeaders := headers,
                                          peerSigning := signing,
                                          diverged := legalId ≠ Config.legalFw, sealedSeq := 0 } }
  let s := if s.pair.diverged then raise 116 moduleIndex 2 [] s else s
  if isStandby s then startTransfer s
  else if isActive s then
    { startTransfer s with pair.sent := s.pair.sent ++ [.legal (legalCopy s), .transfer true] }
  else s

/-- Frame keys are agreed at a link start, where a root is in force; a peer whose identity does not match the pin is treated as absent. -/
def linkKey (point : BitVec 256) (legalId : Word) (signing : BitVec 8) (headers : List (List Byte)) (s : State) : State :=
  if !controlRuns s || s.pair.peer = 0 || (rootInForce s).isNone then s
  else if pinHolds s point then linkKeyed point legalId signing headers s
  else raise 116 moduleIndex 1 [] { s with pair := { s.pair with peerAbsent := true, peerSeen := false, keyed := false } }

def execLinkKeyAgreement (peerPoint : BitVec 256) (legalId : BitVec 32) (signing : BitVec 8) (headers : List (List Byte))
    (s : State) : Host.Outcome State Fault Refusal := done (linkKey peerPoint legalId signing headers s)

/-- A discarded epoch frame has been resent. -/
def execEpochFrameResend (seq : Nat) (s : State) : Host.Outcome State Fault Refusal :=
  done (if controlRuns s then { s with pair.resendSeq := s.pair.resendSeq.filter (· ≠ seq) } else s)

/-! ### Forwarding (R485, R494) -/

/-- The standby takes a forwarded command, acknowledges it and keeps it for its epoch. -/
def takeForwarded (f : Forwarded) (s : State) : State :=
  if !paired s || !isStandby s then s
  else
    { s with pair := { s.pair with forwarded := s.pair.forwarded ++ [{ op := f.op, cmd := asForwarded f.cmd, epoch := f.epoch }],
                                   sent := s.pair.sent ++ [.ack f.op f.epoch] } }

def execForwardedCommand (fwd : Forwarded) (s : State) : Host.Outcome State Fault Refusal := done (takeForwarded fwd s)

/-- The commands whose epoch has come run, in the order in which they came; while a transfer runs they are kept for the
replay. -/
def runDue (s : State) : State :=
  let due := s.pair.forwarded.filter fun f => f.epoch ≤ s.pair.epoch
  due.foldl (fun s f => runForwarded f.op.toNat f.cmd s)
    { s with pair := { s.pair with forwarded := s.pair.forwarded.filter (fun f => s.pair.epoch < f.epoch),
                                   replay := if resyncing s then s.pair.replay ++ due else [] } }

/-- A command that a transfer's snapshot lacks runs again after it. What Ochre, Russet and the lifecycle hold is not
transferred, and their commands are not replayed. -/
def replayed (f : Pending) : Bool :=
  let n := f.op.toNat
  !(within 0x0200 0x03FF n || within 0x0500 0x05FF n || n = 0x0905)

def replay (s : State) : State :=
  (s.pair.replay.filter replayed).foldl (fun s f => runForwarded f.op.toNat f.cmd s) { s with pair.replay := [] }

/-- A session of a transfer takes the place of the shadow. -/
def takeSession (x : SessionCopy) (s : State) : State :=
  s.onSession x.outlet fun n =>
    { n with phase := x.phase.val, proto := x.proto, sid := x.sid, auth := x.auth, agreed := x.agreed, granted := x.granted,
             accepted := x.accepted, contract := x.contract, bpt := x.bpt, chained := x.chained, dynamic := x.dynamic,
             tls := x.tls }

/-- A key with EXPORT set. -/
def takeKey (x : KeyCopy) (s : State) : State :=
  s.onSlot x.slot fun y => { y with key := { w0 := x.w0, w1 := x.w1, ktype := x.ktype, bytes := x.bytes },
                                    uses := wFld x.w1 0 25, bad := false }

/-- A load switch channel's state. -/
def takeChannel (x : ChannelCopy) (s : State) : State :=
  s.onChan x.chan fun c => { c with demand := x.demand, retryCnt := x.retries.val,
                                    prot := if x.latched then .latched else if c.prot = .latched then .none else c.prot }

/-- What a transfer carries takes effect; it never carries keys with EXPORT 0, the vault, legal state or Russet's state. -/
def takeTransfer (t : TransferContent) (s : State) : State :=
  let s := t.sessions.foldl (fun s x => takeSession x s) s
  let s := (t.keys.filter fun k => wBit k.w0 23).foldl (fun s x => takeKey x s) s
  let s := t.settings.foldl (fun s f => runForwarded f.op.toNat f.cmd s) s
  t.channels.foldl (fun s x => takeChannel x s) s

/-- A held planned handover is carried out once the resynchronisation has ended (R507). -/
def resumeHandover (s : State) : State :=
  match s.pair.handoverCmd, s.pair.handoverAt with
  | some c, none =>
    { s with pair.handoverAt := some (s.pair.epoch + 2),
             pair.sent := s.pair.sent ++ [.forward 0x0A03 (asForwarded c) (s.pair.epoch + 2)] }
  | _, _ => s

/-- A state transfer ends: received by the standby, sent by the active module. -/
def transferEnds (full : Bool) (t : TransferContent) (s : State) : State :=
  if !paired s then s
  else
    let s := if isStandby s then replay (takeTransfer t s) else s
    let s := { s with pair.transfer := if full then 2 else 3, pair.outOfStep := false }
    settle (refreshDrives (resumeHandover s))

def execStateTransferComplete (full : Bool) (content : TransferContent) (s : State) :
    Host.Outcome State Fault Refusal := done (transferEnds full content s)

/-! ### Digests (R492, R493) -/

/-- A value of a digest for a Boolean. -/
def bit (b : Bool) : Nat := flag b 0

/-- The last response computed, as numbers. -/
def answerCode (a : Option V2gAnswer) : List Nat :=
  match a with
  | none => [0]
  | some .ok => [1]
  | some .ongoing => [2]
  | some .failed => [3]
  | some .tlsAlert => [4]
  | some (.proto p) => [5, match p with
    | .din => 0
    | .iso2 => 1
    | .iso20 => 2]
  | some (.services a b c d e) => [6, bit a, bit b, bit c, bit d, bit e]
  | some (.limit n) => [7, n]
  | some (.schedules n m) => [8, n, m]
  | some (.voltage v) => [9, twos 32 v]
  | some (.meter i e n) => [10, i.toNat, e.toNat, n]
  | some (.body b) => 11 :: b.map (·.toNat)
  | some (.dynamic n) => [12, n]

/-- Group 0: the sessions. -/
def sessionState (s : State) : List Nat :=
  s.veh.session.toList.flatMap fun n => [n.phase, n.proto.toNat, n.agreed, bit n.granted, bit n.accepted, match n.tls with
    | none => 0
    | some .ecdhAes128Cbc => 1
    | some .ecdheAes128Cbc => 2
    | some .aes128Gcm => 3
    | some .aes256Gcm => 4
    | some .other => 5,
    bit n.dynamic] ++ answerCode n.answer

/-- Group 1: the legal state. -/
def legalState (s : State) : List Nat :=
  (outlets.flatMap fun o =>
    let a := (s.och.meter.at o).acc
    [(a.totals.at 0).toNat, (a.totals.at 1).toNat] ++ totalsOf a.tarImp ++ totalsOf a.tarExp
      ++ [((s.och.recs.slots.at o).sid?.getD 0).toNat, labelOf s o .cur])
    ++ [s.och.clock.us / 1000, calId s.och.tariffs.active]

/-- Group 2: the outputs. -/
def outputState (s : State) : List Nat :=
  (outlets.flatMap fun o =>
    let g := s.rus.outlet.at o
    [bit g.enable, bit (s.rus.pair.at (coilOf o)).cmd, bit g.fault.classP, bit g.fault.classE, bit g.ce.expired])
    ++ s.rus.brake.toList.map (fun b => brakeCode b.state) ++ s.spe.chan.toList.map (fun c => bit c.demand)

def words (l : List Word) : List Nat := l.map (·.toNat)

/-- Settings of Ochre and of the display. -/
def ochreSettings (s : State) : List Nat :=
  let t := s.och.set
  words (t.role.groups.toList ++ t.role.outlets.toList) ++ [t.role.clock.toNat]
    ++ t.user.toList.flatMap (fun u => words [u.fs, u.gain, u.off, u.phase]) ++ words t.meter.toList
    ++ words [t.module, t.tariff0, t.tariff1] ++ s.och.ha.toList.map bit
    ++ (s.och.tariffs.active ++ s.och.tariffs.passive).map (·.toNat) ++ [s.och.tariffs.len]
    ++ words s.och.display.cfg ++ s.och.display.map.map (·.toNat)

/-- Settings of the vehicle link, the readers and the site line. -/
def fescueSettings (s : State) : List Nat :=
  s.veh.pilot.toList.flatMap (fun p => words [p.word0.written, p.word1.written]) ++ words [s.veh.module.written]
    ++ s.veh.keyMap.toList.map (·.toNat) ++ s.veh.ha.toList.map bit ++ words [s.site.word.written]
    ++ s.site.link.toList.flatMap (fun l => words l.words.written) ++ s.rdr.aerial.toList.map (fun a => a.word.toNat)
    ++ words (s.rdr.port.toList ++ s.rdr.auth.toList)
    ++ s.rdr.allow.flatMap (fun a => [a.ref.toNat, a.validTo.toNat, bit a.blocked])

/-- Settings of Russet and Spelt. -/
def outputSettings (s : State) : List Nat :=
  s.rus.outlet.toList.flatMap (fun g => words (g.residual.acCurve.written ++ g.residual.dcCurve.written
      ++ [g.dcProt.written, g.coilCfg.written]))
    ++ words (s.rus.estopCfg.written ++ [s.rus.outCfg.written]) ++ s.rus.fast.toList.map (fun w => w.written.toNat)
    ++ s.rus.brake.toList.flatMap (fun b => words b.cfg.written)
    ++ s.spe.chan.toList.flatMap (fun c => words [c.cfg0.written, c.cfg1.written, c.rule.written]
      ++ [bit c.ha, bit c.fallback, bit c.on]) ++ [s.spe.aggMax.written.toNat, s.spe.flags.toNat]

/-- Settings that Millet holds: event routing and keys. -/
def milletSettings (s : State) : List Nat :=
  s.evt.src.toList.flatMap (fun x => [bit x.mask, x.route.toNat])
    ++ s.keys.slot.toList.flatMap (fun x => [x.key.w0.toNat, x.key.w1.toNat, x.key.ktype.toNat])

/-- The digest of a module (R492). -/
def digestOf (s : State) : Digest :=
  { session := Config.digest 0 (sessionState s), legal := Config.digest 1 (legalState s),
    output := Config.digest 2 (outputState s),
    settings := Config.digest 3 (ochreSettings s ++ fescueSettings s ++ outputSettings s ++ milletSettings s) }

/-- The groups in which two digests differ, as bits. -/
def differs (a b : Digest) : Nat :=
  flag (a.session != b.session) 0 + flag (a.legal != b.legal) 1 + flag (a.output != b.output) 2
    + flag (a.settings != b.settings) 3

/-- The standby opens every pair that the active module has off: which ones these are is the active module's, a free value. -/
def openExtra (s : State) : State :=
  let (n, s) := takeFree s
  forEach outlets (fun o s => if (s.rus.pair.at (coilOf o)).cmd && !n.testBit o.val then openPair o s else s) s

/-- A mismatch at the standby: counted, reported, and each group resynchronised. -/
def standbyMismatch (bits : Nat) (s : State) : State :=
  let s := mismatch bits s
  let s := if bits.testBit 2 then openExtra s else s
  if bits.testBit 0 || bits.testBit 3 then startTransfer s else s

/-- A mismatch as the active module counts it: it stays authoritative, and sends the transfer, or for the legal group its
sealed entries of the last 60 s, which correct what the standby accumulated with own values (R490). -/
def activeMismatch (bits : Nat) (s : State) : State :=
  let l := (s.och.clock.mono / 1000) :: recentMismatches s
  let s := { s with pair.mismatches := l, pair.lastMismatch := legalUnits s, pair.suspect := s.pair.suspect || decide (3 ≤ l.length) }
  let s := if bits.testBit 1 then { s with pair.sent := s.pair.sent ++ [.sealed s.pair.sealedKept] } else s
  if bits.testBit 0 || bits.testBit 3 then
    { startTransfer s with pair.sent := s.pair.sent ++ [.transfer false] }
  else s

/-- The digest of the epoch that ends, beside those of the last epochs. -/
def keepDigest (s : State) : State :=
  { s with pair.digests := ((s.pair.epoch, digestOf s) :: s.pair.digests).take 4 }

/-- The own digest of an epoch; one that is no longer held agrees with any. -/
def ownDigest (s : State) (epoch : Nat) (d : Digest) : Digest := ((s.pair.digests.find? fun x => x.1 == epoch).map (·.2)).getD d

/-- The digests of an epoch are compared. In the epoch of a takeover the resynchronisation is dropped (R507). -/
def compareDigests (peer : Option (Nat × Digest)) (s : State) : State :=
  match peer with
  | none => s
  | some (n, d) =>
    let bits := differs (ownDigest s n d) d
    if bits = 0 || s.modes.handover then s
    else if isStandby s then standbyMismatch bits s else activeMismatch bits s

/-! ### Epochs (R484, R485, R489, R495, R502) -/

/-- The number of the epoch that begins. -/
def nextEpoch (s : State) : Nat := if isActive s then s.och.clock.us / 1000 else s.pair.epoch + 1

/-- The sealed frame of the epoch that has ended; entries are kept for 60 s. -/
def sendSealed (s : State) : State :=
  let new := s.pair.sealedNew
  let kept := (s.pair.sealedKept ++ new).filter fun x => s.och.clock.us - x.start ≤ 60000000
  { s with pair := { s.pair with sent := if new.isEmpty then [] else [.sealed new], sealedNew := [], sealedKept := kept } }

/-- The lease is renewed while Millet confirms each epoch (R36, R495). What waited for it goes on (R496). -/
def renewLease (s : State) : State :=
  if roleNow s.modes == .active && !s.pair.yielded && s.dies.russet == .running then
    forEach outlets useHeld { s with rus.lease := true, veh.txStopped := false }
  else s

/-- A forwarding that was not acknowledged marks the standby out of step (R485). -/
def checkAck (acked : Bool) (s : State) : State :=
  if isActive s && !acked && s.pair.peerSeen && s.pair.keyed && !s.pair.outOfStep then
    { startTransfer s with pair.outOfStep := true, pair.sent := s.pair.sent ++ [.transfer true] }
  else s

/-- At the epoch of a planned handover the active module sets Handover and yields. -/
def handoverDue (s : State) : State :=
  match s.pair.handoverAt with
  | some n =>
    if isActive s && n ≤ s.pair.epoch && !s.pair.yielded then
      refreshDrives (raise 112 moduleIndex 0 []
        { s with modes.handover := true, pair.yielded := true, pair.sent := s.pair.sent ++ [.yield] })
    else s
  | none => s

/-- An epoch begins. -/
def epochStart (peer : Option (Nat × Digest)) (acked : Bool) (s : State) : State :=
  if !paired s then s
  else
    let s := keepDigest s
    let s := sendSealed { s with pair.epoch := nextEpoch s }
    let s := if takesOver s then becomeActive s else s
    let s := checkAck acked (renewLease (runDue s))
    let s := compareDigests peer (handoverDue s)
    settle (refreshDrives s)

def execEpochStart (peerDigest : Option (Nat × Digest)) (acked : Bool) (s : State) : Host.Outcome State Fault Refusal :=
  done (epochStart peerDigest acked s)

/-! ### Sealed frames (R488 to R491) -/

/-- Every energy register of the peer is at or above its own, and its REC_NO too. -/
def atOrAbove (own peer : List Nat) : Bool := (List.zip own peer).all fun p => p.1 ≤ p.2

def copyAbove (s : State) (c : LegalCopy) : Bool :=
  s.och.recs.recNo.toNat ≤ c.recNo.toNat && (List.zip outlets c.outlets).all fun p =>
    let a := (s.och.meter.at p.1).acc
    atOrAbove (totalsOf a.totals ++ totalsOf a.tarImp ++ totalsOf a.tarExp ++ [a.dcVeh.toNat])
      (p.2.totals ++ p.2.tarImp ++ p.2.tarExp ++ [p.2.dcVeh])

/-- A table of totals from numbers. -/
def tabOf (l : List Nat) : Tab (BitVec 96) 8 := (Tab.all 8 0).mapN fun k _ => BitVec.ofNat 96 (l.getD k 0)

/-- A table of maxima from eight entries of a list. -/
def maximaOf (l : List (Word × Word)) : Tab MaxDemand 8 :=
  (Tab.all 8 ()).mapN fun k _ => { value := (l.getD k (0, 0)).1, time := (l.getD k (0, 0)).2 }

/-- The registers of an outlet as the peer has them. -/
def Accum.adopt (x : LegalOutlet) (a : Accum) : Accum :=
  { a with totals := tabOf x.totals, tarImp := tabOf x.tarImp, tarExp := tabOf x.tarExp, dcVeh := BitVec.ofNat 96 x.dcVeh,
           sessImp := BitVec.ofNat 96 x.sessImp, sessExp := BitVec.ofNat 96 x.sessExp, sessTar := tabOf x.sessTar,
           sessVeh := BitVec.ofNat 96 x.sessVeh, mdImp := maximaOf x.maxima, mdExp := maximaOf (x.maxima.drop 8) }

/-- The open record of an outlet as the peer has it. -/
def adoptRecord (s : State) (o : OutletNo) (r : LegalRecord) : OpenSlot :=
  .opened
    { openRecord s o r.sid r.auth with
      type := r.type, tStart := r.start, impStart := r.impStart, expStart := r.expStart, flags := r.flags }
    (s.och.clock.mono - (s.och.clock.us - r.start * 64))

/-- Registers and open record of one outlet are adopted. -/
def adoptOutlet (o : OutletNo) (x : LegalOutlet) (s : State) : State :=
  let s := s.onMeter o fun m => { m with acc := m.acc.adopt x }
  match x.record with
  | some r => { s with och.recs.slots := s.och.recs.slots.put o (adoptRecord s o r) }
  | none =>
    match s.och.recs.slots.at o with
    | .opened _ _ => { s with och.recs.slots := s.och.recs.slots.put o .empty }
    | _ => s

/-- The peer's whole legal state is adopted, or the module stays suspect and adopts nothing (R490). -/
def adoptLegal (c : LegalCopy) (s : State) : State :=
  if copyAbove s c then
    let s := (List.zip outlets c.outlets).foldl (fun s p => adoptOutlet p.1 p.2 s) s
    { s with och.recs.recNo := c.recNo, pair := { s.pair with waiting := [], timedOut := [], early := [] } }
  else if s.pair.suspect then s
  else raise 115 moduleIndex 0 [] { s with pair.suspect := true }

/-- A sealed frame that is not taken: discarded, counted, reported. -/
def refuseSealed (s : State) : State :=
  raise 26 moduleIndex 0 [] { s with pair.sealedRefused := satAdd 32 s.pair.sealedRefused 1 }

/-- What a sealed frame brings: adoption in the standby, the standby's flags in the active module. -/
def takeSealed (f : SealedFrame) (s : State) : State :=
  let s := { s with pair.sealedSeq := f.seq }
  if isStandby s then
    let s := match f.adopt with
      | some c => adoptLegal c s
      | none => s
    f.entries.foldl (fun s x => takeEntry x s) s
  else f.entries.foldl (fun s x => takeFlags x s) s

/-- A sealed frame reaches Ochre: authentic, and later than the last one. -/
def sealedFrame (f : SealedFrame) (s : State) : State :=
  if s.dies.ochre != .running || !(isActive s || isStandby s) then s
  else if f.authentic && s.pair.sealedSeq < f.seq then takeSealed f s else refuseSealed s

def execSealedFrame (frame : SealedFrame) (s : State) : Host.Outcome State Fault Refusal := done (sealedFrame frame s)

/-- No entry within 4 epochs: the outlet's oldest waiting cycle enters with own values, and may be corrected for 60 s. -/
def sealedTimeout (o : OutletNo) (s : State) : State :=
  match s.pair.waiting.find? fun w => w.outlet == o with
  | none => s
  | some w =>
    let keep := (s.pair.timedOut ++ [w]).filter fun x => s.och.clock.us - x.legal ≤ 60000000
    enterOwn w { s with pair.waiting := s.pair.waiting.erase w, pair.timedOut := keep }

def execSealedEntryTimeout (outlet : OutletNo) (s : State) : Host.Outcome State Fault Refusal :=
  done (if s.dies.ochre = .running then sealedTimeout outlet s else s)

/-- The content signed with the slot that it names, where it is the standby's own content (R491). -/
def signContent (o : OutletNo) (content : List Byte) (r : SessionRecord) (s : State) : State :=
  let k : Nat := byteAt content 2
  let named := { r with slot := k }
  if recordContent named = content then storeRecord o { named with sig := Config.sign k content } s
  else storeRecord o (signRecord s r) (legalMismatch o s)

/-- A record's content from the active Ochre. -/
def recordArrives (o : OutletNo) (content : List Byte) (s : State) : State :=
  if s.dies.ochre != .running || !isStandby s then s
  else match s.och.recs.slots.at o with
    | .stopped r _ _ => signContent o content (finished s o r) s
    | _ => legalMismatch o s

def execSessionRecordContent (outlet : OutletNo) (content : List Byte) (s : State) :
    Host.Outcome State Fault Refusal := done (recordArrives outlet content s)

/-! ### Lease and takeover (R495, R497, R499 to R501) -/

def execLeaseYield (s : State) : Host.Outcome State Fault Refusal := done (if controlRuns s then noteYield s else s)

/-- 0.5 ms after the yield, a standby whose own supplies are in range takes the lease. -/
def leaseTaken (s : State) : State :=
  if paired s && isStandby s && s.pair.peerYielded && !s.sup.pfw then takeLease s else s

def execLeaseTake (s : State) : Host.Outcome State Fault Refusal := done (leaseTaken s)

/-- Sessions whose shadow is out of step go on as for a silent session core (R507). -/
def dropOutOfStep (s : State) : State :=
  if resyncing s then forEach outlets (fun o s => if onCore s o then holdSession o s else s) { s with pair.transfer := 4 } else s

/-- On every line with a vehicle in state B, C or D the drive of the active module has been lost (R497, R499). -/
def linesLost (s : State) : Bool :=
  outlets.all fun o =>
    let st := (s.veh.pilot.at o).state
    s.pair.carry.at o || !(st == .B || st == .C || st == .D)

/-- No lease flag for 4 ms and a further 0.5 ms. -/
def leaseSilent (s : State) : Bool := decide (s.pair.leaseFlagAt + 4500 ≤ s.och.clock.mono)

/-- The active module is gone: no lease flag, no heartbeat, no drive on the lines (R497). -/
def takeover (s : State) : State :=
  if paired s && isStandby s && !s.pair.peerSeen && !s.modes.handover && linesLost s && leaseSilent s then
    takeLease (dropOutOfStep s)
  else s

def execStandbyTakeover (s : State) : Host.Outcome State Fault Refusal := done (takeover s)

/-- The standby drives an undriven line on with the waveform that it had (R499). -/
def carryOver (o : OutletNo) (s : State) : State :=
  if !isStandby s || s.pair.peerSeen || s.dies.fescue != .running then s
  else
    let s := { s with pair.carry := s.pair.carry.put o true }
    s.onPilot o fun p => { p with drive := (target s o).1, duty := (target s o).2, next := none }

def execPilotCarryOver (outlet : OutletNo) (s : State) : Host.Outcome State Fault Refusal := done (carryOver outlet s)

end Sys2Proof.Machine
end

