-- ==== Sys2Proof/Machine/Thermal.lean ====
section
/-! DEFINITION. Temperatures, stages, sensors, periodic jobs and the hourly rewrite of the tag (R53, R372, R530 to R539). -/

namespace Sys2Proof.Machine

/-! ### Readings (R530 to R532) -/

/-- A temperature in °C in units of 0.0625 K. -/
def degrees (c : Int) : Int := 16 * c

/-- The highest of the other die sensors plus 10 K, which replaces a failed one. -/
def substitute (s : State) (k : SensorNo) : Int :=
  let others := ((indices 6).filter fun j => j != k && j != 6 && !(s.thm.sensor.at j).failed).map fun j => (s.thm.sensor.at j).raw
  match others with
  | [] => (s.thm.sensor.at k).raw
  | r :: rs => rs.foldl max r + degrees 10

/-- The reading of a die sensor in every use (R532). -/
def dieReading (s : State) (k : SensorNo) : Int :=
  if (s.thm.sensor.at k).failed then substitute s k else (s.thm.sensor.at k).raw

/-- Tj_ctl of R533. -/
def tjCtl (s : State) : Int := dieReading s 0

/-- Sensor 6, the Spelt substrate. -/
def substrateNo : SensorNo := 6

/-- A reading outside −70 °C to +200 °C. -/
def outOfScale (raw : Int) : Bool := decide (raw < degrees (-70)) || decide (degrees 200 < raw)

/-- A reading differs by more than 40 K from the mean of the other five die sensors. DEDUCED for the substrate sensor, which is
no die sensor: all six are its others. -/
def deviates (s : State) (k : SensorNo) : Bool :=
  let others := ((indices 6).filter fun j => j != k && j != substrateNo).map fun j => (s.thm.sensor.at j).raw
  decide (degrees 40 * others.length < ((s.thm.sensor.at k).raw * others.length - others.foldl (· + ·) 0).natAbs)

/-- A sensor fails; without the substrate sensor, Tc is taken as 125 °C. -/
def sensorFails (k : SensorNo) (s : State) : State :=
  if (s.thm.sensor.at k).failed then s
  else
    let s := { s with thm.sensor := s.thm.sensor.upd k fun x => { x with failed := true } }
    let s := if k = substrateNo then { s with thm.tc := degrees 125 } else s
    raise 120 k.val 0 [] s

/-- A sensor is read: one that reads outside its scale has failed. -/
def setSensor (k : SensorNo) (raw : Int) (s : State) : State :=
  let s := { s with thm.sensor := s.thm.sensor.upd k fun x => { x with raw := raw } }
  if outOfScale raw then sensorFails k s else s

/-! ### Stages (R533) -/

/-- Tc and Tj_ctl entries of stages 1 to 5, °C. -/
def stageEntry (k : Nat) : Int × Int :=
  match k with
  | 0 => (95, 110)
  | 1 => (100, 115)
  | 2 => (105, 120)
  | 3 => (108, 125)
  | _ => (112, 130)

/-- A stage after a reading: entered at either entry, and ended when both readings lie 3 K below. -/
def stageAfter (k : Nat) (held : Bool) (tc tj : Int) : Bool :=
  let e := stageEntry k
  decide (degrees e.1 ≤ tc) || decide (degrees e.2 ≤ tj)
    || (held && !(decide (tc ≤ degrees (e.1 - 3)) && decide (tj ≤ degrees (e.2 - 3))))

/-- A job that a stage suspends: a running instance completes (R533, R538, R545). -/
def suspendJob (on : Bool) (j : Job) : Job :=
  { j with suspended := on, debt := if on && !j.running then 0 else j.debt }

/-- The scheduler steps down one step at a time as a clock stage is entered. -/
def stepDown (s : State) : State :=
  if s.clocks.scStep.toNat < (wantedStep s.thm).toNat && s.thm.stepTarget.toNat ≤ s.clocks.scStep.toNat then
    { s with thm.stepTarget := s.clocks.scStep + 1 }
  else s

/-- The stages follow the readings in force, with their work given up and their event. -/
def updateStages (s : State) : State :=
  let before := stageNow s.thm
  let tc := s.thm.tc
  let tj := tjCtl s
  let stage := s.thm.stage.mapN fun k b => stageAfter k b tc tj
  let s := { s with thm := { s.thm with stage := stage, stage6 := decide (degrees 115 ≤ tc) } }
  let s := stepDown (s.onJob 2 (suspendJob (s.thm.stage.at 1)))
  if stageNow s.thm = before then s else raise 119 moduleIndex 0 [BitVec.ofNat 8 (stageNow s.thm)] s

/-- A second of main power since the module left Blank (R543). -/
def powerSecond (t : Thermal) : Thermal :=
  if t.seconds + 1 = 3600 then { t with seconds := 0, powerH := satAdd 32 t.powerH 1 } else { t with seconds := t.seconds + 1 }

/-- Wear figures that a second moves: times in the stages, highest Tc, hours. -/
def wearSecond (s : State) : State :=
  if s.keys.lifecycle = .blank then s
  else
    let n := stageNow s.thm
    let t := { s.thm with stageTime := s.thm.stageTime.mapN fun k w => if k < n then satAdd 32 w 1 else w,
                          tcMax := max s.thm.tcMax s.thm.tc }
    { s with thm := powerSecond t }

/-- The readings of the dies, in the order of 0x0C08. -/
def takeDies : List SensorNo → List Int → State → State
  | k :: ks, r :: rs, s => takeDies ks rs (setSensor k r s)
  | _, _, s => s

/-- The mean of a second's readings. DESIGN CHOICE: rounded down to 0.0625 K, since the rule gives no rounding. -/
def meanReading (l : List Int) : Int := l.foldl (· + ·) 0 / l.length

/-- The scheduler's second: `substrate` are the substrate sensor's readings of the last 1 s (R530, R531). -/
def thermalSecond (substrate : List Int) (dies : List Int) (s : State) : State :=
  if !controlRuns s then s
  else
    let s := takeDies [0, 1, 2, 3, 4, 5] dies (setSensor substrateNo (substrate.getLastD 0) s)
    let tc := if (s.thm.sensor.at substrateNo).failed then degrees 125 else meanReading substrate
    let s := { s with thm := { s.thm with tc := tc, overRange := decide (degrees 125 < tc) } }
    wearSecond (updateStages s)

def execThermalSecond (substrate : List Int) (dies : List Int) (s : State) : Host.Outcome State Fault Refusal :=
  done (thermalSecond substrate dies s)

/-- A reading of the control die crosses an entry: stage and step-down follow at once. -/
def tjReading (reading : Int) (s : State) : State :=
  if controlRuns s then updateStages (setSensor 0 reading s) else s

def execTjCtlReading (reading : Int) (s : State) : Host.Outcome State Fault Refusal := done (tjReading reading s)

/-- A clock stage has been out of force for 10 s: one step up. -/
def stepUp (s : State) : State :=
  if controlRuns s && (wantedStep s.thm).toNat < s.clocks.scStep.toNat then
    { s with thm.stepTarget := s.clocks.scStep - 1 }
  else s

def execClockStepUp (s : State) : Host.Outcome State Fault Refusal := done (stepUp s)

/-! ### Sensors, image store, over-range (R532, R535, R536) -/

/-- 10 s of a deviation without interruption. -/
def sensorDeviates (k : SensorNo) (s : State) : State := if controlRuns s && deviates s k then sensorFails k s else s

def execSensorFailure (sensor : SensorNo) (s : State) : Host.Outcome State Fault Refusal := done (sensorDeviates sensor s)

/-- A sensor that has read within both limits for 60 s is in use again. -/
def sensorRecovers (k : SensorNo) (s : State) : State :=
  if !controlRuns s || !(s.thm.sensor.at k).failed || outOfScale (s.thm.sensor.at k).raw || deviates s k then s
  else raiseEnd 120 k.val [] { s with thm.sensor := s.thm.sensor.upd k fun x => { x with failed := false } }

def execSensorRecovery (sensor : SensorNo) (s : State) : Host.Outcome State Fault Refusal := done (sensorRecovers sensor s)

/-- The image store's reading restricts from 115 °C on, until it has fallen to 110 °C. -/
def storeReading (reading : Int) (s : State) : State :=
  if !controlRuns s then s
  else
    let s := setSensor 5 reading s
    let r := dieReading s 5
    { s with thm.nandHot := if degrees 115 ≤ r then true else if r ≤ degrees 110 then false else s.thm.nandHot }

def execImageStoreHot (reading : Int) (s : State) : Host.Outcome State Fault Refusal := done (storeReading reading s)

def overRangeReport (s : State) : State :=
  if controlRuns s && s.thm.overRange then raise 121 moduleIndex 0 [] s else s

def execOverRangeReport (s : State) : Host.Outcome State Fault Refusal := done (overRangeReport s)

/-! ### Periodic jobs (R537 to R539) -/

/-- Period of a job, ms. -/
def jobPeriod (j : JobNo) : Nat :=
  match j.val with
  | 1 | 2 => 200
  | 4 => 600000
  | _ => 1000

/-- Every outlet's harmonic windows are collected. -/
def collectWindows (s : State) : State :=
  { s with och.analysis := s.och.analysis.each fun a => { a with latest := collect a.latest, previous := collect a.previous } }

/-- Harmonic collection takes every second window in stage 3 (R533). -/
def harmonicJob (s : State) : State :=
  let skip := s.thm.stage.at 2 && (s.thm.job.at 1).skipNext
  let s := s.onJob 1 fun j => { j with skipNext := s.thm.stage.at 2 && !j.skipNext }
  if skip then s else collectWindows s

/-- The work of an instance that this state shows: windows collected, the fault log flushed. -/
def jobWork (j : JobNo) (s : State) : State :=
  match j.val with
  | 1 => harmonicJob s
  | 3 => flushFaults s
  | _ => s

/-- An instance is released on its time: the debt falls by a quarter of the period. One that still runs is finished first
(R538). -/
def jobRelease (j : JobNo) (s : State) : State :=
  if !controlRuns s || (s.thm.job.at j).suspended || (s.thm.job.at j).running then s
  else jobWork j (s.onJob j fun x => { x with running := true, debt := x.debt - min (jobPeriod j / 4) x.debt })

def execPeriodicJobRelease (job : JobNo) (s : State) : Host.Outcome State Fault Refusal := done (jobRelease job s)

/-- A late instance counted: the releases that passed merge into the next one. -/
def Job.endLate (period total : Nat) (j : Job) : Job :=
  let d := total % period
  { j with debt := d, maxDebt := if j.maxDebt.toNat < d then BitVec.ofNat 32 d else j.maxDebt, late := satAdd 32 j.late 1,
           merged := satAdd 32 j.merged (total / period - 1) }

/-- An instance ends `ranMs` after its release. A late one releases the next at once, unless the job is suspended. -/
def jobEnd (j : JobNo) (ranMs : Nat) (s : State) : State :=
  let x := s.thm.job.at j
  if !controlRuns s || !x.running then s
  else
    let p := jobPeriod j
    let total := x.debt + ranMs
    if x.suspended then s.onJob j fun x => { x with running := false, debt := 0 }
    else if total < p then s.onJob j fun x => { x with running := false }
    else
      let s := s.onJob j (Job.endLate p total)
      let s := if p ≤ 2 * (total % p) then raise 122 j.val 0 [] s else s
      jobWork j s

def execPeriodicJobEnd (job : JobNo) (ranMs : Nat) (s : State) : Host.Outcome State Fault Refusal :=
  done (jobEnd job ranMs s)

/-! ### VBAT and the tag (R53, R372) -/

/-- VBAT falls below its minimum without main power: Teal stops, and its clock, ring and counters are lost. -/
def vbatLost (s : State) : State :=
  if s.sup.mainOk then s
  else
    { s with sup.vbatOk := false,
             teal := { s.teal with ring := [], openings := Tab.all 4 0, tseq := 0, uncopied := 0, lost := true } }

def execVbatBelowMinimum (s : State) : Host.Outcome State Fault Refusal := done (vbatLost s)

def execModuleStateAreaRewrite (s : State) : Host.Outcome State Fault Refusal :=
  done (if controlRuns s then writeStateArea s else s)

end Sys2Proof.Machine
end

