-- ==== Sys2Proof/Machine/Dispatch.lean ====
section
/-! DEFINITION. Which meaning each command has: one arm per row of the opcode table. -/

namespace Sys2Proof.Machine

/-- The effect of a command on everything but the queue. -/
def exec (i : Instr) (s : State) : Host.Outcome State Fault Refusal :=
  match i with
  | .mainSuppliesInRange pfwLow absenceMs pfwAt romCrc => Sys2Proof.Machine.execMainSuppliesInRange pfwLow absenceMs pfwAt romCrc s
  | .mainSupplyOutOfRange => Sys2Proof.Machine.execMainSupplyOutOfRange s
  | .tealPowerOn => Sys2Proof.Machine.execTealPowerOn s
  | .pfwAssert us tails saved => Sys2Proof.Machine.execPfwAssert us tails saved s
  | .pfwOutputOpen => Sys2Proof.Machine.execPfwOutputOpen s
  | .pfwDeassert durationUs => Sys2Proof.Machine.execPfwDeassert durationUs s
  | .hostrstPulse widthNs => Sys2Proof.Machine.execHostrstPulse widthNs s
  | .ochreStreamRestart gap => Sys2Proof.Machine.execOchreStreamRestart gap s
  | .russetRestartComplete => Sys2Proof.Machine.execRussetRestartComplete s
  | .speltReady => Sys2Proof.Machine.execSpeltReady s
  | .lockstepMismatch => Sys2Proof.Machine.execLockstepMismatch s
  | .russetWatchdogExpiry => Sys2Proof.Machine.execRussetWatchdogExpiry s
  | .ochreWatchdogExpiry tails => Sys2Proof.Machine.execOchreWatchdogExpiry tails s
  | .speltHeartbeat => Sys2Proof.Machine.execSpeltHeartbeat s
  | .speltWatchdogExpiry => Sys2Proof.Machine.execSpeltWatchdogExpiry s
  | .fescueHeartbeat => Sys2Proof.Machine.execFescueHeartbeat s
  | .fescueHeartbeatMissing => Sys2Proof.Machine.execFescueHeartbeatMissing s
  | .fescueHeartbeatLoss => Sys2Proof.Machine.execFescueHeartbeatLoss s
  | .milletHeartbeat => Sys2Proof.Machine.execMilletHeartbeat s
  | .milletHeartbeatLoss => Sys2Proof.Machine.execMilletHeartbeatLoss s
  | .heldSessionsConfirmed => Sys2Proof.Machine.execHeldSessionsConfirmed s
  | .controlWatchdogExpiry => Sys2Proof.Machine.execControlWatchdogExpiry s
  | .controlStartLimitExpiry => Sys2Proof.Machine.execControlStartLimitExpiry s
  | .measuredStartComplete checks peer => Sys2Proof.Machine.execMeasuredStartComplete checks peer s
  | .peerSilentAtStart => Sys2Proof.Machine.execPeerSilentAtStart s
  | .commissioningTimeout => Sys2Proof.Machine.execCommissioningTimeout s
  | .referenceLoss => Sys2Proof.Machine.execReferenceLoss s
  | .fallbackCorrection => Sys2Proof.Machine.execFallbackCorrection s
  | .xrefReturn => Sys2Proof.Machine.execXrefReturn s
  | .xrefSlewComplete => Sys2Proof.Machine.execXrefSlewComplete s
  | .clockStepChange => Sys2Proof.Machine.execClockStepChange s
  | .quantityFrame frame => Sys2Proof.Machine.execQuantityFrame frame s
  | .quantityStreamTimeout => Sys2Proof.Machine.execQuantityStreamTimeout s
  | .quantityStreamFresh staleUnits => Sys2Proof.Machine.execQuantityStreamFresh staleUnits s
  | .streamStaleLockout => Sys2Proof.Machine.execStreamStaleLockout s
  | .streamClassEEnd => Sys2Proof.Machine.execStreamClassEEnd s
  | .closeRequest outlet openSameCycle => Sys2Proof.Machine.execCloseRequest outlet openSameCycle s
  | .coilPairSwitchOn outlet => Sys2Proof.Machine.execCoilPairSwitchOn outlet s
  | .coilHighSideOn outlet => Sys2Proof.Machine.execCoilHighSideOn outlet s
  | .coilTurnOnCheck outlet rb => Sys2Proof.Machine.execCoilTurnOnCheck outlet rb s
  | .fescueOpenRequest outlet => Sys2Proof.Machine.execFescueOpenRequest outlet s
  | .leaseTimerExpiry => Sys2Proof.Machine.execLeaseTimerExpiry s
  | .pendingModeApply outlet => Sys2Proof.Machine.execPendingModeApply outlet s
  | .sessionStart outlet sid auth => Sys2Proof.Machine.execSessionStart outlet sid auth s
  | .sessionStop outlet sid => Sys2Proof.Machine.execSessionStop outlet sid s
  | .sessionStopResend outlet => Sys2Proof.Machine.execSessionStopResend outlet s
  | .whitelistTimeout cmd opcode => Sys2Proof.Machine.execWhitelistTimeout cmd opcode s
  | .groupClockInvalid group => Sys2Proof.Machine.execGroupClockInvalid group s
  | .manchesterLockAcquired input => Sys2Proof.Machine.execManchesterLockAcquired input s
  | .manchesterLockLost input => Sys2Proof.Machine.execManchesterLockLost input s
  | .stuckInputDetect input => Sys2Proof.Machine.execStuckInputDetect input s
  | .inputValidAgain input => Sys2Proof.Machine.execInputValidAgain input s
  | .inputInvalidTimeout outlet => Sys2Proof.Machine.execInputInvalidTimeout outlet s
  | .laneSelfTest lane pass => Sys2Proof.Machine.execLaneSelfTest lane pass s
  | .laneComparisonEnd input pairs => Sys2Proof.Machine.execLaneComparisonEnd input pairs s
  | .meteringBoundary outlet cycle => Sys2Proof.Machine.execMeteringBoundary outlet cycle s
  | .syntheticBoundaryStart outlet => Sys2Proof.Machine.execSyntheticBoundaryStart outlet s
  | .dcPeriodEnd outlet period => Sys2Proof.Machine.execDcPeriodEnd outlet period s
  | .saveBoundary opens late => Sys2Proof.Machine.execSaveBoundary opens late s
  | .legalSecond => Sys2Proof.Machine.execLegalSecond s
  | .harmonicWindowEnd outlet window => Sys2Proof.Machine.execHarmonicWindowEnd outlet window s
  | .supraharmonicStep results => Sys2Proof.Machine.execSupraharmonicStep results s
  | .rawBlockComplete outlet block => Sys2Proof.Machine.execRawBlockComplete outlet block s
  | .legalTick quietTicks => Sys2Proof.Machine.execLegalTick quietTicks s
  | .demandIntervalFinal outlet => Sys2Proof.Machine.execDemandIntervalFinal outlet s
  | .tariffSwitchAnnounce => Sys2Proof.Machine.execTariffSwitchAnnounce s
  | .tamperChange input opened => Sys2Proof.Machine.execTamperChange input opened s
  | .tamperRecordCopy => Sys2Proof.Machine.execTamperRecordCopy s
  | .sessionRecordSign outlet => Sys2Proof.Machine.execSessionRecordSign outlet s
  | .waitingRecordMove => Sys2Proof.Machine.execWaitingRecordMove s
  | .displayFrameEnd late => Sys2Proof.Machine.execDisplayFrameEnd late s
  | .bistableUpdateStart => Sys2Proof.Machine.execBistableUpdateStart s
  | .bistableUpdateCommit late => Sys2Proof.Machine.execBistableUpdateCommit late s
  | .identityDisplayTimeout => Sys2Proof.Machine.execIdentityDisplayTimeout s
  | .pilotBoundary outlet samples late => Sys2Proof.Machine.execPilotBoundary outlet samples late s
  | .filteredStateChange outlet cls => Sys2Proof.Machine.execFilteredStateChange outlet cls s
  | .proxCodeChange outlet reads => Sys2Proof.Machine.execProxCodeChange outlet reads s
  | .offerWithdrawalTimeout outlet => Sys2Proof.Machine.execOfferWithdrawalTimeout outlet s
  | .slacMessage outlet msg => Sys2Proof.Machine.execSlacMessage outlet msg s
  | .slacSoundingEnd run => Sys2Proof.Machine.execSlacSoundingEnd run s
  | .slacMatch outlet run nmk => Sys2Proof.Machine.execSlacMatch outlet run nmk s
  | .slacTimeout outlet => Sys2Proof.Machine.execSlacTimeout outlet s
  | .dcSlacRestart outlet => Sys2Proof.Machine.execDcSlacRestart outlet s
  | .v2gSupportedAppProtocol outlet ranking => Sys2Proof.Machine.execV2gSupportedAppProtocol outlet ranking s
  | .v2gSessionSetup outlet => Sys2Proof.Machine.execV2gSessionSetup outlet s
  | .v2gServiceDiscovery outlet => Sys2Proof.Machine.execV2gServiceDiscovery outlet s
  | .v2gServiceDetail outlet service => Sys2Proof.Machine.execV2gServiceDetail outlet service s
  | .v2gServiceSelection outlet service contract => Sys2Proof.Machine.execV2gServiceSelection outlet service contract s
  | .v2gPaymentDetails outlet contractId chainOk => Sys2Proof.Machine.execV2gPaymentDetails outlet contractId chainOk s
  | .v2gAuthorizationSetup outlet => Sys2Proof.Machine.execV2gAuthorizationSetup outlet s
  | .v2gAuthorization outlet sigOk chainOk contractId => Sys2Proof.Machine.execV2gAuthorization outlet sigOk chainOk contractId s
  | .v2gChargeParameterDiscovery outlet maxCurrent => Sys2Proof.Machine.execV2gChargeParameterDiscovery outlet maxCurrent s
  | .v2gScheduleExchange outlet dynamic => Sys2Proof.Machine.execV2gScheduleExchange outlet dynamic s
  | .v2gCableCheck outlet => Sys2Proof.Machine.execV2gCableCheck outlet s
  | .v2gPreCharge outlet => Sys2Proof.Machine.execV2gPreCharge outlet s
  | .v2gPowerDelivery outlet kind => Sys2Proof.Machine.execV2gPowerDelivery outlet kind s
  | .v2gCurrentDemand outlet current => Sys2Proof.Machine.execV2gCurrentDemand outlet current s
  | .v2gChargingStatus outlet => Sys2Proof.Machine.execV2gChargingStatus outlet s
  | .v2gAcChargeLoop outlet current => Sys2Proof.Machine.execV2gAcChargeLoop outlet current s
  | .v2gDcChargeLoop outlet current => Sys2Proof.Machine.execV2gDcChargeLoop outlet current s
  | .v2gMeteringReceipt outlet => Sys2Proof.Machine.execV2gMeteringReceipt outlet s
  | .v2gWeldingDetection outlet => Sys2Proof.Machine.execV2gWeldingDetection outlet s
  | .v2gCertificateInstallation outlet checkOk => Sys2Proof.Machine.execV2gCertificateInstallation outlet checkOk s
  | .v2gCertificateUpdate outlet checkOk => Sys2Proof.Machine.execV2gCertificateUpdate outlet checkOk s
  | .v2gSessionStop outlet pause => Sys2Proof.Machine.execV2gSessionStop outlet pause s
  | .v2gUnsupportedMessage outlet => Sys2Proof.Machine.execV2gUnsupportedMessage outlet s
  | .tlsHandshake outlet offer => Sys2Proof.Machine.execTlsHandshake outlet offer s
  | .sequenceTimeout outlet => Sys2Proof.Machine.execSequenceTimeout outlet s
  | .certificateAnswerTimeout outlet => Sys2Proof.Machine.execCertificateAnswerTimeout outlet s
  | .policyTimeout outlet kind => Sys2Proof.Machine.execPolicyTimeout outlet kind s
  | .sessionCoreSilent core => Sys2Proof.Machine.execSessionCoreSilent core s
  | .dcHoldExpiry outlet => Sys2Proof.Machine.execDcHoldExpiry outlet s
  | .fastPathOverRange input bits => Sys2Proof.Machine.execFastPathOverRange input bits s
  | .rcdHoldExpiry outlet dc point => Sys2Proof.Machine.execRcdHoldExpiry outlet dc point s
  | .injectorFailure outlet => Sys2Proof.Machine.execInjectorFailure outlet s
  | .weldCheck outlet frames => Sys2Proof.Machine.execWeldCheck outlet frames s
  | .peLossDc outlet => Sys2Proof.Machine.execPeLossDc outlet s
  | .redundantCurrentDisagreement outlet => Sys2Proof.Machine.execRedundantCurrentDisagreement outlet s
  | .redundantDisagreementEnd outlet => Sys2Proof.Machine.execRedundantDisagreementEnd outlet s
  | .estopLevelAccepted channel inputB stop samples => Sys2Proof.Machine.execEstopLevelAccepted channel inputB stop samples s
  | .estopDiscrepancy channel => Sys2Proof.Machine.execEstopDiscrepancy channel s
  | .tripRelay outlet cause classP => Sys2Proof.Machine.execTripRelay outlet cause classP s
  | .switchOverCurrent pair => Sys2Proof.Machine.execSwitchOverCurrent pair s
  | .readbackDeparture pair rb us => Sys2Proof.Machine.execReadbackDeparture pair rb us s
  | .pulseTestStart pair => Sys2Proof.Machine.execPulseTestStart pair s
  | .offPulseCheck pair rb others => Sys2Proof.Machine.execOffPulseCheck pair rb others s
  | .offPulseEnd pair => Sys2Proof.Machine.execOffPulseEnd pair s
  | .offPulseRestoreCheck pair rb => Sys2Proof.Machine.execOffPulseRestoreCheck pair rb s
  | .onPulseCheck pair rb others => Sys2Proof.Machine.execOnPulseCheck pair rb others s
  | .onPulseEnd pair => Sys2Proof.Machine.execOnPulseEnd pair s
  | .mirrorTimeout outlet level => Sys2Proof.Machine.execMirrorTimeout outlet level s
  | .mirrorUncommandedChange outlet level => Sys2Proof.Machine.execMirrorUncommandedChange outlet level s
  | .brakeReleaseCheck brake released rise => Sys2Proof.Machine.execBrakeReleaseCheck brake released rise s
  | .brakeEngageCheck brake engaged => Sys2Proof.Machine.execBrakeEngageCheck brake engaged s
  | .brakeCurrentFault brake currents => Sys2Proof.Machine.execBrakeCurrentFault brake currents s
  | .holdingTestMovement brake samples => Sys2Proof.Machine.execHoldingTestMovement brake samples s
  | .holdingTestTorqueEnd brake => Sys2Proof.Machine.execHoldingTestTorqueEnd brake s
  | .holdingTestEnd brake samples => Sys2Proof.Machine.execHoldingTestEnd brake samples s
  | .classETimerExpiry outlet => Sys2Proof.Machine.execClassETimerExpiry outlet s
  | .classESupervisionStart outlet => Sys2Proof.Machine.execClassESupervisionStart outlet s
  | .classEOvercurrent outlet => Sys2Proof.Machine.execClassEOvercurrent outlet s
  | .resetInputRelease input highMs lowMs => Sys2Proof.Machine.execResetInputRelease input highMs lowMs s
  | .resetInputHeld input => Sys2Proof.Machine.execResetInputHeld input s
  | .releaseWindowExpiry outlet => Sys2Proof.Machine.execReleaseWindowExpiry outlet s
  | .releasePeerResult outlet passed => Sys2Proof.Machine.execReleasePeerResult outlet passed s
  | .releasePeerTimeout outlet => Sys2Proof.Machine.execReleasePeerTimeout outlet s
  | .mirrorGrant outlet => Sys2Proof.Machine.execMirrorGrant outlet s
  | .speltControlTick meas substrate late => Sys2Proof.Machine.execSpeltControlTick meas substrate late s
  | .thermalShutdown channel tj => Sys2Proof.Machine.execThermalShutdown channel tj s
  | .differenceLimit channel tj substrate => Sys2Proof.Machine.execDifferenceLimit channel tj substrate s
  | .channelRestart channel tj substrate => Sys2Proof.Machine.execChannelRestart channel tj substrate s
  | .pulseEdge pulse high => Sys2Proof.Machine.execPulseEdge pulse high s
  | .conditionBroadcast => Sys2Proof.Machine.execConditionBroadcast s
  | .broadcastAbsent => Sys2Proof.Machine.execBroadcastAbsent s
  | .ruleDelayExpiry channel => Sys2Proof.Machine.execRuleDelayExpiry channel s
  | .onStateOpenLoad channel samples => Sys2Proof.Machine.execOnStateOpenLoad channel samples s
  | .offStateDiagnostic checks => Sys2Proof.Machine.execOffStateDiagnostic checks s
  | .channelShed => Sys2Proof.Machine.execChannelShed s
  | .channelRestore => Sys2Proof.Machine.execChannelRestore s
  | .aggregateCapUpdate => Sys2Proof.Machine.execAggregateCapUpdate s
  | .superframeStart late => Sys2Proof.Machine.execSuperframeStart late s
  | .beaconReceived beacon => Sys2Proof.Machine.execBeaconReceived beacon s
  | .beaconsMissed => Sys2Proof.Machine.execBeaconsMissed s
  | .siteFrameReceived link burst => Sys2Proof.Machine.execSiteFrameReceived link burst s
  | .siteFrameRetransmit link => Sys2Proof.Machine.execSiteFrameRetransmit link s
  | .mapRecompute snr noise => Sys2Proof.Machine.execMapRecompute snr noise s
  | .mapAckMissing link => Sys2Proof.Machine.execMapAckMissing link s
  | .mapSwitch link => Sys2Proof.Machine.execMapSwitch link s
  | .toneLoopbackTest unit pass => Sys2Proof.Machine.execToneLoopbackTest unit pass s
  | .joinRequest stationId => Sys2Proof.Machine.execJoinRequest stationId s
  | .joinRetry => Sys2Proof.Machine.execJoinRetry s
  | .timeBaseLost => Sys2Proof.Machine.execTimeBaseLost s
  | .timeBaseResumed => Sys2Proof.Machine.execTimeBaseResumed s
  | .aerialPing aerial amp phase cards => Sys2Proof.Machine.execAerialPing aerial amp phase cards s
  | .pollTimeout aerial => Sys2Proof.Machine.execPollTimeout aerial s
  | .authFallback outlet => Sys2Proof.Machine.execAuthFallback outlet s
  | .cardHoldExpiry aerial => Sys2Proof.Machine.execCardHoldExpiry aerial s
  | .authHoldExpiry outlet => Sys2Proof.Machine.execAuthHoldExpiry outlet s
  | .tagFieldOn => Sys2Proof.Machine.execTagFieldOn s
  | .tagFieldLost => Sys2Proof.Machine.execTagFieldLost s
  | .tagInventory inv => Sys2Proof.Machine.execTagInventory inv s
  | .tagStayQuiet req => Sys2Proof.Machine.execTagStayQuiet req s
  | .tagReadSingleBlock req block => Sys2Proof.Machine.execTagReadSingleBlock req block s
  | .tagWriteSingleBlock req block data => Sys2Proof.Machine.execTagWriteSingleBlock req block data s
  | .tagReadMultipleBlocks req first count => Sys2Proof.Machine.execTagReadMultipleBlocks req first count s
  | .tagSelect req => Sys2Proof.Machine.execTagSelect req s
  | .tagResetToReady req => Sys2Proof.Machine.execTagResetToReady req s
  | .tagGetSystemInformation req => Sys2Proof.Machine.execTagGetSystemInformation req s
  | .tagGetBlockSecurity req first count => Sys2Proof.Machine.execTagGetBlockSecurity req first count s
  | .tagExtReadSingleBlock req block => Sys2Proof.Machine.execTagExtReadSingleBlock req block s
  | .tagExtWriteSingleBlock req block data => Sys2Proof.Machine.execTagExtWriteSingleBlock req block data s
  | .tagExtReadMultipleBlocks req first count => Sys2Proof.Machine.execTagExtReadMultipleBlocks req first count s
  | .tagExtGetSystemInformation req => Sys2Proof.Machine.execTagExtGetSystemInformation req s
  | .tagExtGetBlockSecurity req first count => Sys2Proof.Machine.execTagExtGetBlockSecurity req first count s
  | .tagReadSignature req => Sys2Proof.Machine.execTagReadSignature req s
  | .tagKill req password => Sys2Proof.Machine.execTagKill req password s
  | .tagReadMirrorIndex req => Sys2Proof.Machine.execTagReadMirrorIndex req s
  | .tagUnsupportedCommand req code => Sys2Proof.Machine.execTagUnsupportedCommand req code s
  | .tagSectorCommit sector => Sys2Proof.Machine.execTagSectorCommit sector s
  | .tagBusyRetry sector last => Sys2Proof.Machine.execTagBusyRetry sector last s
  | .tlsConnectionOpen port root => Sys2Proof.Machine.execTlsConnectionOpen port root s
  | .portSilence port => Sys2Proof.Machine.execPortSilence port s
  | .recordRingEntry port urgent entry => Sys2Proof.Machine.execRecordRingEntry port urgent entry s
  | .recordConsumerIndex port event index => Sys2Proof.Machine.execRecordConsumerIndex port event index s
  | .recordWindowRead port tag addr count => Sys2Proof.Machine.execRecordWindowRead port tag addr count s
  | .recordWindowWrite port addr words => Sys2Proof.Machine.execRecordWindowWrite port addr words s
  | .recordBulkWrite port offset bytes => Sys2Proof.Machine.execRecordBulkWrite port offset bytes s
  | .recordBulkRead port tag offset len => Sys2Proof.Machine.execRecordBulkRead port tag offset len s
  | .malformedRecord port => Sys2Proof.Machine.execMalformedRecord port s
  | .qspiReadPortStatus => Sys2Proof.Machine.execQspiReadPortStatus s
  | .registerWrite port addr value => Sys2Proof.Machine.execRegisterWrite port addr value s
  | .busyMsWrite port value => Sys2Proof.Machine.execBusyMsWrite port value s
  | .resetCauseClear port value => Sys2Proof.Machine.execResetCauseClear port value s
  | .ringEnable port value => Sys2Proof.Machine.execRingEnable port value s
  | .ringDisable port value => Sys2Proof.Machine.execRingDisable port value s
  | .urgentDoorbell port value => Sys2Proof.Machine.execUrgentDoorbell port value s
  | .normalDoorbell port value => Sys2Proof.Machine.execNormalDoorbell port value s
  | .responseConsumerWrite port value => Sys2Proof.Machine.execResponseConsumerWrite port value s
  | .eventConsumerWrite port value => Sys2Proof.Machine.execEventConsumerWrite port value s
  | .hostHeartbeatWrite port value => Sys2Proof.Machine.execHostHeartbeatWrite port value s
  | .commandFetch estimateMs => Sys2Proof.Machine.execCommandFetch estimateMs s
  | .eventOccurrence source index cause ended data => Sys2Proof.Machine.execEventOccurrence source index cause ended data s
  | .eventRingWrite => Sys2Proof.Machine.execEventRingWrite s
  | .delayedEventDelivery => Sys2Proof.Machine.execDelayedEventDelivery s
  | .echo cmd => Sys2Proof.Machine.execEcho cmd s
  | .readIdentity cmd => Sys2Proof.Machine.execReadIdentity cmd s
  | .enterCommissioning cmd => Sys2Proof.Machine.execEnterCommissioning cmd s
  | .leaveCommissioning cmd => Sys2Proof.Machine.execLeaveCommissioning cmd s
  | .dieReset cmd tails => Sys2Proof.Machine.execDieReset cmd tails s
  | .controlResetAfterResponse => Sys2Proof.Machine.execControlResetAfterResponse s
  | .networkSettings cmd => Sys2Proof.Machine.execNetworkSettings cmd s
  | .mailboxKeySlots cmd => Sys2Proof.Machine.execMailboxKeySlots cmd s
  | .setQspiAuthority cmd => Sys2Proof.Machine.execSetQspiAuthority cmd s
  | .read1sValues cmd => Sys2Proof.Machine.execRead1sValues cmd s
  | .readTotals cmd => Sys2Proof.Machine.execReadTotals cmd s
  | .readHarmonicWindow cmd => Sys2Proof.Machine.execReadHarmonicWindow cmd s
  | .readSupraharmonicResult cmd => Sys2Proof.Machine.execReadSupraharmonicResult cmd s
  | .collectRawSampleBlock cmd => Sys2Proof.Machine.execCollectRawSampleBlock cmd s
  | .readMetrologyTable cmd => Sys2Proof.Machine.execReadMetrologyTable cmd s
  | .outletRoleAssignment cmd => Sys2Proof.Machine.execOutletRoleAssignment cmd s
  | .userCalibration cmd => Sys2Proof.Machine.execUserCalibration cmd s
  | .meteringMode cmd => Sys2Proof.Machine.execMeteringMode cmd s
  | .readRegisters cmd => Sys2Proof.Machine.execReadRegisters cmd s
  | .readBillingSnapshot cmd => Sys2Proof.Machine.execReadBillingSnapshot cmd s
  | .readLegalLog cmd => Sys2Proof.Machine.execReadLegalLog cmd s
  | .acknowledgeLegalLog cmd => Sys2Proof.Machine.execAcknowledgeLegalLog cmd s
  | .readLegalObject cmd => Sys2Proof.Machine.execReadLegalObject cmd s
  | .readSessionRecords cmd => Sys2Proof.Machine.execReadSessionRecords cmd s
  | .confirmExport cmd => Sys2Proof.Machine.execConfirmExport cmd s
  | .tariffParameters cmd => Sys2Proof.Machine.execTariffParameters cmd s
  | .loadPassiveCalendar cmd => Sys2Proof.Machine.execLoadPassiveCalendar cmd s
  | .setLegalTime cmd => Sys2Proof.Machine.execSetLegalTime cmd s
  | .demandInterval cmd => Sys2Proof.Machine.execDemandInterval cmd s
  | .confirmTariffSwitch cmd => Sys2Proof.Machine.execConfirmTariffSwitch cmd s
  | .displaySelection cmd => Sys2Proof.Machine.execDisplaySelection cmd s
  | .vehicleLinkStatus cmd => Sys2Proof.Machine.execVehicleLinkStatus cmd s
  | .vehicleLinkConfiguration cmd => Sys2Proof.Machine.execVehicleLinkConfiguration cmd s
  | .loadLimit cmd => Sys2Proof.Machine.execLoadLimit cmd s
  | .sessionMode cmd => Sys2Proof.Machine.execSessionMode cmd s
  | .policyAnswer cmd => Sys2Proof.Machine.execPolicyAnswer cmd s
  | .certificateAnswer cmd => Sys2Proof.Machine.execCertificateAnswer cmd s
  | .endSession cmd => Sys2Proof.Machine.execEndSession cmd s
  | .safetyStatus cmd => Sys2Proof.Machine.execSafetyStatus cmd s
  | .setEnable cmd => Sys2Proof.Machine.execSetEnable cmd s
  | .clearEnable cmd => Sys2Proof.Machine.execClearEnable cmd s
  | .openRequest cmd => Sys2Proof.Machine.execOpenRequest cmd s
  | .lockoutRelease cmd => Sys2Proof.Machine.execLockoutRelease cmd s
  | .brakeEngage cmd => Sys2Proof.Machine.execBrakeEngage cmd s
  | .brakeRelease cmd => Sys2Proof.Machine.execBrakeRelease cmd s
  | .brakeHoldingTest cmd => Sys2Proof.Machine.execBrakeHoldingTest cmd s
  | .classERequest cmd => Sys2Proof.Machine.execClassERequest cmd s
  | .writeLimitedSetting cmd => Sys2Proof.Machine.execWriteLimitedSetting cmd s
  | .readLimitedSetting cmd => Sys2Proof.Machine.execReadLimitedSetting cmd s
  | .loadSwitchStatus cmd => Sys2Proof.Machine.execLoadSwitchStatus cmd s
  | .channelConfiguration cmd => Sys2Proof.Machine.execChannelConfiguration cmd s
  | .channelControl cmd => Sys2Proof.Machine.execChannelControl cmd s
  | .channelRule cmd => Sys2Proof.Machine.execChannelRule cmd s
  | .hostFlags cmd => Sys2Proof.Machine.execHostFlags cmd s
  | .aggregateMaximum cmd => Sys2Proof.Machine.execAggregateMaximum cmd s
  | .readChannelSetup cmd => Sys2Proof.Machine.execReadChannelSetup cmd s
  | .siteLineStatus cmd => Sys2Proof.Machine.execSiteLineStatus cmd s
  | .siteLineConfiguration cmd => Sys2Proof.Machine.execSiteLineConfiguration cmd s
  | .linkEntry cmd => Sys2Proof.Machine.execLinkEntry cmd s
  | .sendFrame cmd => Sys2Proof.Machine.execSendFrame cmd s
  | .receiveFrame cmd => Sys2Proof.Machine.execReceiveFrame cmd s
  | .beaconBytes cmd => Sys2Proof.Machine.execBeaconBytes cmd s
  | .contactlessStatus cmd => Sys2Proof.Machine.execContactlessStatus cmd s
  | .contactlessConfiguration cmd => Sys2Proof.Machine.execContactlessConfiguration cmd s
  | .loadAllowlist cmd => Sys2Proof.Machine.execLoadAllowlist cmd s
  | .allowlistLookup cmd => Sys2Proof.Machine.execAllowlistLookup cmd s
  | .cardExchange cmd answer => Sys2Proof.Machine.execCardExchange cmd answer s
  | .tagMemoryRead cmd => Sys2Proof.Machine.execTagMemoryRead cmd s
  | .tagMemoryWrite cmd => Sys2Proof.Machine.execTagMemoryWrite cmd s
  | .tagKillPassword cmd => Sys2Proof.Machine.execTagKillPassword cmd s
  | .readSlot cmd => Sys2Proof.Machine.execReadSlot cmd s
  | .writeKeyInClear cmd => Sys2Proof.Machine.execWriteKeyInClear cmd s
  | .loadShadow cmd => Sys2Proof.Machine.execLoadShadow cmd s
  | .testShadow cmd pass => Sys2Proof.Machine.execTestShadow cmd pass s
  | .commitShadow cmd tagOk => Sys2Proof.Machine.execCommitShadow cmd tagOk s
  | .lifecycleMove cmd => Sys2Proof.Machine.execLifecycleMove cmd s
  | .readStepCounters cmd => Sys2Proof.Machine.execReadStepCounters cmd s
  | .pairDetail cmd => Sys2Proof.Machine.execPairDetail cmd s
  | .bindPeer cmd => Sys2Proof.Machine.execBindPeer cmd s
  | .unbindPeer cmd => Sys2Proof.Machine.execUnbindPeer cmd s
  | .plannedHandover cmd => Sys2Proof.Machine.execPlannedHandover cmd s
  | .clearSuspectResynchronise cmd => Sys2Proof.Machine.execClearSuspectResynchronise cmd s
  | .openStaging cmd => Sys2Proof.Machine.execOpenStaging cmd s
  | .imageBody cmd => Sys2Proof.Machine.execImageBody cmd s
  | .imageCommit cmd => Sys2Proof.Machine.execImageCommit cmd s
  | .stagingAbort cmd => Sys2Proof.Machine.execStagingAbort cmd s
  | .updateStatus cmd => Sys2Proof.Machine.execUpdateStatus cmd s
  | .readFaultLog cmd => Sys2Proof.Machine.execReadFaultLog cmd s
  | .diagnosticBundle cmd => Sys2Proof.Machine.execDiagnosticBundle cmd s
  | .bundleComplete peerSections => Sys2Proof.Machine.execBundleComplete peerSections s
  | .eventRouting cmd => Sys2Proof.Machine.execEventRouting cmd s
  | .eventSourceState cmd => Sys2Proof.Machine.execEventSourceState cmd s
  | .clearPending cmd => Sys2Proof.Machine.execClearPending cmd s
  | .wearAndSpares cmd => Sys2Proof.Machine.execWearAndSpares cmd s
  | .siteLineNoise cmd => Sys2Proof.Machine.execSiteLineNoise cmd s
  | .poolConflictCounters cmd => Sys2Proof.Machine.execPoolConflictCounters cmd s
  | .temperatures cmd => Sys2Proof.Machine.execTemperatures cmd s
  | .scratchpadOwnerWrite pad master value same => Sys2Proof.Machine.execScratchpadOwnerWrite pad master value same s
  | .scratchpadReclaim pad master => Sys2Proof.Machine.execScratchpadReclaim pad master s
  | .atomicOperation accesses => Sys2Proof.Machine.execAtomicOperation accesses s
  | .scrubPass found => Sys2Proof.Machine.execScrubPass found s
  | .uncorrectableError error => Sys2Proof.Machine.execUncorrectableError error s
  | .bankSpareCopyEnd => Sys2Proof.Machine.execBankSpareCopyEnd s
  | .vaultWipeComplete waiting => Sys2Proof.Machine.execVaultWipeComplete waiting s
  | .debugUnlockToken token => Sys2Proof.Machine.execDebugUnlockToken token s
  | .pairHeartbeat beat => Sys2Proof.Machine.execPairHeartbeat beat s
  | .laneDown lane => Sys2Proof.Machine.execLaneDown lane s
  | .peerHeartbeatLoss => Sys2Proof.Machine.execPeerHeartbeatLoss s
  | .linkKeyAgreement peerPoint legalId signing headers => Sys2Proof.Machine.execLinkKeyAgreement peerPoint legalId signing headers s
  | .epochStart peerDigest acked => Sys2Proof.Machine.execEpochStart peerDigest acked s
  | .forwardedCommand fwd => Sys2Proof.Machine.execForwardedCommand fwd s
  | .epochFrameResend seq => Sys2Proof.Machine.execEpochFrameResend seq s
  | .sealedFrame frame => Sys2Proof.Machine.execSealedFrame frame s
  | .sealedEntryTimeout outlet => Sys2Proof.Machine.execSealedEntryTimeout outlet s
  | .sessionRecordContent outlet content => Sys2Proof.Machine.execSessionRecordContent outlet content s
  | .stateTransferComplete full content => Sys2Proof.Machine.execStateTransferComplete full content s
  | .leaseYield => Sys2Proof.Machine.execLeaseYield s
  | .leaseTake => Sys2Proof.Machine.execLeaseTake s
  | .standbyTakeover => Sys2Proof.Machine.execStandbyTakeover s
  | .pilotCarryOver outlet => Sys2Proof.Machine.execPilotCarryOver outlet s
  | .stagingTimeout => Sys2Proof.Machine.execStagingTimeout s
  | .trialConfirmation image => Sys2Proof.Machine.execTrialConfirmation image s
  | .fescueImageBringIn => Sys2Proof.Machine.execFescueImageBringIn s
  | .sessionImageBringIn outlet => Sys2Proof.Machine.execSessionImageBringIn outlet s
  | .milletStateHandover => Sys2Proof.Machine.execMilletStateHandover s
  | .speltImageReset => Sys2Proof.Machine.execSpeltImageReset s
  | .thermalSecond substrate dies => Sys2Proof.Machine.execThermalSecond substrate dies s
  | .clockStepUp => Sys2Proof.Machine.execClockStepUp s
  | .sensorFailure sensor => Sys2Proof.Machine.execSensorFailure sensor s
  | .sensorRecovery sensor => Sys2Proof.Machine.execSensorRecovery sensor s
  | .imageStoreHot reading => Sys2Proof.Machine.execImageStoreHot reading s
  | .overRangeReport => Sys2Proof.Machine.execOverRangeReport s
  | .periodicJobRelease job => Sys2Proof.Machine.execPeriodicJobRelease job s
  | .periodicJobEnd job ranMs => Sys2Proof.Machine.execPeriodicJobEnd job ranMs s
  | .vbatBelowMinimum => Sys2Proof.Machine.execVbatBelowMinimum s
  | .siteLineHostSilence => Sys2Proof.Machine.execSiteLineHostSilence s
  | .tlsConnectionClose port => Sys2Proof.Machine.execTlsConnectionClose port s
  | .qspiPoolAccess addr write => Sys2Proof.Machine.execQspiPoolAccess addr write s
  | .holdingTestOverdue brake => Sys2Proof.Machine.execHoldingTestOverdue brake s
  | .sessionCoreSelfTestEnd pass => Sys2Proof.Machine.execSessionCoreSelfTestEnd pass s
  | .moduleStateAreaRewrite => Sys2Proof.Machine.execModuleStateAreaRewrite s
  | .fullCommonWriteEnd => Sys2Proof.Machine.execFullCommonWriteEnd s
  | .tjCtlReading reading => Sys2Proof.Machine.execTjCtlReading reading s

end Sys2Proof.Machine
end

