-- ==== Sys2Proof/Safety.lean ====
section
/-! DEFINITION. What a safe run is, and the conditions on a state that every step keeps. -/

namespace Sys2Proof.Machine

/-- The next step goes on. -/
def Safe (s : State) : Prop := ∃ t, step s = .next t

/-- Every addressed memory is in its one canonical form: the pool, the vault, the tag's memory and the scratchpads. -/
def State.memOk (s : State) : Prop :=
  memWf s.mem.pool = true ∧ memWf s.mem.vault = true ∧ memWf s.tag.mem = true ∧
    ∀ p, memWf (s.mem.pads.at p).bytes = true

/-- An outlet in Lockout has its pair off and no turn-on under way (R282, R286). -/
def State.lockSafe (s : State) : Prop :=
  ∀ o, (s.rus.outlet.at o).fault.classP = true →
    (s.rus.pair.at (coilOf o)).cmd = false ∧ (s.rus.pair.at (coilOf o)).turn = .idle

end Sys2Proof.Machine
end

