-- ==== Sys2Proof/Certificates/Slice0/Obligations.lean ====
section
/-! DEFINITION. The statements about the ZGH6451 that the provers are asked for. -/

open Sys2Proof Sys2Proof.Machine

/-- For every command, every queue rest and every state, the step at the state with that command at the front of its
queue is the command's meaning on the state with the queue's rest; and on an empty queue the step leaves the state as
it is. The queue is the model's form of a block that takes commands (assumption log 1). -/
def Obligations.StepRunsTheFrontCommand : Prop :=
  ∀ (s : State) (i : Instr) (rest : List Instr),
    (s.pending = i :: rest → step s = exec i { s with pending := rest }) ∧
    (s.pending = [] → step s = .next s)

/-- Each of these commands completes: a main supply out of range enters Backup watch with every die held, every pair
off and every channel off; the supplies in range leave Backup watch for Measured start with every pair off and Lockout
kept; Teal's power-on empties its ring and counters; PFW's assertion records its moment, and the final save where it
completes (operand saved, log 97), and 2.5 ms later every pair is open and the outlets that were on are listed; its
deassertion ends the dip, and one below 3 ms is counted, unless PFW was low at the start and neither the final save
ran nor the failure was marked; a pulse on HOSTRST below 100 ns does nothing, and one of at least 1 us resets the
control die and sets its bit of the reset cause register. -/
def Obligations.PowerCommandsComplete : Prop :=
  (∀ s : State, s.modes.base ≠ .backupWatch → ∃ t, exec .mainSupplyOutOfRange s = .next t ∧
    t.modes.base = .backupWatch ∧ t.modes.role = .none ∧ t.sup.mainOk = false ∧ t.mbx.ready = false ∧
    t.dies.control = .held ∧ t.dies.ochre = .held ∧ t.dies.russet = .held ∧ t.dies.fescue = .held ∧ t.dies.spelt = .held ∧
    (∀ p, (t.rus.pair.at p).cmd = false) ∧ (∀ c, (t.spe.chan.at c).output = false)) ∧
  (∀ (s : State) (low : Bool) (ms : Nat) (at_ : Option Nat) (crc : BitVec 32), s.modes.base = .backupWatch →
    ∃ t, exec (.mainSuppliesInRange low ms at_ crc) s = .next t ∧
    t.modes.base = .measuredStart ∧ t.sup.mainOk = true ∧ t.sup.pfw = (low || at_.isSome) ∧ (∀ p, (t.rus.pair.at p).cmd = false) ∧
    (∀ o, (s.rus.outlet.at o).fault.classP = true → (t.rus.outlet.at o).fault.classP = true)) ∧
  (∀ s : State, s.sup.mainOk = false → ∃ t, exec .tealPowerOn s = .next t ∧
    t.sup.tealPor = true ∧ t.teal.ring = [] ∧ t.teal.tseq = 0 ∧ ∀ k, t.teal.openings.at k = 0) ∧
  (∀ (s : State) (us : Nat) (tails : List Tail) (saved : Bool), s.modes.base ≠ .backupWatch → s.sup.pfw = false → s.sup.pfwArmed = true →
    ∃ t, exec (.pfwAssert us tails saved) s = .next t ∧ t.sup.pfw = true ∧ (saved = true → t.sup.saveDone = true) ∧
      t.sup.pfwTick = s.och.clock.us + min us (999 - s.och.clock.us % 1000)) ∧
  (∀ s : State, s.sup.pfw = true → s.sup.pfwArmed = false → s.dies.russet = .running →
    ∃ t, exec .pfwOutputOpen s = .next t ∧ t.sup.opened = true ∧ (∀ o, (t.rus.pair.at (coilOf o)).cmd = false) ∧
      ∀ o, o ∈ t.sup.dropped ↔ (s.rus.pair.at (coilOf o)).cmd = true) ∧
  (∀ (s : State) (d : Nat), s.modes.base ≠ .backupWatch → s.sup.pfw = true → ∃ t, exec (.pfwDeassert d) s = .next t ∧
    t.sup.pfw = false ∧ t.sup.pfwArmed = true ∧ t.sup.dropped = [] ∧
    t.sup.dips = s.sup.dips + (if (s.sup.saveDone = true ∨ s.och.clock.failedAt.isSome = true) ∧ d < 3000 then 1 else 0)) ∧
  (∀ (s : State) (ns : Nat), ns < 100 → exec (.hostrstPulse ns) s = .next s) ∧
  (∀ (s : State) (ns : Nat), 1000 ≤ ns → s.modes.base ≠ .backupWatch → ∃ t, exec (.hostrstPulse ns) s = .next t ∧
    t.dies.control = .starting ∧ t.rus.cause = s.rus.cause ||| 0x100 ∧ t.mem.pool = [] ∧
    (∀ p, (t.mem.pads.at p).owner = 0x1F) ∧ t.mbx.fetched = [])

/-- Each of these commands completes. A watchdog or a lockstep mismatch puts its die into its start and sets its bit
of the reset cause register: Ochre 13, Russet 12 (set when it runs again), Spelt 11, Fescue 10, the control die 9. A
Russet reset leaves every pair off and keeps Lockout. A Spelt reset holds the channels' outputs. A control die reset
empties the pool, and the loss of Fescue's heartbeat opens every pair of an outlet. A second failed start in
succession enters Recovery. The restarts make a die run again, and a heartbeat of Spelt changes nothing. -/
def Obligations.DieResetsComplete : Prop :=
  (∀ (s : State) (tails : List Tail), s.dies.ochre ≠ .held → ∃ t, exec (.ochreWatchdogExpiry tails) s = .next t ∧
    t.dies.ochre = .starting ∧ t.rus.cause = s.rus.cause ||| 0x2000 ∧ t.och.clock.gapFrom.isSome = true) ∧
  (∀ (s : State) (gap : Nat), s.dies.ochre = .starting → ∃ t, exec (.ochreStreamRestart gap) s = .next t ∧
    t.dies.ochre = .running ∧ t.och.clock.gapFrom = none) ∧
  (∀ s : State, s.dies.russet ≠ .held → ∃ t, exec .lockstepMismatch s = .next t ∧ exec .russetWatchdogExpiry s = .next t ∧
    t.dies.russet = .starting ∧ t.dies.russetCause = some 12 ∧ (∀ p, (t.rus.pair.at p).cmd = false) ∧
    ∀ o, (t.rus.outlet.at o).fault.classP = (s.rus.outlet.at o).fault.classP) ∧
  (∀ s : State, s.dies.russet = .starting → s.dies.russetCause = some 12 → ∃ t, exec .russetRestartComplete s = .next t ∧
    t.dies.russet = .running ∧ t.dies.russetCause = none ∧ t.rus.cause = s.rus.cause ||| 0x1000) ∧
  (∀ s : State, s.dies.spelt = .starting → exec .speltReady s = .next { s with dies.spelt := .running }) ∧
  (∀ s : State, exec .speltHeartbeat s = .next s) ∧
  (∀ s : State, s.dies.spelt ≠ .held → ∃ t, exec .speltWatchdogExpiry s = .next t ∧
    t.dies.spelt = .starting ∧ t.rus.cause = s.rus.cause ||| 0x800 ∧
    ∀ c, (t.spe.chan.at c).output = (s.spe.chan.at c).output) ∧
  (∀ s : State, s.dies.fescue ≠ .held → ∃ t, exec .fescueHeartbeat s = .next t ∧
    t.dies.fescue = .running ∧ t.dies.fescueBeat = true) ∧
  (∀ s : State, s.dies.russet = .running → holds s 57 moduleIndex = false →
    exec .fescueHeartbeatMissing s = .next (raise 57 moduleIndex 0 [] { s with dies.fescueBeat := false })) ∧
  (∀ s : State, s.dies.russet = .running → s.dies.fescue ≠ .held → ∃ t, exec .fescueHeartbeatLoss s = .next t ∧
    t.dies.fescue = .starting ∧ t.rus.cause = s.rus.cause ||| 0x400 ∧ ∀ o, (t.rus.pair.at (coilOf o)).cmd = false) ∧
  (∀ s : State, controlRuns s = true → s.dies.hbSeen = true → ∃ t, exec .controlWatchdogExpiry s = .next t ∧
    t.dies.control = .starting ∧ t.rus.cause = s.rus.cause ||| 0x200 ∧ t.mem.pool = []) ∧
  (∀ s : State, s.dies.control = .starting → s.modes.base ≠ .recovery → ∃ t, exec .controlStartLimitExpiry s = .next t ∧
    (s.modes.failedStarts = 0 → t.dies.control = .starting ∧ t.modes.failedStarts = 1 ∧
      t.rus.cause = s.rus.cause ||| 0x200) ∧
    (1 ≤ s.modes.failedStarts → t.modes.base = .recovery)) ∧
  (∀ s : State, s.dies.resetAfterResponse = true → ∃ t, exec .controlResetAfterResponse s = .next t ∧
    t.dies.control = .starting ∧ t.rus.cause = s.rus.cause ||| 8 ∧ t.mbx.fetched = [])

/-- Each of these commands completes. A heartbeat counts and makes a starting control die run; its loss sets the
degraded condition, which Millet's confirmation ends. The end of the Measured start checks of an unpaired, provisioned
module enters Solo; a configured peer that stays silent makes the module active with the lease; a failed start is
counted and starts the control die again. The end of Commissioning returns to the prior role. A lost reference sets
its cause bit and hands the clock to the fallback oscillator, whose tenth correction trims it; XREF's return slews it
back, and the end of the slew ends the condition. The session cores take the step the scheduler asks for. -/
def Obligations.ModesAndClocksComplete : Prop :=
  (∀ s : State, s.dies.control = .running → exec .milletHeartbeat s =
    .next { s with mbx.hbCount := s.mbx.hbCount + 1, dies.hbSeen := true }) ∧
  (∀ s : State, s.dies.control = .starting → ∃ t, exec .milletHeartbeat s = .next t ∧
    t.dies.control = .running ∧ t.dies.hbSeen = true ∧ t.mbx.hbCount = s.mbx.hbCount + 1) ∧
  (∀ s : State, s.modes.base = .service → s.dies.russet = .running → ∃ t, exec .milletHeartbeatLoss s = .next t ∧
    t.modes.hbLoss = true) ∧
  (∀ s : State, controlRuns s = true → s.modes.hbLoss = true → ∃ t, exec .heldSessionsConfirmed s = .next t ∧
    t.modes.hbLoss = false ∧ ∀ o, t.veh.toConfirm.at o = false) ∧
  (∀ (s : State) (p : PeerAtStart), s.modes.base = .measuredStart → noSlot s = false → s.pair.peer = 0 →
    s.keys.lifecycle = .provisioned → ∃ t, exec (.measuredStartComplete .pass p) s = .next t ∧
      t.modes.base = .service ∧ t.modes.role = .solo ∧ t.clocks.pll1Lock = true ∧ t.clocks.pll2Lock = true ∧
      (controlRuns s = true → t.mbx.ready = true)) ∧
  (∀ (s : State) (p : PeerAtStart), s.modes.base = .measuredStart → s.modes.failedStarts = 0 →
    ∃ t, exec (.measuredStartComplete .failed p) s = .next t ∧ t.modes.base = .measuredStart ∧
      t.dies.control = .starting ∧ t.modes.failedStarts = 1) ∧
  (∀ s : State, s.modes.base = .measuredStart → s.modes.checked = true → s.pair.peer ≠ 0 →
    ∃ t, exec .peerSilentAtStart s = .next t ∧ t.modes.base = .service ∧ t.modes.role = .active ∧ t.rus.lease = true) ∧
  (∀ s : State, s.modes.base = .commissioning → ∃ t, exec .commissioningTimeout s = .next t ∧
    t.modes.base = .service ∧ t.modes.role = s.modes.prior) ∧
  (∀ s : State, s.modes.base ≠ .backupWatch → ∃ t, exec .referenceLoss s = .next t ∧
    t.modes.refLoss = true ∧ t.clocks.xrefOk = false ∧ t.clocks.fallback = true ∧ t.clocks.outSince.isSome = true ∧
    t.rus.cause = s.rus.cause ||| 0x8000) ∧
  (∀ s : State, s.clocks.fallback = true → ∃ t, exec .fallbackCorrection s = .next t ∧
    t.clocks.corrections = s.clocks.corrections + 1 ∧ t.clocks.trimmed = decide (10 ≤ s.clocks.corrections + 1)) ∧
  (∀ s : State, s.clocks.fallback = true → exec .xrefReturn s =
    .next { s with clocks.slew := true, clocks.xrefOk := true }) ∧
  (∀ s : State, s.clocks.slew = true → ∃ t, exec .xrefSlewComplete s = .next t ∧
    t.clocks.slew = false ∧ t.clocks.fallback = false ∧ t.modes.refLoss = false ∧ t.clocks.outSince = none) ∧
  (∀ s : State, ∃ t, exec .clockStepChange s = .next t ∧ t.clocks.scStep = s.thm.stepTarget)

/-- For every outlet that is not in Lockout, every cause and every origin of the decision: a Class P decision puts the
outlet into Lockout, ends its Class E, and leaves its pair off with no turn-on under way; an E-continue decision puts
it into Class E with the cause held; an E-open decision puts it into Class E in the expired state with its pair off.
Each of them writes LAST, writes FIRST if it was 0, and counts in COUNT up to its limit. -/
def Obligations.DecisionClassesTakeEffect : Prop :=
  ∀ (s : State) (o : OutletNo) (c : Byte) (peer : Bool), (s.rus.outlet.at o).fault.classP = false →
    ((tripP o c peer s).rus.outlet.at o).fault.classP = true ∧
    ((tripP o c peer s).rus.outlet.at o).fault.classE = false ∧
    ((tripP o c peer s).rus.pair.at (coilOf o)).cmd = false ∧
    ((tripP o c peer s).rus.pair.at (coilOf o)).turn = .idle ∧
    ((tripE o c peer s).rus.outlet.at o).fault.classE = true ∧
    ((tripE o c peer s).rus.outlet.at o).ce.causes.contains c = true ∧
    ((tripOpen o c peer s).rus.outlet.at o).fault.classE = true ∧
    ((tripOpen o c peer s).rus.outlet.at o).ce.expired = true ∧
    ((tripOpen o c peer s).rus.pair.at (coilOf o)).cmd = false ∧
    ∀ t ∈ [tripP o c peer s, tripE o c peer s, tripOpen o c peer s],
      (t.rus.outlet.at o).fault.last = c ∧
      (t.rus.outlet.at o).fault.first = (if (s.rus.outlet.at o).fault.first = 0 then c else (s.rus.outlet.at o).fault.first) ∧
      (t.rus.outlet.at o).fault.count = satAdd 8 (s.rus.outlet.at o).fault.count 1

/-- With Russet running, each detector takes the decision that its rule gives: the fast path, on bits in which its
window reaches the direction it watches, E-open or Class P by its CLASS bit with cause 0x01 or 0x02, a
residual-current hold Class P 0x03 or 0x04 once per excursion, an injector failure E-continue 0x12, a weld check Class
P 0x06 on an AC outlet whose contact still carries 1 A or more, loss of PE on an energised DC outlet Class P 0x0A, a
redundant-current disagreement E-continue 0x10 and its end the clearing of that cause, an input invalid for 50 ms on
an energised outlet Class P 0x0F, Class E supervision after 10 s, its overcurrent E-open 0x2C, the Class E timer
E-open 0x2D, and a relayed decision the class it was sent with. -/
def Obligations.DetectorsComplete : Prop :=
  ∀ s : State, s.dies.russet = .running →
    (∀ (i : InputNo) (bits : Bits) (pos : Bool), wBit (s.rus.fast.at i).now 15 = true →
      fastDetects (s.rus.fast.at i).now bits = some pos → (s.rus.capture.at i).unlocked = false →
      exec (.fastPathOverRange i bits) s = .next (if wBit (s.rus.fast.at i).now 12 then
          tripOpen (outletOf i) (if pos then 0x01 else 0x02) false s
        else tripP (outletOf i) (if pos then 0x01 else 0x02) false s)) ∧
    (∀ (o : OutletNo) (k : PointNo), s.rus.stream.stale = false → rusType s o ≠ 0 →
      pointUsed (s.rus.outlet.at o).residual.dcCurve.now k = true →
      ((s.rus.outlet.at o).residual.dcHold.at k).decided = false →
      exec (.rcdHoldExpiry o true k) s = .next (tripP o 0x04 false (s.onGuard o fun g =>
        { g with residual.dcHold := (s.rus.outlet.at o).residual.dcHold.upd k fun h => { h with decided := true } }))) ∧
    (∀ (o : OutletNo) (k : PointNo), s.rus.stream.stale = false → rusType s o ≠ 0 →
      pointUsed (s.rus.outlet.at o).residual.acCurve.now k = true →
      ((s.rus.outlet.at o).residual.acHold.at k).decided = false →
      exec (.rcdHoldExpiry o false k) s = .next (tripP o 0x03 false (s.onGuard o fun g =>
        { g with residual.acHold := (s.rus.outlet.at o).residual.acHold.upd k fun h => { h with decided := true } }))) ∧
    (∀ o : OutletNo, rusDc s o = true → (s.rus.outlet.at o).iso.failed = false →
      exec (.injectorFailure o) s = .next (tripE o 0x12 false (s.onGuard o fun g =>
        { g with iso := { g.iso with failed := true, frames := [], before := none } }))) ∧
    (∀ (o : OutletNo) (fs : List (List Rat)), rusType s o = 1 ∨ rusType s o = 2 → (s.rus.outlet.at o).weldAt.isSome = true →
      acWelded s o fs = true → exec (.weldCheck o fs) s = .next (tripP o 0x06 false (s.onGuard o fun g =>
        { g with weldAt := none, fault := { g.fault with weldNt := false } }))) ∧
    (∀ o : OutletNo, rusDc s o = true → pairOn s o = true → exec (.peLossDc o) s = .next (tripP o 0x0A false s)) ∧
    (∀ o : OutletNo, rusDc s o = true → (s.rus.outlet.at o).iredBad < 313 →
      exec (.redundantCurrentDisagreement o) s =
        .next (tripE o 0x10 false (s.onGuard o fun g => { g with iredBad := 313, iredGood := 0 }))) ∧
    (∀ o : OutletNo, (s.rus.outlet.at o).ce.causes.contains 0x10 = true →
      exec (.redundantDisagreementEnd o) s =
        .next (clearCause o 0x10 (s.onGuard o fun g => { g with iredBad := 0, iredGood := 15625 }))) ∧
    (∀ o : OutletNo, pairOn s o = true → exec (.inputInvalidTimeout o) s = .next (tripP o 0x0F false s)) ∧
    (∀ o : OutletNo, (s.rus.outlet.at o).fault.classE = true → (s.rus.outlet.at o).ce.expired = false →
      exec (.classESupervisionStart o) s =
        .next (s.onGuard o fun g => { g with ce := { g.ce with supervised := true, overFor := 0 } })) ∧
    (∀ o : OutletNo, (s.rus.outlet.at o).ce.supervised = true → wFld (s.rus.outlet.at o).coilCfg.now 20 12 ≠ 0 →
      exec (.classEOvercurrent o) s = .next (tripOpen o 0x2C false s)) ∧
    (∀ o : OutletNo, (s.rus.outlet.at o).fault.classE = true → (s.rus.outlet.at o).ce.ends ≠ 0 →
      exec (.classETimerExpiry o) s =
        .next (tripOpen o 0x2D false (s.onGuard o fun g => { g with ce := { g.ce with ends := 0, saved := 0 } }))) ∧
    (∀ (o : OutletNo) (c : Byte), exec (.tripRelay o c true) s = .next (tripP o c true s) ∧
      exec (.tripRelay o c false) s = .next (tripOpen o c true s))

/-- With Russet running: a close request on an idle pair of an outlet with an accepted session in phase 5 or 6 and a
vehicle in state C or D is granted when all twelve permissives hold and refused with the number of the first that does
not (number 2 in the cycle of an opening); a granted pair turns its low side on and then its high side; the check of
the turn-on ends it, with cause 0x22 on a wrong reading; Fescue's open request opens the pair; the lease timer ends
the lease; an overcurrent gives cause 0x24; a readback that departs gives 0x20 on an off pair; the tests pulse the
switch they name, restore it, and give 0x20, 0x21 or 0x22 on a wrong reading; and a mirror contact that does not
follow gives 0x25 for contacts closed on an off pair and 0x26 for contacts open on one that is on. -/
def Obligations.CoilPairsComplete : Prop :=
  ∀ s : State, s.dies.russet = .running →
    (∀ o : OutletNo, pairIdle s o = true → mayAskClose s o = true → s.modes.hbLoss = false → roleNow s.modes = .solo →
      (closeRefusal s o = none → ∃ t, exec (.closeRequest o false) s = .next t ∧
        (t.rus.pair.at (coilOf o)).turn = .granted ∧ (t.rus.outlet.at o).fault.foff = false) ∧
      exec (.closeRequest o true) s = .next (refuseClose o 2 s)) ∧
    (∀ (o : OutletNo) (n : Nat), pairIdle s o = true → mayAskClose s o = true → s.modes.hbLoss = false →
      roleNow s.modes = .solo → closeRefusal s o = some n →
      ∃ t, exec (.closeRequest o false) s = .next t ∧ t.rus.pair = s.rus.pair ∧ (t.rus.outlet.at o).closeReq = false) ∧
    (∀ o : OutletNo, (s.rus.pair.at (coilOf o)).turn = .granted → ∃ t, exec (.coilPairSwitchOn o) s = .next t ∧
      (t.rus.pair.at (coilOf o)).cmd = true ∧ (t.rus.pair.at (coilOf o)).turn = .lowOn ∧ (t.rus.outlet.at o).onMap = true) ∧
    (∀ o : OutletNo, (s.rus.pair.at (coilOf o)).turn = .lowOn → s.rus.stream.stale = false →
      ∃ t, exec (.coilHighSideOn o) s = .next t ∧
        (t.rus.pair.at (coilOf o)).turn = .bothOn ∧ (t.rus.pair.at (coilOf o)).hsRb = true) ∧
    (∀ (o : OutletNo) (rb : Readback), (s.rus.pair.at (coilOf o)).turn = .bothOn →
      exec (.coilTurnOnCheck o rb) s = .next (
        let vh := levelAt rb.vh rb.vin
        let vl := levelAt rb.vl rb.vin
        let t := (readback (coilOf o) vh vl s).onPair (coilOf o) fun p => { p with turn := .idle }
        if vh = .high && vl = .low then t else switchFault (coilOf o) 0x22 t)) ∧
    (∀ o : OutletNo, ∃ t, exec (.fescueOpenRequest o) s = .next t ∧ (t.rus.pair.at (coilOf o)).cmd = false ∧
      (t.rus.pair.at (coilOf o)).turn = .idle ∧ (t.rus.outlet.at o).fault.foff = true) ∧
    (∃ t, exec .leaseTimerExpiry s = .next t ∧ t.rus.lease = false ∧ (roleNow s.modes = .active → t.veh.txStopped = true)) ∧
    (∀ p : PairNo, (s.rus.pair.at p).cmd = true → exec (.switchOverCurrent p) s = .next (switchFault p 0x24 s)) ∧
    (∀ (p : PairNo) (rb : Readback) (us : Nat), (s.rus.pair.at p).cmd = false → levelAt rb.vh rb.vin = .high → peerTests s p us = false → (s.rus.pair.at p).test = .none →
      (s.rus.pair.at p).turn = .idle →
      exec (.readbackDeparture p rb us) s = .next (switchFault p 0x20 (readback p .high (levelAt rb.vl rb.vin) s))) ∧
    (∀ p : PairNo, testMoved s p = false → ∃ t, exec (.pulseTestStart p) s = .next t ∧
      ((s.rus.pair.at p).cmd = false → (t.rus.pair.at p).test = .on ∧ (t.rus.pair.at p).hsRb = true) ∧
      ((s.rus.pair.at p).cmd = true → (t.rus.pair.at p).test = .offHigh ∨ (t.rus.pair.at p).test = .offLow)) ∧
    (∀ (p : PairNo) (rb : Readback), (s.rus.pair.at p).test = .offHigh →
      (levelAt rb.vh rb.vin = .low →
        exec (.offPulseCheck p rb []) s = .next (readback p .low (levelAt rb.vl rb.vin) s)) ∧
      (levelAt rb.vh rb.vin = .high →
        exec (.offPulseCheck p rb []) s = .next (switchFault p 0x20 (readback p .high (levelAt rb.vl rb.vin) s)))) ∧
    (∀ (p : PairNo) (rb : Readback), (s.rus.pair.at p).test = .offLow → levelAt rb.vl rb.vin = .low →
      exec (.offPulseCheck p rb []) s = .next (switchFault p 0x21 (readback p (levelAt rb.vh rb.vin) .low s))) ∧
    (∀ p : PairNo, (s.rus.pair.at p).test = .offHigh → exec (.offPulseEnd p) s =
      .next (s.onPair p fun x => { x with test := .restoreHigh, hsRb := true })) ∧
    (∀ p : PairNo, (s.rus.pair.at p).test = .offLow → exec (.offPulseEnd p) s =
      .next (s.onPair p fun x => { x with test := .restoreLow, lsRb := true })) ∧
    (∀ (p : PairNo) (rb : Readback), (s.rus.pair.at p).test = .restoreHigh →
      exec (.offPulseRestoreCheck p rb) s = .next (
        let vh := levelAt rb.vh rb.vin
        let t := (readback p vh (levelAt rb.vl rb.vin) s).onPair p fun x => { x with test := .none }
        if vh = .high then t else switchFault p 0x22 t)) ∧
    (∀ p : PairNo, (s.rus.pair.at p).test = .on →
      (∀ rb : Readback, levelAt rb.vl rb.vin = .high →
        exec (.onPulseCheck p rb []) s = .next (s.onPair p fun x => { x with lsRb := false })) ∧
      exec (.onPulseEnd p) s = .next (s.onPair p fun x => { x with test := .none, hsRb := false, lsRb := true })) ∧
    (∀ o : OutletNo, mirrorFitted s o = true →
      ∀ level : Bool,
        (levelShowsOpen s o level = true →
          (pairOn s o = true → exec (.mirrorTimeout o level) s = .next (tripOpen o 0x26 false (showMirror o true s))) ∧
          exec (.mirrorUncommandedChange o level) s = .next (tripOpen o 0x26 false (showMirror o true s))) ∧
        (levelShowsOpen s o level = false →
          (pairOn s o = false → exec (.mirrorTimeout o level) s = .next (tripP o 0x25 false (showMirror o false s))) ∧
          exec (.mirrorUncommandedChange o level) s = .next (tripP o 0x25 false (showMirror o false s))))

/-- With Russet running: T_REL after a release the brake is Released if it shows released and its current passed its
minimum with a dip, fails with cause 0x28 if it does not show released, and with 0x29 otherwise. T_ENG after an
engagement it is Engaged, or fails with 0x28. A released brake whose current lies outside its limits in three readings
fails with 0x29. A movement beyond HT_CNT fails a test with 0x2A, TQREQ is lowered at the end of the torque, and a
test that ends without one leaves the brake Engaged with TEST_OK. A failed brake is in state Failed with its cause,
its TQREQ low and its pair off. HT_DUE that runs out marks the brake overdue. -/
def Obligations.BrakesComplete : Prop :=
  ∀ (s : State) (b : BrakeNo), s.dies.russet = .running →
    ((s.rus.brake.at b).state = .releasing →
      ∀ rise : List Nat, exec (.brakeReleaseCheck b false rise) s = .next (failBrake b 0x28 s) ∧
        (profileOk (s.rus.brake.at b) rise = true → exec (.brakeReleaseCheck b true rise) s = .next (setBrake b .released s)) ∧
        (profileOk (s.rus.brake.at b) rise = false →
          exec (.brakeReleaseCheck b true rise) s = .next (failBrake b 0x29 s))) ∧
    ((s.rus.brake.at b).state = .engaging →
      (∃ t, exec (.brakeEngageCheck b true) s = .next t ∧ (t.rus.brake.at b).state = .engaged ∧
        (t.rus.brake.at b).since = s.och.clock.mono) ∧
      exec (.brakeEngageCheck b false) s = .next (failBrake b 0x28 s)) ∧
    ((s.rus.brake.at b).state = .released → ∀ cs : List Nat, outsideLimits (s.rus.brake.at b) cs = true →
      exec (.brakeCurrentFault b cs) s = .next (failBrake b 0x29 s)) ∧
    ((s.rus.brake.at b).state = .testing →
      (∀ xs : List (Bool × Bool), (movement (s.rus.brake.at b) xs).2 = true →
        ∃ t, exec (.holdingTestMovement b xs) s = .next t ∧ (t.rus.brake.at b).state = .failed ∧
        (t.rus.brake.at b).cause = 0x2A ∧ (t.rus.brake.at b).tqreq = false ∧ (t.rus.pair.at (brakeOf b)).cmd = false) ∧
      (∃ t, exec (.holdingTestTorqueEnd b) s = .next t ∧ (t.rus.brake.at b).tqreq = false ∧
        (t.rus.brake.at b).state = .testing) ∧
      (∀ xs : List (Bool × Bool), (movement (s.rus.brake.at b) xs).2 = false →
        ∃ t, exec (.holdingTestEnd b xs) s = .next t ∧ (t.rus.brake.at b).state = .engaged ∧
        (t.rus.brake.at b).testOk = true ∧ (t.rus.brake.at b).overdue = false ∧
        (t.rus.brake.at b).passedAt = some s.och.clock.mono)) ∧
    (testInDate s (s.rus.brake.at b) = false → ∃ t, exec (.holdingTestOverdue b) s = .next t ∧ (t.rus.brake.at b).overdue = true ∧
      t.rus.pair = s.rus.pair) ∧
    (∀ cause : Byte, ((failBrake b cause s).rus.brake.at b).state = .failed ∧
      ((failBrake b cause s).rus.brake.at b).cause = cause ∧ ((failBrake b cause s).rus.pair.at (brakeOf b)).cmd = false)

/-- With Russet running: the release of an armed outlet's reset input, with every check passed in an unpaired module,
takes the outlet out of Lockout with FIRST, LAST and COUNT 0; a check that fails ends the press with its number and
the outlet stays in Lockout; a press held for more than 5 s is ignored and remembered, and after it a press counts
only from 100 ms high on; a press below 100 ms does nothing; the hub input presses every armed outlet. The window's
end disarms an outlet that does not wait for its peer; the peer's pass releases an outlet that waits for it and is
remembered otherwise; the peer's refusal or silence ends the press with result 6. In Paired standby a mirror grant is
remembered with its moment. An idle outlet in state A takes its pending modes. -/
def Obligations.ReleaseComplete : Prop :=
  ∀ (s : State) (o : OutletNo), s.dies.russet = .running →
    (∀ hi lo : Nat, (s.rus.outlet.at o).releaseArmed = true → pressCounts (s.rus.outHeld.at o) hi lo = true → s.pair.peer = 0 →
      (releaseCheckFailing s o = none → ∃ t, exec (.resetInputRelease (.out o) hi lo) s = .next t ∧
        (t.rus.outlet.at o).fault.classP = false ∧ (t.rus.outlet.at o).fault.first = 0 ∧
        (t.rus.outlet.at o).fault.last = 0 ∧ (t.rus.outlet.at o).fault.count = 0 ∧
        (t.rus.outlet.at o).releaseArmed = false ∧ t.rus.pair = s.rus.pair) ∧
      (∀ n, releaseCheckFailing s o = some n → ∃ t, exec (.resetInputRelease (.out o) hi lo) s = .next t ∧
        (t.rus.outlet.at o).fault = (s.rus.outlet.at o).fault ∧ (t.rus.outlet.at o).releaseArmed = false ∧
        t.rus.pair = s.rus.pair)) ∧
    (∀ hi lo : Nat, pressCounts (s.rus.outHeld.at o) hi lo = false → exec (.resetInputRelease (.out o) hi lo) s = .next s) ∧
    (∀ hi lo : Nat, exec (.resetInputRelease .hub hi lo) s =
      .next (if pressCounts s.rus.hubHeld hi lo = true then forEach outlets press { s with rus.hubHeld := false } else s)) ∧
    (∃ t, exec (.resetInputHeld (.out o)) s = .next t ∧ t.rus.outHeld.at o = true ∧ t.rus.outlet = s.rus.outlet) ∧
    (∃ t, exec (.resetInputHeld .hub) s = .next t ∧ t.rus.hubHeld = true ∧ t.rus.outlet = s.rus.outlet) ∧
    ((s.rus.outlet.at o).awaitsPeer = false → exec (.releaseWindowExpiry o) s =
      .next (s.onGuard o fun g => { g with releaseArmed := false })) ∧
    ((s.rus.outlet.at o).awaitsPeer = true →
      (∃ t, exec (.releasePeerResult o true) s = .next t ∧ (t.rus.outlet.at o).fault.classP = false ∧
        (t.rus.outlet.at o).fault.first = 0 ∧ t.rus.pair = s.rus.pair) ∧
      exec (.releasePeerResult o false) s = .next (releaseOutcome o 6 s) ∧
      exec (.releasePeerTimeout o) s = .next (releaseOutcome o 6 s)) ∧
    ((s.rus.outlet.at o).awaitsPeer = false → exec (.releasePeerResult o true) s =
      .next (s.onGuard o fun g => { g with peerPassed := some s.och.clock.mono })) ∧
    (roleNow s.modes = .standby → (s.rus.outlet.at o).closeReq = false → exec (.mirrorGrant o) s =
      .next (s.onGuard o fun g => { g with mirrorGrant := some s.och.clock.mono })) ∧
    ((s.veh.pilot.at o).state = .A → pairOn s o = false → ∃ t, exec (.pendingModeApply o) s = .next t ∧
      t.och.ha.at o = (s.och.haPend.at o).getD (s.och.ha.at o) ∧ t.och.haPend.at o = none ∧
      t.veh.ha.at o = (s.veh.haPend.at o).getD (s.veh.ha.at o) ∧ t.veh.haPend.at o = none ∧
      t.rdr.authPend.at o = none)

/-- With Russet running: a stop level accepted after its filter on either input puts its channel into the stop state
and every covered outlet into Lockout, and both inputs at run end stop and discrepancy; inputs that differ for 20 ms
put the channel into discrepancy and the covered outlets into Lockout. A frame with a wrong check changes nothing; the
frame after the last one in a fresh stream is taken by every outlet; a gap, or no correct frame for 192 us, makes the
stream stale. 16 frames in sequence make it fresh again. 50 ms of staleness takes the Class P decision 0x0E for the
outlets that are on, and 1 s of fresh stream clears cause 0x11. -/
def Obligations.StopsAndStreamComplete : Prop :=
  ∀ s : State, s.dies.russet = .running →
    (∀ (c : EstopNo) (inputB : Bool) (n : Nat), (s.rus.estop.at c).stop = false → filterPassed s n = true →
      ∃ t, exec (.estopLevelAccepted c inputB true n) s = .next t ∧
      (t.rus.estop.at c).stop = true ∧ (∀ o ∈ estopOutlets s c, (t.rus.outlet.at o).fault.classP = true)) ∧
    (∀ (c : EstopNo) (n : Nat), (s.rus.estop.at c).a = false → (s.rus.estop.at c).stop = true → filterPassed s n = true →
      ∃ t, exec (.estopLevelAccepted c true false n) s = .next t ∧ (t.rus.estop.at c).stop = false ∧
        (t.rus.estop.at c).disc = false ∧ t.rus.outlet = s.rus.outlet) ∧
    (∀ c : EstopNo, (s.rus.estop.at c).a ≠ (s.rus.estop.at c).b → (s.rus.estop.at c).disc = false →
      ∃ t, exec (.estopDiscrepancy c) s = .next t ∧ (t.rus.estop.at c).disc = true ∧
        ∀ o ∈ estopOutlets s c, (t.rus.outlet.at o).fault.classP = true) ∧
    (∀ f : Frame, f.checkOk = false → exec (.quantityFrame f) s = .next s) ∧
    (∀ f : Frame, f.checkOk = true → ochreSends s = true → s.rus.pend = false → s.rus.stream.stale = false → s.rus.stream.run ≠ 0 →
      f.seq = s.rus.stream.seq + 1 → exec (.quantityFrame f) s = .next (forEach outlets (frameOutlet f)
        { takeRoles s with rus.stream.seq := f.seq, rus.stream.run := min (s.rus.stream.run + 1) 16 })) ∧
    (∀ f : Frame, f.checkOk = true → ochreSends s = true → s.rus.pend = false → s.rus.stream.run ≠ 0 → f.seq ≠ s.rus.stream.seq + 1 →
      ∃ t, exec (.quantityFrame f) s = .next t ∧ t.rus.stream.stale = true ∧ t.rus.stream.run = 1) ∧
    (∃ t, exec .quantityStreamTimeout s = .next t ∧ t.rus.stream.stale = true ∧ t.rus.stream.run = 0) ∧
    (∀ units : Nat, s.rus.stream.stale = true → 16 ≤ s.rus.stream.run → ∃ t, exec (.quantityStreamFresh units) s = .next t ∧
      t.rus.stream.stale = false ∧ t.rus.outlet = s.rus.outlet ∧ t.rus.pair = s.rus.pair) ∧
    (s.rus.stream.stale = true → ∃ t, exec .streamStaleLockout s = .next t ∧
      ∀ o, (s.rus.pair.at (coilOf o)).cmd = true →
        (t.rus.outlet.at o).fault.classP = true ∧ (s.lockSafe → (t.rus.pair.at (coilOf o)).cmd = false)) ∧
    (s.rus.stream.stale = false → exec .streamClassEEnd s = .next (forEach outlets
      (fun o u => if (u.rus.outlet.at o).ce.causes.contains 0x11 then clearCause o 0x11 u else u) s))

/-- Each of these commands completes. A failed received clock makes the 16 inputs of its group invalid; a Manchester
input that loses lock is unlocked and invalid, and no longer unlocked when it is in lock, its other conditions
unchanged; a stuck clocked input is invalid, and when those conditions end an input is invalid only as far as it is
unlocked. A lane's self-test that passes is recorded with its time; a failed one marks the lane, takes it out of use
when it serves no input, and starts a swap to a spare lane otherwise, or fails the input's lane when no spare is left.
The comparison of a running swap is judged on the two lanes' codes and recorded. -/
def Obligations.InputsAndLanesComplete : Prop :=
  ∀ s : State,
    (∀ g : GroupNo, wBit (s.och.set.roleNow.groups.at g) 3 = true → ∃ t, exec (.groupClockInvalid g) s = .next t ∧
      ∀ i ∈ groupInputs g, (t.och.input.at i).invalid = true) ∧
    (∀ i : InputNo, manchester s i = true → s.dies.ochre ≠ .held →
      (∃ t, exec (.manchesterLockLost i) s = .next t ∧ (t.och.input.at i).invalid = true ∧
        (t.och.input.at i).unlocked = true) ∧
      (∃ t, exec (.manchesterLockAcquired i) s = .next t ∧ (t.och.input.at i).unlocked = false ∧
        (t.och.input.at i).clockBad = (s.och.input.at i).clockBad)) ∧
    (∀ i : InputNo, manchester s i = false → ∃ t, exec (.stuckInputDetect i) s = .next t ∧
      (t.och.input.at i).invalid = true) ∧
    (∀ i : InputNo, ∃ t, exec (.inputValidAgain i) s = .next t ∧
      (t.och.input.at i).invalid = (s.och.input.at i).unlocked) ∧
    (∀ l : LaneNo, s.dies.ochre = .running → factoryOk s l.val = true → ∃ t, exec (.laneSelfTest l true) s = .next t ∧
      (t.och.lane.at l).passed = true ∧ (t.och.lane.at l).lastPass = legalUnits s) ∧
    (∀ l : LaneNo, s.dies.ochre = .running → laneServes s l = none → ∃ t, exec (.laneSelfTest l false) s = .next t ∧
      (t.och.lane.at l).passed = false ∧ (t.och.lane.at l).out = true) ∧
    (∀ (l : LaneNo) (i : InputNo), s.dies.ochre = .running → laneServes s l = some i → (s.och.input.at i).swap = none →
      (s.och.input.at i).laneFailed = false → ∃ t, exec (.laneSelfTest l false) s = .next t ∧
      (t.och.lane.at l).passed = false ∧
      ((t.och.input.at i).swap.isSome = true ∨ (t.och.input.at i).laneFailed = true)) ∧
    (∀ (i : InputNo) (l : LaneNo) (pairs : List (Int × Int)), (s.och.input.at i).swap = some l →
      ∃ t, exec (.laneComparisonEnd i pairs) s = .next t ∧
        (t.och.input.at i).compared = some (lanesAgree s i l pairs) ∧ (t.och.input.at i).lane = (s.och.input.at i).lane)

/-- With Ochre metering an outlet outside the Paired roles: a counted AC boundary adds the energy of the completed
cycle to the outlet's totals and commits what waits for the boundary; a crossing too early or too weak is ignored, and
so is a synthetic boundary that merges with a crossing; the start of synthetic boundaries sets SYNTH; a DC period adds
its energy. A 10 ms save copies the accumulators of every outlet that still has a save copy into its newer copy. A
legal second closes the 1 s values. A harmonic window of enough cycles becomes the latest result and the latest one
the previous; the supraharmonic rotation moves to its next step of 56; a raw block is added with the next sequence
number. -/
def Obligations.MeteringComplete : Prop :=
  ∀ (s : State) (o : OutletNo), s.dies.ochre = .running →
    (∀ c : Cycle, metered s o = true → ignored s o c = false → merged s o c = false → isAc s o = true → servingRole s = .solo →
      ∃ t, exec (.meteringBoundary o c) s = .next t ∧
        (t.och.meter.at o).acc.totals = addTotals (acEnergy (acTotals s o c) (cycleNs c) 0) (s.och.meter.at o).acc.totals ∧
        (t.och.meter.at o).tAct = BitVec.ofInt 12 (nearest (meanTemp c.temps * 16)) ∧
        (c.late = false → (t.och.meter.at o).pendFlags = 0 ∧ t.och.set.calPend.at o = false)) ∧
    (∀ c : Cycle, ignored s o c = true → exec (.meteringBoundary o c) s = .next s) ∧
    (∀ c : Cycle, ignored s o c = false → merged s o c = true → c.synthetic = true →
      exec (.meteringBoundary o c) s = .next s) ∧
    (metered s o = true → isAc s o = true → ∃ t, exec (.syntheticBoundaryStart o) s = .next t ∧
      (t.och.meter.at o).synth = true) ∧
    (∀ d : DcPeriod, metered s o = true → isDc s o = true → servingRole s = .solo → ∃ t,
      exec (.dcPeriodEnd o d) s = .next t ∧
        (t.och.meter.at o).acc.totals = addTotals
          (dcEnergyOf (periodEnergy s o 2 3 d) (periodEnergy s o 6 3 d) 0) (s.och.meter.at o).acc.totals) ∧
    (∀ (ts : List Tail) (late : Bool), s.sup.saveDone = false → s.och.set.tariffPend = false →
      ∃ t, exec (.saveBoundary ts late) s = .next t ∧ t.och.clock.savedUs = s.och.clock.us ∧ t.sup.marker = none ∧
      ∀ p, (s.och.meter.at p).saves.toList.all (·.lost) = false →
        ((t.och.meter.at p).saves.at (t.och.meter.at p).newer).acc = (s.och.meter.at p).acc) ∧
    (∃ t, exec .legalSecond s = .next t ∧ (t.och.meter.at o).last = (s.och.meter.at o).now ∧
      (t.och.meter.at o).now = .zero ∧ (t.och.meter.at o).acc = (s.och.meter.at o).acc) ∧
    (∀ w : HarmonicInput, metered s o = true → typeOf s o ≠ 0 → windowCycles s o ≤ (s.och.analysis.at o).cycles.length →
      ∃ t, exec (.harmonicWindowEnd o w) s = .next t ∧ (t.och.analysis.at o).latest = some (windowOf s o w) ∧
      (t.och.analysis.at o).previous = (s.och.analysis.at o).latest) ∧
    (∀ rs : List SupraInput, s.och.clock.checkFailed = false → ∃ t, exec (.supraharmonicStep rs) s = .next t ∧
      t.och.meter = s.och.meter ∧ t.och.supraStep = (s.och.supraStep + 1) % 56) ∧
    (∀ r : RawInput, metered s o = true → s.och.ha.at o = true → ∃ t, exec (.rawBlockComplete o r) s = .next t ∧
      (t.och.analysis.at o).rawSeq = (s.och.analysis.at o).rawSeq + 1 ∧ (t.och.analysis.at o).raw ≠ [])

/-- A legal tick moves legal time and the monotonic counter to the next tick that was asked for, no further than the
next whole minute; inside a minute nothing else happens, and while a power failure defers the minute's events they
wait. An outlet's oldest closing interval becomes final and is the latest of its kept records. A switch of tariff 60 s
ahead is announced when announcing is selected. A tamper input that changes while Teal has a supply adds Teal's record
with the next TSEQ, counts an opening, and an opening outside Backup watch empties the vault; Ochre's copy leaves no
record uncopied. -/
def Obligations.LegalTimeComplete : Prop :=
  (∀ (s : State) (quiet : Nat), ∃ t, exec (.legalTick quiet) s = .next t ∧
    t.och.clock.us = nextTick s.och.clock.us quiet ∧
    t.och.clock.mono = s.och.clock.mono + (nextTick s.och.clock.us quiet - s.och.clock.us)) ∧
  (∀ (s : State) (quiet : Nat), s.och.clock.failedAt.isSome = true ∨ nextTick s.och.clock.us quiet % minuteUs ≠ 0 →
    exec (.legalTick quiet) s = .next (advance (nextTick s.och.clock.us quiet - s.och.clock.us) s)) ∧
  (∀ (s : State) (o : OutletNo) (i : Machine.Interval) (l : List Machine.Interval), (s.och.meter.at o).acc.closing = i :: l →
    ∃ t, exec (.demandIntervalFinal o) s = .next t ∧ (t.och.meter.at o).acc.closing = l ∧ (t.och.meter.at o).acc.totals = (s.och.meter.at o).acc.totals ∧
    (t.och.intervals.at o).getLast?.map (·.tEnd) = some i.tEnd) ∧
  (∀ s : State, s.och.tariffs.ha = false → exec .tariffSwitchAnnounce s = .next s) ∧
  (∀ s : State, s.och.tariffs.ha = true → activationDue s ((s.och.clock.us / minuteUs + 1) * minuteUs) = false →
    tariffAt s.och.tariffs.active ((s.och.clock.us / minuteUs + 1) * minuteUs) ≠ s.och.tariffs.tariff.toNat →
    ∃ t, exec .tariffSwitchAnnounce s = .next t ∧
      t.och.tariffs.announced.map (·.1) = some ((s.och.clock.us / minuteUs + 1) * minuteUs / 64) ∧
      t.och.tariffs.tariff = s.och.tariffs.tariff) ∧
  (∀ (s : State) (k : TamperNo) (opened : Bool), s.teal.level.at k ≠ opened → (s.sup.mainOk = true ∨ s.sup.vbatOk = true) →
    ∃ t, exec (.tamperChange k opened) s = .next t ∧ t.teal.level.at k = opened ∧ t.teal.tseq = s.teal.tseq + 1 ∧
      t.teal.ring.getLast?.map (·.tseq) = some s.teal.tseq ∧
      t.teal.openings.at k = (if opened then satAdd 32 (s.teal.openings.at k) 1 else s.teal.openings.at k) ∧
      (opened = true → s.modes.base ≠ .backupWatch → t.mem.vault = [])) ∧
  (∀ s : State, s.dies.ochre = .running → ∃ t, exec .tamperRecordCopy s = .next t ∧ t.teal.uncopied = 0)

/-- With Ochre running, and the lease held where the module is the active one: an accepted start opens the outlet's
record with SID, AUTH and the registers of the moment, and clears the session registers; a refused one is counted; a
stop of the open record gives it the next REC_NO and the stop time; a stop sent while Ochre does not answer waits to
be sent again. A stopped record is signed and placed outside Paired standby: in the retained store where there is
room, in its outlet's slot otherwise, and a waiting record moves to the store when a place becomes available. A
whitelist command that Ochre has not answered for 10 ms is answered TIMEOUT. -/
def Obligations.SessionRecordsComplete : Prop :=
  (∀ (s : State) (o : OutletNo) (sid auth : BitVec 64), s.dies.ochre = .running → leaseHeld s = true → startRefusal s o = none →
    ∃ t, exec (.sessionStart o sid auth) s = .next t ∧
      t.och.recs.slots.at o = .opened (openRecord s o sid auth) s.och.clock.mono ∧
      (t.veh.session.at o).accepted = true ∧ (t.veh.session.at o).sid = sid ∧
      (t.och.meter.at o).acc.sessImp = 0 ∧ (t.och.meter.at o).acc.totals = (s.och.meter.at o).acc.totals) ∧
  (∀ (s : State) (o : OutletNo) (sid auth : BitVec 64) (st : Status), s.dies.ochre = .running → leaseHeld s = true →
    startRefusal s o = some st →
    exec (.sessionStart o sid auth) s = .next (refuseStart o st s)) ∧
  (∀ (s : State) (o : OutletNo) (r : SessionRecord) (u : Nat), s.dies.ochre = .running → leaseHeld s = true → recordRole s = true →
    s.och.recs.slots.at o = .opened r u → ∃ t r', exec (.sessionStop o r.sid) s = .next t ∧
      t.och.recs.slots.at o = .stopped r' u s.och.clock.mono ∧ r'.recNo = s.och.recs.recNo + 1 ∧
      t.och.recs.recNo = s.och.recs.recNo + 1 ∧ r'.tStop = legalUnits s ∧ r'.sid = r.sid) ∧
  (∀ (s : State) (o : OutletNo) (sid : BitVec 64), s.dies.ochre ≠ .running → ∃ t, exec (.sessionStop o sid) s = .next t ∧
    t.och.recs.resend.at o = some sid ∧ t.och.recs.slots = s.och.recs.slots) ∧
  (∀ (s : State) (o : OutletNo) (sid : BitVec 64), s.och.recs.resend.at o = some sid →
    exec (.sessionStopResend o) s = exec (.sessionStop o sid) s) ∧
  (∀ (s : State) (o : OutletNo), s.och.recs.resend.at o = none → exec (.sessionStopResend o) s = .next s) ∧
  (∀ (s : State) (o : OutletNo) (r : SessionRecord) (u v : Nat), s.dies.ochre = .running → roleNow s.modes ≠ .standby →
    s.och.recs.slots.at o = .stopped r u v → ∃ t, exec (.sessionRecordSign o) s = .next t ∧
      t.och.recs.lastClosed.at o = some (signRecord s (finished s o r)) ∧
      (retainedRoom s = true → t.och.recs.slots.at o = .empty) ∧
      (retainedRoom s = false → t.och.recs.slots.at o = .waiting (signRecord s (finished s o r)) ∧
        t.och.recs.retained = s.och.recs.retained)) ∧
  (∀ (s : State) (o : OutletNo) (r : SessionRecord), s.dies.ochre = .running → retainedRoom s = true →
    firstWaiting s = some (o, r) → ∃ t, exec .waitingRecordMove s = .next t ∧ t.och.recs.slots.at o = .empty) ∧
  (∀ (s : State) (c : Cmd) (op : BitVec 16), whitelistOps.contains op.toNat = true → (findFetch op.toNat c s).isSome = true →
    controlRuns s = true → exec (.whitelistTimeout c op) s = .next (answer op.toNat c (reply .timeout 0) s))

/-- With the display driven: the end of a TN frame shows the page composed last, turns the polarity of the frame, and
commits a pending configuration that was accepted in time. A bistable update starts, not sooner after the last one
than its configuration allows, when the frame that waits differs from the committed one: the journal holds STARTED
with the target, and the rows that differ are due; the end of the indicator's write or of a row enters the next row;
and with every row written the update commits, the target is the committed frame and FRAME_SEQ counts. Item 0x00 ends
after its time and the page is composed anew. -/
def Obligations.DisplayComplete : Prop :=
  ∀ s : State, s.och.display.driven = true →
    (∀ late : Bool, twisted s.och.display = true → ∃ t, exec (.displayFrameEnd late) s = .next t ∧
      t.och.display.shown = s.och.display.composed.getD s.och.display.shown ∧ t.och.display.composed = none ∧
      t.och.display.positive = !s.och.display.positive ∧ (late = false → t.och.display.pend = false)) ∧
    (∀ f : List Byte, s.dies.ochre = .running → bistable s.och.display = true → updateAllowed s = true → s.och.display.rows = none →
      s.och.display.waiting = some f → f ≠ s.och.display.journal.committed → ∃ t, exec .bistableUpdateStart s = .next t ∧
        t.och.display.journal.state = 1 ∧ t.och.display.journal.target = f ∧
        t.och.display.journal.committed = s.och.display.journal.committed ∧
        t.och.display.rows = some (rowsThatDiffer f s.och.display.journal.committed)) ∧
    (∀ (c : Nat) (l : List Nat), s.dies.ochre = .running → s.och.display.rows = some (c :: l) →
      (s.och.display.journal.state = 1 → ∃ t, exec .fullCommonWriteEnd s = .next t ∧ t.och.display.journal.state = 3 ∧
        t.och.display.journal.row = BitVec.ofNat 3 c ∧ t.och.display.rows = some (c :: l)) ∧
      (s.och.display.journal.state = 3 → ∃ t, exec .fullCommonWriteEnd s = .next t ∧ t.och.display.rows = some l ∧
        (l = [] → t.och.display.journal.state = 4))) ∧
    (s.dies.ochre = .running → s.och.display.rows = some [] → s.och.display.journal.state = 4 → s.och.display.pend = false →
      ∀ late : Bool, ∃ t, exec (.bistableUpdateCommit late) s = .next t ∧ t.och.display.rows = none ∧
        t.och.display.journal.state = 0 ∧ t.och.display.journal.committed = s.och.display.journal.target ∧
        t.och.display.journal.frameSeq = s.och.display.journal.frameSeq + 1) ∧
    (∃ t, exec .identityDisplayTimeout s = .next t ∧ t.och.display.identity = false)

/-- With Fescue running: a pilot boundary commits the link words accepted in time and the drive that waits, and
measures the plateau; a class that its filter has confirmed and that gives another state is reported to Russet, and E
on an outlet whose pair is on puts it into Lockout; the same state only takes the invalid mark; a new proximity code
on which the readings kept agree is taken; 5 s after an energised outlet's offer was withdrawn the pair opens. A SLAC
parameter request on a candidate's line opens its run, and other lines ignore it; the end of the sounding interval
closes the run and, where one candidate is clearly the best, that outlet answers; a match of that run with a key of no
other outlet associates the vehicle; 60 s without association in state B give SLAC up, on a DC outlet until 3 s of -12
V have passed. -/
def Obligations.PilotAndSlacComplete : Prop :=
  ∀ (s : State) (o : OutletNo), s.dies.fescue = .running →
    (∀ (xs : List Int) (late : Bool), ∃ t, exec (.pilotBoundary o xs late) s = .next t ∧ (t.veh.pilot.at o).next = none ∧
      ((s.veh.pilot.at o).drive ≠ 3 → (t.veh.pilot.at o).vpos = positivePlateau (s.veh.pilot.at o) xs) ∧
      (late = false → (t.veh.pilot.at o).word0 = (s.veh.pilot.at o).word0.commit ∧
        (t.veh.pilot.at o).word1 = (s.veh.pilot.at o).word1.commit)) ∧
    (∀ c : PilotClass, (s.veh.pilot.at o).drive = 1 ∨ (s.veh.pilot.at o).drive = 2 → filterDone (s.veh.pilot.at o) c = true →
      ((s.veh.pilot.at o).state ≠ stateOf c → ∃ t, exec (.filteredStateChange o c) s = .next t ∧
        (t.veh.pilot.at o).state = stateOf c ∧ (t.rus.outlet.at o).pilot = stateOf c ∧
        (stateOf c = .E → s.dies.russet = .running → (s.rus.pair.at (coilOf o)).cmd = true →
          (t.rus.outlet.at o).fault.classP = true)) ∧
      ((s.veh.pilot.at o).state = stateOf c → exec (.filteredStateChange o c) s =
        .next (s.onPilot o fun p => { p with inval := c == .invalid }))) ∧
    (∀ (reads : List ProxRead) (code : Nat),
      proxAgreed (wBit (linkWord s o) 15) (reads.filter fun r => !proxDiscarded s r) = some code →
      (s.veh.pilot.at o).prox.toNat ≠ code → ∃ t, exec (.proxCodeChange o reads) s = .next t ∧
        (t.veh.pilot.at o).prox = BitVec.ofNat 3 code) ∧
    ((s.veh.pilot.at o).withdrawn = true → (s.rus.pair.at (coilOf o)).cmd = true →
      ∃ t, exec (.offerWithdrawalTimeout o) s = .next t ∧ (t.rus.pair.at (coilOf o)).cmd = false ∧
        (t.veh.pilot.at o).withdrawn = false) ∧
    (∀ (run : BitVec 64) (mac : BitVec 48), candidate s o = true → slacRun s run = none →
      ∃ t, exec (.slacMessage o (.parmReq run mac)) s = .next t ∧
        t.veh.slac.runs = s.veh.slac.runs ++ [{ run := run, mac := mac, profiles := [] }]) ∧
    (∀ m : SlacMsg, candidate s o = false → exec (.slacMessage o m) s = .next s) ∧
    (∀ (run : BitVec 64) (r : SlacRun), slacRun s run = some r → ∃ t, exec (.slacSoundingEnd run) s = .next t ∧
      slacRun t run = none ∧
      (clearBest (wFld s.veh.module.now 0 8) (withinMax s r) = some o → t.veh.slac.answering.at o = some (run, r.mac))) ∧
    (∀ (run : BitVec 64) (nmk : BitVec 128) (mac : BitVec 48), s.veh.slac.answering.at o = some (run, mac) →
      keyTaken s o nmk = false → leaseHeld s = true → ∃ t, exec (.slacMatch o run nmk) s = .next t ∧
      t.veh.slac.vehicle.at o = some mac ∧ t.veh.slac.nmk.at o = some nmk ∧ t.veh.slac.answering.at o = none) ∧
    (candidate s o = true → (s.veh.pilot.at o).state = .B → isDc s o = true → ∃ t, exec (.slacTimeout o) s = .next t ∧
      t.veh.slac.left.at o = true ∧ (t.veh.pilot.at o).dcRestart = true) ∧
    (candidate s o = true → (s.veh.pilot.at o).state = .B → isDc s o = false → ∃ t, exec (.slacTimeout o) s = .next t ∧
      t.veh.slac.left.at o = true) ∧
    ((s.veh.pilot.at o).dcRestart = true → ∃ t, exec (.dcSlacRestart o) s = .next t ∧ t.veh.slac.left.at o = false ∧
      (t.veh.pilot.at o).dcRestart = false)

namespace Sys2Proof

/-- A session core serves the outlet, in one of these protocols and phases, over a transport that the protocol admits. -/
def V2gServed (s : State) (o : OutletNo) (protos phases : List Nat) : Prop :=
  v2gRuns s o = true ∧ protoOf s o ∈ protos ∧ sessionPhase s o ∈ phases ∧
    transportOk (protoOf s o) (s.veh.session.at o).tls = true

end Sys2Proof

/-- On an outlet that a session core serves: the first enabled protocol of the vehicle's ranking is selected; setup,
service detail, authorization setup and, with a verified root, payment details and certificate requests are answered
as the rules say, a certificate request going to host software with the next request identifier; service selection and
discovery are answered with what the module offers; an authorization request in phase 3 is answered by whether Ochre
accepted the start, and one in phase 2 by other means with Ongoing; parameters in hardware mode fix the agreed
current, and discharge is settled at the schedule exchange. A request out of its phases ends the session, and so does
a message outside R222. A handshake with a supported suite, a stored chain that carries the key of its slot and a key
that signs puts that suite in force, and one without a common version ends the session with an alert. -/
def Obligations.V2gSetupComplete : Prop :=
  ∀ (s : State) (o : OutletNo),
    (∀ (l : List Proto) (p : Proto), V2gServed s o [0] [2] → chosenProto s o l = some p →
      ∃ t, exec (.v2gSupportedAppProtocol o l) s = .next t ∧ (t.veh.session.at o).proto.toNat = protoCode p ∧
        (t.veh.session.at o).answer = some (.proto p)) ∧
    (V2gServed s o [1, 2, 3] [2] → exec (.v2gSessionSetup o) s = .next (sendAnswer o .ok s)) ∧
    (V2gServed s o [1, 2, 3] [2, 3] → exec (.v2gServiceDiscovery o) s = .next (sendAnswer o
      (.services (isDc s o) (offersBpt s o) (offersContract s o) (2 ≤ protoOf s o) (protoOf s o == 2)) s)) ∧
    (∀ v : V2gService, V2gServed s o [2, 3] [2, 3] → offersService s o v = true →
      exec (.v2gServiceDetail o v) s = .next (sendAnswer o .ok s)) ∧
    (∀ (v : V2gService) (c : Bool), V2gServed s o [1, 2, 3] [2, 3] → offersService s o v = true →
      (c = true → offersContract s o = true) → ∃ t, exec (.v2gServiceSelection o v c) s = .next t ∧
        (t.veh.session.at o).contract = c ∧ (t.veh.session.at o).answer = some .ok) ∧
    (∀ id : List Byte, V2gServed s o [2] [2] → (s.veh.session.at o).contract = true → offersContract s o = true →
      (verifyRoot [5, 6] s).1 = true → ∃ t, exec (.v2gPaymentDetails o id true) s = .next t ∧
        (t.veh.session.at o).auth = contractRef id ∧ (t.veh.session.at o).answer = some .ok) ∧
    (V2gServed s o [3] [2] → exec (.v2gAuthorizationSetup o) s = .next (sendAnswer o .ok s)) ∧
    (∀ (sig chain : Bool) (id : List Byte), V2gServed s o [1, 2, 3] [3] → transferOk s o = true →
      exec (.v2gAuthorization o sig chain id) s =
      .next (sendAnswer o (if (s.veh.session.at o).accepted then .ok else .ongoing) s)) ∧
    (∀ sig chain : Bool, V2gServed s o [1] [2] → transferOk s o = true → s.veh.grant.at o = none →
      exec (.v2gAuthorization o sig chain []) s =
      .next (sendAnswer o .ongoing s)) ∧
    (∀ most : Nat, V2gServed s o [1, 2, 3] [4, 6] → (s.veh.session.at o).accepted = true → transferOk s o = true →
      (isDc s o = false ∨ ratedAmps s o ≠ 0) → s.veh.ha.at o = false → ∃ t, exec (.v2gChargeParameterDiscovery o most) s =
        .next t ∧ (t.veh.session.at o).agreed = min (offeredLimit s o) most) ∧
    (∀ dynamic : Bool, V2gServed s o [3] [4, 6] → s.veh.ha.at o = false → ∃ t, exec (.v2gScheduleExchange o dynamic) s = .next t ∧
      (t.veh.session.at o).dynamic = dynamic ∧ (t.veh.session.at o).discharge = some (s.veh.session.at o).bpt) ∧
    (V2gServed s o [2, 3] [2, 3] → (s.veh.session.at o).cert = none → (verifyRoot [7] s).1 = true →
      ∃ t, exec (.v2gCertificateInstallation o true) s = .next t ∧ t.veh.reqId = s.veh.reqId + 1 ∧
        (t.veh.session.at o).cert = some (s.veh.reqId + 1, 0) ∧ (t.veh.session.at o).answer = some .ongoing) ∧
    (V2gServed s o [2] [2, 3] → (s.veh.session.at o).cert = none → (verifyRoot [7] s).1 = true →
      ∃ t, exec (.v2gCertificateUpdate o true) s = .next t ∧ (t.veh.session.at o).cert = some (s.veh.reqId + 1, 1)) ∧
    (∀ (f : TlsOffer) (v : Nat) (x : CipherSuite), v2gRuns s o = true → sessionPhase s o = 2 → tlsVersion s o f = some v →
      tlsSuite v f = some x → leafCarries (readChain (tlsKey v) s) (tlsKey v) = true →
      (useMapped (s.veh.keyMap.at (Fin.ofNat 8 (tlsKey v).val)) 1 31 (readChain (tlsKey v) s)).1 = true →
      ∃ t, exec (.tlsHandshake o f) s = .next t ∧ (t.veh.session.at o).tls = some x) ∧
    (∀ f : TlsOffer, v2gRuns s o = true → sessionPhase s o = 2 → tlsVersion s o f = none →
      exec (.tlsHandshake o f) s = .next (v2gEnd o .tlsAlert s)) ∧
    (v2gRuns s o = true → exec (.v2gUnsupportedMessage o) s = .next (v2gEnd o .failed s)) ∧
    (v2gRuns s o = true → sessionPhase s o ≠ 2 → exec (.v2gSessionSetup o) s = .next (v2gEnd o .failed s))

/-- On an outlet that a session core serves: a cable check of a DC outlet in filtered state C or D enters phase 5 and
is answered Ongoing until the pair is on, a pre-charge is answered with the pair on, PowerDelivery starts phase 6
after phase 4 on AC and phase 5 on DC, and its stop begins the stop of the session. A charge loop answers with Ochre's
counts and the least of the asked, agreed and offered current; a welding detection answers Uveh and enters phase 8; a
metering receipt is answered. SessionStop and a sequence timeout carry the stop to its end. A certificate request or a
policy request whose time runs out leaves the waiting ones and is remembered as expired. A silent session core is
marked and then tested; a failed self-test retires it. DC_HOLD's end opens the pair of a held DC session in phase 6. -/
def Obligations.V2gRunComplete : Prop :=
  ∀ (s : State) (o : OutletNo),
    (V2gServed s o [1, 2, 3] [4] → isDc s o = true → vehicleReady s o = true → ∃ t, exec (.v2gCableCheck o) s = .next t ∧
      (t.veh.session.at o).phase = 5) ∧
    (V2gServed s o [1, 2, 3] [5] → isDc s o = true → exec (.v2gCableCheck o) s = .next (sendAnswer o
      (if pairOn s o then .ok else .ongoing) s)) ∧
    (V2gServed s o [1, 2, 3] [5] → isDc s o = true → pairOn s o = true → exec (.v2gPreCharge o) s = .next (sendAnswer o .ok s)) ∧
    (V2gServed s o [1, 2, 3] [if isDc s o then 5 else 4] → exec (.v2gPowerDelivery o .start) s =
      .next (sendAnswer o .ok (setPhase o 6 s))) ∧
    (V2gServed s o [1, 2, 3] [4, 5, 6, 7] → exec (.v2gPowerDelivery o .stop) s = .next (sendAnswer o .ok (stopSession o s))) ∧
    (V2gServed s o [2, 3] [6] → s.veh.ha.at o = false → exec (.v2gPowerDelivery o .renegotiate) s =
      .next (sendAnswer o .ok s)) ∧
    (∀ (i : Instr) (c : Nat),
      (i = .v2gCurrentDemand o c ∧ V2gServed s o [1, 2] [6] ∧ isDc s o = true) ∨
      (i = .v2gChargingStatus o ∧ c = (s.veh.session.at o).agreed ∧ V2gServed s o [2] [6] ∧ isDc s o = false) ∨
      (i = .v2gAcChargeLoop o c ∧ V2gServed s o [3] [6] ∧ isDc s o = false) ∨
      (i = .v2gDcChargeLoop o c ∧ V2gServed s o [3] [6] ∧ isDc s o = true) →
      exec i s = .next (sendAnswer o (.meter (countOf ((s.och.meter.at o).acc.totals.at 0))
        (countOf ((s.och.meter.at o).acc.totals.at 1)) (min c (min (s.veh.session.at o).agreed (offeredLimit s o)))) s)) ∧
    (V2gServed s o [2, 3] [6, 7] → exec (.v2gMeteringReceipt o) s = .next (sendAnswer o .ok s)) ∧
    (V2gServed s o [1, 2, 3] [7] → isDc s o = true → ∃ t, exec (.v2gWeldingDetection o) s = .next t ∧
      (t.veh.session.at o).phase = 8 ∧ (t.veh.session.at o).answer = some (.voltage (uvehNow s o))) ∧
    (∀ pause : Bool, V2gServed s o [2, 3] [2, 3, 4, 5, 6, 7, 8] → ∃ t, exec (.v2gSessionStop o pause) s = .next t ∧
      (t.veh.session.at o).phase = 9 ∧ (t.veh.session.at o).paused = pause ∧ (t.veh.session.at o).answer = some .ok) ∧
    (v2gRuns s o = true → ∃ t, exec (.sequenceTimeout o) s = .next t ∧ (t.veh.session.at o).phase = 9) ∧
    (∀ (id : Word) (k : Nat), controlRuns s = true → (s.veh.session.at o).cert = some (id, k) → ∃ t,
      exec (.certificateAnswerTimeout o) s = .next t ∧ (t.veh.session.at o).cert = none ∧
      (t.veh.session.at o).answer = some .failed ∧ t.veh.expiredCerts = s.veh.expiredCerts ++ [(id, o)]) ∧
    (∀ (kind : PolicyKind) (r : PolicyRequest), controlRuns s = true →
      s.veh.policies.find? (fun r => r.outlet == o && r.kind == policyCode kind) = some r → ∃ t,
      exec (.policyTimeout o kind) s = .next t ∧ t.veh.expired = s.veh.expired ++ [r]) ∧
    (∀ k : CoreNo, controlRuns s = true → (s.veh.core.at k).silent = false → (s.veh.core.at k).retired = false → ∃ t,
      exec (.sessionCoreSilent k) s = .next t ∧ (t.veh.core.at k).silent = true) ∧
    (∀ (pass : Bool) (k : CoreNo), controlRuns s = true → testedCore s = some k → ∃ t,
      exec (.sessionCoreSelfTestEnd pass) s = .next t ∧ (t.veh.core.at k).silent = !pass ∧ (t.veh.core.at k).retired = !pass) ∧
    (s.dies.fescue = .running → (s.veh.session.at o).held = true → isDc s o = true → (s.veh.session.at o).phase = 6 →
      exec (.dcHoldExpiry o) s = .next (openPair o s)) ∧
    (∀ a : V2gAnswer, sessionPhase s o ≠ 0 → sessionPhase s o ≠ 9 →
      ((v2gEnd o a s).veh.session.at o).phase = 9 ∧ ((v2gEnd o a s).veh.session.at o).answer = some a ∧
      ((v2gEnd o a s).veh.session.at o).tls = none ∧ ((v2gEnd o a s).veh.session.at o).cert = none)

/-- While Spelt runs, after a control tick every channel's demand is its ON bit or its rule's result, every output is
on only where demand, protection, shedding and pulse allow it, each current is the one measured under the settings in
force, and AGG_I is their sum. A junction at 175 C, or one that exceeds the substrate by more than DT_LIM, turns a
channel that is on off and leaves it in thermal latch, retries exhausted or the protection itself, by the latch and
then the retry rule. A restart of a channel that has cooled ends the protection and counts, unless CLR made it free. A
pulse edge is stored, a broadcast carries the conditions and ends an absence, and 50 ms without one begins it. A
rule's delay that has run out changes the rule's result. On-state samples set or clear OL_ON. A shed turns off the
next candidate and keeps its current; a restore takes the first of the shed ones. The cap follows AGG_MAX and the case
temperature. -/
def Obligations.SpeltComplete : Prop :=
  ∀ s : State, s.dies.spelt = .running →
    (∀ (meas : List ChanMeas) (sub : Int) (late : Bool), ∃ t, exec (.speltControlTick meas sub late) s = .next t ∧ t.spe.aggI = aggregate t ∧
      ∀ k : ChanNo, (t.spe.chan.at k).demand = channelDemand t (t.spe.chan.at k) ∧
        (t.spe.chan.at k).output = outputOf t (t.spe.chan.at k) ∧
        (t.spe.chan.at k).iSense =
          (measured meas sub k (if late then s.spe.chan.at k else commitChannel (s.spe.chan.at k))).iSense) ∧
    (∀ (k : ChanNo) (i : Instr) (p : Protection) (tj sub : Int), (s.spe.chan.at k).prot = .none → (s.spe.chan.at k).demand = true →
      (i = .thermalShutdown k tj ∧ 175 ≤ tj ∧ p = .thermal) ∨
        (i = .differenceLimit k tj sub ∧ differenceMax (s.spe.chan.at k) < tj - sub ∧ tj < 175 ∧ p = .difference) →
      ∃ t, exec i s = .next t ∧ (t.spe.chan.at k).output = false ∧
        (t.spe.chan.at k).events = 0 :: (s.spe.chan.at k).events ∧
        (t.spe.chan.at k).prot = protAfter p { s.spe.chan.at k with events := 0 :: (s.spe.chan.at k).events } ∧
        (t.spe.chan.at k).retryCnt = (s.spe.chan.at k).retryCnt) ∧
    (∀ (k : ChanNo) (tj sub : Int), cooled (s.spe.chan.at k) tj sub = true →
      (s.spe.chan.at k).demand = true → pulseActive s (s.spe.chan.at k) = true →
      ∃ t, exec (.channelRestart k tj sub) s = .next t ∧ (t.spe.chan.at k).prot = .none ∧
        (t.spe.chan.at k).retryCnt =
          if (s.spe.chan.at k).freeRestart then (s.spe.chan.at k).retryCnt else (s.spe.chan.at k).retryCnt + 1) ∧
    (∀ (p : PulseNo) (high : Bool), ∃ t, exec (.pulseEdge p high) s = .next t ∧ t.spe.pulse.at p = high) ∧
    (controlRuns s = true → ∃ t, exec .conditionBroadcast s = .next t ∧ t.spe.cond = conditionsNow s ∧ t.spe.absent = false) ∧
    (∃ t, exec .broadcastAbsent s = .next t ∧ t.spe.absent = true ∧ t.spe.cond = s.spe.cond) ∧
    (∀ k : ChanNo, rawDemand s.spe.cond (s.spe.chan.at k).rule.now ≠ (s.spe.chan.at k).ruleOut →
      ruleDelay (s.spe.chan.at k).rule.now (rawDemand s.spe.cond (s.spe.chan.at k).rule.now) ≤ (s.spe.chan.at k).against →
      ∃ t, exec (.ruleDelayExpiry k) s = .next t ∧
        (t.spe.chan.at k).ruleOut = rawDemand s.spe.cond (s.spe.chan.at k).rule.now) ∧
    (∀ (k : ChanNo) (xs : List Nat), (s.spe.chan.at k).output = true → (s.spe.chan.at k).iLimit = false →
      wFld (s.spe.chan.at k).cfg1.now 22 5 ≠ 0 → xs ≠ [] → ∃ t, exec (.onStateOpenLoad k xs) s = .next t ∧
        (t.spe.chan.at k).diag.olOn = openLoad (wFld (s.spe.chan.at k).cfg1.now 22 5 * 5) xs (s.spe.chan.at k).diag.olOn) ∧
    (∀ x : OffCheck, (s.spe.chan.at x.chan).demand = false → ∃ t, exec (.offStateDiagnostic [x]) s = .next t ∧
      (t.spe.chan.at x.chan).diag = offDiag (wBit (s.spe.chan.at x.chan).cfg1.now 21) x (s.spe.chan.at x.chan).diag) ∧
    (∀ k : ChanNo, 10 ≤ s.spe.overTicks → shedNext s = some k → ∃ t, exec .channelShed s = .next t ∧
      (t.spe.chan.at k).shed = true ∧ (t.spe.chan.at k).output = false ∧
      (t.spe.chan.at k).shedI = (s.spe.chan.at k).iSense) ∧
    (∀ k : ChanNo, 1000 ≤ s.spe.restoreTicks → restoreNext s = some k → ∃ t, exec .channelRestore s = .next t ∧
      (t.spe.chan.at k).shed = false) ∧
    (controlRuns s = true → s.spe.absent = false → ∃ t, exec .aggregateCapUpdate s = .next t ∧
      t.spe.aggCap = capAt (wFld s.spe.aggMax.now 23 9) s.thm.tc)

/-- With Fescue running and ROLE set: a coordinator's superframe raises SF_NUM by 1 as beacons go. A good beacon of
the followed coordinator gives a station SF_NUM and the map epoch; four missed ones stop it and end its joining; a
retry sends the join request. A data frame with a new SEQ enters the receive queue while it has room, its SEQ is
remembered and an acknowledgement is due; a repeated one is not delivered, and a lost one is counted and marks the
link for remeasurement. A frame waiting past ACK_TO is sent again until RETX_MAX, then discarded and counted.
Measurements are stored, a switch puts the new maps and their epoch in force, and a missing acknowledgement drops the
new maps. A join answer gives the link initial maps and forgets SEQ; an unknown identifier is counted. A failed tone
unit leaves service. Loss of the time base stops transmission, its return sets TB_OK, and host silence stops
transmission. -/
def Obligations.SiteLineComplete : Prop :=
  ∀ s : State, s.dies.fescue = .running →
    (∀ late : Bool, slRole s = 1 → (s.site.word.commit).now = s.site.word.now → ∃ t, exec (.superframeStart late) s = .next t ∧
      t.site.sfNum = s.site.sfNum + 1 ∧ t.site.recompute = s.site.recompute - 1) ∧
    (∀ b : List Byte, slRole s = 2 → b.length = 6 → leAt b 4 2 = crc16 (b.take 4) → byteAt b 0 = wFld s.site.word.now 8 8 →
      ∃ t, exec (.beaconReceived b) s = .next t ∧ t.site.sfNum = b.getD 1 0 ∧ t.site.mapEpoch = b.getD 2 0) ∧
    (slRole s = 2 → ∃ t, exec .beaconsMissed s = .next t ∧ t.site.joined = false ∧ t.site.txStop = true ∧
      (t.site.link.at (ownLink s)).joined = false) ∧
    (slRole s = 2 → s.site.joined = false → exec .joinRetry s = .next (sendJoin s)) ∧
    (∀ (l : LinkNo) (b : SlBurst) (f : SlFrame), readFrame b = some f → slRole s ≠ 0 → macHosted s = false →
      frameShape f = true → byteAt f 2 = 0 →
      byteAt f 0 ≠ 0xFF → (s.site.link.at l).lastSeq ≠ some (f.getD 3 0) → (s.site.link.at l).rxq.length < 8 →
      ∃ t, exec (.siteFrameReceived l b) s = .next t ∧ (t.site.link.at l).rxq = (s.site.link.at l).rxq ++ [f] ∧
        (t.site.link.at l).lastSeq = some (f.getD 3 0) ∧ (t.site.link.at l).ackDue = true) ∧
    (∀ (l : LinkNo) (b : SlBurst) (f : SlFrame), readFrame b = some f → slRole s ≠ 0 → macHosted s = false →
      frameShape f = true → byteAt f 0 ≠ 0xFF → (s.site.link.at l).lastSeq = some (f.getD 3 0) →
      ∃ t, exec (.siteFrameReceived l b) s = .next t ∧ (t.site.link.at l).rxq = (s.site.link.at l).rxq ∧
        (t.site.link.at l).ackDue = true) ∧
    (∀ (l : LinkNo) (b : SlBurst), readFrame b = none → slRole s ≠ 0 → ∃ t, exec (.siteFrameReceived l b) s = .next t ∧
      (t.site.link.at l).rxq = (s.site.link.at l).rxq ∧
      (t.site.link.at l).discarded = satAdd 32 (s.site.link.at l).discarded 1 ∧
      (macHosted s = false → (t.site.link.at l).remeas = true)) ∧
    (∀ (l : LinkNo) (f : SlFrame), slRole s ≠ 0 → macHosted s = false → (s.site.link.at l).unacked = some f →
      (s.site.link.at l).left = 0 → ackTo (s.site.link.at l) ≤ (s.site.link.at l).waited →
      ∃ t, exec (.siteFrameRetransmit l) s = .next t ∧
        if (s.site.link.at l).tries < retxMax (s.site.link.at l) then
          (t.site.link.at l).unacked = some f ∧ (t.site.link.at l).left = frameBlocks f ∧
            (t.site.link.at l).tries = (s.site.link.at l).tries + 1
        else (t.site.link.at l).unacked = none ∧
          (t.site.link.at l).discarded = satAdd 32 (s.site.link.at l).discarded 1) ∧
    (∀ (snr : List LinkSnr) (noise : List Byte), slRole s = 1 → macHosted s = true →
      ∃ t, exec (.mapRecompute snr noise) s = .next t ∧ t.site.noise = padTo 192 noise) ∧
    (∀ l : LinkNo, slRole s = 1 → (s.site.link.at l).mapAcked = false → ∃ t, exec (.mapAckMissing l) s = .next t ∧
      (t.site.link.at l).newMaps = none ∧ (t.site.link.at l).maps = (s.site.link.at l).maps) ∧
    (∀ (l : LinkNo) (m : List Byte), slRole s ≠ 0 → (s.site.link.at l).newMaps = some m →
      (s.site.link.at l).mapAcked = true → ∃ t, exec (.mapSwitch l) s = .next t ∧ (t.site.link.at l).maps = m ∧
        (t.site.link.at l).epoch = (s.site.link.at l).newEpoch ∧ t.site.mapEpoch = (s.site.link.at l).newEpoch) ∧
    (∀ id : BitVec 64, slRole s = 1 → linkOf s id = none → ∃ t, exec (.joinRequest id) s = .next t ∧
      t.site.joinIgnored = satAdd 32 s.site.joinIgnored 1) ∧
    (∀ (id : BitVec 64) (l : LinkNo), slRole s = 1 → linkOf s id = some l → macHosted s = false →
      wBit s.site.word.now 7 = true → ∃ t, exec (.joinRequest id) s = .next t ∧
        (t.site.link.at l).maps = initialMaps s l ∧ (t.site.link.at l).lastSeq = none) ∧
    (∀ u : ToneUnitNo, slRole s ≠ 0 → (s.site.unit.at u).failed = false → (s.site.unit.at u).tone = none →
      ∃ t, exec (.toneLoopbackTest u false) s = .next t ∧ (t.site.unit.at u).failed = true) ∧
    (slRole s ≠ 0 → holds s 83 moduleIndex = false → ∃ t, exec .timeBaseLost s = .next t ∧ t.site.tbOk = false ∧
      t.site.txStop = true) ∧
    (slRole s ≠ 0 → ∃ t, exec .timeBaseResumed s = .next t ∧ t.site.tbOk = true) ∧
    (slRole s ≠ 0 → wBit s.site.word.now 17 = true → ∃ t, exec .siteLineHostSilence s = .next t ∧
      t.site.hostStop = true ∧ t.site.txStop = true)

/-- A ping of an enabled aerial that is not polling sets its baselines when it has none, leaves a present card alone,
moves the baselines a sixteenth of the way without a detection, and on a detection from idle starts a poll, which with
no card to resolve leaves the aerial polling with its poll counted. The end of a poll by time leaves a found card
present and otherwise sets the baselines to the ping that detected. Time without a host answer uses the fallback of
the authorisation request. A selected card is released, and a held grant lapses unless it is held while the vehicle
stays plugged. -/
def Obligations.ReadersComplete : Prop :=
  ∀ (s : State) (a : AerialNo),
    (∀ (amp : Nat) (ph : Int) (cards : List Card), readersRun s = true → wBit (s.rdr.aerial.at a).word 31 = true →
      (s.rdr.aerial.at a).state ≠ .polling → ∃ t, exec (.aerialPing a amp ph cards) s = .next t ∧
        ((s.rdr.aerial.at a).based = false → t.rdr.aerial.at a = setBaselines amp ph (s.rdr.aerial.at a)) ∧
        ((s.rdr.aerial.at a).based = true → pingDetects (s.rdr.aerial.at a) amp ph = true →
          (s.rdr.aerial.at a).state = .present → t.rdr.aerial.at a = s.rdr.aerial.at a) ∧
        ((s.rdr.aerial.at a).based = true → pingDetects (s.rdr.aerial.at a) amp ph = true →
          (s.rdr.aerial.at a).state ≠ .present → cards = [] → (t.rdr.aerial.at a).state = .polling ∧
          (t.rdr.aerial.at a).polls = satAdd 8 (s.rdr.aerial.at a).polls 1) ∧
        ((s.rdr.aerial.at a).based = true → pingDetects (s.rdr.aerial.at a) amp ph = false →
          (t.rdr.aerial.at a).baseAmp = (s.rdr.aerial.at a).baseAmp + ((amp : Rat) - (s.rdr.aerial.at a).baseAmp) / 16 ∧
          (t.rdr.aerial.at a).basePh = (s.rdr.aerial.at a).basePh + ((ph : Rat) - (s.rdr.aerial.at a).basePh) / 16)) ∧
    ((s.rdr.aerial.at a).state = .polling → ∃ t, exec (.pollTimeout a) s = .next t ∧
      (t.rdr.aerial.at a).state = if (s.rdr.aerial.at a).found then .present else .idle) ∧
    (∀ (o : OutletNo) (r : PolicyRequest), controlRuns s = true →
      s.veh.policies.find? (fun r => r.outlet == o && r.kind == 0) = some r → ∃ t,
      exec (.authFallback o) s = .next t ∧ t.veh.expired = s.veh.expired ++ [r]) ∧
    (∃ t, exec (.cardHoldExpiry a) s = .next t ∧ (t.rdr.aerial.at a).selected = false) ∧
    (∀ o : OutletNo, ∃ t, exec (.authHoldExpiry o) s = .next t ∧
      t.veh.grant.at o = (s.veh.grant.at o).filter (·.whilePlugged))

/-- The field brings a tag that is not killed to Ready, and its loss ends Selected and Quiet with the sectors held. A
tag that hears the request answers: an inventory whose mask fits gives the identifier; reads give the blocks' bytes,
0x10 beyond the last block and the error without information beyond 32 blocks or on a bad sector; a write of a user
block is stored before the answer and any other block gets 0x12; Select, Stay quiet and Reset to ready move the state;
system information, security status and the signature are as held; a correct non-zero password kills the tag, a wrong
one gets 0x0F and counts; the mirror index gives HEAD and FCOUNT; a code that is not supported gets 0x01 when
addressed or Selected. The end of an answer frees its sector and commits what the host staged there; the last retry
ends the host's wait with BUSY. -/
def Obligations.TagComplete : Prop :=
  ∀ s : State,
    (s.tag.state ≠ .killed → s.tag.field = false → ∃ t, exec .tagFieldOn s = .next t ∧ t.tag.state = .ready ∧ t.tag.field = true) ∧
    (∃ t, exec .tagFieldLost s = .next t ∧ t.tag.field = false ∧ t.tag.held = [] ∧
      t.tag.state = if s.tag.state = .killed then .killed else .ready) ∧
    (∀ v : InventoryReq, s.tag.field = true → v.twoSub = false → (s.tag.state = .ready ∨ s.tag.state = .selected) →
      Config.tagUid.toNat % 2 ^ v.maskLen = v.mask % 2 ^ v.maskLen →
      (v.slots16 = true → Config.tagUid.toNat / 2 ^ v.maskLen % 16 = v.slot) → ∃ t, exec (.tagInventory v) s = .next t ∧
        t.tag.answer = tagOk (0 :: leBytes 8 Config.tagUid.toNat)) ∧
    (∀ r : TagReq, tagHears s.tag r = true →
      (addressedTo r = true → ∃ t, exec (.tagStayQuiet r) s = .next t ∧ t.tag.state = .quiet) ∧
      (∀ b : Byte, exec (.tagReadSingleBlock r b) s = .next (tagRead b.toNat 1 255 s)) ∧
      (∀ (b : Byte) (d : BitVec 32), exec (.tagWriteSingleBlock r b d) s = .next (tagSay (tagError 0x12) [b.toNat / 4] s)) ∧
      (∀ (b : Byte) (n : Nat), exec (.tagReadMultipleBlocks r b n) s = .next (tagRead b.toNat n 255 s)) ∧
      (∃ t, exec (.tagResetToReady r) s = .next t ∧ t.tag.state = .ready ∧ t.tag.answer = tagOk []) ∧
      (exec (.tagGetSystemInformation r) s = .next (tagSay (systemInfo [0xFF, 3]) [] s)) ∧
      (exec (.tagExtGetSystemInformation r) s = .next (tagSay (systemInfo [0xFF, 0x07, 3]) [] s)) ∧
      (∀ (b : Byte) (n : Nat), b.toNat + n ≤ 256 → exec (.tagGetBlockSecurity r b n) s =
        .next (tagSay (tagOk (List.replicate n 0)) [] s)) ∧
      (∀ (b : BitVec 16) (n : Nat), b.toNat + n ≤ 2048 → exec (.tagExtGetBlockSecurity r b n) s =
        .next (tagSay (tagOk (List.replicate n 0)) [] s)) ∧
      (∀ b : BitVec 16, exec (.tagExtReadSingleBlock r b) s = .next (tagRead b.toNat 1 2047 s)) ∧
      (∀ (b : BitVec 16) (d : BitVec 32), 800 ≤ b.toNat → b.toNat ≤ 2047 → ∃ t, exec (.tagExtWriteSingleBlock r b d) s =
        .next t ∧ t.tag.mem = memWrite s.tag.mem (4 * b.toNat) (leBytes 4 d.toNat) ∧ t.tag.answer = tagOk []) ∧
      (∀ (b : BitVec 16) (n : Nat), exec (.tagExtReadMultipleBlocks r b n) s = .next (tagRead b.toNat n 2047 s)) ∧
      (∀ code : Byte, exec (.tagUnsupportedCommand r code) s = .next (notSupported r s)) ∧
      (r.mfr.toNat = Config.tagUid.toNat / 2 ^ 48 % 256 →
        exec (.tagReadSignature r) s = .next (tagSay (tagOk (padTo 64 Config.tagSignature)) [] s) ∧
        exec (.tagReadMirrorIndex r) s =
          .next (tagSay (tagOk (leBytes 2 s.tag.head.toNat ++ leBytes 4 s.tag.fcount.toNat)) [5] s) ∧
        ∀ p : BitVec 32, s.tag.failures.toNat < 8 → ∃ t, exec (.tagKill r p) s = .next t ∧
          if s.tag.killPassword ≠ 0 ∧ p = s.tag.killPassword then t.tag.state = .killed ∧ t.tag.failures = 0
          else t.tag.state = s.tag.state ∧ t.tag.answer = tagError 0x0F ∧ t.tag.failures = s.tag.failures + 1)) ∧
    (∀ r : TagReq, s.tag.field = true → r.twoSub = false → s.tag.state ≠ .killed → addressedTo r = true → ∃ t,
      exec (.tagSelect r) s = .next t ∧ t.tag.state = .selected ∧ t.tag.answer = tagOk []) ∧
    (∀ (first count last : Nat), 1 ≤ count → count ≤ 32 → first + count - 1 ≤ last → s.tag.bad = [] →
      tagRead first count last s =
        tagSay (tagOk ((List.range count).flatMap fun k => blockBytes s (first + k))) (blockSectors first count) s) ∧
    (∀ (n : SectorNo) (d : List Byte), s.dies.fescue = .running → s.tag.staged = [(n, d, none)] → s.tag.reads = [] →
      exec (.tagSectorCommit n) s = .next (mirrorFaults { s with
        tag.held := s.tag.held.filter (· != n), tag.staged := [], tag.mem := memWrite s.tag.mem (16 * n.val) (padTo 16 d) })) ∧
    (∀ (n : SectorNo) (c : Cmd), controlRuns s = true → s.tag.staged = [] → s.tag.reads = [(n, c)] →
      exec (.tagBusyRetry n true) s = .next (answer 0x0805 c tagBusy { s with tag.reads := [] }))

namespace Sys2Proof

/-- The rows that are commands of the catalogue, each with its opcode and its entry. -/
inductive MailRow : Instr → Nat → Cmd → Prop where
  | echo (c : Cmd) : MailRow (.echo c) 0x0100 c
  | readIdentity (c : Cmd) : MailRow (.readIdentity c) 0x0101 c
  | enterCommissioning (c : Cmd) : MailRow (.enterCommissioning c) 0x0102 c
  | leaveCommissioning (c : Cmd) : MailRow (.leaveCommissioning c) 0x0103 c
  | dieReset (c : Cmd) (tails : List Tail) : MailRow (.dieReset c tails) 0x0104 c
  | networkSettings (c : Cmd) : MailRow (.networkSettings c) 0x0105 c
  | mailboxKeySlots (c : Cmd) : MailRow (.mailboxKeySlots c) 0x0106 c
  | setQspiAuthority (c : Cmd) : MailRow (.setQspiAuthority c) 0x0107 c
  | read1sValues (c : Cmd) : MailRow (.read1sValues c) 0x0200 c
  | readTotals (c : Cmd) : MailRow (.readTotals c) 0x0201 c
  | readHarmonicWindow (c : Cmd) : MailRow (.readHarmonicWindow c) 0x0202 c
  | readSupraharmonicResult (c : Cmd) : MailRow (.readSupraharmonicResult c) 0x0203 c
  | collectRawSampleBlock (c : Cmd) : MailRow (.collectRawSampleBlock c) 0x0204 c
  | readMetrologyTable (c : Cmd) : MailRow (.readMetrologyTable c) 0x0205 c
  | outletRoleAssignment (c : Cmd) : MailRow (.outletRoleAssignment c) 0x0210 c
  | userCalibration (c : Cmd) : MailRow (.userCalibration c) 0x0211 c
  | meteringMode (c : Cmd) : MailRow (.meteringMode c) 0x0212 c
  | readRegisters (c : Cmd) : MailRow (.readRegisters c) 0x0300 c
  | readBillingSnapshot (c : Cmd) : MailRow (.readBillingSnapshot c) 0x0301 c
  | readLegalLog (c : Cmd) : MailRow (.readLegalLog c) 0x0302 c
  | acknowledgeLegalLog (c : Cmd) : MailRow (.acknowledgeLegalLog c) 0x0303 c
  | readLegalObject (c : Cmd) : MailRow (.readLegalObject c) 0x0304 c
  | readSessionRecords (c : Cmd) : MailRow (.readSessionRecords c) 0x0305 c
  | confirmExport (c : Cmd) : MailRow (.confirmExport c) 0x0306 c
  | tariffParameters (c : Cmd) : MailRow (.tariffParameters c) 0x0310 c
  | loadPassiveCalendar (c : Cmd) : MailRow (.loadPassiveCalendar c) 0x0311 c
  | setLegalTime (c : Cmd) : MailRow (.setLegalTime c) 0x0312 c
  | demandInterval (c : Cmd) : MailRow (.demandInterval c) 0x0313 c
  | confirmTariffSwitch (c : Cmd) : MailRow (.confirmTariffSwitch c) 0x0314 c
  | displaySelection (c : Cmd) : MailRow (.displaySelection c) 0x0315 c
  | vehicleLinkStatus (c : Cmd) : MailRow (.vehicleLinkStatus c) 0x0400 c
  | vehicleLinkConfiguration (c : Cmd) : MailRow (.vehicleLinkConfiguration c) 0x0410 c
  | loadLimit (c : Cmd) : MailRow (.loadLimit c) 0x0411 c
  | sessionMode (c : Cmd) : MailRow (.sessionMode c) 0x0412 c
  | policyAnswer (c : Cmd) : MailRow (.policyAnswer c) 0x0420 c
  | certificateAnswer (c : Cmd) : MailRow (.certificateAnswer c) 0x0421 c
  | endSession (c : Cmd) : MailRow (.endSession c) 0x0422 c
  | safetyStatus (c : Cmd) : MailRow (.safetyStatus c) 0x0500 c
  | setEnable (c : Cmd) : MailRow (.setEnable c) 0x0501 c
  | clearEnable (c : Cmd) : MailRow (.clearEnable c) 0x0502 c
  | openRequest (c : Cmd) : MailRow (.openRequest c) 0x0503 c
  | lockoutRelease (c : Cmd) : MailRow (.lockoutRelease c) 0x0504 c
  | brakeEngage (c : Cmd) : MailRow (.brakeEngage c) 0x0505 c
  | brakeRelease (c : Cmd) : MailRow (.brakeRelease c) 0x0505 c
  | brakeHoldingTest (c : Cmd) : MailRow (.brakeHoldingTest c) 0x0505 c
  | classERequest (c : Cmd) : MailRow (.classERequest c) 0x0506 c
  | writeLimitedSetting (c : Cmd) : MailRow (.writeLimitedSetting c) 0x0510 c
  | readLimitedSetting (c : Cmd) : MailRow (.readLimitedSetting c) 0x0511 c
  | loadSwitchStatus (c : Cmd) : MailRow (.loadSwitchStatus c) 0x0600 c
  | channelConfiguration (c : Cmd) : MailRow (.channelConfiguration c) 0x0601 c
  | channelControl (c : Cmd) : MailRow (.channelControl c) 0x0602 c
  | channelRule (c : Cmd) : MailRow (.channelRule c) 0x0603 c
  | hostFlags (c : Cmd) : MailRow (.hostFlags c) 0x0604 c
  | aggregateMaximum (c : Cmd) : MailRow (.aggregateMaximum c) 0x0605 c
  | readChannelSetup (c : Cmd) : MailRow (.readChannelSetup c) 0x0606 c
  | siteLineStatus (c : Cmd) : MailRow (.siteLineStatus c) 0x0700 c
  | siteLineConfiguration (c : Cmd) : MailRow (.siteLineConfiguration c) 0x0701 c
  | linkEntry (c : Cmd) : MailRow (.linkEntry c) 0x0702 c
  | sendFrame (c : Cmd) : MailRow (.sendFrame c) 0x0703 c
  | receiveFrame (c : Cmd) : MailRow (.receiveFrame c) 0x0704 c
  | beaconBytes (c : Cmd) : MailRow (.beaconBytes c) 0x0705 c
  | contactlessStatus (c : Cmd) : MailRow (.contactlessStatus c) 0x0800 c
  | contactlessConfiguration (c : Cmd) : MailRow (.contactlessConfiguration c) 0x0801 c
  | loadAllowlist (c : Cmd) : MailRow (.loadAllowlist c) 0x0802 c
  | allowlistLookup (c : Cmd) : MailRow (.allowlistLookup c) 0x0803 c
  | cardExchange (c : Cmd) (card : Option (List Byte)) : MailRow (.cardExchange c card) 0x0804 c
  | tagMemoryRead (c : Cmd) : MailRow (.tagMemoryRead c) 0x0805 c
  | tagMemoryWrite (c : Cmd) : MailRow (.tagMemoryWrite c) 0x0805 c
  | tagKillPassword (c : Cmd) : MailRow (.tagKillPassword c) 0x0806 c
  | readSlot (c : Cmd) : MailRow (.readSlot c) 0x0900 c
  | writeKeyInClear (c : Cmd) : MailRow (.writeKeyInClear c) 0x0901 c
  | loadShadow (c : Cmd) : MailRow (.loadShadow c) 0x0902 c
  | testShadow (c : Cmd) (pass : Bool) : MailRow (.testShadow c pass) 0x0903 c
  | commitShadow (c : Cmd) (tagOk : Bool) : MailRow (.commitShadow c tagOk) 0x0904 c
  | lifecycleMove (c : Cmd) : MailRow (.lifecycleMove c) 0x0905 c
  | readStepCounters (c : Cmd) : MailRow (.readStepCounters c) 0x0906 c
  | pairDetail (c : Cmd) : MailRow (.pairDetail c) 0x0A00 c
  | bindPeer (c : Cmd) : MailRow (.bindPeer c) 0x0A01 c
  | unbindPeer (c : Cmd) : MailRow (.unbindPeer c) 0x0A02 c
  | plannedHandover (c : Cmd) : MailRow (.plannedHandover c) 0x0A03 c
  | clearSuspectResynchronise (c : Cmd) : MailRow (.clearSuspectResynchronise c) 0x0A04 c
  | openStaging (c : Cmd) : MailRow (.openStaging c) 0x0B00 c
  | imageBody (c : Cmd) : MailRow (.imageBody c) 0x0B01 c
  | imageCommit (c : Cmd) : MailRow (.imageCommit c) 0x0B02 c
  | stagingAbort (c : Cmd) : MailRow (.stagingAbort c) 0x0B03 c
  | updateStatus (c : Cmd) : MailRow (.updateStatus c) 0x0B04 c
  | readFaultLog (c : Cmd) : MailRow (.readFaultLog c) 0x0C00 c
  | diagnosticBundle (c : Cmd) : MailRow (.diagnosticBundle c) 0x0C01 c
  | eventRouting (c : Cmd) : MailRow (.eventRouting c) 0x0C02 c
  | eventSourceState (c : Cmd) : MailRow (.eventSourceState c) 0x0C03 c
  | clearPending (c : Cmd) : MailRow (.clearPending c) 0x0C04 c
  | wearAndSpares (c : Cmd) : MailRow (.wearAndSpares c) 0x0C05 c
  | siteLineNoise (c : Cmd) : MailRow (.siteLineNoise c) 0x0C06 c
  | poolConflictCounters (c : Cmd) : MailRow (.poolConflictCounters c) 0x0C07 c
  | temperatures (c : Cmd) : MailRow (.temperatures c) 0x0C08 c

/-- A command of the catalogue arrives at a ready mailbox, not forwarded, and is or can be fetched. -/
def Arrives (op : Nat) (c : Cmd) (s : State) : Prop :=
  s.mbx.ready = true ∧ controlRuns s = true ∧ c.fwd = none ∧ fetchable op c s = true

/-- Such a command passes the checks of R406. -/
def Accepted (op : Nat) (c : Cmd) (s : State) : Prop := Arrives op c s ∧ checks op c s = none

/-- The state in which an accepted command acts: the active module has forwarded a changing one to the standby. -/
def acting (op : Nat) (c : Cmd) (s : State) : State := if (findFetch op c s).isSome then s else forwardOut op c s

end Sys2Proof

/-- Whichever command of the catalogue arrives at a ready mailbox, not forwarded, with its rings enabled and a
response slot free: where a check of R406 fails, in their order, the command is answered with that check's status and
detail and has no other effect. Where the mailbox is not ready or the control die does not run, nothing happens. -/
def Obligations.RefusedCommandsAnswerTheirStatus : Prop :=
  ∀ (s : State) (i : Instr) (op : Nat) (c : Cmd), MailRow i op c →
    (∀ r : Reply, Arrives op c s → checks op c s = some r → exec i s = .next (answer op c r s)) ∧
    ((s.mbx.ready = false ∨ controlRuns s = false) → exec i s = .next s)

/-- An accepted echo answers its payload, an identity read the first 96 bytes of the tag. Entering Commissioning with
every coil pair off, nothing that bars it and no supervision of the epoch waiting moves the mode, leaving it returns
to the service role. A die reset with DIE 0 to 4 is answered and carried out, the control die's after its response.
Network addressing and mailbox key slots are stored for their port, and QSPI_LVL is set from an Ethernet port. Each
command acts on the state b in which it has been forwarded where the module is active, and the mode status is settled
before the answer. -/
def Obligations.SystemCommandsComplete : Prop :=
  ∀ (s b : State) (c : Cmd),
    (Accepted 0x0100 c s → b = acting 0x0100 c s → exec (.echo c) s =
      .next (answer 0x0100 c (okWith (cmdFields 0x0100 c)) (settle b))) ∧
    (Accepted 0x0101 c s → b = acting 0x0101 c s → exec (.readIdentity c) s =
      .next (answer 0x0101 c (okWith (memRead b.tag.mem 0 96)) (settle b))) ∧
    (Accepted 0x0102 c s → b = acting 0x0102 c s → barsCommissioning b = false → supervisionWaits b = false →
      allCoilsOff b = true →
      exec (.enterCommissioning c) s = .next (answer 0x0102 c okReply (settle (goCommissioning b)))) ∧
    (Accepted 0x0103 c s → b = acting 0x0103 c s → exec (.leaveCommissioning c) s =
      .next (answer 0x0103 c okReply (settle (refreshDrives (leaveCommissioning b))))) ∧
    (∀ tails : List Tail, Accepted 0x0104 c s → b = acting 0x0104 c s → byteAt (cmdFields 0x0104 c) 0 ≤ 4 →
      leAt (cmdFields 0x0104 c) 1 3 = 0 → exec (.dieReset c tails) s = .next (answer 0x0104 c okReply
        (settle (commandedReset (byteAt (cmdFields 0x0104 c) 0) tails b)))) ∧
    (∀ p : List Byte, Accepted 0x0105 c s → b = acting 0x0105 c s → p = cmdFields 0x0105 c → byteAt p 0 ≤ 1 →
      byteAt p 1 < 4 → leAt p 2 2 = 0 → byteAt p 32 ≤ 128 → leAt p 33 3 = 0 → exec (.networkSettings c) s =
        .next (answer 0x0105 c okReply (settle (b.onPort (portOf (byteAt p 0)) fun q =>
          { q with net := { q.net with addressing := some (p.drop 1) } })))) ∧
    (∀ p : List Byte, Accepted 0x0106 c s → b = acting 0x0106 c s → p = cmdFields 0x0106 c → byteAt p 0 ≤ 1 →
      byteAt p 1 = 0 → slotFits b (leAt p 2 2) fitsServer = true → slotFits b (leAt p 4 2) fitsRoot = true →
      slotFits b (leAt p 6 2) fitsRoot = true → exec (.mailboxKeySlots c) s =
        .next (answer 0x0106 c okReply (settle (b.onPort (portOf (byteAt p 0)) fun q =>
          { q with net := { q.net with serverSlot := BitVec.ofNat 16 (leAt p 2 2),
                                       operateSlot := BitVec.ofNat 16 (leAt p 4 2),
                                       commissionSlot := BitVec.ofNat 16 (leAt p 6 2) } })))) ∧
    (∀ p : List Byte, Accepted 0x0107 c s → b = acting 0x0107 c s → p = cmdFields 0x0107 c → byteAt p 0 ≤ 3 →
      leAt p 1 3 = 0 → c.port ≠ 2 → exec (.setQspiAuthority c) s =
        .next (answer 0x0107 c okReply (settle { b with mbx.qspiLvl := BitVec.ofNat 2 (byteAt p 0) })))

/-- While Spelt runs: the status command answers the module word or the two channel words; configuration, rule and
maximum words in range are held pending; the control word is in force at once, with CLR carried out first; the setup
read answers the words written last. The host flags change under their mask, whether Spelt runs or not. -/
def Obligations.LoadCommandsComplete : Prop :=
  ∀ (s b : State) (c : Cmd) (p : List Byte),
    (Accepted 0x0600 c s → b = acting 0x0600 c s → speltRuns b = true → exec (.loadSwitchStatus c) s =
      .next (answer 0x0600 c (okWith (loadStatusBytes b c)) (settle b))) ∧
    (Accepted 0x0601 c s → b = acting 0x0601 c s → p = cmdFields 0x0601 c → speltRuns b = true →
      chanWord0Ok (BitVec.ofNat 32 (leAt p 0 4)) = true → chanWord1Ok (BitVec.ofNat 32 (leAt p 4 4)) = true →
      exec (.channelConfiguration c) s = .next (answer 0x0601 c pendingReply (settle (b.onChan (obj 47 c) fun x =>
        { x with cfg0 := x.cfg0.write (BitVec.ofNat 32 (leAt p 0 4)), cfg1 := x.cfg1.write (BitVec.ofNat 32 (leAt p 4 4)) })))) ∧
    (Accepted 0x0602 c s → b = acting 0x0602 c s → p = cmdFields 0x0602 c → speltRuns b = true →
      wFld (BitVec.ofNat 32 (leAt p 0 4)) 4 28 = 0 → exec (.channelControl c) s = .next (answer 0x0602 c okReply
        (settle (controlChannel (obj 47 c) (BitVec.ofNat 32 (leAt p 0 4)) b)))) ∧
    (Accepted 0x0603 c s → b = acting 0x0603 c s → p = cmdFields 0x0603 c → speltRuns b = true →
      ruleWordOk (BitVec.ofNat 32 (leAt p 0 4)) = true → exec (.channelRule c) s = .next (answer 0x0603 c pendingReply
        (settle (b.onChan (obj 47 c) fun x => { x with rule := x.rule.write (BitVec.ofNat 32 (leAt p 0 4)) })))) ∧
    (∀ m v : BitVec 16, Accepted 0x0604 c s → b = acting 0x0604 c s → p = cmdFields 0x0604 c →
      m = BitVec.ofNat 16 (leAt p 0 2) → v = BitVec.ofNat 16 (leAt p 2 2) → exec (.hostFlags c) s =
        .next (answer 0x0604 c (okWith (leBytes 2 ((b.spe.flags &&& ~~~m) ||| (v &&& m)).toNat ++ [0, 0]))
          (settle { b with spe.flags := (b.spe.flags &&& ~~~m) ||| (v &&& m) }))) ∧
    (∀ w : Word, Accepted 0x0605 c s → b = acting 0x0605 c s → p = cmdFields 0x0605 c → speltRuns b = true →
      w = BitVec.ofNat 32 (leAt p 0 4) → 2 ≤ wFld w 23 9 → wFld w 23 9 ≤ 384 → wFld w 0 23 = 0 →
      exec (.aggregateMaximum c) s = .next (answer 0x0605 c pendingReply
        (settle { b with spe.aggMax := b.spe.aggMax.write w }))) ∧
    (Accepted 0x0606 c s → b = acting 0x0606 c s → speltRuns b = true → exec (.readChannelSetup c) s =
      .next (answer 0x0606 c (okWith (setupBytes (b.spe.chan.at (obj 47 c)))) (settle b)))

/-- While Fescue runs, every site-line command ends the host's silence, and: the status read answers the module word,
or a link's word and clears its RETX; a permitted module word and a permitted link entry are held pending; a frame of
a permitted type joins the send queue of its link while it has room, and the answer tells the frames queued; a receive
into a buffer of at least 256 bytes hands over the oldest frame of the link; and with HA the beacon bytes are stored. -/
def Obligations.SiteCommandsComplete : Prop :=
  ∀ (s b : State) (c : Cmd) (p : List Byte), s.dies.fescue = .running →
    (Accepted 0x0700 c s → b = acting 0x0700 c s → exec (.siteLineStatus c) s =
      .next (answer 0x0700 c (siteRead c.index.toNat (hostSpoke b)).1 (settle (siteRead c.index.toNat (hostSpoke b)).2))) ∧
    (∀ w : Word, Accepted 0x0701 c s → b = acting 0x0701 c s → p = cmdFields 0x0701 c → w = BitVec.ofNat 32 (leAt p 0 4) →
      siteWordOk (hostSpoke b) w = true → exec (.siteLineConfiguration c) s = .next (answer 0x0701 c pendingReply
        (settle { hostSpoke b with site.word := b.site.word.write w }))) ∧
    (∀ ws : List Word, Accepted 0x0702 c s → b = acting 0x0702 c s → p = cmdFields 0x0702 c → ws = wordsOf 7 p →
      firstBad (linkChecks (hostSpoke b) (linkAt c.index.toNat) ws) = none → exec (.linkEntry c) s =
        .next (answer 0x0702 c pendingReply (settle ((hostSpoke b).onLink (linkAt c.index.toNat) fun x =>
          { x with words := x.words.write ws })))) ∧
    (∀ (l : LinkNo) (u : State), Accepted 0x0703 c s → b = acting 0x0703 c s → p = cmdFields 0x0703 c →
      byteAt p 0 ≤ 5 → reserved3 p = true → wBit b.site.word.now 17 = false → c.index.toNat ≠ 0xFF →
      l = linkAt c.index.toNat → (b.site.link.at l).txq.length < 8 →
      u = queueFrame (newFrame (hostSpoke b) l (byteAt p 0) (p.drop 4)) l (hostSpoke b) →
      exec (.sendFrame c) s = .next (answer 0x0703 c
        (okWith [BitVec.ofNat 8 ((b.site.link.at l).txq.length + 1), 0, 0, 0]) (settle u))) ∧
    (Accepted 0x0704 c s → b = acting 0x0704 c s → 256 ≤ outLength 0x0704 c → exec (.receiveFrame c) s =
      .next (answer 0x0704 c (takeReceived c.index.toNat (hostSpoke b)).1
        (settle (takeReceived c.index.toNat (hostSpoke b)).2))) ∧
    (Accepted 0x0705 c s → b = acting 0x0705 c s → p = cmdFields 0x0705 c → leAt p 2 2 = 0 →
      wBit b.site.word.now 17 = true → exec (.beaconBytes c) s = .next (answer 0x0705 c okReply
        (settle { hostSpoke b with site.beacon2 := p.getD 0 0, site.beacon3 := p.getD 1 0 }))) ∧
    (∀ (l : LinkNo) (f : SlFrame) (rest : List SlFrame), c.index.toNat ≠ 0xFFFF → l = linkAt c.index.toNat →
      (b.site.link.at l).rxq = f :: rest → takeReceived c.index.toNat b =
        (okBulk ([BitVec.ofNat 8 (l.val + 1), BitVec.ofNat 8 rest.length, 0, 0] ++ f),
          b.onLink l fun x => { x with rxq := rest }))

/-- While Fescue runs: the status read answers the aerial's status, reference and identifier and clears POLLS;
permitted aerial and port words are in force at once, and an authorisation word too outside a session; an allowlist in
strictly ascending order without reserved bits replaces the old one whole; a lookup answers the entry with the
reference; a card that is kept selected answers the exchange, cut to the buffer; a tag sector that the field does not
hold is read, or written in the user area, at once; the kill password is stored and the failures cleared. -/
def Obligations.ContactCommandsComplete : Prop :=
  ∀ (s b : State) (c : Cmd) (p : List Byte), s.dies.fescue = .running →
    (Accepted 0x0800 c s → b = acting 0x0800 c s → exec (.contactlessStatus c) s =
      .next (answer 0x0800 c (okWith (aerialBytes (b.rdr.aerial.at (obj 63 c))))
        (settle (b.onAerial (obj 63 c) fun x => { x with polls := 0 })))) ∧
    (∀ w : Word, Accepted 0x0801 c s → b = acting 0x0801 c s → p = cmdFields 0x0801 c → reserved3 p = true →
      w = BitVec.ofNat 32 (leAt p 4 4) →
      (byteAt p 0 = 0 → aerialWordOk w = true → exec (.contactlessConfiguration c) s =
        .next (answer 0x0801 c okReply (settle (b.onAerial (obj 63 c) (setAerial w))))) ∧
      (byteAt p 0 = 1 → portWordOk w = true → exec (.contactlessConfiguration c) s =
        .next (answer 0x0801 c okReply (settle { b with rdr.port := b.rdr.port.put (obj 3 c) w }))) ∧
      (byteAt p 0 = 2 → authWordOk w = true → inSession b (obj 63 c) = false → exec (.contactlessConfiguration c) s =
        .next (answer 0x0801 c okReply (settle { b with
          rdr.auth := b.rdr.auth.put (obj 63 c) w, rdr.authPend := b.rdr.authPend.put (obj 63 c) none })))) ∧
    (∀ (l : List Byte) (es : List (Nat × Nat × Nat)), Accepted 0x0802 c s → b = acting 0x0802 c s →
      b.thm.nandHot = false → l = bulkOf 0x0802 c b → es = allowEntries (l.length / 16) l →
      (l.length < 16 ∨ l.length % 16 = 0) → es.length ≤ 65536 → allowBad 0 none es = none →
      exec (.loadAllowlist c) s = .next (answer 0x0802 c (okWith (leBytes 4 es.length))
        (settle { b with rdr.allow := es.map allowOf }))) ∧
    (Accepted 0x0803 c s → b = acting 0x0803 c s → exec (.allowlistLookup c) s = .next (answer 0x0803 c
      (okWith (match b.rdr.allow.find? fun a => a.ref.toNat == leAt (cmdFields 0x0803 c) 0 8 with
        | some a => allowBytes a
        | none => [])) (settle b))) ∧
    (∀ a : List Byte, Accepted 0x0804 c s → b = acting 0x0804 c s → (b.rdr.aerial.at (obj 63 c)).selected = true →
      exec (.cardExchange c (some a)) s = .next (answer 0x0804 c { okWith (leBytes 4 (min (outRoom 0x0804 c) a.length)) with
        bulk := [a.take (outRoom 0x0804 c)] } (settle b))) ∧
    (Accepted 0x0805 c s → b = acting 0x0805 c s → p = cmdFields 0x0805 c → reserved3 p = true →
      sectorHeld b (obj 511 c).val = false →
      (byteAt p 0 = 0 → exec (.tagMemoryRead c) s = .next (answer 0x0805 c (sectorReply b (obj 511 c)) (settle b))) ∧
      (byteAt p 0 = 1 → 200 ≤ (obj 511 c).val → exec (.tagMemoryWrite c) s = .next (answer 0x0805 c okReply
        (settle { b with tag.mem := memWrite b.tag.mem (16 * (obj 511 c).val) (slice p 4 16) })))) ∧
    (Accepted 0x0806 c s → b = acting 0x0806 c s → exec (.tagKillPassword c) s = .next (answer 0x0806 c okReply
      (settle { b with tag.killPassword := BitVec.ofNat 32 (leAt (cmdFields 0x0806 c) 0 4), tag.failures := 0 })))

/-- A pair read answers the pair's registers. Binding a serial other than 0 with a step left and every group in one
MCLK_DIR, and unbinding with a step left, put the binding in force and learn the pin anew. A planned handover with no
SUSPECT, the peer standing by and no staging of the peer waits for epoch n + 2, or for the end of a resynchronisation.
Clearing SUSPECT with the peer standing by clears it with the mismatches and begins a transfer. -/
def Obligations.PairCommandsComplete : Prop :=
  ∀ (s b : State) (c : Cmd),
    (Accepted 0x0A00 c s → b = acting 0x0A00 c s → exec (.pairDetail c) s =
      .next (answer 0x0A00 c (okWith (pairBytes b)) (settle b))) ∧
    (∀ x : BitVec 64, Accepted 0x0A01 c s → b = acting 0x0A01 c s → x = BitVec.ofNat 64 (leAt (cmdFields 0x0A01 c) 0 8) →
      x ≠ 0 → onePosition b = true → (b.pair.peer = x ∨ b.keys.steps.at bindStep ≠ 0) → exec (.bindPeer c) s =
        .next (answer 0x0A01 c okReply (settle (setPeer x b)))) ∧
    (Accepted 0x0A02 c s → b = acting 0x0A02 c s → (b.pair.peer = 0 ∨ b.keys.steps.at bindStep ≠ 0) →
      exec (.unbindPeer c) s = .next (answer 0x0A02 c okReply (settle (setPeer 0 b)))) ∧
    (Accepted 0x0A03 c s → b = acting 0x0A03 c s → b.pair.suspect = false → peerStands b = true →
      b.upd.peerStaging = none → ∃ t, exec (.plannedHandover c) s = .next t ∧ t.pair.handoverCmd = some c ∧
        t.pair.handoverAt = if resyncing b then none else some (b.pair.epoch + 2)) ∧
    (Accepted 0x0A04 c s → b = acting 0x0A04 c s → peerStands b = true → exec (.clearSuspectResynchronise c) s =
      .next (answer 0x0A04 c okReply (settle { startTransfer (clearSuspect b) with
        pair.sent := b.pair.sent ++ [.transfer true] }))) ∧
    (∀ (x : BitVec 64) (u : State), u = setPeer x b → u.pair.peer = x ∧ u.pair.pin = none ∧ u.pair.keyed = false)

/-- While Russet runs: a status read answers the words of its object; setting the enable flag sets it, clearing it
clears it and opens the pair, and an open request opens the pair, unless outputs are held; a release arms every outlet
in Lockout that it names and answers their number, and is refused where it names none; a brake is engaged always, and
released or tested unless R281 refuses it or outputs are held; a Class E request of cause 0x2E or 0x2F is taken; a
limited setting whose checks pass is held pending for the protection boundary, a changed CE_TIME with its step; a
limited setting read answers the words written last. -/
def Obligations.SafetyCommandsComplete : Prop :=
  ∀ (s b : State) (c : Cmd) (p : List Byte), russetRuns s = true →
    (Accepted 0x0500 c s → b = acting 0x0500 c s → exec (.safetyStatus c) s =
      .next (answer 0x0500 c (okWith (safetyBytes b c.index.toNat)) (settle b))) ∧
    (Accepted 0x0501 c s → b = acting 0x0501 c s → exec (.setEnable c) s =
      .next (answer 0x0501 c okReply (settle (enableOutlet (obj 63 c) b)))) ∧
    (Accepted 0x0502 c s → b = acting 0x0502 c s → exec (.clearEnable c) s =
      .next (answer 0x0502 c okReply (settle (disableOutlet (obj 63 c) b)))) ∧
    (Accepted 0x0503 c s → b = acting 0x0503 c s → exec (.openRequest c) s =
      .next (answer 0x0503 c okReply (settle (unlessHeld (openPair (obj 63 c)) b)))) ∧
    (Accepted 0x0504 c s → b = acting 0x0504 c s → releasable b c ≠ [] → exec (.lockoutRelease c) s =
      .next (answer 0x0504 c (okWith (leBytes 4 (releasable b c).length)) (settle (forEach (releasable b c) armRelease b)))) ∧
    (Accepted 0x0504 c s → b = acting 0x0504 c s → releasable b c = [] → exec (.lockoutRelease c) s =
      .next (answer 0x0504 c (refusedReply 1) (settle b))) ∧
    (Accepted 0x0505 c s → b = acting 0x0505 c s → p = cmdFields 0x0505 c → reserved3 p = true →
      (byteAt p 0 = 0 → exec (.brakeEngage c) s = .next (answer 0x0505 c okReply (settle (engageBrake (obj 3 c) b)))) ∧
      (byteAt p 0 = 1 → releaseRefusal b (obj 3 c) = none → exec (.brakeRelease c) s =
        .next (answer 0x0505 c okReply (settle (unlessHeld (releaseBrake (obj 3 c)) b)))) ∧
      (byteAt p 0 = 2 → testRefusal b (obj 3 c) = none → exec (.brakeHoldingTest c) s =
        .next (answer 0x0505 c okReply (settle (unlessHeld (startHolding (obj 3 c)) b))))) ∧
    (Accepted 0x0506 c s → b = acting 0x0506 c s → p = cmdFields 0x0506 c → (byteAt p 0 = 0x2E ∨ byteAt p 0 = 0x2F) →
      byteAt p 1 ≤ 1 → leAt p 2 2 = 0 → exec (.classERequest c) s = .next (answer 0x0506 c okReply
        (settle (settle (requestClassE (obj 63 c) (BitVec.ofNat 8 (byteAt p 0)) (byteAt p 1 == 1) b))))) ∧
    (∀ ws : List Word, Accepted 0x0510 c s → b = acting 0x0510 c s → p = cmdFields 0x0510 c → byteAt p 0 < 8 →
      reserved3 p = true → ws = wordsOf (limitedLen (byteAt p 0) / 4) (p.drop 4) →
      firstBad (limitedChecks (byteAt p 0) ws) = none →
      (byteAt p 0 ≠ 5 ∨ ceNeedsStep b (ws.getD 0 0) = false) → exec (.writeLimitedSetting c) s =
        .next (answer 0x0510 c pendingReply (settle (writeLimited (byteAt p 0) c.index.toNat ws b)))) ∧
    (∀ ws : List Word, Accepted 0x0510 c s → b = acting 0x0510 c s → p = cmdFields 0x0510 c → byteAt p 0 = 5 →
      reserved3 p = true → ws = wordsOf 1 (p.drop 4) → outWordOk (ws.getD 0 0) = true → ceTimeOk (ws.getD 0 0) = true →
      ceNeedsStep b (ws.getD 0 0) = true → b.keys.steps.at ceTimeStep ≠ 0 → exec (.writeLimitedSetting c) s =
        .next (answer 0x0510 c pendingReply (settle (writeLimited 5 c.index.toNat ws (useCeStep b))))) ∧
    (Accepted 0x0511 c s → b = acting 0x0511 c s → p = cmdFields 0x0511 c → byteAt p 0 < 8 → reserved3 p = true →
      exec (.readLimitedSetting c) s =
        .next (answer 0x0511 c (okWith (wordBytes (limitedWords b (byteAt p 0) c.index.toNat))) (settle b)))

/-- While Fescue runs: a status read answers the outlet's link bytes; permitted link words, module word and load limit
are held pending, and an end of an open session begins its stop. Whatever Fescue does: a permitted key map is in force
at once, a session mode is in force at once outside a session, the answer to a policy request that is open removes it
and is applied, a certificate answer goes to the vehicle, and an answer to an expired request is refused with 1 and
counted. -/
def Obligations.VehicleCommandsComplete : Prop :=
  ∀ (s b : State) (c : Cmd) (p : List Byte), s.dies.fescue = .running →
    (Accepted 0x0400 c s → b = acting 0x0400 c s → exec (.vehicleLinkStatus c) s =
      .next (answer 0x0400 c (okWith (linkStatusBytes b (obj 63 c))) (settle b))) ∧
    (Accepted 0x0410 c s → b = acting 0x0410 c s → p = cmdFields 0x0410 c → reserved3 p = true →
      (∀ w0 w1 : Word, w0 = BitVec.ofNat 32 (leAt p 4 4) → w1 = BitVec.ofNat 32 (leAt p 8 4) → byteAt p 0 = 0 →
        linkWord0Ok b (obj 63 c) w0 = true → linkWord1Ok w1 = true → exec (.vehicleLinkConfiguration c) s =
          .next (answer 0x0410 c pendingReply (settle (b.onPilot (obj 63 c) fun x =>
            { x with word0 := x.word0.write w0, word1 := x.word1.write w1 })))) ∧
      (∀ w : Word, w = BitVec.ofNat 32 (leAt p 4 4) → byteAt p 0 = 1 → moduleLinkOk w = true →
        exec (.vehicleLinkConfiguration c) s = .next (answer 0x0410 c pendingReply
          (settle { b with veh.module := b.veh.module.write w }))) ∧
      (byteAt p 0 = 2 → firstBad (numbered (fun k n => (1 + k / 2, keyEntryOk b k n)) 0 (mapEntries p)) = none →
        exec (.vehicleLinkConfiguration c) s = .next (answer 0x0410 c okReply (settle { b with
          veh.keyMap := b.veh.keyMap.mapN fun k _ => BitVec.ofNat 16 ((mapEntries p).getD k 0xFFFF) })))) ∧
    (Accepted 0x0411 c s → b = acting 0x0411 c s → p = cmdFields 0x0411 c → reserved3 p = true → byteAt p 0 ≤ 80 →
      exec (.loadLimit c) s = .next (answer 0x0411 c pendingReply (settle (b.onPilot (obj 63 c) fun x =>
        { x with word1 := x.word1.write (BitVec.ofNat 32 (byteAt p 0)) })))) ∧
    (Accepted 0x0412 c s → b = acting 0x0412 c s → p = cmdFields 0x0412 c → reserved3 p = true → byteAt p 0 ≤ 1 →
      inSession b (obj 63 c) = false → exec (.sessionMode c) s = .next (answer 0x0412 c okReply (settle { b with
        veh.ha := b.veh.ha.put (obj 63 c) (byteAt p 0 == 1), veh.haPend := b.veh.haPend.put (obj 63 c) none }))) ∧
    (∀ (bulk : List Byte) (r : PolicyRequest), Accepted 0x0420 c s → b = acting 0x0420 c s → p = cmdFields 0x0420 c →
      byteAt p 4 ≤ 3 → byteAt p 5 ≤ 1 → leAt p 6 2 = 0 → bulk = bulkOf 0x0420 c b → schedulesOk 72 0 0 bulk = true →
      b.veh.policies.find? (matchesRequest (obj 63 c) (leAt p 0 4) (byteAt p 4)) = some r → exec (.policyAnswer c) s =
        .next (answer 0x0420 c okReply (settle (policyAnswered r (byteAt p 5 == 1) bulk
          { b with veh.policies := b.veh.policies.filter fun x => x.id != r.id })))) ∧
    (∀ (body : List Byte) (n : Word) (k : Nat), Accepted 0x0421 c s → b = acting 0x0421 c s → p = cmdFields 0x0421 c →
      byteAt p 4 ≤ 1 → leAt p 5 3 = 0 → body = bulkOf 0x0421 c b → body.length ≤ 8192 →
      (b.veh.session.at (obj 63 c)).cert = some (n, k) → n.toNat = leAt p 0 4 → exec (.certificateAnswer c) s =
        .next (answer 0x0421 c okReply (settle (b.onSession (obj 63 c) fun n =>
          { n with cert := none, answer := some (if byteAt p 4 = 1 then .body body else .failed) })))) ∧
    (Accepted 0x0422 c s → b = acting 0x0422 c s → p = cmdFields 0x0422 c → reserved3 p = true → byteAt p 0 ≤ 2 →
      (b.veh.session.at (obj 63 c)).phase ≠ 0 → (b.veh.session.at (obj 63 c)).phase ≠ 9 → exec (.endSession c) s =
        .next (answer 0x0422 c okReply (settle (stopSession (obj 63 c) b)))) ∧
    (∀ a : Option AerialNo, lateAnswer a b = (refusedReply 1, raise 86 (aerialIndex a) 0 []
      { b with veh.lateAnswers := satAdd 32 b.veh.lateAnswers 1 }))

/-- While Ochre runs, each readout answers its bytes: the second's values of an outlet that has a type, the totals,
the harmonic window with its collection, the supraharmonic result, the oldest raw block, which it takes, and a
metrology table. A role assignment and a user calibration that Ochre does not refuse have their effect, the role step,
the log entry and the pending outlets among them; a buffer that it refuses is answered with the refusal, which is
counted. A metering mode takes effect at once outside a session. While Ochre does not run, a readout is answered
TIMEOUT, and a command of the whitelist waits. -/
def Obligations.MeterCommandsComplete : Prop :=
  ∀ (s b : State) (c : Cmd) (p : List Byte), s.dies.ochre = .running →
    (Accepted 0x0200 c s → b = acting 0x0200 c s → typeOf b (obj 63 c) ≠ 0 → exec (.read1sValues c) s =
      .next (answer 0x0200 c (okWith (secondBytes b (obj 63 c))) (settle { b with free := b.free + 23 }))) ∧
    (∀ m : Meter, Accepted 0x0201 c s → b = acting 0x0201 c s → m = b.och.meter.at (obj 63 c) → exec (.readTotals c) s =
      .next (answer 0x0201 c (okWith (m.acc.totals.toList.flatMap totalBytes ++ leBytes 8 (m.saves.at m.newer).meteredTo))
        (settle b))) ∧
    (∀ r : Reply × State, Accepted 0x0202 c s → b = acting 0x0202 c s → p = cmdFields 0x0202 c → byteAt p 0 ≤ 1 →
      reserved3 p = true → r = harmonicReply (byteAt p 0) (obj 63 c) b → exec (.readHarmonicWindow c) s =
        .next (answer 0x0202 c r.1 (settle r.2))) ∧
    (∀ x : SupraResult, Accepted 0x0203 c s → b = acting 0x0203 c s → b.och.supra.at (obj 447 c) = some x →
      exec (.readSupraharmonicResult c) s = .next (answer 0x0203 c (okBulk (supraBytes x)) (settle b))) ∧
    (∀ a : Analysis, Accepted 0x0204 c s → b = acting 0x0204 c s → a = b.och.analysis.at (obj 63 c) →
      exec (.collectRawSampleBlock c) s =
        .next (answer 0x0204 c (okBulk (leBytes 4 a.discards.toNat ++ (a.raw.head?.getD [])))
          (settle (b.onAnalysis (obj 63 c) fun a => { a with raw := a.raw.drop 1 })))) ∧
    (Accepted 0x0205 c s → b = acting 0x0205 c s → p = cmdFields 0x0205 c → byteAt p 0 ≤ 5 → reserved3 p = true →
      exec (.readMetrologyTable c) s = .next (answer 0x0205 c (okBulk (tableBytes b (byteAt p 0))) (settle b))) ∧
    (∀ (l : List Byte) (ws : List Word), Accepted 0x0210 c s → b = acting 0x0210 c s → l = bulkOf 0x0210 c b →
      ws = wordsOf (l.length / 4) l →
      (roleRefusal ws b = none → exec (.outletRoleAssignment c) s =
        .next (answer 0x0210 c (assignRoles ws b).1 (settle (assignRoles ws b).2))) ∧
      (∀ r : Reply, roleRefusal ws b = some r → exec (.outletRoleAssignment c) s =
        .next (answer 0x0210 c r (settle (ochreRefuses r b).2)))) ∧
    (∀ (l : List Byte) (ws : List Word), Accepted 0x0211 c s → b = acting 0x0211 c s → l = bulkOf 0x0211 c b →
      ws = wordsOf (l.length / 4) l → calibrationRefusal ws b = none → exec (.userCalibration c) s =
        .next (answer 0x0211 c (calibrateUser ws b).1 (settle (calibrateUser ws b).2))) ∧
    (Accepted 0x0212 c s → b = acting 0x0212 c s → p = cmdFields 0x0212 c → byteAt p 0 ≤ 1 → reserved3 p = true →
      inSession b (obj 63 c) = false → exec (.meteringMode c) s = .next (answer 0x0212 c okReply (settle { b with
        och.ha := b.och.ha.put (obj 63 c) (byteAt p 0 == 1), och.haPend := b.och.haPend.put (obj 63 c) none })))

/-- While Ochre runs: a register read answers energies or demands of the outlet, a billing snapshot read the snapshot
that is there, a log read the entries of the range and marks those that the buffer holds as read, an object read its
object, a record read the records from the first in order, and an export confirmation marks the records that its pairs
name and answers how many it marked. An acknowledgement up to an entry that has been read, with the CRC-32 of the
entries, removes them and is itself kept among the last 16. -/
def Obligations.LegalReadoutsComplete : Prop :=
  ∀ (s b : State) (c : Cmd) (p : List Byte), s.dies.ochre = .running →
    (∀ a : Accum, Accepted 0x0300 c s → b = acting 0x0300 c s → p = cmdFields 0x0300 c → byteAt p 0 ≤ 1 → reserved3 p = true →
      a = (b.och.meter.at (obj 63 c)).acc → exec (.readRegisters c) s = .next (answer 0x0300 c
        (okWith (if byteAt p 0 = 0 then energyBytes a else demandBytes a)) (settle b))) ∧
    (Accepted 0x0301 c s → b = acting 0x0301 c s → p = cmdFields 0x0301 c → byteAt p 0 ≤ 1 → reserved3 p = true →
      b.och.snapshots.length ≤ byteAt p 0 → exec (.readBillingSnapshot c) s =
        .next (answer 0x0301 c (okBulk []) (settle b))) ∧
    (∀ (first n : Nat) (es : List LogEntry), Accepted 0x0302 c s → b = acting 0x0302 c s → p = cmdFields 0x0302 c →
      first = leAt p 0 4 → n = leAt p 4 4 → es = logRange b first n → es.any (fun e => e.seq.toNat == first) = true →
      1 ≤ n → n ≤ 4096 → es.length = n → exec (.readLegalLog c) s =
        .next (answer 0x0302 c (okBulk (es.flatMap logBytes)) (settle { b with
          och.log.entries := markRead first (min n (outLength 0x0302 c / 96)) b.och.log.entries }))) ∧
    (Accepted 0x0303 c s → b = acting 0x0303 c s → p = cmdFields 0x0303 c → ackRefusal 0x0303 c p b = none →
      exec (.acknowledgeLegalLog c) s = .next (answer 0x0303 c okReply (settle (acknowledge p b).2))) ∧
    (Accepted 0x0304 c s → b = acting 0x0304 c s → p = cmdFields 0x0304 c → byteAt p 0 ≤ 7 → reserved3 p = true →
      exec (.readLegalObject c) s = .next (answer 0x0304 c (legalObject b (byteAt p 0) c.index.toNat) (settle b))) ∧
    (∀ n : Nat, Accepted 0x0305 c s → b = acting 0x0305 c s → p = cmdFields 0x0305 c → n = leAt p 4 4 → 1 ≤ n → n ≤ 8192 →
      leAt p 8 4 ≤ 1 → exec (.readSessionRecords c) s = .next (answer 0x0305 c
        (okBulk (((recordsFrom b (leAt p 0 4) (leAt p 8 4 = 1)).take n).flatMap recordAll)) (settle b))) ∧
    (∀ (ps : List (Nat × Nat)) (l : List Retained), Accepted 0x0306 c s → b = acting 0x0306 c s → p = cmdFields 0x0306 c →
      ps = exportPairs (p.length / 8) p → l = confirmPairs ps b.och.recs.retained →
      firstBad (numbered (fun k x => (2 * k, pairMatches b x)) 0 ps) = none → exec (.confirmExport c) s =
        .next (answer 0x0306 c (okWith (leBytes 4 ((l.filter (·.exported)).length -
          (b.och.recs.retained.filter (·.exported)).length))) (settle { b with och.recs.retained := l }))) ∧
    (acknowledge p b).2.och.log.ackNo = b.och.log.ackNo + 1

/-- While Ochre runs and does not refuse: tariff parameters are logged and pending, a passive calendar is logged and
stored whole, a time set is logged and legal time takes the value, with the old time answered, a demand interval
length is logged and pending until the next hour, a confirmed switch is marked, and the display takes the selection. A
refusal of Ochre is answered as it is. A command of the whitelist that has been fetched and that Ochre has not
answered for 10 ms is answered TIMEOUT. -/
def Obligations.LegalSettingsComplete : Prop :=
  ∀ (s b : State) (c : Cmd) (p : List Byte),
    (s.dies.ochre = .running →
      (Accepted 0x0310 c s → b = acting 0x0310 c s → p = cmdFields 0x0310 c → tariffRefusal 0x0310 c p b = none →
        exec (.tariffParameters c) s = .next (answer 0x0310 c pendingReply (settle (setTariffs p b).2))) ∧
      (∀ cal : List Byte, Accepted 0x0311 c s → b = acting 0x0311 c s → cal = bulkOf 0x0311 c b →
        calendarRefusal cal b = none → exec (.loadPassiveCalendar c) s =
          .next (answer 0x0311 c okReply (settle (loadCalendar cal b).2))) ∧
      (Accepted 0x0312 c s → b = acting 0x0312 c s → p = cmdFields 0x0312 c → timeRefusal 0x0312 c p b = none →
        exec (.setLegalTime c) s = .next (answer 0x0312 c (okWith (leBytes 8 (legalUnits b))) (settle (setTime p b).2))) ∧
      (Accepted 0x0313 c s → b = acting 0x0313 c s → p = cmdFields 0x0313 c → lengthRefusal 0x0313 c p b = none →
        exec (.demandInterval c) s = .next (answer 0x0313 c (setLength p b).1 (settle (setLength p b).2))) ∧
      (Accepted 0x0314 c s → b = acting 0x0314 c s → p = cmdFields 0x0314 c → announcedMatch p b = true →
        exec (.confirmTariffSwitch c) s = .next (answer 0x0314 c okReply (settle (confirmSwitch p b).2))) ∧
      (Accepted 0x0315 c s → b = acting 0x0315 c s → p = cmdFields 0x0315 c → selectionOk b (selectionOf p) = true →
        byteAt p 3 = 0 → exec (.displaySelection c) s = .next (answer 0x0315 c okReply (settle (selectItem p b).2)))) ∧
    (∀ op : BitVec 16, op.toNat ∈ whitelistOps → (findFetch op.toNat c s).isSome = true → controlRuns s = true →
      exec (.whitelistTimeout c op) s = .next (answer op.toNat c (reply .timeout 0) s)) ∧
    ((setTariffs p b).2.och.set.tariffPend = true ∧ (setTariffs p b).2.och.set.tariff0 = BitVec.ofNat 32 (leAt p 0 4)) ∧
    (∀ cal : List Byte, (loadCalendar cal b).2.och.tariffs.passive = cal) ∧
    ((setTime p b).2.och.clock.us = leAt p 0 8 * 64 ∧ (setTime p b).2.och.clock.timeInvalid = false) ∧
    ((setLength p b).2.och.tariffs.lenPend = some (byteAt p 0, (lt32 b / 3600 + 1) * 3600)) ∧
    ((selectItem p b).2.och.display.sel = some (byteAt p 0, byteAt p 1, byteAt p 2))

/-- A slot read answers the slot's words and its public part. In a slot that is no spare and that the mode does not
lock, a key in clear whose checks pass becomes the slot's key, and one that also meets its naming becomes the slot's
shadow; a passed self-test marks the shadow tested; a tested shadow with its integrity tag becomes the key. The step
counters are read. An allowed lifecycle move is answered and then made. A valid debug token uses its step, opens debug
and wipes the vault. -/
def Obligations.KeyCommandsComplete : Prop :=
  ∀ (s b : State) (c : Cmd) (p : List Byte),
    (Accepted 0x0900 c s → b = acting 0x0900 c s → spareSlot c = false → exec (.readSlot c) s =
      .next (answer 0x0900 c (okWith (slotBytes (b.keys.slot.at (obj 255 c)))) (settle b))) ∧
    (Accepted 0x0901 c s → b = acting 0x0901 c s → p = cmdFields 0x0901 c → spareSlot c = false → vendorLocked b c = false →
      firstBad (keyChecks c.index.toNat p) = none → exec (.writeKeyInClear c) s =
        .next (answer 0x0901 c okReply (settle (placeKey (obj 255 c) (carriedKey b p) b)))) ∧
    (Accepted 0x0902 c s → b = acting 0x0902 c s → p = cmdFields 0x0902 c → spareSlot c = false → vendorLocked b c = false →
      firstBad (keyChecks c.index.toNat p ++ [(0, meetsNaming b c.index.toNat (carriedKey b p))]) = none →
      exec (.loadShadow c) s = .next (answer 0x0902 c okReply (settle (b.onSlot (obj 255 c) fun x =>
        { x with shadow := some (carriedKey b p), tested := false })))) ∧
    (Accepted 0x0903 c s → b = acting 0x0903 c s → spareSlot c = false → (b.keys.slot.at (obj 255 c)).shadow.isSome = true →
      exec (.testShadow c true) s = .next (answer 0x0903 c okReply (settle (b.onSlot (obj 255 c) fun x =>
        { x with tested := true })))) ∧
    (∀ k : Key, Accepted 0x0904 c s → b = acting 0x0904 c s → spareSlot c = false →
      (b.keys.slot.at (obj 255 c)).shadow = some k → (b.keys.slot.at (obj 255 c)).tested = true →
      exec (.commitShadow c true) s = .next (answer 0x0904 c okReply (settle (placeKey (obj 255 c) k b)))) ∧
    (∀ d : Lifecycle, Accepted 0x0905 c s → b = acting 0x0905 c s → p = cmdFields 0x0905 c → lifecycleOf (byteAt p 0) = some d →
      leAt p 1 3 = 0 → moveAllowed s d = true → moveAllowed b d = true → needsToken s d = false → needsToken b d = false →
      exec (.lifecycleMove c) s = .next (makeMove d (answer 0x0905 c okReply (settle b)))) ∧
    (Accepted 0x0906 c s → b = acting 0x0906 c s → exec (.readStepCounters c) s =
      .next (answer 0x0906 c (okWith (b.keys.steps.toList.map (BitVec.ofNat 8) ++ [0, 0, 0])) (settle b))) ∧
    (∀ tok : List Byte, controlRuns s = true → (s.keys.lifecycle = .provisioned ∨ s.keys.lifecycle = .returned) →
      s.keys.steps.at 8 ≠ 0 → (tokenValid 2 (debugStep s) tok s).1 = true → ∃ t, exec (.debugUnlockToken tok) s = .next t ∧
        t.keys.debugOpen = true ∧ t.keys.steps.at 8 = s.keys.steps.at 8 - 1) ∧
    (∀ (n : Fin 256) (k : Key), ((placeKey n k s).keys.slot.at n).key = k ∧
      ((placeKey n k s).keys.slot.at n).shadow = none ∧ ((placeKey n k s).keys.slot.at n).uses = wFld k.w1 0 25) ∧
    (∀ d : Lifecycle, (makeMove d s).keys.lifecycle = d ∧ ((makeMove d s).keys.debugOpen = true ↔ d = .factory))

/-- For this module: a header that passes every check with its signature opens a session with the next handle; a part
at the expected offset extends the body of the session that its handle names; a commit of a complete body with the
header's hash makes the image a trial, closes the session and burns what its epoch asks; an abort and 10 min of
silence end the session; the status is read. A trial image in use is confirmed into service. Fescue, Spelt and Millet
come to run a waiting image by their own resets and handover, and an outlet that is idle takes the new session image. -/
def Obligations.UpdateCommandsComplete : Prop :=
  ∀ (s b : State) (c : Cmd) (p : List Byte),
    (∀ h : List Byte, Accepted 0x0B00 c s → b = acting 0x0B00 c s → p = cmdFields 0x0B00 c → byteAt p 0 = 0 →
      reserved3 p = true → h = bulkOf 0x0B00 c b → b.upd.staging = none → headerRefusal b h 0 = none →
      (signatureOk h b).1 = true → exec (.openStaging c) s = .next (answer 0x0B00 c
        (okWith (leBytes 4 (nextHandle (signatureOk h b).2 false).toNat)) (settle (openHere false h (signatureOk h b).2)))) ∧
    (∀ (g : Staging) (part : List Byte), Accepted 0x0B01 c s → b = acting 0x0B01 c s → p = cmdFields 0x0B01 c →
      part = bulkOf 0x0B01 c b → b.upd.staging = some g → g.handle.toNat = leAt p 0 4 → b.thm.nandHot = false →
      partFits g (leAt p 4 4) part = true → exec (.imageBody c) s = .next (answer 0x0B01 c okReply
        (settle { b with upd.staging := some (g.add part (b.och.clock.mono / 1000)) }))) ∧
    (∀ g : Staging, Accepted 0x0B02 c s → b = acting 0x0B02 c s → p = cmdFields 0x0B02 c → b.upd.staging = some g →
      g.handle.toNat = leAt p 0 4 → bodyOk g = true → exec (.imageCommit c) s =
        .next (answer 0x0B02 c okReply (settle (commitStaging g b)))) ∧
    (∀ g : Staging, Accepted 0x0B03 c s → b = acting 0x0B03 c s → p = cmdFields 0x0B03 c → b.upd.staging = some g →
      g.handle.toNat = leAt p 0 4 → exec (.stagingAbort c) s = .next (answer 0x0B03 c okReply (settle (abortStaging b)))) ∧
    (Accepted 0x0B04 c s → b = acting 0x0B04 c s → exec (.updateStatus c) s =
      .next (answer 0x0B04 c (okWith (updateBytes b)) (settle b))) ∧
    (s.upd.staging.isSome = true → exec .stagingTimeout s = .next (abortStaging s)) ∧
    (∀ (i : ImageNo) (x : Image), x = s.upd.image.at i → (x.slot.at x.active).status = .trial → ∃ t,
      exec (.trialConfirmation i) s = .next t ∧
        ((t.upd.image.at i).slot.at (t.upd.image.at i).active).status = .inService ∧ (t.upd.image.at i).wdAt = none) ∧
    ((s.upd.image.at 0).waiting = true → fescueQuiet s = true → s.dies.fescue ≠ .held → ∃ t,
      exec .fescueImageBringIn s = .next t ∧ t.dies.fescue = .starting ∧ (t.upd.image.at 0).waiting = false) ∧
    (∀ o : OutletNo, (s.upd.image.at 1).waiting = true → controlRuns s = true → (s.veh.pilot.at o).state = .A →
      (s.rus.pair.at (coilOf o)).cmd = false → ∃ t, exec (.sessionImageBringIn o) s = .next t ∧
        t.upd.sessionSlot.at o = otherSlot (s.upd.image.at 1)) ∧
    ((s.upd.image.at 2).waiting = true → s.mbx.handover = true → controlRuns s = true → ∃ t,
      exec .milletStateHandover s = .next t ∧ t.mbx.handover = false ∧ (t.upd.image.at 2).waiting = false) ∧
    (s.spe.imageWaits = true → s.dies.spelt ≠ .held → ∃ t, exec .speltImageReset s = .next t ∧
      t.dies.spelt = .starting ∧ t.spe.imageWaits = false)

/-- A fault log read answers the flushed entries of its range; a routing change is in force at once; a source read
answers the source; a clear ends the pending flags named, but for level sources whose condition holds; wear, site-line
noise and temperatures are read; the conflict counters of a master are answered and cleared; a bundle is begun when
none is being built, and at its end the command is answered with what fits its buffer. -/
def Obligations.DiagnosticCommandsComplete : Prop :=
  ∀ (s b : State) (c : Cmd) (p : List Byte),
    (∀ (first n : Nat) (es : List FaultEntry), Accepted 0x0C00 c s → b = acting 0x0C00 c s → p = cmdFields 0x0C00 c →
      first = leAt p 0 4 → n = leAt p 4 4 → es = faultRange b first n → es.any (fun e => e.fseq.toNat == first) = true →
      1 ≤ n → n ≤ faultLogSize → es.length = n → exec (.readFaultLog c) s =
        .next (answer 0x0C00 c (okBulk (es.flatMap faultBytes)) (settle b))) ∧
    (Accepted 0x0C01 c s → b = acting 0x0C01 c s → b.evt.bundle = none → leAt (cmdFields 0x0C01 c) 0 4 < 4 → ∃ t,
      exec (.diagnosticBundle c) s = .next t ∧ t.evt.bundle = some c) ∧
    (Accepted 0x0C02 c s → b = acting 0x0C02 c s → p = cmdFields 0x0C02 c → byteAt p 0 ≤ 1 → byteAt p 1 ≤ 3 →
      leAt p 2 2 = 0 → exec (.eventRouting c) s = .next (answer 0x0C02 c okReply (settle (b.onSource (obj 127 c) fun x =>
        { x with mask := byteAt p 0 == 1, route := BitVec.ofNat 2 (byteAt p 1) })))) ∧
    (Accepted 0x0C03 c s → b = acting 0x0C03 c s → exec (.eventSourceState c) s =
      .next (answer 0x0C03 c (okWith (sourceBytes (b.evt.src.at (obj 127 c)))) (settle b))) ∧
    (Accepted 0x0C04 c s → b = acting 0x0C04 c s → exec (.clearPending c) s = .next (answer 0x0C04 c okReply
      (settle { b with evt.src := b.evt.src.mapN (clearSource (cmdFields 0x0C04 c)) }))) ∧
    (Accepted 0x0C05 c s → b = acting 0x0C05 c s → exec (.wearAndSpares c) s =
      .next (answer 0x0C05 c (okBulk (wearBytes b)) (settle b))) ∧
    (Accepted 0x0C06 c s → b = acting 0x0C06 c s → exec (.siteLineNoise c) s = .next (answer 0x0C06 c
      (okWith (if c.index = 0xFFFF then padTo 192 b.site.noise
        else snrBytes (b.site.link.at (Fin.ofNat 32 (c.index.toNat - 1))))) (settle b))) ∧
    (Accepted 0x0C07 c s → b = acting 0x0C07 c s → exec (.poolConflictCounters c) s = .next (answer 0x0C07 c
      (okBulk (conflictBytes b.free (b.mem.conflicts.at (obj 15 c)))) (settle { b with
        mem.conflicts := b.mem.conflicts.put (obj 15 c) { conf := Tab.all 8 0, acc := Tab.all 8 0 }, free := b.free + 16 }))) ∧
    (Accepted 0x0C08 c s → b = acting 0x0C08 c s → exec (.temperatures c) s =
      .next (answer 0x0C08 c (okWith (tempBytes b)) (settle b))) ∧
    (∀ (peer : Option (List Byte)) (u : State) (l : List Byte), s.evt.bundle = some c → controlRuns s = true →
      l = bundleBytes (leAt (cmdFields 0x0C01 c) 0 4) (outLength 0x0C01 c) peer s →
      u = { s with evt.bundle := none, free := s.free + 20736 + 256 } → exec (.bundleComplete peer) s =
        .next (answer 0x0C01 c { okWith (leBytes 4 l.length) with bulk := [l] } u))

/-- A client whose chain a mapped root verifies gets the level of that root and the connection of an Ethernet port
that has none, or a silent one, with its rings enabled and their indices 0; a close and a port silence end it, and the
rings with it. On an open connection a ring entry is written at the next producer index of its ring, which advances by
one while the ring has room; a consumer index within its bounds is taken; a window read and a bulk read are answered
with the words or bytes read; a window write writes its words in order; a bulk write writes the pool; a malformed
record closes the connection. QSPI reads its port status, and reads and writes the pool words that it may. -/
def Obligations.ConnectionsAndRecordsComplete : Prop :=
  ∀ (s b : State) (e : EthPort) (p : PortNo), p = ethPort e → b = hostTraffic p s →
    (∀ root : ClientRoot, controlRuns s = true → s.mbx.ready = true → (handshake (s.mbx.port.at p) root s).1 ≠ 0 →
      (s.mbx.port.at p).connected = false ∨ (s.mbx.port.at p).silent = true → ∃ t,
      exec (.tlsConnectionOpen e root) s = .next t ∧ (t.mbx.port.at p).connected = true ∧
      (t.mbx.port.at p).level = BitVec.ofNat 2 (handshake (s.mbx.port.at p) root s).1 ∧
      (t.mbx.port.at p).ringEn = true ∧ (t.mbx.port.at p).idx = .zero ∧ (t.mbx.port.at p).silent = false) ∧
    ((s.mbx.port.at p).connected = true → ∃ t, exec (.tlsConnectionClose e) s = .next t ∧
      (t.mbx.port.at p).connected = false ∧ (t.mbx.port.at p).level = 0 ∧ (t.mbx.port.at p).ringEn = false) ∧
    (∀ q : PortNo, controlRuns s = true → (s.mbx.port.at q).silent = false → ∃ t, exec (.portSilence q) s = .next t ∧
      (t.mbx.port.at q).silent = true ∧ (q ≠ 2 → (t.mbx.port.at q).connected = false)) ∧
    (controlRuns s = true → (s.mbx.port.at p).connected = true →
      (∀ (urgent : Bool) (entry : List Byte) (i : Indices), i = (b.mbx.port.at p).idx → 16 ≤ entry.length →
        entry.length ≤ 256 → (b.mbx.port.at p).ringEn = true → b.mbx.ready = true →
        (if urgent then idxSub i.ucmdPi i.ucmdCi < 64 else idxSub i.ncmdPi i.ncmdCi < 256) →
        exec (.recordRingEntry e urgent entry) s = .next (if urgent
          then (poolWrite b (ucmdBase p + i.ucmdPi.toNat % 64 * 256) (padTo 256 entry)).onPort p
            fun q => { q with idx := { q.idx with ucmdPi := i.ucmdPi + 1 } }
          else (poolWrite b (ncmdBase p + i.ncmdPi.toNat % 256 * 256) (padTo 256 entry)).onPort p
            fun q => { q with idx := { q.idx with ncmdPi := i.ncmdPi + 1 } })) ∧
      (∀ (event : Bool) (v : BitVec 16) (i : Indices), i = (b.mbx.port.at p).idx →
        (if event then idxSub v i.evtCi ≤ idxSub i.evtPi i.evtCi else idxSub v i.rspCi ≤ idxSub i.rspPi i.rspCi) →
        exec (.recordConsumerIndex e event v) s = .next (b.onPort p fun q =>
          { q with idx := if event then { q.idx with evtCi := v } else { q.idx with rspCi := v } })) ∧
      (∀ (tag : BitVec 16) (addr : BitVec 32) (n : Nat), 1 ≤ n → n ≤ 64 → exec (.recordWindowRead e tag addr n) s =
        .next (sendRecord p (recordBytes 6 0 tag.toNat
          (wordBytes ((List.range n).map fun k => windowRead b (addr.toNat + 4 * k)))) b)) ∧
      (∀ (addr : BitVec 32) (ws : List Word), exec (.recordWindowWrite e addr ws) s =
        .next (writeWords p addr.toNat ws b)) ∧
      (∀ (off : Nat) (bytes : List Byte), bytes.length ≤ 4096 → off + bytes.length ≤ bulkSize →
        exec (.recordBulkWrite e off bytes) s = .next (poolWrite b (bulkBase p + off) bytes)) ∧
      (∀ (tag : BitVec 16) (off n : Nat) (bytes : List Byte), n ≤ 4096 → off + n ≤ bulkSize →
        poolRead b (bulkBase p + off) n = some bytes → exec (.recordBulkRead e tag off n) s =
          .next (sendRecord p (recordBytes 0x0A 0 tag.toNat bytes) b)) ∧
      (∃ t, exec (.malformedRecord e) s = .next t ∧ (t.mbx.port.at p).connected = false)) ∧
    (exec .qspiReadPortStatus s = .next (qspiAnswer [portStatusByte s] s)) ∧
    (∀ (a : BitVec 32) (off : Nat), served s 2 = true → poolBase ≤ a.toNat → a.toNat < poolBase + poolSize →
      off = (a.toNat - poolBase) / 4 * 4 →
      (∀ bytes : List Byte, qspiReadable off = true → poolRead s off 4 = some bytes → ∃ t,
        exec (.qspiPoolAccess a none) s = .next t ∧ (t.mbx.port.at 2).sent = [bytes] ∧ t.mem.pool = s.mem.pool) ∧
      (∀ v : Word, qspiWritable off = true → ∃ t, exec (.qspiPoolAccess a (some v)) s = .next t ∧
        t.mem.pool = memWrite s.mem.pool off (leBytes 4 v.toNat)) ∧
      (∀ v : Word, qspiWritable off = false → ∃ t, exec (.qspiPoolAccess a (some v)) s = .next t ∧
        t.mem.pool = s.mem.pool))

/-- Through a port that is served, with the end of its silence: enabling the rings sets the port's indices, error
counts and lost count to 0 and clears its ring memory; disabling keeps the fetched commands and discards their
responses; a doorbell within its bounds becomes the producer index; a consumer index within its bounds is taken; the
host heartbeat is written. At authority 2 or 3, BUSY_MS takes a value from 10 to 250 and keeps its value otherwise,
and the bits of the reset cause register that are written as 1 are cleared, OTP_USED apart. A write of any other word
is refused and counted in ACC_ERR. -/
def Obligations.RegisterWritesComplete : Prop :=
  ∀ (s b : State) (p : PortNo), b = hostTraffic p s → served s p = true →
    (∀ v : Word, wBit v 0 = true → (b.mbx.port.at p).ringEn = false → ∃ t, exec (.ringEnable p v) s = .next t ∧
      (t.mbx.port.at p).ringEn = true ∧ (t.mbx.port.at p).idx = .zero ∧ (t.mbx.port.at p).accErr = 0 ∧
      (t.mbx.port.at p).dbErr = 0 ∧ (t.mbx.port.at p).evtLost = 0 ∧ (t.mbx.port.at p).evtEn = wBit v 1 ∧
      t.mem.pool = memClear b.mem.pool (ringBase p) ringBytes) ∧
    (∀ v : Word, wBit v 0 = false → (b.mbx.port.at p).ringEn = true → ∃ t, exec (.ringDisable p v) s = .next t ∧
      (t.mbx.port.at p).ringEn = false ∧ (t.mbx.port.at p).idx = (b.mbx.port.at p).idx ∧ t.mem.pool = b.mem.pool ∧
      t.mbx.fetched = b.mbx.fetched.map fun f => if f.cmd.port == p then { f with dropped := true } else f) ∧
    (∀ (v : BitVec 16) (i : Indices), i = (b.mbx.port.at p).idx → (b.mbx.port.at p).ringEn = true → b.mbx.ready = true →
      0 < idxSub v i.ucmdPi → idxSub v i.ucmdPi + idxSub i.ucmdPi i.ucmdCi ≤ 64 → exec (.urgentDoorbell p v) s =
        .next (b.onPort p fun q => { q with idx := { q.idx with ucmdPi := v } })) ∧
    (∀ (v : BitVec 16) (i : Indices), i = (b.mbx.port.at p).idx → (b.mbx.port.at p).ringEn = true → b.mbx.ready = true →
      0 < idxSub v i.ncmdPi → idxSub v i.ncmdPi + idxSub i.ncmdPi i.ncmdCi ≤ 256 → exec (.normalDoorbell p v) s =
        .next (b.onPort p fun q => { q with idx := { q.idx with ncmdPi := v } })) ∧
    (∀ (v : BitVec 16) (i : Indices), i = (b.mbx.port.at p).idx → idxSub v i.rspCi ≤ idxSub i.rspPi i.rspCi →
      exec (.responseConsumerWrite p v) s = .next (b.onPort p fun q => { q with idx := { q.idx with rspCi := v } })) ∧
    (∀ (v : BitVec 16) (i : Indices), i = (b.mbx.port.at p).idx → idxSub v i.evtCi ≤ idxSub i.evtPi i.evtCi →
      exec (.eventConsumerWrite p v) s = .next (b.onPort p fun q => { q with idx := { q.idx with evtCi := v } })) ∧
    (∀ v : Word, exec (.hostHeartbeatWrite p v) s = .next (b.onPort p fun q => { q with hostHb := v })) ∧
    (∀ v : Word, 2 ≤ portLevel b p → exec (.busyMsWrite p v) s = .next (if within 10 250 (wFld v 0 8)
      then { b with mbx.busyMs := BitVec.ofNat 8 v.toNat } else b)) ∧
    (∀ v : Word, 2 ≤ portLevel b p → exec (.resetCauseClear p v) s =
      .next { b with rus.cause := b.rus.cause &&& ~~~ (v &&& 0xFFFB) }) ∧
    (∀ (a : BitVec 32) (v : Word), ¬ (0x1000 + 0x100 * p.val ≤ a.toNat ∧ a.toNat < 0x1100 + 0x100 * p.val) →
      a.toNat ≠ 0x020 → a.toNat ≠ 0x108 → ∃ t, exec (.registerWrite p a v) s = .next t ∧
      (t.mbx.port.at p).accErr = satAdd 8 (b.mbx.port.at p).accErr 1 ∧ t.mem.pool = b.mem.pool)

/-- A fetch serves the urgent rings of ports 2, 0 and 1 first. The fetched entry's consumer index advances; an entry
that passes the header, the backlog and the tail checks is kept as a fetched command and forwarded where the pair
forwards it; a normal command whose estimate exceeds BUSY_MS is answered BUSY with a retry-after of a multiple of 10
ms. An occurrence takes the next sequence number, sets its source's pending flag and counts; while the control die
does not run it waits in its die's queue of 64, which is delivered and emptied later. A routed event is written to
every port whose rings and events are enabled and whose event ring has room. -/
def Obligations.FetchAndEventsComplete : Prop :=
  ∀ s : State,
    (urgentWaits s 2 = true → nextRing s = some (2, true)) ∧
    (urgentWaits s 2 = false → urgentWaits s 0 = true → nextRing s = some (0, true)) ∧
    (∀ (est a : Nat) (p : PortNo) (urgent : Bool) (e : List Byte) (i : Indices) (op : Nat) (c : Cmd) (t u : State),
      controlRuns s = true → s.mbx.ready = true → nextRing s = some (p, urgent) → i = (s.mbx.port.at p).idx →
      a = (if urgent then ucmdBase p + i.ucmdCi.toNat % 64 * 256 else ncmdBase p + i.ncmdCi.toNat % 256 * 256) →
      poolRead s a 256 = some e → byteAt e 3 = 1 → byteAt e 2 < 4 → leAt e 8 4 = 0 → leAt e 14 2 = 0 → leAt e 6 2 ≤ 240 →
      op = leAt e 0 2 → c = entryCmd p urgent e → t = consumed p urgent s → headChecks op c t = none →
      (u = (if urgent then t else setBacklog false t) → t.mbx.handover = false → (urgent = true ∨ est ≤ t.mbx.busyMs.toNat) →
        tailChecks op c u = none → exec (.commandFetch est) s = .next (forwardOut op c { u with
          mbx.fetched := u.mbx.fetched ++ [{ op := BitVec.ofNat 16 op, cmd := c, dropped := false }] })) ∧
      (urgent = false → t.mbx.handover = false → t.mbx.busyMs.toNat < est → exec (.commandFetch est) s =
        .next (answerEntry p e (reply .busy (retryAfter est)) (setBacklog true t)) ∧
        retryAfter est % 10 = 0 ∧ 10 ≤ retryAfter est ∧ retryAfter est ≤ 5000)) ∧
    (∀ (k : SourceNo) (index : BitVec 16) (cause : Byte) (ended : Bool) (data : List Byte), knownSource k.val = true →
      (controlRuns s = true → ∃ t, exec (.eventOccurrence k index cause ended data) s = .next t ∧
        t.evt.seq = s.evt.seq + 1 ∧ (t.evt.src.at k).pending = true ∧
        (t.evt.src.at k).counter = satAdd 32 (s.evt.src.at k).counter 1) ∧
      (∀ d : Fin 4, controlRuns s = false → sourceDie k.val index.toNat = some d → (s.evt.dieQ.at d).queue.length < 64 →
        ∃ t, exec (.eventOccurrence k index cause ended data) s = .next t ∧ t.evt.seq = s.evt.seq ∧
          ∃ q, (t.evt.dieQ.at d).queue = (s.evt.dieQ.at d).queue ++ [q] ∧ q.source = k ∧ q.index = index ∧ q.cause = cause)) ∧
    (∀ (c : Occ) (rest : List Occ), controlRuns s = true → s.evt.routed = c :: rest →
      exec .eventRingWrite s = .next (forEach (indices 2) (deliver c) { s with evt.routed := rest })) ∧
    (∀ (c : Occ) (p : PortNo), (s.mbx.port.at p).ringEn = true → (s.mbx.port.at p).evtEn = true →
      (s.mbx.port.at p).lostNew = 0 → eventFull s p = false → deliver c p s = putEvent p (eventEntry c) s ∧
        ((deliver c p s).mbx.port.at p).idx.evtPi = (s.mbx.port.at p).idx.evtPi + 1) ∧
    (∀ (c : Occ) (p : PortNo), (s.mbx.port.at p).ringEn = true → (s.mbx.port.at p).evtEn = true →
      (s.mbx.port.at p).lostNew = 0 → eventFull s p = true → ((deliver c p s).mbx.port.at p).lostNew = 1 ∧
        ((deliver c p s).mbx.port.at p).lostFirst = c.time ∧ (deliver c p s).mem.pool = s.mem.pool) ∧
    (controlRuns s = true → ∃ t, exec .delayedEventDelivery s = .next t ∧
      ∀ d : Fin 4, t.evt.dieQ.at d = { queue := [], dropped := 0 })

/-- While the control die runs: an aligned access of the pool, by a master that has the operation, leaves the sum or
the new value modulo its width and gives the old one, and any other is not performed; of two accesses that wait for
one bank, master 15's runs first in whichever order they stand. A scratchpad's owner passes it on, or frees it with
31; the active management core reclaims an unowned one, and clears one whose owner is declared silent before it
reclaims it; any other owner write is ignored and counted in DENIED. A corrected code word of a bank is counted, and
the 32nd within 24 h has a spare replace the bank; the copy's end puts the spare into service with event 97. A pool
code word with an uncorrectable error is marked bad, a scratchpad's word too, and the vault's regions are cleared. A
vault wipe ends. The tag's module state area is rewritten. -/
def Obligations.MemoryCommandsComplete : Prop :=
  ∀ s : State, controlRuns s = true →
    (∀ (a : MemAccess) (old : List Byte), accessOk poolSize a = true → poolRead s a.addr (operandBytes a.wide) = some old →
      ∃ t, exec (.atomicOperation [a]) s = .next t ∧ t.mem.returned = [(a.master, some (opGives (ofLe old) a.op))] ∧
        t.mem.pool = match opResult (operandBytes a.wide) (ofLe old) a.op with
          | some v => memWrite s.mem.pool a.addr (leBytes (operandBytes a.wide) v)
          | none => s.mem.pool) ∧
    (∀ a : MemAccess, accessOk poolSize a = false → ∃ t, exec (.atomicOperation [a]) s = .next t ∧
      t.mem.returned = [(a.master, none)] ∧ t.mem.pool = s.mem.pool) ∧
    (∀ a b : MemAccess, a.master.val = 15 → b.master.val ≠ 15 → (codeWordOf a.addr).1 = (codeWordOf b.addr).1 →
      exec (.atomicOperation [b, a]) s = exec (.atomicOperation [a, b]) s) ∧
    (∀ (p : PadNo) (m : MasterNo) (v : Word) (same : List MemAccess), wBit v 5 = false →
      ((s.mem.pads.at p).owner.toNat = m.val → wFld v 0 5 < 16 ∨ wFld v 0 5 = 31 → ∃ t,
        exec (.scratchpadOwnerWrite p m v same) s = .next t ∧ (t.mem.pads.at p).owner = BitVec.ofNat 5 (wFld v 0 5)) ∧
      ((s.mem.pads.at p).owner.toNat ≠ m.val → exec (.scratchpadOwnerWrite p m v []) s =
        .next { s with mem := { s.mem with returned := [], pads := s.mem.pads.upd p fun x =>
          { x with denied := satAdd 8 x.denied 1 } } })) ∧
    (∀ (p : PadNo) (m : MasterNo), m.val = s.thm.mgmtCore.val → (s.mem.pads.at p).owner = 0x1F →
      exec (.scratchpadReclaim p m) s =
        .next { s with mem.pads := s.mem.pads.upd p fun x => { x with owner := BitVec.ofNat 5 s.thm.mgmtCore.val } }) ∧
    (∀ (p : PadNo) (m : MasterNo) (k : CoreNo), m.val = s.thm.mgmtCore.val →
      (s.mem.pads.at p).owner = BitVec.ofNat 5 (k.val + 2) → (s.veh.core.at k).silent = true → ∃ t,
      exec (.scratchpadReclaim p m) s = .next t ∧
      (t.mem.pads.at p).owner = BitVec.ofNat 5 s.thm.mgmtCore.val ∧ (t.mem.pads.at p).bytes = [] ∧ (t.mem.pads.at p).bad = []) ∧
    (∀ (e : FoundError) (bank : Fin 68) (w : Nat), e.place = .pool bank w → codeResult e.flips = .corrected →
      ∃ t, exec (.scrubPass [e]) s = .next t ∧ t.mem.correctedAll.at bank = satAdd 32 (s.mem.correctedAll.at bank) 1 ∧
        ∀ (l : Fin 64) (spare : Fin 68), logicalOf s bank = some l → freeSpare s = some spare → s.mem.copies = [] →
          32 ≤ 1 + ((correctedToday s.och.clock.mono (s.mem.corrected.at bank)).map (·.2)).foldl (· + ·) 0 →
          t.mem.copies = [{ logical := l, spare := spare }]) ∧
    (∀ (c : SpareCopy) (rest : List SpareCopy), s.mem.copies = c :: rest → ∃ t, exec .bankSpareCopyEnd s = .next t ∧
      t.mem.bankMap.at c.logical = c.spare ∧ t.mem.copies = rest ∧ (t.evt.src.at 97).pending = true) ∧
    (∀ e : FoundError, s.modes.base ≠ .backupWatch → codeResult e.flips = .uncorrectable →
      (∀ (bank : Fin 68) (w : Nat) (l : Fin 64), e.place = .pool bank w → logicalOf s bank = some l → (l.val, w) ∉ s.mem.badWords →
        ∃ t, exec (.uncorrectableError e) s = .next t ∧ t.mem.badWords = s.mem.badWords ++ [(l.val, w)]) ∧
      (∀ (p : PadNo) (w : Nat), e.place = .pad p w → w ∉ (s.mem.pads.at p).bad → ∃ t,
        exec (.uncorrectableError e) s = .next t ∧ (t.mem.pads.at p).bad = (s.mem.pads.at p).bad ++ [w]) ∧
      (∀ o : OutletNo, e.place = .vaultOutlet o → ∃ t, exec (.uncorrectableError e) s = .next t ∧
        t.mem.vault = memClear s.mem.vault (vaultRegion * o.val) vaultRegion) ∧
      (e.place = .vaultHost → ∃ t, exec (.uncorrectableError e) s = .next t ∧
        t.mem.vault = memClear s.mem.vault vaultHostBase 0x10000)) ∧
    (∀ waiting : List MemAccess, s.mem.wiping = true → ∃ t, exec (.vaultWipeComplete waiting) s = .next t ∧
      t.mem.wiping = false ∧ (waiting = [] → t.mem.vault = s.mem.vault)) ∧
    ((List.range 4).any (fun k => sectorHeld s (4 + k)) = false → exec .moduleStateAreaRewrite s =
      .next { s with tag.mem := memWrite s.tag.mem 0x40 (stateArea s) })

/-- While the control die runs: the second's readings become the sensors' readings, one outside its scale marks its
sensor failed, and Tc is the mean of the substrate's readings (rounded down, the model's choice) or 125 °C with its
sensor failed; a stage is entered at either of its entries and ends 3 K below both; stage 6 holds from 115 °C. A
sensor that deviates is marked with event 120, and its recovery ends that; without the substrate sensor Tc is 125 °C.
The image store is hot from 115 °C until its reading has fallen to 110 °C. The clock steps up one step once its stage
has gone. An over-range is reported with event 121. A job's release starts an instance and takes a quarter of its
period from its debt; an instance that ends within its period is done, a late one is counted with its debt. When VBAT
falls below its minimum without main power, Teal loses its clock, ring and counters. -/
def Obligations.ThermalAndJobsComplete : Prop :=
  ∀ s : State,
    (∀ xs ds : List Int, controlRuns s = true → ∃ t, exec (.thermalSecond xs ds) s = .next t ∧
      (t.thm.sensor.at 6).raw = xs.getLastD 0 ∧
      (t.thm.sensor.at 6).failed = ((s.thm.sensor.at 6).failed || outOfScale (xs.getLastD 0)) ∧
      t.thm.tc = (if (t.thm.sensor.at 6).failed then 16 * 125 else meanReading xs) ∧ t.thm.overRange = decide (16 * 125 < t.thm.tc) ∧
      t.thm.stage6 = decide (16 * 115 ≤ t.thm.tc)) ∧
    (∀ x : Int, controlRuns s = true → ∃ t, exec (.tjCtlReading x) s = .next t ∧ (t.thm.sensor.at 0).raw = x ∧
      ((s.thm.sensor.at 0).failed = false → outOfScale x = false → t.thm.stage = s.thm.stage.mapN fun k b => stageAfter k b s.thm.tc x)) ∧
    (∀ (k : Nat) (held : Bool) (tc tj : Int) (e : Int × Int), e = stageEntry k →
      (16 * e.1 ≤ tc ∨ 16 * e.2 ≤ tj → stageAfter k held tc tj = true) ∧
      (tc ≤ 16 * (e.1 - 3) → tj ≤ 16 * (e.2 - 3) → stageAfter k held tc tj = false) ∧
      (tc < 16 * e.1 → tj < 16 * e.2 → stageAfter k false tc tj = false)) ∧
    (controlRuns s = true → (wantedStep s.thm).toNat < s.clocks.scStep.toNat → exec .clockStepUp s =
      .next { s with thm.stepTarget := s.clocks.scStep - 1 }) ∧
    (∀ k : SensorNo, controlRuns s = true → (s.thm.sensor.at k).failed = false → deviates s k = true → ∃ t, exec (.sensorFailure k) s = .next t ∧
      (t.thm.sensor.at k).failed = true ∧ (k = 6 → t.thm.tc = 16 * 125)) ∧
    (∀ k : SensorNo, controlRuns s = true → (s.thm.sensor.at k).failed = true → outOfScale (s.thm.sensor.at k).raw = false →
      deviates s k = false → ∃ t, exec (.sensorRecovery k) s = .next t ∧
      (t.thm.sensor.at k).failed = false) ∧
    (∀ x : Int, controlRuns s = true → (s.thm.sensor.at 5).failed = false → outOfScale x = false → ∃ t, exec (.imageStoreHot x) s = .next t ∧
      t.thm.nandHot = (if 16 * 115 ≤ x then true else if x ≤ 16 * 110 then false else s.thm.nandHot)) ∧
    (controlRuns s = true → s.thm.overRange = true → exec .overRangeReport s = .next (raise 121 moduleIndex 0 [] s)) ∧
    (∀ (j : JobNo) (b : State), controlRuns s = true → (s.thm.job.at j).suspended = false → (s.thm.job.at j).running = false →
      b = (s.onJob j fun x => { x with running := true, debt := x.debt - min (jobPeriod j / 4) x.debt }) →
      exec (.periodicJobRelease j) s = .next (jobWork j b)) ∧
    (∀ (j : JobNo) (ms : Nat), controlRuns s = true → (s.thm.job.at j).running = true → (s.thm.job.at j).suspended = false →
      (s.thm.job.at j).debt + ms < jobPeriod j → exec (.periodicJobEnd j ms) s =
        .next (s.onJob j fun x => { x with running := false })) ∧
    (∀ (j : JobNo) (ms n : Nat), controlRuns s = true → (s.thm.job.at j).running = true → (s.thm.job.at j).suspended = false →
      n = (s.thm.job.at j).debt + ms → jobPeriod j ≤ n → ∃ t, exec (.periodicJobEnd j ms) s = .next t ∧
        (t.thm.job.at j).running = true ∧ (t.thm.job.at j).debt = n % jobPeriod j ∧
        (t.thm.job.at j).late = satAdd 32 (s.thm.job.at j).late 1 ∧
        (t.thm.job.at j).merged = satAdd 32 (s.thm.job.at j).merged (n / jobPeriod j - 1)) ∧
    (s.sup.mainOk = false → ∃ t, exec .vbatBelowMinimum s = .next t ∧ t.sup.vbatOk = false ∧ t.teal.ring = [] ∧
      t.teal.tseq = 0 ∧ t.teal.openings = Tab.all 4 0 ∧ t.teal.lost = true)

/-- A heartbeat of a peer that is not treated as absent brings its lane up and shows the peer with its mode; the
standby takes its epoch mark. A lane goes down, and with the last heartbeat both lanes and the keys. With a root in
force, a link start whose identity is not pinned, or is the pinned one, keys the link and pins it, and the standby
starts a full transfer; another identity makes the peer absent. An epoch start counts the epoch, from legal time in
the active module and by one in the standby, and sends the sealed entries; a standby that holds the lease in Handover
becomes the active module. A forwarded command is kept by the standby for its epoch and acknowledged. A frame that has
been resent is no longer awaited. A transfer's end is noted. -/
def Obligations.PairLinkComplete : Prop :=
  ∀ s : State,
    (∀ b : Heartbeat, controlRuns s = true → s.pair.peer ≠ 0 → s.pair.peerAbsent = false → b.lease = false → ∃ t,
      exec (.pairHeartbeat b) s = .next t ∧ t.pair.peerSeen = true ∧ t.pair.peerMode = b.mode ∧ t.pair.lane.at b.lane = true ∧
      (isStandby s = true → s.modes.handover = false → t.pair.epoch = b.epoch) ∧
      (isStandby s = true → b.yield = true → t.pair.peerYielded = true)) ∧
    (∀ b : Heartbeat, controlRuns s = true → s.pair.peer ≠ 0 → s.pair.peerAbsent = false → b.lease = true → b.yield = false →
      isActive s = true → s.pair.yielded = false → ∃ t, exec (.pairHeartbeat b) s = .next t ∧ t.pair.yielded = true) ∧
    (∀ l : LaneHas, controlRuns s = true → ∃ t, exec (.laneDown l) s = .next t ∧ t.pair.lane.at l = false) ∧
    (controlRuns s = true → s.pair.peerSeen = true → ∃ t, exec .peerHeartbeatLoss s = .next t ∧ t.pair.peerSeen = false ∧
      t.pair.keyed = false ∧ t.pair.lane.at 0 = false ∧ t.pair.lane.at 1 = false) ∧
    (∀ (pt : BitVec 256) (fw : Word) (sign : BitVec 8) (hs : List (List Byte)), controlRuns s = true → s.pair.peer ≠ 0 →
      (rootInForce s).isSome = true → s.pair.pin = none ∨ s.pair.pin = some pt →
      ∃ t, exec (.linkKeyAgreement pt fw sign hs) s = .next t ∧
      t.pair.pin = some pt ∧ t.pair.keyed = true ∧ t.pair.peerSigning = sign ∧ t.pair.peerHeaders = hs ∧ t.pair.diverged = decide (fw ≠ Config.legalFw) ∧
      (isStandby s = true → t.pair.transfer = 1)) ∧
    (∀ (pt q : BitVec 256) (fw : Word) (sign : BitVec 8) (hs : List (List Byte)), controlRuns s = true → s.pair.peer ≠ 0 →
      (rootInForce s).isSome = true → s.pair.pin = some q → q ≠ pt → ∃ t, exec (.linkKeyAgreement pt fw sign hs) s = .next t ∧
      t.pair.peerAbsent = true ∧ t.pair.peerSeen = false ∧ t.pair.keyed = false ∧ t.pair.pin = some q) ∧
    (paired s = true → takesOver s = false → s.pair.forwarded = [] → s.pair.handoverAt = none → ∃ t,
      exec (.epochStart none true) s = .next t ∧ t.pair.sealedNew = [] ∧
      t.pair.epoch = (if isActive s then s.och.clock.us / 1000 else s.pair.epoch + 1) ∧
      (roleNow s.modes = .active → s.pair.yielded = false → s.dies.russet = .running → t.rus.lease = true)) ∧
    (paired s = true → takesOver s = true → s.modes.base = .service → s.pair.forwarded = [] → s.pair.handoverAt = none → ∃ t,
      exec (.epochStart none true) s = .next t ∧ t.modes.role = .active ∧ t.modes.handover = false) ∧
    (∀ f : Forwarded, paired s = true → isStandby s = true → ∃ t, exec (.forwardedCommand f) s = .next t ∧
      t.pair.forwarded = s.pair.forwarded ++ [{ op := f.op, cmd := asForwarded f.cmd, epoch := f.epoch }] ∧
      t.pair.sent = s.pair.sent ++ [.ack f.op f.epoch]) ∧
    (∀ n : Nat, controlRuns s = true → ∃ t, exec (.epochFrameResend n) s = .next t ∧ n ∉ t.pair.resendSeq) ∧
    (∀ (full : Bool) (c : TransferContent), paired s = true → ∃ t,
      exec (.stateTransferComplete full c) s = .next t ∧ t.pair.transfer = (if full then 2 else 3) ∧ t.pair.outOfStep = false)

/-- In the standby, an authentic sealed frame whose number rises brings its entry to the own cycle that waits for it,
which enters with the peer's values where they agree; a frame that is not authentic or does not rise is refused and
counted with event 26. A cycle that waits too long enters with own values. A record's content that is the standby's
own is signed and stored. A yield of the active module is noted, and the lease is then taken while the own supplies
are in range: Handover is set and the lease is held while Russet runs. With the peer gone, no line in B, C or D left
that the standby does not carry, and no lease flag of the peer for 4.5 ms, the standby takes the lease the same way,
and a line's waveform is carried over with its target drive and duty. -/
def Obligations.PairTakeoverComplete : Prop :=
  ∀ s : State,
    (∀ (f : SealedFrame) (x : SealedEntry) (w : SealedWait) (b : State), s.dies.ochre = .running → isStandby s = true →
      f.authentic = true → s.pair.sealedSeq < f.seq → f.adopt = none → f.entries = [x] →
      s.pair.waiting.find? (matchesOwn · x) = some w → agrees w x = true →
      b = { s with pair := { s.pair with sealedSeq := f.seq, waiting := s.pair.waiting.erase w } } →
      exec (.sealedFrame f) s = .next (enterPeer w x b)) ∧
    (∀ f : SealedFrame, s.dies.ochre = .running → isActive s = true ∨ isStandby s = true →
      f.authentic = false ∨ f.seq ≤ s.pair.sealedSeq → exec (.sealedFrame f) s =
        .next (raise 26 moduleIndex 0 [] { s with pair := { s.pair with sealedRefused := satAdd 32 s.pair.sealedRefused 1 } })) ∧
    (∀ (o : OutletNo) (w : SealedWait), s.dies.ochre = .running → s.pair.waiting.find? (fun w => w.outlet == o) = some w →
      ∃ t, exec (.sealedEntryTimeout o) s = .next t ∧ t.pair.waiting = s.pair.waiting.erase w) ∧
    (∀ (o : OutletNo) (content : List Byte) (r : SessionRecord) (a z : Nat) (named : SessionRecord), s.dies.ochre = .running →
      isStandby s = true → s.och.recs.slots.at o = .stopped r a z →
      named = { finished s o r with slot := byteAt content 2 } → recordContent named = content →
      exec (.sessionRecordContent o content) s =
        .next (storeRecord o { named with sig := Config.sign (byteAt content 2) content } s)) ∧
    (controlRuns s = true → isStandby s = true → exec .leaseYield s = .next { s with pair.peerYielded := true }) ∧
    (paired s = true → isStandby s = true → s.pair.peerYielded = true → s.sup.pfw = false → ∃ t, exec .leaseTake s = .next t ∧
      t.modes.handover = true ∧ t.pair.peerYielded = false ∧ (s.dies.russet = .running → t.rus.lease = true)) ∧
    (paired s = true → isStandby s = true → s.pair.peerSeen = false → s.modes.handover = false → s.pair.transfer ≠ 1 →
      linesLost s = true → leaseSilent s = true → ∃ t,
      exec .standbyTakeover s = .next t ∧ t.modes.handover = true ∧ (s.dies.russet = .running → t.rus.lease = true)) ∧
    (∀ (o : OutletNo) (b : State), isStandby s = true → s.pair.peerSeen = false → s.dies.fescue = .running →
      b = { s with pair.carry := s.pair.carry.put o true } → ∃ t, exec (.pilotCarryOver o) s = .next t ∧
      t.pair.carry.at o = true ∧ (t.veh.pilot.at o).drive = (target b o).1 ∧ (t.veh.pilot.at o).duty = (target b o).2)

namespace Sys2Proof

/-- The commands that may change Teal's ring, counters and levels. -/
def mayChangeTeal : Instr → Bool
  | .mainSuppliesInRange _ _ _ _ | .tealPowerOn | .tamperChange _ _ | .tamperRecordCopy | .vbatBelowMinimum => true
  | _ => false

/-- The commands that may change the legal clock. -/
def mayChangeLegalClock : Instr → Bool
  | .mainSuppliesInRange _ _ _ _ | .pfwAssert _ _ _ | .pfwDeassert _ | .ochreStreamRestart _
  | .ochreWatchdogExpiry _ | .saveBoundary _ _ | .legalTick _ | .dieReset _ _ | .setLegalTime _
  | .epochStart _ _ | .stateTransferComplete _ _ => true
  | _ => false

/-- The commands that may change interval records and billing snapshots. -/
def mayChangeIntervals : Instr → Bool
  | .mainSuppliesInRange _ _ _ _ | .pfwAssert _ _ _ | .pfwDeassert _ | .ochreStreamRestart _
  | .ochreWatchdogExpiry _ | .legalTick _ | .demandIntervalFinal _ | .dieReset _ _ | .setLegalTime _
  | .epochStart _ _ | .stateTransferComplete _ _ => true
  | _ => false

/-- The commands that may change the legal log. -/
def mayChangeLegalLog : Instr → Bool
  | .mainSuppliesInRange _ _ _ _ | .pfwDeassert _ | .ochreStreamRestart _ | .referenceLoss | .xrefSlewComplete
  | .meteringBoundary _ _ | .legalTick _ | .tamperRecordCopy | .outletRoleAssignment _ | .userCalibration _
  | .readLegalLog _ | .acknowledgeLegalLog _ | .tariffParameters _ | .loadPassiveCalendar _ | .setLegalTime _
  | .demandInterval _ | .epochStart _ _ | .stateTransferComplete _ _ => true
  | _ => false

/-- The commands that may change session records. -/
def mayChangeRecords : Instr → Bool
  | .mainSuppliesInRange _ _ _ _ | .pfwAssert _ _ _ | .pfwDeassert _ | .ochreStreamRestart _
  | .ochreWatchdogExpiry _ | .referenceLoss | .sessionStart _ _ _ | .sessionStop _ _ | .sessionStopResend _
  | .meteringBoundary _ _ | .dcPeriodEnd _ _ | .legalTick _ | .tamperChange _ _ | .tamperRecordCopy
  | .sessionRecordSign _ | .waitingRecordMove | .dieReset _ _ | .confirmExport _ | .setLegalTime _
  | .epochStart _ _ | .sealedFrame _ | .sealedEntryTimeout _ | .sessionRecordContent _ _
  | .stateTransferComplete _ _ => true
  | _ => false

/-- The commands that may change tariffs and calendars. -/
def mayChangeTariffs : Instr → Bool
  | .mainSuppliesInRange _ _ _ _ | .pfwDeassert _ | .ochreStreamRestart _ | .saveBoundary _ _ | .legalTick _
  | .tariffSwitchAnnounce | .loadPassiveCalendar _ | .setLegalTime _ | .demandInterval _
  | .confirmTariffSwitch _ | .epochStart _ _ | .stateTransferComplete _ _ => true
  | _ => false

/-- The commands that may change the readers. -/
def mayChangeReaders : Instr → Bool
  | .mainSuppliesInRange _ _ _ _ | .pendingModeApply _ | .v2gAuthorization _ _ _ _ | .policyTimeout _ _
  | .aerialPing _ _ _ _ | .pollTimeout _ | .authFallback _ | .cardHoldExpiry _ | .policyAnswer _
  | .contactlessStatus _ | .contactlessConfiguration _ | .loadAllowlist _ | .pairHeartbeat _ | .epochStart _ _
  | .stateTransferComplete _ _ => true
  | _ => false

/-- The commands that may change the site line. -/
def mayChangeSiteLine : Instr → Bool
  | .mainSuppliesInRange _ _ _ _ | .meteringBoundary _ _ | .superframeStart _ | .beaconReceived _
  | .beaconsMissed | .siteFrameReceived _ _ | .siteFrameRetransmit _ | .mapRecompute _ _ | .mapAckMissing _
  | .mapSwitch _ | .toneLoopbackTest _ _ | .joinRequest _ | .joinRetry | .timeBaseLost | .timeBaseResumed
  | .siteLineStatus _ | .siteLineConfiguration _ | .linkEntry _ | .sendFrame _ | .receiveFrame _
  | .beaconBytes _ | .epochStart _ _ | .stateTransferComplete _ _ | .siteLineHostSilence => true
  | _ => false

/-- The commands that may change key slots and cells. -/
def mayChangeKeySlots : Instr → Bool
  | .mainSuppliesInRange _ _ _ _ | .mainSupplyOutOfRange | .hostrstPulse _ | .controlWatchdogExpiry
  | .controlStartLimitExpiry | .v2gPaymentDetails _ _ _ | .v2gAuthorization _ _ _ _
  | .v2gCertificateInstallation _ _ | .v2gCertificateUpdate _ _ | .tlsHandshake _ _ | .tlsConnectionOpen _ _
  | .dieReset _ _ | .controlResetAfterResponse | .writeKeyInClear _ | .loadShadow _ | .testShadow _ _
  | .commitShadow _ _ | .lifecycleMove _ | .openStaging _ | .debugUnlockToken _ | .epochStart _ _
  | .stateTransferComplete _ _ => true
  | _ => false

/-- The commands that may change lifecycle and return count. -/
def mayChangeLifecycle : Instr → Bool
  | .mainSuppliesInRange _ _ _ _ | .lifecycleMove _ | .epochStart _ _ | .stateTransferComplete _ _ => true
  | _ => false

/-- The commands that may change the step counters. -/
def mayChangeSteps : Instr → Bool
  | .mainSuppliesInRange _ _ _ _ | .mainSupplyOutOfRange | .hostrstPulse _ | .lockstepMismatch
  | .russetWatchdogExpiry | .speltWatchdogExpiry | .fescueHeartbeatLoss | .controlWatchdogExpiry
  | .controlStartLimitExpiry | .measuredStartComplete _ _ | .dieReset _ _ | .controlResetAfterResponse
  | .outletRoleAssignment _ | .writeLimitedSetting _ | .bindPeer _ | .unbindPeer _ | .imageCommit _
  | .debugUnlockToken _ | .epochStart _ _ | .stateTransferComplete _ _ | .fescueImageBringIn
  | .sessionImageBringIn _ | .milletStateHandover | .speltImageReset => true
  | _ => false

/-- The commands that may change the scratchpads. -/
def mayChangePads : Instr → Bool
  | .mainSuppliesInRange _ _ _ _ | .mainSupplyOutOfRange | .hostrstPulse _ | .controlWatchdogExpiry
  | .controlStartLimitExpiry | .dieReset _ _ | .controlResetAfterResponse | .scratchpadOwnerWrite _ _ _ _
  | .scratchpadReclaim _ _ | .scrubPass _ | .uncorrectableError _ | .epochStart _ _ | .stateTransferComplete _ _ => true
  | _ => false

/-- The commands that may change the vault. -/
def mayChangeVault : Instr → Bool
  | .mainSuppliesInRange _ _ _ _ | .mainSupplyOutOfRange | .hostrstPulse _ | .controlWatchdogExpiry
  | .controlStartLimitExpiry | .measuredStartComplete _ _ | .tamperChange _ _ | .dieReset _ _
  | .controlResetAfterResponse | .lifecycleMove _ | .scrubPass _ | .uncorrectableError _ | .vaultWipeComplete _
  | .debugUnlockToken _ | .epochStart _ _ | .stateTransferComplete _ _ => true
  | _ => false

/-- The commands that may change thermal state, jobs and spares. -/
def mayChangeThermal : Instr → Bool
  | .mainSuppliesInRange _ _ _ _ | .mainSupplyOutOfRange | .hostrstPulse _ | .controlWatchdogExpiry
  | .controlStartLimitExpiry | .clockStepChange | .dieReset _ _ | .controlResetAfterResponse | .openStaging _
  | .scrubPass _ | .uncorrectableError _ | .epochStart _ _ | .stateTransferComplete _ _ | .milletStateHandover
  | .thermalSecond _ _ | .clockStepUp | .sensorFailure _ | .sensorRecovery _ | .imageStoreHot _
  | .periodicJobRelease _ | .periodicJobEnd _ _ | .tjCtlReading _ => true
  | _ => false

/-- The commands that may change inputs and lanes. -/
def mayChangeInputs : Instr → Bool
  | .mainSuppliesInRange _ _ _ _ | .ochreStreamRestart _ | .ochreWatchdogExpiry _ | .groupClockInvalid _
  | .manchesterLockAcquired _ | .manchesterLockLost _ | .stuckInputDetect _ | .inputValidAgain _
  | .laneSelfTest _ _ | .laneComparisonEnd _ _ | .meteringBoundary _ _ | .supraharmonicStep _ | .dieReset _ _
  | .epochStart _ _ | .stateTransferComplete _ _ => true
  | _ => false

/-- The commands that may change the clock tree. -/
def mayChangeClocks : Instr → Bool
  | .mainSuppliesInRange _ _ _ _ | .mainSupplyOutOfRange | .hostrstPulse _ | .controlWatchdogExpiry
  | .controlStartLimitExpiry | .measuredStartComplete _ _ | .commissioningTimeout | .referenceLoss
  | .fallbackCorrection | .xrefReturn | .xrefSlewComplete | .clockStepChange | .leaveCommissioning _
  | .dieReset _ _ | .controlResetAfterResponse | .epochStart _ _ | .stateTransferComplete _ _ => true
  | _ => false

/-- The commands that may change the supplies. -/
def mayChangeSupplies : Instr → Bool
  | .mainSuppliesInRange _ _ _ _ | .mainSupplyOutOfRange | .tealPowerOn | .pfwAssert _ _ _ | .pfwOutputOpen
  | .pfwDeassert _ | .ochreWatchdogExpiry _ | .saveBoundary _ _ | .dieReset _ _ | .epochStart _ _
  | .stateTransferComplete _ _ | .vbatBelowMinimum => true
  | _ => false

end Sys2Proof

/-- For every command, every state and every next state: the supplies, the clock tree, Teal, the legal clock, inputs
and lanes, interval records and billing snapshots, the legal log, session records, tariffs, the site line, the
readers, key slots and cells, lifecycle and return count, the step counters, thermal state with jobs and spares, the
scratchpads, and the vault each stay as they were unless the command is one of those listed for that part. An epoch
start and a state transfer stand in every list, since they run forwarded commands. -/
def Obligations.OnlyTheseCommandsChangeTheseParts : Prop :=
  ∀ (i : Instr) (s t : State), exec i s = .next t →
    (mayChangeSupplies i = false → t.sup = s.sup) ∧
    (mayChangeClocks i = false → t.clocks = s.clocks) ∧
    (mayChangeTeal i = false → t.teal = s.teal) ∧
    (mayChangeLegalClock i = false → t.och.clock = s.och.clock) ∧
    (mayChangeInputs i = false → t.och.input = s.och.input ∧ t.och.lane = s.och.lane) ∧
    (mayChangeIntervals i = false → t.och.intervals = s.och.intervals ∧ t.och.snapshots = s.och.snapshots) ∧
    (mayChangeLegalLog i = false → t.och.log = s.och.log) ∧
    (mayChangeRecords i = false → t.och.recs = s.och.recs) ∧
    (mayChangeTariffs i = false → t.och.tariffs = s.och.tariffs) ∧
    (mayChangeSiteLine i = false → t.site = s.site) ∧
    (mayChangeReaders i = false → t.rdr = s.rdr) ∧
    (mayChangeKeySlots i = false → t.keys.slot = s.keys.slot ∧ t.keys.cell = s.keys.cell) ∧
    (mayChangeLifecycle i = false → t.keys.lifecycle = s.keys.lifecycle ∧ t.keys.returns = s.keys.returns) ∧
    (mayChangeSteps i = false → t.keys.steps = s.keys.steps) ∧
    (mayChangeThermal i = false → t.thm = s.thm) ∧
    (mayChangePads i = false → t.mem.pads = s.mem.pads) ∧
    (mayChangeVault i = false → t.mem.vault = s.mem.vault)

/-- The model's own state: whatever command stands in front, a step that answers a next state leaves the rest of the
queue as it was, and an empty queue stays empty with everything else unchanged; the counter that selects free values
never falls. The queue and the counter are the model's (log entries on the queue and on free values). -/
def Obligations.QueueAndFreeCounter : Prop :=
  ∀ (s t : State), step s = .next t → t.pending = s.pending.tail ∧ s.free ≤ t.free ∧ (s.pending = [] → t = s)

/-- For every state whose addressed memories are in canonical form (addresses strictly rising, no byte listed that
reads as an unlisted one), whatever command stands in front, the next state's memories are in that form. The form is
the model's representation of the memories that these rules give. -/
def Obligations.MemoriesStayCanonical : Prop :=
  ∀ (s t : State), s.memOk → step s = .next t → t.memOk

/-- For every state in which each outlet in Class P Lockout has its coil pair off and its turn-on sequence idle,
whatever command stands in front, the same holds of the next state: no command, tick, reset, power-up, forwarded
command or takeover turns on the pair of an outlet in Lockout, and every entry into Lockout turns its pair off. -/
def Obligations.LockoutKeepsOutputsOff : Prop :=
  ∀ (s t : State), s.lockSafe → step s = .next t → t.lockSafe

/-- For every outlet in Class P Lockout and every command other than the release of a reset input (OUTRSTn, HUBRST)
and the peer's release result: after the command the outlet is in Lockout still. No reset of a die, no power-up, no
mailbox command and no takeover ends it. -/
def Obligations.LockoutEndsByReleaseOnly : Prop :=
  ∀ (i : Instr) (s t : State) (o : OutletNo), exec i s = .next t → (s.rus.outlet.at o).fault.classP = true →
    (t.rus.outlet.at o).fault.classP = true ∨ (∃ r hi lo, i = .resetInputRelease r hi lo) ∨ ∃ o passed, i = .releasePeerResult o passed

/-- For every step that answers a next state: no remaining step count rises, the return count does not fall, a module
in lifecycle Ended stays in Ended, and a killed tag stays killed. -/
def Obligations.CountsAndEndsAreFinal : Prop :=
  ∀ (s t : State), step s = .next t →
    (∀ k : Fin 9, t.keys.steps.at k ≤ s.keys.steps.at k) ∧ s.keys.returns ≤ t.keys.returns ∧
    (s.keys.lifecycle = .ended → t.keys.lifecycle = .ended) ∧ (s.tag.state = .killed → t.tag.state = .killed)

/-- The state after reset meets both invariants. It has the values that the spec gives for a module power-on: Measured
start without a role, MOD_POR set in the reset cause register, every enable flag clear with FOFF asserted and every
coil pair off, the mailbox not ready with its rings disabled and PORT_TO 2 s, QSPI_LVL 3 and BUSY_MS 50, scratchpads
without an owner, and every logical bank served by the bank of its number. That the queue is empty is the model's
choice (log entry on the queue). -/
def Obligations.InvariantsHoldAtReset : Prop :=
  State.reset.memOk ∧ State.reset.lockSafe ∧ State.reset.modes.base = .measuredStart ∧ State.reset.modes.role = .none ∧
    State.reset.rus.cause = 1 ∧ State.reset.mbx.ready = false ∧ State.reset.mbx.qspiLvl = 3 ∧ State.reset.mbx.busyMs = 50 ∧
    State.reset.pending = [] ∧
    (∀ o : OutletNo, (State.reset.rus.outlet.at o).enable = false ∧ (State.reset.rus.outlet.at o).fault.foff = true ∧
      (State.reset.rus.pair.at (coilOf o)).cmd = false) ∧
    (∀ p : PortNo, (State.reset.mbx.port.at p).ringEn = false ∧ (State.reset.mbx.port.at p).portTo = 20) ∧
    (∀ p : PadNo, (State.reset.mem.pads.at p).owner = 0x1F) ∧ (∀ b : Fin 64, (State.reset.mem.bankMap.at b).val = b.val)

/-- For every command, state, next state and outlet: where the outlet's coil pair is off before and on after, the
command is the switching on of that outlet's pair, Russet runs, and the pair's turn-on was granted. No mailbox
command, no forwarded command, no reset, no power-up and no takeover turns an outlet's pair on. -/
def Obligations.OutletPairsSwitchOnByOneCommand : Prop :=
  ∀ (i : Instr) (s t : State) (o : OutletNo), exec i s = .next t → (s.rus.pair.at (coilOf o)).cmd = false →
    (t.rus.pair.at (coilOf o)).cmd = true →
    i = .coilPairSwitchOn o ∧ s.dies.russet = .running ∧ (s.rus.pair.at (coilOf o)).turn = .granted

/-- A pulse shorter than 100 ns changes nothing. One of at least 1 µs outside Backup watch resets the control die: the
die is starting, the mailbox is not ready, and the cause bit HOSTRST is set. Between these two lengths, where the rule
calls the effect undefined, the model stops with the fault of that name. -/
def Obligations.HostrstByItsLength : Prop :=
  ∀ (ns : Nat) (s : State),
    (ns < 100 → exec (.hostrstPulse ns) s = .next s) ∧
    (100 ≤ ns → ns < 1000 → exec (.hostrstPulse ns) s = .fault .hostrstUndefined) ∧
    (1000 ≤ ns → s.modes.base ≠ .backupWatch → ∃ t, exec (.hostrstPulse ns) s = .next t ∧ t.dies.control = .starting ∧
      t.mbx.ready = false ∧ wBit t.rus.cause 8 = true)

/-- On memories in canonical form: the bytes of a write are read back at its addresses, every byte outside them reads
as before, a cleared range reads 0 and the rest as before, and two memories whose every byte reads alike are equal.
That an unlisted byte reads 0 is the model's choice (log entry on the contents of memory). -/
def Obligations.MemoryReadsWhatWasWritten : Prop :=
  ∀ m : Memory, memWf m = true →
    (∀ (a : Nat) (bs : List Byte), memRead (memWrite m a bs) a bs.length = bs) ∧
    (∀ (a x : Nat) (bs : List Byte), x < a ∨ a + bs.length ≤ x → memGet (memWrite m a bs) x = memGet m x) ∧
    (∀ a n x : Nat, memGet (memClear m a n) x = if a ≤ x ∧ x < a + n then 0 else memGet m x) ∧
    (∀ n : Memory, memWf n = true → (∀ x, memGet m x = memGet n x) → m = n)

/-- For every state whose pool is in canonical form and every pool byte: a bulk write, a ring entry, a QSPI word and
an atomic operation leave it as it was unless it lies in the bytes that they name, computed from the state before;
enabling a port's rings clears its ring memory and leaves every other byte; bulk reads, window reads, doorbells,
consumer indices, the host heartbeat and event occurrences leave all of them. -/
def Obligations.StoresTouchOnlyTheirBytes : Prop :=
  ∀ (s t : State) (x : Nat), memWf s.mem.pool = true →
    (∀ (e : EthPort) (off : Nat) (bs : List Byte) (a : Nat), a = bulkBase (ethPort e) + off →
      exec (.recordBulkWrite e off bs) s = .next t → x < a ∨ a + bs.length ≤ x → memGet t.mem.pool x = memGet s.mem.pool x) ∧
    (∀ (e : EthPort) (urgent : Bool) (entry : List Byte) (i : Indices) (a : Nat), i = (s.mbx.port.at (ethPort e)).idx →
      a = (if urgent then ucmdBase (ethPort e) + i.ucmdPi.toNat % 64 * 256
        else ncmdBase (ethPort e) + i.ncmdPi.toNat % 256 * 256) →
      exec (.recordRingEntry e urgent entry) s = .next t → x < a ∨ a + 256 ≤ x → memGet t.mem.pool x = memGet s.mem.pool x) ∧
    (∀ (a : BitVec 32) (v : Word) (off : Nat), poolBase ≤ a.toNat → a.toNat < poolBase + poolSize →
      off = (a.toNat - poolBase) / 4 * 4 → exec (.qspiPoolAccess a (some v)) s = .next t → x < off ∨ off + 4 ≤ x →
      memGet t.mem.pool x = memGet s.mem.pool x) ∧
    (∀ l : List MemAccess, exec (.atomicOperation l) s = .next t →
      (∀ a ∈ l, x < a.addr ∨ a.addr + operandBytes a.wide ≤ x) → memGet t.mem.pool x = memGet s.mem.pool x) ∧
    (∀ (p : PortNo) (v : Word), exec (.ringEnable p v) s = .next t → x < ringBase p ∨ ringBase p + ringBytes ≤ x →
      memGet t.mem.pool x = memGet s.mem.pool x) ∧
    (∀ (i : Instr) (e : EthPort) (p : PortNo) (tag k : BitVec 16) (a w : Word) (off n : Nat) (src : SourceNo) (cause : Byte)
      (ended : Bool) (data : List Byte), i = .recordBulkRead e tag off n ∨
      i = .recordWindowRead e tag a n ∨ i = .recordConsumerIndex e true k ∨ i = .recordConsumerIndex e false k ∨
      i = .qspiPoolAccess a none ∨ i = .urgentDoorbell p k ∨ i = .normalDoorbell p k ∨ i = .responseConsumerWrite p k ∨
      i = .eventConsumerWrite p k ∨ i = .hostHeartbeatWrite p w ∨ i = .eventOccurrence src k cause ended data →
      exec i s = .next t → t.mem.pool = s.mem.pool)

/-- A read of EVT_PENDj through the window has bit k set exactly where source 32j + k is pending; IRQ_STAT has bits 0
and 1 as the levels of HOST_IRQ0 and HOST_IRQ1, 1 meaning asserted, and its other bits read 0. -/
def Obligations.PendingFlagsShowTheirSources : Prop :=
  ∀ s : State,
    (∀ (j : Fin 4) (k : Fin 32) (n : SourceNo), n.val = 32 * j.val + k.val →
      (windowRead s (0x300 + 4 * j.val)).getLsbD k.val = (s.evt.src.at n).pending) ∧
    (windowRead s 0x310).getLsbD 0 = irqLevel s 0 ∧ (windowRead s 0x310).getLsbD 1 = irqLevel s 1 ∧
    (∀ k : Nat, 2 ≤ k → (windowRead s 0x310).getLsbD k = false)

/-- INDEX carries the object of the command's row. A row that names no object admits 0xFFFF alone; a row with a range
admits the numbers of its range, and its further code where it has one. A command that passes the checks before this
one and carries any other INDEX is answered with BAD_INDEX. -/
def Obligations.WrongIndexAnswersBadIndex : Prop :=
  ∀ (op : Nat) (c : Cmd) (s : State) (r : Row), catalogue op c.payload = some r →
    (r.index = .module → (r.index.ok c.index.toNat = true ↔ c.index = 0xFFFF)) ∧
    (∀ lo hi, r.index = .range lo hi → (r.index.ok c.index.toNat = true ↔ lo ≤ c.index.toNat ∧ c.index.toNat ≤ hi)) ∧
    (∀ lo hi code, r.index = .rangeOr lo hi code →
      (r.index.ok c.index.toNat = true ↔ (lo ≤ c.index.toNat ∧ c.index.toNat ≤ hi) ∨ c.index.toNat = code)) ∧
    (∀ (i : Instr), MailRow i op c → Arrives op c s → c.flags.toNat < 4 → (c.urgent = true → r.urgent = true) →
      16 * r.bulk.length + r.lo ≤ c.payload.length → c.payload.length ≤ 16 * r.bulk.length + r.hi →
      c.payload.length ≤ 240 → r.index.ok c.index.toNat = false →
      exec i s = .next (answer op c { status := .badIndex, detail := 0, payload := [], bulk := [] } s))

/-- With a free slot among the 8,192 the record is added to the retained ones. With none, it takes the place of the
exported record whose REC_NO is lowest, where exported records differ in REC_NO, and every other record stays in its
place. Whatever the store holds, every unexported record is still there afterwards. -/
def Obligations.SignedRecordsAreRetained : Prop :=
  ∀ (r : SessionRecord) (s : State) (l : List Retained), l = s.och.recs.retained →
    (l.length < 8192 → (retain r s).och.recs.retained = l ++ [{ record := r, exported := false }]) ∧
    (∀ (a b : List Retained) (x : Retained), 8192 ≤ l.length → l = a ++ x :: b → x.exported = true →
      (∀ y ∈ a ++ b, y.exported = true → x.record.recNo.toNat < y.record.recNo.toNat) →
      (retain r s).och.recs.retained = a ++ { record := r, exported := false } :: b) ∧
    (∀ x ∈ l, x.exported = false → x ∈ (retain r s).och.recs.retained)

/-- In PWM drive, a period whose class is B, C or D and whose negative plateau lies above −10.5 V is counted as class
E with DIODE_OK cleared. In +12 V steady drive, the period has its class and DIODE_OK keeps its value. -/
def Obligations.MissingDiodeCountsAsClassE : Prop :=
  ∀ (samples : List Int) (p : Pilot) (c : PilotClass), c = rankClass (rankOf (rankBefore p) (positivePlateau p samples)) →
    (pwm p = true → c = .B ∨ c = .C ∨ c = .D → -10500 < negativePlateau p samples →
      (measurePeriod samples p).cls = some .E ∧ (measurePeriod samples p).diodeOk = false) ∧
    (p.drive = 1 → (measurePeriod samples p).cls = some c ∧ (measurePeriod samples p).diodeOk = p.diodeOk)
end

