-- ==== Sys2Proof/Laws/Memory.lean ====
section
/-! SUPPORT. The laws of addressed memory: the canonical form is kept by every operation, a read after a write gives what was
written, and a write leaves every other byte alone. -/

namespace Sys2Proof.Machine

/-- The canonical form says that no entry is 0 and that addresses rise. -/
theorem memWf_iff : ∀ m : Memory, memWf m = true ↔ (∀ c ∈ m, c.2 ≠ 0) ∧ m.Pairwise (fun a b => a.1 < b.1)
  | [] => by simp [memWf]
  | [(k, b)] => by simp [memWf]
  | (k, b) :: (k', b') :: m => by
    have ih := memWf_iff ((k', b') :: m)
    simp only [memWf, Bool.and_eq_true, ih, bne_iff_ne, decide_eq_true_eq, List.pairwise_cons, List.mem_cons, forall_eq_or_imp]
    constructor
    · rintro ⟨⟨h1, h2⟩, ⟨h3, h4⟩, h5, h6⟩
      exact ⟨⟨h1, h3, h4⟩, ⟨h2, fun c hc => Nat.lt_trans h2 (h5 c hc)⟩, h5, h6⟩
    · rintro ⟨⟨h1, h3, h4⟩, ⟨h2, _⟩, h5, h6⟩
      exact ⟨⟨h1, h2⟩, ⟨h3, h4⟩, h5, h6⟩

theorem memWf_nil : memWf [] = true := rfl

theorem mem_memDrop : ∀ {m : Memory} {a : Nat} {c : Host.Cell}, c ∈ memDrop m a → c ∈ m
  | [], _, _, h => by simp [memDrop] at h
  | (k, b) :: m, a, c, h => by
    unfold memDrop at h
    split at h
    · exact List.mem_cons_of_mem _ h
    · rcases List.mem_cons.mp h with h | h
      · exact h ▸ List.mem_cons_self
      · exact List.mem_cons_of_mem _ (mem_memDrop h)

theorem pairwise_memDrop : ∀ {m : Memory} (a : Nat), m.Pairwise (fun a b => a.1 < b.1) →
    (memDrop m a).Pairwise (fun a b => a.1 < b.1)
  | [], _, _ => by simp [memDrop]
  | (k, b) :: m, a, h => by
    have h := List.pairwise_cons.mp h
    unfold memDrop
    split
    · exact h.2
    · exact List.pairwise_cons.mpr ⟨fun c hc => h.1 c (mem_memDrop hc), pairwise_memDrop a h.2⟩

theorem mem_memInsert : ∀ {m : Memory} {a : Nat} {v : Byte} {c : Host.Cell}, c ∈ memInsert m a v → c = (a, v) ∨ c ∈ m
  | [], _, _, _, h => by
    simp only [memInsert, List.mem_cons, List.not_mem_nil, or_false] at h
    exact .inl h
  | (k, b) :: m, a, v, c, h => by
    unfold memInsert at h
    split at h
    · exact List.mem_cons.mp h
    · split at h
      · rcases List.mem_cons.mp h with h | h
        · exact .inl h
        · exact .inr (List.mem_cons_of_mem _ h)
      · rcases List.mem_cons.mp h with h | h
        · exact .inr (h ▸ List.mem_cons_self)
        · rcases mem_memInsert h with h | h
          · exact .inl h
          · exact .inr (List.mem_cons_of_mem _ h)

theorem pairwise_memInsert : ∀ {m : Memory} (a : Nat) (v : Byte), m.Pairwise (fun a b => a.1 < b.1) →
    (memInsert m a v).Pairwise (fun a b => a.1 < b.1)
  | [], _, _, _ => by simp [memInsert]
  | (k, b) :: m, a, v, h => by
    have g := List.pairwise_cons.mp h
    unfold memInsert
    split
    · rename_i hk
      refine List.pairwise_cons.mpr ⟨fun c hc => ?_, h⟩
      rcases List.mem_cons.mp hc with hc | hc
      · exact hc ▸ hk
      · exact Nat.lt_trans hk (g.1 c hc)
    · split
      · rename_i hk
        exact List.pairwise_cons.mpr ⟨fun c hc => hk ▸ g.1 c hc, g.2⟩
      · refine List.pairwise_cons.mpr ⟨fun c hc => ?_, pairwise_memInsert a v g.2⟩
        rcases mem_memInsert hc with hc | hc
        · subst hc
          rename_i h1 h2
          exact Nat.lt_of_le_of_ne (Nat.le_of_not_lt h1) h2
        · exact g.1 c hc

theorem memWf_memPut {m : Memory} (a : Nat) (v : Byte) (h : memWf m = true) : memWf (memPut m a v) = true := by
  rw [memWf_iff] at h ⊢
  unfold memPut
  split
  · exact ⟨fun c hc => h.1 c (mem_memDrop hc), pairwise_memDrop a h.2⟩
  · refine ⟨fun c hc => ?_, pairwise_memInsert a v h.2⟩
    rcases mem_memInsert hc with hc | hc
    · subst hc
      assumption
    · exact h.1 c hc

/-- A write keeps the canonical form. -/
theorem memWf_memWrite : ∀ (bs : List Byte) {m : Memory} (a : Nat), memWf m = true → memWf (memWrite m a bs) = true
  | [], _, _, h => h
  | v :: bs, _, a, h => memWf_memWrite bs (a + 1) (memWf_memPut a v h)

/-- Clearing a range keeps the canonical form. -/
theorem memWf_memClear {m : Memory} (a n : Nat) (h : memWf m = true) : memWf (memClear m a n) = true := by
  rw [memWf_iff] at h ⊢
  exact ⟨fun c hc => h.1 c (List.mem_filter.mp hc).1, h.2.filter _⟩

/-- An address below every entry reads 0. -/
theorem memGet_below : ∀ {m : Memory} {a : Nat}, (∀ c ∈ m, a < c.1) → memGet m a = 0
  | [], _, _ => rfl
  | (k, b) :: m, a, h => by
    have hk : a < k := h (k, b) List.mem_cons_self
    have h' : ∀ c ∈ m, a < c.1 := fun c hc => h c (List.mem_cons_of_mem _ hc)
    simp [memGet, Nat.ne_of_gt hk, memGet_below h']

theorem memGet_memDrop : ∀ {m : Memory} (a x : Nat), m.Pairwise (fun a b => a.1 < b.1) →
    memGet (memDrop m a) x = if x = a then 0 else memGet m x
  | [], a, x, _ => by simp [memDrop, memGet]
  | (k, b) :: m, a, x, h => by
    have g := List.pairwise_cons.mp h
    unfold memDrop
    by_cases hk : k = a
    · subst hk
      by_cases hx : x = k
      · subst hx
        simpa using memGet_below g.1
      · simp [memGet, hx, Ne.symm hx]
    · simp only [hk, if_false, memGet, memGet_memDrop a x g.2]
      by_cases hx : k = x
      · subst hx
        simp [hk]
      · simp [hx]

theorem memGet_memInsert : ∀ {m : Memory} (a : Nat) (v : Byte) (x : Nat),
    memGet (memInsert m a v) x = if x = a then v else memGet m x
  | [], a, v, x => by
    by_cases h : x = a
    · simp [memInsert, memGet, h]
    · simp [memInsert, memGet, h, Ne.symm h]
  | (k, b) :: m, a, v, x => by
    have hax : (a = x) = (x = a) := propext ⟨Eq.symm, Eq.symm⟩
    unfold memInsert
    split
    · simp only [memGet, hax]
    · split
      · rename_i hk
        subst hk
        simp only [memGet, hax]
        by_cases h : x = k <;> simp [h]
      · rename_i h1 h2
        simp only [memGet, memGet_memInsert a v x]
        by_cases h : k = x
        · subst h
          simp [h2]
        · simp [h]

/-- What one byte reads as after a byte has been written. -/
theorem memGet_memPut {m : Memory} (a : Nat) (v : Byte) (x : Nat) (h : memWf m = true) :
    memGet (memPut m a v) x = if x = a then v else memGet m x := by
  unfold memPut
  split
  · rename_i hv
    rw [hv, memGet_memDrop a x ((memWf_iff m).mp h).2]
  · exact memGet_memInsert a v x

/-- A write leaves every byte outside it alone. -/
theorem memGet_memWrite_other : ∀ (bs : List Byte) {m : Memory} (a x : Nat), memWf m = true →
    (x < a ∨ a + bs.length ≤ x) → memGet (memWrite m a bs) x = memGet m x
  | [], _, _, _, _, _ => rfl
  | v :: bs, m, a, x, h, hx => by
    have hx' : x < a + 1 ∨ a + 1 + bs.length ≤ x := by
      simp only [List.length_cons] at hx
      omega
    have hne : x ≠ a := by
      simp only [List.length_cons] at hx
      omega
    rw [memWrite, memGet_memWrite_other bs (a + 1) x (memWf_memPut a v h) hx', memGet_memPut a v x h]
    simp [hne]

/-- A read of what has just been written gives it. -/
theorem memRead_memWrite : ∀ (bs : List Byte) {m : Memory} (a : Nat), memWf m = true →
    memRead (memWrite m a bs) a bs.length = bs
  | [], _, _, _ => rfl
  | v :: bs, m, a, h => by
    have hw := memWf_memPut (m := m) a v h
    rw [List.length_cons, memRead, memWrite, memGet_memWrite_other bs (a + 1) a hw (.inl (Nat.lt_succ_self a)),
      memGet_memPut a v a h, memRead_memWrite bs (a + 1) hw]
    simp

end Sys2Proof.Machine
end

