-- ==== Sys2Proof/Laws/State.lean ====
section
/-! SUPPORT. Reading a field of the state after one object of it has changed. -/

namespace Sys2Proof.Machine

@[simp] theorem State.onGuard_sup (s : State) (o : OutletNo) (f : Guard → Guard) : (s.onGuard o f).sup = s.sup := rfl
@[simp] theorem State.onGuard_modes (s : State) (o : OutletNo) (f : Guard → Guard) : (s.onGuard o f).modes = s.modes
    := rfl
@[simp] theorem State.onGuard_clocks (s : State) (o : OutletNo) (f : Guard → Guard) : (s.onGuard o f).clocks = s.clocks
    := rfl
@[simp] theorem State.onGuard_dies (s : State) (o : OutletNo) (f : Guard → Guard) : (s.onGuard o f).dies = s.dies := rfl
@[simp] theorem State.onGuard_teal (s : State) (o : OutletNo) (f : Guard → Guard) : (s.onGuard o f).teal = s.teal := rfl
@[simp] theorem State.onGuard_och (s : State) (o : OutletNo) (f : Guard → Guard) : (s.onGuard o f).och = s.och := rfl
@[simp] theorem State.onGuard_veh (s : State) (o : OutletNo) (f : Guard → Guard) : (s.onGuard o f).veh = s.veh := rfl
@[simp] theorem State.onGuard_spe (s : State) (o : OutletNo) (f : Guard → Guard) : (s.onGuard o f).spe = s.spe := rfl
@[simp] theorem State.onGuard_site (s : State) (o : OutletNo) (f : Guard → Guard) : (s.onGuard o f).site = s.site := rfl
@[simp] theorem State.onGuard_rdr (s : State) (o : OutletNo) (f : Guard → Guard) : (s.onGuard o f).rdr = s.rdr := rfl
@[simp] theorem State.onGuard_tag (s : State) (o : OutletNo) (f : Guard → Guard) : (s.onGuard o f).tag = s.tag := rfl
@[simp] theorem State.onGuard_keys (s : State) (o : OutletNo) (f : Guard → Guard) : (s.onGuard o f).keys = s.keys := rfl
@[simp] theorem State.onGuard_pair (s : State) (o : OutletNo) (f : Guard → Guard) : (s.onGuard o f).pair = s.pair := rfl
@[simp] theorem State.onGuard_upd (s : State) (o : OutletNo) (f : Guard → Guard) : (s.onGuard o f).upd = s.upd := rfl
@[simp] theorem State.onGuard_thm (s : State) (o : OutletNo) (f : Guard → Guard) : (s.onGuard o f).thm = s.thm := rfl
@[simp] theorem State.onGuard_evt (s : State) (o : OutletNo) (f : Guard → Guard) : (s.onGuard o f).evt = s.evt := rfl
@[simp] theorem State.onGuard_mbx (s : State) (o : OutletNo) (f : Guard → Guard) : (s.onGuard o f).mbx = s.mbx := rfl
@[simp] theorem State.onGuard_mem (s : State) (o : OutletNo) (f : Guard → Guard) : (s.onGuard o f).mem = s.mem := rfl
@[simp] theorem State.onGuard_reported (s : State) (o : OutletNo) (f : Guard → Guard) : (s.onGuard o f).reported = s.reported
    := rfl
@[simp] theorem State.onGuard_free (s : State) (o : OutletNo) (f : Guard → Guard) : (s.onGuard o f).free = s.free := rfl
@[simp] theorem State.onGuard_pending (s : State) (o : OutletNo) (f : Guard → Guard) : (s.onGuard o f).pending = s.pending
    := rfl
@[simp] theorem State.onGuard_rus_outlet (s : State) (o : OutletNo) (f : Guard → Guard) : (s.onGuard o f).rus.outlet = s.rus.outlet.upd o f
    := rfl
@[simp] theorem State.onGuard_rus_pair (s : State) (o : OutletNo) (f : Guard → Guard) : (s.onGuard o f).rus.pair = s.rus.pair
    := rfl
@[simp] theorem State.onGuard_rus_brake (s : State) (o : OutletNo) (f : Guard → Guard) : (s.onGuard o f).rus.brake = s.rus.brake
    := rfl
@[simp] theorem State.onGuard_rus_estop (s : State) (o : OutletNo) (f : Guard → Guard) : (s.onGuard o f).rus.estop = s.rus.estop
    := rfl
@[simp] theorem State.onGuard_rus_estopCfg (s : State) (o : OutletNo) (f : Guard → Guard) : (s.onGuard o f).rus.estopCfg = s.rus.estopCfg
    := rfl
@[simp] theorem State.onGuard_rus_outCfg (s : State) (o : OutletNo) (f : Guard → Guard) : (s.onGuard o f).rus.outCfg = s.rus.outCfg
    := rfl
@[simp] theorem State.onGuard_rus_fast (s : State) (o : OutletNo) (f : Guard → Guard) : (s.onGuard o f).rus.fast = s.rus.fast
    := rfl
@[simp] theorem State.onGuard_rus_capture (s : State) (o : OutletNo) (f : Guard → Guard) : (s.onGuard o f).rus.capture = s.rus.capture
    := rfl
@[simp] theorem State.onGuard_rus_stream (s : State) (o : OutletNo) (f : Guard → Guard) : (s.onGuard o f).rus.stream = s.rus.stream
    := rfl
@[simp] theorem State.onGuard_rus_lease (s : State) (o : OutletNo) (f : Guard → Guard) : (s.onGuard o f).rus.lease = s.rus.lease
    := rfl
@[simp] theorem State.onGuard_rus_cause (s : State) (o : OutletNo) (f : Guard → Guard) : (s.onGuard o f).rus.cause = s.rus.cause
    := rfl
@[simp] theorem State.onGuard_rus_pend (s : State) (o : OutletNo) (f : Guard → Guard) : (s.onGuard o f).rus.pend = s.rus.pend
    := rfl
@[simp] theorem State.onGuard_rus_ceStep (s : State) (o : OutletNo) (f : Guard → Guard) : (s.onGuard o f).rus.ceStep = s.rus.ceStep
    := rfl
@[simp] theorem State.onGuard_rus_hubHeld (s : State) (o : OutletNo) (f : Guard → Guard) : (s.onGuard o f).rus.hubHeld = s.rus.hubHeld
    := rfl
@[simp] theorem State.onGuard_rus_outHeld (s : State) (o : OutletNo) (f : Guard → Guard) : (s.onGuard o f).rus.outHeld = s.rus.outHeld
    := rfl
@[simp] theorem State.onPair_sup (s : State) (p : PairNo) (f : Pair → Pair) : (s.onPair p f).sup = s.sup := rfl
@[simp] theorem State.onPair_modes (s : State) (p : PairNo) (f : Pair → Pair) : (s.onPair p f).modes = s.modes := rfl
@[simp] theorem State.onPair_clocks (s : State) (p : PairNo) (f : Pair → Pair) : (s.onPair p f).clocks = s.clocks := rfl
@[simp] theorem State.onPair_dies (s : State) (p : PairNo) (f : Pair → Pair) : (s.onPair p f).dies = s.dies := rfl
@[simp] theorem State.onPair_teal (s : State) (p : PairNo) (f : Pair → Pair) : (s.onPair p f).teal = s.teal := rfl
@[simp] theorem State.onPair_och (s : State) (p : PairNo) (f : Pair → Pair) : (s.onPair p f).och = s.och := rfl
@[simp] theorem State.onPair_veh (s : State) (p : PairNo) (f : Pair → Pair) : (s.onPair p f).veh = s.veh := rfl
@[simp] theorem State.onPair_spe (s : State) (p : PairNo) (f : Pair → Pair) : (s.onPair p f).spe = s.spe := rfl
@[simp] theorem State.onPair_site (s : State) (p : PairNo) (f : Pair → Pair) : (s.onPair p f).site = s.site := rfl
@[simp] theorem State.onPair_rdr (s : State) (p : PairNo) (f : Pair → Pair) : (s.onPair p f).rdr = s.rdr := rfl
@[simp] theorem State.onPair_tag (s : State) (p : PairNo) (f : Pair → Pair) : (s.onPair p f).tag = s.tag := rfl
@[simp] theorem State.onPair_keys (s : State) (p : PairNo) (f : Pair → Pair) : (s.onPair p f).keys = s.keys := rfl
@[simp] theorem State.onPair_pair (s : State) (p : PairNo) (f : Pair → Pair) : (s.onPair p f).pair = s.pair := rfl
@[simp] theorem State.onPair_upd (s : State) (p : PairNo) (f : Pair → Pair) : (s.onPair p f).upd = s.upd := rfl
@[simp] theorem State.onPair_thm (s : State) (p : PairNo) (f : Pair → Pair) : (s.onPair p f).thm = s.thm := rfl
@[simp] theorem State.onPair_evt (s : State) (p : PairNo) (f : Pair → Pair) : (s.onPair p f).evt = s.evt := rfl
@[simp] theorem State.onPair_mbx (s : State) (p : PairNo) (f : Pair → Pair) : (s.onPair p f).mbx = s.mbx := rfl
@[simp] theorem State.onPair_mem (s : State) (p : PairNo) (f : Pair → Pair) : (s.onPair p f).mem = s.mem := rfl
@[simp] theorem State.onPair_reported (s : State) (p : PairNo) (f : Pair → Pair) : (s.onPair p f).reported = s.reported
    := rfl
@[simp] theorem State.onPair_free (s : State) (p : PairNo) (f : Pair → Pair) : (s.onPair p f).free = s.free := rfl
@[simp] theorem State.onPair_pending (s : State) (p : PairNo) (f : Pair → Pair) : (s.onPair p f).pending = s.pending
    := rfl
@[simp] theorem State.onPair_rus_outlet (s : State) (p : PairNo) (f : Pair → Pair) : (s.onPair p f).rus.outlet = s.rus.outlet
    := rfl
@[simp] theorem State.onPair_rus_pair (s : State) (p : PairNo) (f : Pair → Pair) : (s.onPair p f).rus.pair = s.rus.pair.upd p f
    := rfl
@[simp] theorem State.onPair_rus_brake (s : State) (p : PairNo) (f : Pair → Pair) : (s.onPair p f).rus.brake = s.rus.brake
    := rfl
@[simp] theorem State.onPair_rus_estop (s : State) (p : PairNo) (f : Pair → Pair) : (s.onPair p f).rus.estop = s.rus.estop
    := rfl
@[simp] theorem State.onPair_rus_estopCfg (s : State) (p : PairNo) (f : Pair → Pair) : (s.onPair p f).rus.estopCfg = s.rus.estopCfg
    := rfl
@[simp] theorem State.onPair_rus_outCfg (s : State) (p : PairNo) (f : Pair → Pair) : (s.onPair p f).rus.outCfg = s.rus.outCfg
    := rfl
@[simp] theorem State.onPair_rus_fast (s : State) (p : PairNo) (f : Pair → Pair) : (s.onPair p f).rus.fast = s.rus.fast
    := rfl
@[simp] theorem State.onPair_rus_capture (s : State) (p : PairNo) (f : Pair → Pair) : (s.onPair p f).rus.capture = s.rus.capture
    := rfl
@[simp] theorem State.onPair_rus_stream (s : State) (p : PairNo) (f : Pair → Pair) : (s.onPair p f).rus.stream = s.rus.stream
    := rfl
@[simp] theorem State.onPair_rus_lease (s : State) (p : PairNo) (f : Pair → Pair) : (s.onPair p f).rus.lease = s.rus.lease
    := rfl
@[simp] theorem State.onPair_rus_cause (s : State) (p : PairNo) (f : Pair → Pair) : (s.onPair p f).rus.cause = s.rus.cause
    := rfl
@[simp] theorem State.onPair_rus_pend (s : State) (p : PairNo) (f : Pair → Pair) : (s.onPair p f).rus.pend = s.rus.pend
    := rfl
@[simp] theorem State.onPair_rus_ceStep (s : State) (p : PairNo) (f : Pair → Pair) : (s.onPair p f).rus.ceStep = s.rus.ceStep
    := rfl
@[simp] theorem State.onPair_rus_hubHeld (s : State) (p : PairNo) (f : Pair → Pair) : (s.onPair p f).rus.hubHeld = s.rus.hubHeld
    := rfl
@[simp] theorem State.onPair_rus_outHeld (s : State) (p : PairNo) (f : Pair → Pair) : (s.onPair p f).rus.outHeld = s.rus.outHeld
    := rfl
@[simp] theorem State.onBrake_sup (s : State) (b : BrakeNo) (f : Brake → Brake) : (s.onBrake b f).sup = s.sup := rfl
@[simp] theorem State.onBrake_modes (s : State) (b : BrakeNo) (f : Brake → Brake) : (s.onBrake b f).modes = s.modes
    := rfl
@[simp] theorem State.onBrake_clocks (s : State) (b : BrakeNo) (f : Brake → Brake) : (s.onBrake b f).clocks = s.clocks
    := rfl
@[simp] theorem State.onBrake_dies (s : State) (b : BrakeNo) (f : Brake → Brake) : (s.onBrake b f).dies = s.dies := rfl
@[simp] theorem State.onBrake_teal (s : State) (b : BrakeNo) (f : Brake → Brake) : (s.onBrake b f).teal = s.teal := rfl
@[simp] theorem State.onBrake_och (s : State) (b : BrakeNo) (f : Brake → Brake) : (s.onBrake b f).och = s.och := rfl
@[simp] theorem State.onBrake_veh (s : State) (b : BrakeNo) (f : Brake → Brake) : (s.onBrake b f).veh = s.veh := rfl
@[simp] theorem State.onBrake_spe (s : State) (b : BrakeNo) (f : Brake → Brake) : (s.onBrake b f).spe = s.spe := rfl
@[simp] theorem State.onBrake_site (s : State) (b : BrakeNo) (f : Brake → Brake) : (s.onBrake b f).site = s.site := rfl
@[simp] theorem State.onBrake_rdr (s : State) (b : BrakeNo) (f : Brake → Brake) : (s.onBrake b f).rdr = s.rdr := rfl
@[simp] theorem State.onBrake_tag (s : State) (b : BrakeNo) (f : Brake → Brake) : (s.onBrake b f).tag = s.tag := rfl
@[simp] theorem State.onBrake_keys (s : State) (b : BrakeNo) (f : Brake → Brake) : (s.onBrake b f).keys = s.keys := rfl
@[simp] theorem State.onBrake_pair (s : State) (b : BrakeNo) (f : Brake → Brake) : (s.onBrake b f).pair = s.pair := rfl
@[simp] theorem State.onBrake_upd (s : State) (b : BrakeNo) (f : Brake → Brake) : (s.onBrake b f).upd = s.upd := rfl
@[simp] theorem State.onBrake_thm (s : State) (b : BrakeNo) (f : Brake → Brake) : (s.onBrake b f).thm = s.thm := rfl
@[simp] theorem State.onBrake_evt (s : State) (b : BrakeNo) (f : Brake → Brake) : (s.onBrake b f).evt = s.evt := rfl
@[simp] theorem State.onBrake_mbx (s : State) (b : BrakeNo) (f : Brake → Brake) : (s.onBrake b f).mbx = s.mbx := rfl
@[simp] theorem State.onBrake_mem (s : State) (b : BrakeNo) (f : Brake → Brake) : (s.onBrake b f).mem = s.mem := rfl
@[simp] theorem State.onBrake_reported (s : State) (b : BrakeNo) (f : Brake → Brake) : (s.onBrake b f).reported = s.reported
    := rfl
@[simp] theorem State.onBrake_free (s : State) (b : BrakeNo) (f : Brake → Brake) : (s.onBrake b f).free = s.free := rfl
@[simp] theorem State.onBrake_pending (s : State) (b : BrakeNo) (f : Brake → Brake) : (s.onBrake b f).pending = s.pending
    := rfl
@[simp] theorem State.onBrake_rus_outlet (s : State) (b : BrakeNo) (f : Brake → Brake) : (s.onBrake b f).rus.outlet = s.rus.outlet
    := rfl
@[simp] theorem State.onBrake_rus_pair (s : State) (b : BrakeNo) (f : Brake → Brake) : (s.onBrake b f).rus.pair = s.rus.pair
    := rfl
@[simp] theorem State.onBrake_rus_brake (s : State) (b : BrakeNo) (f : Brake → Brake) : (s.onBrake b f).rus.brake = s.rus.brake.upd b f
    := rfl
@[simp] theorem State.onBrake_rus_estop (s : State) (b : BrakeNo) (f : Brake → Brake) : (s.onBrake b f).rus.estop = s.rus.estop
    := rfl
@[simp] theorem State.onBrake_rus_estopCfg (s : State) (b : BrakeNo) (f : Brake → Brake) : (s.onBrake b f).rus.estopCfg = s.rus.estopCfg
    := rfl
@[simp] theorem State.onBrake_rus_outCfg (s : State) (b : BrakeNo) (f : Brake → Brake) : (s.onBrake b f).rus.outCfg = s.rus.outCfg
    := rfl
@[simp] theorem State.onBrake_rus_fast (s : State) (b : BrakeNo) (f : Brake → Brake) : (s.onBrake b f).rus.fast = s.rus.fast
    := rfl
@[simp] theorem State.onBrake_rus_capture (s : State) (b : BrakeNo) (f : Brake → Brake) : (s.onBrake b f).rus.capture = s.rus.capture
    := rfl
@[simp] theorem State.onBrake_rus_stream (s : State) (b : BrakeNo) (f : Brake → Brake) : (s.onBrake b f).rus.stream = s.rus.stream
    := rfl
@[simp] theorem State.onBrake_rus_lease (s : State) (b : BrakeNo) (f : Brake → Brake) : (s.onBrake b f).rus.lease = s.rus.lease
    := rfl
@[simp] theorem State.onBrake_rus_cause (s : State) (b : BrakeNo) (f : Brake → Brake) : (s.onBrake b f).rus.cause = s.rus.cause
    := rfl
@[simp] theorem State.onBrake_rus_pend (s : State) (b : BrakeNo) (f : Brake → Brake) : (s.onBrake b f).rus.pend = s.rus.pend
    := rfl
@[simp] theorem State.onBrake_rus_ceStep (s : State) (b : BrakeNo) (f : Brake → Brake) : (s.onBrake b f).rus.ceStep = s.rus.ceStep
    := rfl
@[simp] theorem State.onBrake_rus_hubHeld (s : State) (b : BrakeNo) (f : Brake → Brake) : (s.onBrake b f).rus.hubHeld = s.rus.hubHeld
    := rfl
@[simp] theorem State.onBrake_rus_outHeld (s : State) (b : BrakeNo) (f : Brake → Brake) : (s.onBrake b f).rus.outHeld = s.rus.outHeld
    := rfl
@[simp] theorem State.onEstop_sup (s : State) (c : EstopNo) (f : Estop → Estop) : (s.onEstop c f).sup = s.sup := rfl
@[simp] theorem State.onEstop_modes (s : State) (c : EstopNo) (f : Estop → Estop) : (s.onEstop c f).modes = s.modes
    := rfl
@[simp] theorem State.onEstop_clocks (s : State) (c : EstopNo) (f : Estop → Estop) : (s.onEstop c f).clocks = s.clocks
    := rfl
@[simp] theorem State.onEstop_dies (s : State) (c : EstopNo) (f : Estop → Estop) : (s.onEstop c f).dies = s.dies := rfl
@[simp] theorem State.onEstop_teal (s : State) (c : EstopNo) (f : Estop → Estop) : (s.onEstop c f).teal = s.teal := rfl
@[simp] theorem State.onEstop_och (s : State) (c : EstopNo) (f : Estop → Estop) : (s.onEstop c f).och = s.och := rfl
@[simp] theorem State.onEstop_veh (s : State) (c : EstopNo) (f : Estop → Estop) : (s.onEstop c f).veh = s.veh := rfl
@[simp] theorem State.onEstop_spe (s : State) (c : EstopNo) (f : Estop → Estop) : (s.onEstop c f).spe = s.spe := rfl
@[simp] theorem State.onEstop_site (s : State) (c : EstopNo) (f : Estop → Estop) : (s.onEstop c f).site = s.site := rfl
@[simp] theorem State.onEstop_rdr (s : State) (c : EstopNo) (f : Estop → Estop) : (s.onEstop c f).rdr = s.rdr := rfl
@[simp] theorem State.onEstop_tag (s : State) (c : EstopNo) (f : Estop → Estop) : (s.onEstop c f).tag = s.tag := rfl
@[simp] theorem State.onEstop_keys (s : State) (c : EstopNo) (f : Estop → Estop) : (s.onEstop c f).keys = s.keys := rfl
@[simp] theorem State.onEstop_pair (s : State) (c : EstopNo) (f : Estop → Estop) : (s.onEstop c f).pair = s.pair := rfl
@[simp] theorem State.onEstop_upd (s : State) (c : EstopNo) (f : Estop → Estop) : (s.onEstop c f).upd = s.upd := rfl
@[simp] theorem State.onEstop_thm (s : State) (c : EstopNo) (f : Estop → Estop) : (s.onEstop c f).thm = s.thm := rfl
@[simp] theorem State.onEstop_evt (s : State) (c : EstopNo) (f : Estop → Estop) : (s.onEstop c f).evt = s.evt := rfl
@[simp] theorem State.onEstop_mbx (s : State) (c : EstopNo) (f : Estop → Estop) : (s.onEstop c f).mbx = s.mbx := rfl
@[simp] theorem State.onEstop_mem (s : State) (c : EstopNo) (f : Estop → Estop) : (s.onEstop c f).mem = s.mem := rfl
@[simp] theorem State.onEstop_reported (s : State) (c : EstopNo) (f : Estop → Estop) : (s.onEstop c f).reported = s.reported
    := rfl
@[simp] theorem State.onEstop_free (s : State) (c : EstopNo) (f : Estop → Estop) : (s.onEstop c f).free = s.free := rfl
@[simp] theorem State.onEstop_pending (s : State) (c : EstopNo) (f : Estop → Estop) : (s.onEstop c f).pending = s.pending
    := rfl
@[simp] theorem State.onEstop_rus_outlet (s : State) (c : EstopNo) (f : Estop → Estop) : (s.onEstop c f).rus.outlet = s.rus.outlet
    := rfl
@[simp] theorem State.onEstop_rus_pair (s : State) (c : EstopNo) (f : Estop → Estop) : (s.onEstop c f).rus.pair = s.rus.pair
    := rfl
@[simp] theorem State.onEstop_rus_brake (s : State) (c : EstopNo) (f : Estop → Estop) : (s.onEstop c f).rus.brake = s.rus.brake
    := rfl
@[simp] theorem State.onEstop_rus_estop (s : State) (c : EstopNo) (f : Estop → Estop) : (s.onEstop c f).rus.estop = s.rus.estop.upd c f
    := rfl
@[simp] theorem State.onEstop_rus_estopCfg (s : State) (c : EstopNo) (f : Estop → Estop) : (s.onEstop c f).rus.estopCfg = s.rus.estopCfg
    := rfl
@[simp] theorem State.onEstop_rus_outCfg (s : State) (c : EstopNo) (f : Estop → Estop) : (s.onEstop c f).rus.outCfg = s.rus.outCfg
    := rfl
@[simp] theorem State.onEstop_rus_fast (s : State) (c : EstopNo) (f : Estop → Estop) : (s.onEstop c f).rus.fast = s.rus.fast
    := rfl
@[simp] theorem State.onEstop_rus_capture (s : State) (c : EstopNo) (f : Estop → Estop) : (s.onEstop c f).rus.capture = s.rus.capture
    := rfl
@[simp] theorem State.onEstop_rus_stream (s : State) (c : EstopNo) (f : Estop → Estop) : (s.onEstop c f).rus.stream = s.rus.stream
    := rfl
@[simp] theorem State.onEstop_rus_lease (s : State) (c : EstopNo) (f : Estop → Estop) : (s.onEstop c f).rus.lease = s.rus.lease
    := rfl
@[simp] theorem State.onEstop_rus_cause (s : State) (c : EstopNo) (f : Estop → Estop) : (s.onEstop c f).rus.cause = s.rus.cause
    := rfl
@[simp] theorem State.onEstop_rus_pend (s : State) (c : EstopNo) (f : Estop → Estop) : (s.onEstop c f).rus.pend = s.rus.pend
    := rfl
@[simp] theorem State.onEstop_rus_ceStep (s : State) (c : EstopNo) (f : Estop → Estop) : (s.onEstop c f).rus.ceStep = s.rus.ceStep
    := rfl
@[simp] theorem State.onEstop_rus_hubHeld (s : State) (c : EstopNo) (f : Estop → Estop) : (s.onEstop c f).rus.hubHeld = s.rus.hubHeld
    := rfl
@[simp] theorem State.onEstop_rus_outHeld (s : State) (c : EstopNo) (f : Estop → Estop) : (s.onEstop c f).rus.outHeld = s.rus.outHeld
    := rfl
@[simp] theorem State.onPilot_sup (s : State) (o : OutletNo) (f : Pilot → Pilot) : (s.onPilot o f).sup = s.sup := rfl
@[simp] theorem State.onPilot_modes (s : State) (o : OutletNo) (f : Pilot → Pilot) : (s.onPilot o f).modes = s.modes
    := rfl
@[simp] theorem State.onPilot_clocks (s : State) (o : OutletNo) (f : Pilot → Pilot) : (s.onPilot o f).clocks = s.clocks
    := rfl
@[simp] theorem State.onPilot_dies (s : State) (o : OutletNo) (f : Pilot → Pilot) : (s.onPilot o f).dies = s.dies := rfl
@[simp] theorem State.onPilot_teal (s : State) (o : OutletNo) (f : Pilot → Pilot) : (s.onPilot o f).teal = s.teal := rfl
@[simp] theorem State.onPilot_och (s : State) (o : OutletNo) (f : Pilot → Pilot) : (s.onPilot o f).och = s.och := rfl
@[simp] theorem State.onPilot_rus (s : State) (o : OutletNo) (f : Pilot → Pilot) : (s.onPilot o f).rus = s.rus := rfl
@[simp] theorem State.onPilot_spe (s : State) (o : OutletNo) (f : Pilot → Pilot) : (s.onPilot o f).spe = s.spe := rfl
@[simp] theorem State.onPilot_site (s : State) (o : OutletNo) (f : Pilot → Pilot) : (s.onPilot o f).site = s.site := rfl
@[simp] theorem State.onPilot_rdr (s : State) (o : OutletNo) (f : Pilot → Pilot) : (s.onPilot o f).rdr = s.rdr := rfl
@[simp] theorem State.onPilot_tag (s : State) (o : OutletNo) (f : Pilot → Pilot) : (s.onPilot o f).tag = s.tag := rfl
@[simp] theorem State.onPilot_keys (s : State) (o : OutletNo) (f : Pilot → Pilot) : (s.onPilot o f).keys = s.keys := rfl
@[simp] theorem State.onPilot_pair (s : State) (o : OutletNo) (f : Pilot → Pilot) : (s.onPilot o f).pair = s.pair := rfl
@[simp] theorem State.onPilot_upd (s : State) (o : OutletNo) (f : Pilot → Pilot) : (s.onPilot o f).upd = s.upd := rfl
@[simp] theorem State.onPilot_thm (s : State) (o : OutletNo) (f : Pilot → Pilot) : (s.onPilot o f).thm = s.thm := rfl
@[simp] theorem State.onPilot_evt (s : State) (o : OutletNo) (f : Pilot → Pilot) : (s.onPilot o f).evt = s.evt := rfl
@[simp] theorem State.onPilot_mbx (s : State) (o : OutletNo) (f : Pilot → Pilot) : (s.onPilot o f).mbx = s.mbx := rfl
@[simp] theorem State.onPilot_mem (s : State) (o : OutletNo) (f : Pilot → Pilot) : (s.onPilot o f).mem = s.mem := rfl
@[simp] theorem State.onPilot_reported (s : State) (o : OutletNo) (f : Pilot → Pilot) : (s.onPilot o f).reported = s.reported
    := rfl
@[simp] theorem State.onPilot_free (s : State) (o : OutletNo) (f : Pilot → Pilot) : (s.onPilot o f).free = s.free := rfl
@[simp] theorem State.onPilot_pending (s : State) (o : OutletNo) (f : Pilot → Pilot) : (s.onPilot o f).pending = s.pending
    := rfl
@[simp] theorem State.onPilot_veh_pilot (s : State) (o : OutletNo) (f : Pilot → Pilot) : (s.onPilot o f).veh.pilot = s.veh.pilot.upd o f
    := rfl
@[simp] theorem State.onPilot_veh_slac (s : State) (o : OutletNo) (f : Pilot → Pilot) : (s.onPilot o f).veh.slac = s.veh.slac
    := rfl
@[simp] theorem State.onPilot_veh_session (s : State) (o : OutletNo) (f : Pilot → Pilot) : (s.onPilot o f).veh.session = s.veh.session
    := rfl
@[simp] theorem State.onPilot_veh_ha (s : State) (o : OutletNo) (f : Pilot → Pilot) : (s.onPilot o f).veh.ha = s.veh.ha
    := rfl
@[simp] theorem State.onPilot_veh_haPend (s : State) (o : OutletNo) (f : Pilot → Pilot) : (s.onPilot o f).veh.haPend = s.veh.haPend
    := rfl
@[simp] theorem State.onPilot_veh_grant (s : State) (o : OutletNo) (f : Pilot → Pilot) : (s.onPilot o f).veh.grant = s.veh.grant
    := rfl
@[simp] theorem State.onPilot_veh_core (s : State) (o : OutletNo) (f : Pilot → Pilot) : (s.onPilot o f).veh.core = s.veh.core
    := rfl
@[simp] theorem State.onPilot_veh_proxMoves (s : State) (o : OutletNo) (f : Pilot → Pilot) : (s.onPilot o f).veh.proxMoves = s.veh.proxMoves
    := rfl
@[simp] theorem State.onPilot_veh_carries (s : State) (o : OutletNo) (f : Pilot → Pilot) : (s.onPilot o f).veh.carries = s.veh.carries
    := rfl
@[simp] theorem State.onPilot_veh_spare (s : State) (o : OutletNo) (f : Pilot → Pilot) : (s.onPilot o f).veh.spare = s.veh.spare
    := rfl
@[simp] theorem State.onPilot_veh_keyMap (s : State) (o : OutletNo) (f : Pilot → Pilot) : (s.onPilot o f).veh.keyMap = s.veh.keyMap
    := rfl
@[simp] theorem State.onPilot_veh_chains (s : State) (o : OutletNo) (f : Pilot → Pilot) : (s.onPilot o f).veh.chains = s.veh.chains
    := rfl
@[simp] theorem State.onPilot_veh_module (s : State) (o : OutletNo) (f : Pilot → Pilot) : (s.onPilot o f).veh.module = s.veh.module
    := rfl
@[simp] theorem State.onPilot_veh_reqId (s : State) (o : OutletNo) (f : Pilot → Pilot) : (s.onPilot o f).veh.reqId = s.veh.reqId
    := rfl
@[simp] theorem State.onPilot_veh_policies (s : State) (o : OutletNo) (f : Pilot → Pilot) : (s.onPilot o f).veh.policies = s.veh.policies
    := rfl
@[simp] theorem State.onPilot_veh_expired (s : State) (o : OutletNo) (f : Pilot → Pilot) : (s.onPilot o f).veh.expired = s.veh.expired
    := rfl
@[simp] theorem State.onPilot_veh_expiredCerts (s : State) (o : OutletNo) (f : Pilot → Pilot) : (s.onPilot o f).veh.expiredCerts = s.veh.expiredCerts
    := rfl
@[simp] theorem State.onPilot_veh_toConfirm (s : State) (o : OutletNo) (f : Pilot → Pilot) : (s.onPilot o f).veh.toConfirm = s.veh.toConfirm
    := rfl
@[simp] theorem State.onPilot_veh_txStopped (s : State) (o : OutletNo) (f : Pilot → Pilot) : (s.onPilot o f).veh.txStopped = s.veh.txStopped
    := rfl
@[simp] theorem State.onPilot_veh_lateAnswers (s : State) (o : OutletNo) (f : Pilot → Pilot) : (s.onPilot o f).veh.lateAnswers = s.veh.lateAnswers
    := rfl
@[simp] theorem State.onSession_sup (s : State) (o : OutletNo) (f : Session → Session) : (s.onSession o f).sup = s.sup
    := rfl
@[simp] theorem State.onSession_modes (s : State) (o : OutletNo) (f : Session → Session) : (s.onSession o f).modes = s.modes
    := rfl
@[simp] theorem State.onSession_clocks (s : State) (o : OutletNo) (f : Session → Session) : (s.onSession o f).clocks = s.clocks
    := rfl
@[simp] theorem State.onSession_dies (s : State) (o : OutletNo) (f : Session → Session) : (s.onSession o f).dies = s.dies
    := rfl
@[simp] theorem State.onSession_teal (s : State) (o : OutletNo) (f : Session → Session) : (s.onSession o f).teal = s.teal
    := rfl
@[simp] theorem State.onSession_och (s : State) (o : OutletNo) (f : Session → Session) : (s.onSession o f).och = s.och
    := rfl
@[simp] theorem State.onSession_rus (s : State) (o : OutletNo) (f : Session → Session) : (s.onSession o f).rus = s.rus
    := rfl
@[simp] theorem State.onSession_spe (s : State) (o : OutletNo) (f : Session → Session) : (s.onSession o f).spe = s.spe
    := rfl
@[simp] theorem State.onSession_site (s : State) (o : OutletNo) (f : Session → Session) : (s.onSession o f).site = s.site
    := rfl
@[simp] theorem State.onSession_rdr (s : State) (o : OutletNo) (f : Session → Session) : (s.onSession o f).rdr = s.rdr
    := rfl
@[simp] theorem State.onSession_tag (s : State) (o : OutletNo) (f : Session → Session) : (s.onSession o f).tag = s.tag
    := rfl
@[simp] theorem State.onSession_keys (s : State) (o : OutletNo) (f : Session → Session) : (s.onSession o f).keys = s.keys
    := rfl
@[simp] theorem State.onSession_pair (s : State) (o : OutletNo) (f : Session → Session) : (s.onSession o f).pair = s.pair
    := rfl
@[simp] theorem State.onSession_upd (s : State) (o : OutletNo) (f : Session → Session) : (s.onSession o f).upd = s.upd
    := rfl
@[simp] theorem State.onSession_thm (s : State) (o : OutletNo) (f : Session → Session) : (s.onSession o f).thm = s.thm
    := rfl
@[simp] theorem State.onSession_evt (s : State) (o : OutletNo) (f : Session → Session) : (s.onSession o f).evt = s.evt
    := rfl
@[simp] theorem State.onSession_mbx (s : State) (o : OutletNo) (f : Session → Session) : (s.onSession o f).mbx = s.mbx
    := rfl
@[simp] theorem State.onSession_mem (s : State) (o : OutletNo) (f : Session → Session) : (s.onSession o f).mem = s.mem
    := rfl
@[simp] theorem State.onSession_reported (s : State) (o : OutletNo) (f : Session → Session) : (s.onSession o f).reported = s.reported
    := rfl
@[simp] theorem State.onSession_free (s : State) (o : OutletNo) (f : Session → Session) : (s.onSession o f).free = s.free
    := rfl
@[simp] theorem State.onSession_pending (s : State) (o : OutletNo) (f : Session → Session) : (s.onSession o f).pending = s.pending
    := rfl
@[simp] theorem State.onSession_veh_pilot (s : State) (o : OutletNo) (f : Session → Session) : (s.onSession o f).veh.pilot = s.veh.pilot
    := rfl
@[simp] theorem State.onSession_veh_slac (s : State) (o : OutletNo) (f : Session → Session) : (s.onSession o f).veh.slac = s.veh.slac
    := rfl
@[simp] theorem State.onSession_veh_session (s : State) (o : OutletNo) (f : Session → Session) : (s.onSession o f).veh.session = s.veh.session.upd o f
    := rfl
@[simp] theorem State.onSession_veh_ha (s : State) (o : OutletNo) (f : Session → Session) : (s.onSession o f).veh.ha = s.veh.ha
    := rfl
@[simp] theorem State.onSession_veh_haPend (s : State) (o : OutletNo) (f : Session → Session) : (s.onSession o f).veh.haPend = s.veh.haPend
    := rfl
@[simp] theorem State.onSession_veh_grant (s : State) (o : OutletNo) (f : Session → Session) : (s.onSession o f).veh.grant = s.veh.grant
    := rfl
@[simp] theorem State.onSession_veh_core (s : State) (o : OutletNo) (f : Session → Session) : (s.onSession o f).veh.core = s.veh.core
    := rfl
@[simp] theorem State.onSession_veh_proxMoves (s : State) (o : OutletNo) (f : Session → Session) : (s.onSession o f).veh.proxMoves = s.veh.proxMoves
    := rfl
@[simp] theorem State.onSession_veh_carries (s : State) (o : OutletNo) (f : Session → Session) : (s.onSession o f).veh.carries = s.veh.carries
    := rfl
@[simp] theorem State.onSession_veh_spare (s : State) (o : OutletNo) (f : Session → Session) : (s.onSession o f).veh.spare = s.veh.spare
    := rfl
@[simp] theorem State.onSession_veh_keyMap (s : State) (o : OutletNo) (f : Session → Session) : (s.onSession o f).veh.keyMap = s.veh.keyMap
    := rfl
@[simp] theorem State.onSession_veh_chains (s : State) (o : OutletNo) (f : Session → Session) : (s.onSession o f).veh.chains = s.veh.chains
    := rfl
@[simp] theorem State.onSession_veh_module (s : State) (o : OutletNo) (f : Session → Session) : (s.onSession o f).veh.module = s.veh.module
    := rfl
@[simp] theorem State.onSession_veh_reqId (s : State) (o : OutletNo) (f : Session → Session) : (s.onSession o f).veh.reqId = s.veh.reqId
    := rfl
@[simp] theorem State.onSession_veh_policies (s : State) (o : OutletNo) (f : Session → Session) : (s.onSession o f).veh.policies = s.veh.policies
    := rfl
@[simp] theorem State.onSession_veh_expired (s : State) (o : OutletNo) (f : Session → Session) : (s.onSession o f).veh.expired = s.veh.expired
    := rfl
@[simp] theorem State.onSession_veh_expiredCerts (s : State) (o : OutletNo) (f : Session → Session) : (s.onSession o f).veh.expiredCerts = s.veh.expiredCerts
    := rfl
@[simp] theorem State.onSession_veh_toConfirm (s : State) (o : OutletNo) (f : Session → Session) : (s.onSession o f).veh.toConfirm = s.veh.toConfirm
    := rfl
@[simp] theorem State.onSession_veh_txStopped (s : State) (o : OutletNo) (f : Session → Session) : (s.onSession o f).veh.txStopped = s.veh.txStopped
    := rfl
@[simp] theorem State.onSession_veh_lateAnswers (s : State) (o : OutletNo) (f : Session → Session) : (s.onSession o f).veh.lateAnswers = s.veh.lateAnswers
    := rfl
@[simp] theorem State.onMeter_sup (s : State) (o : OutletNo) (f : Meter → Meter) : (s.onMeter o f).sup = s.sup := rfl
@[simp] theorem State.onMeter_modes (s : State) (o : OutletNo) (f : Meter → Meter) : (s.onMeter o f).modes = s.modes
    := rfl
@[simp] theorem State.onMeter_clocks (s : State) (o : OutletNo) (f : Meter → Meter) : (s.onMeter o f).clocks = s.clocks
    := rfl
@[simp] theorem State.onMeter_dies (s : State) (o : OutletNo) (f : Meter → Meter) : (s.onMeter o f).dies = s.dies := rfl
@[simp] theorem State.onMeter_teal (s : State) (o : OutletNo) (f : Meter → Meter) : (s.onMeter o f).teal = s.teal := rfl
@[simp] theorem State.onMeter_rus (s : State) (o : OutletNo) (f : Meter → Meter) : (s.onMeter o f).rus = s.rus := rfl
@[simp] theorem State.onMeter_veh (s : State) (o : OutletNo) (f : Meter → Meter) : (s.onMeter o f).veh = s.veh := rfl
@[simp] theorem State.onMeter_spe (s : State) (o : OutletNo) (f : Meter → Meter) : (s.onMeter o f).spe = s.spe := rfl
@[simp] theorem State.onMeter_site (s : State) (o : OutletNo) (f : Meter → Meter) : (s.onMeter o f).site = s.site := rfl
@[simp] theorem State.onMeter_rdr (s : State) (o : OutletNo) (f : Meter → Meter) : (s.onMeter o f).rdr = s.rdr := rfl
@[simp] theorem State.onMeter_tag (s : State) (o : OutletNo) (f : Meter → Meter) : (s.onMeter o f).tag = s.tag := rfl
@[simp] theorem State.onMeter_keys (s : State) (o : OutletNo) (f : Meter → Meter) : (s.onMeter o f).keys = s.keys := rfl
@[simp] theorem State.onMeter_pair (s : State) (o : OutletNo) (f : Meter → Meter) : (s.onMeter o f).pair = s.pair := rfl
@[simp] theorem State.onMeter_upd (s : State) (o : OutletNo) (f : Meter → Meter) : (s.onMeter o f).upd = s.upd := rfl
@[simp] theorem State.onMeter_thm (s : State) (o : OutletNo) (f : Meter → Meter) : (s.onMeter o f).thm = s.thm := rfl
@[simp] theorem State.onMeter_evt (s : State) (o : OutletNo) (f : Meter → Meter) : (s.onMeter o f).evt = s.evt := rfl
@[simp] theorem State.onMeter_mbx (s : State) (o : OutletNo) (f : Meter → Meter) : (s.onMeter o f).mbx = s.mbx := rfl
@[simp] theorem State.onMeter_mem (s : State) (o : OutletNo) (f : Meter → Meter) : (s.onMeter o f).mem = s.mem := rfl
@[simp] theorem State.onMeter_reported (s : State) (o : OutletNo) (f : Meter → Meter) : (s.onMeter o f).reported = s.reported
    := rfl
@[simp] theorem State.onMeter_free (s : State) (o : OutletNo) (f : Meter → Meter) : (s.onMeter o f).free = s.free := rfl
@[simp] theorem State.onMeter_pending (s : State) (o : OutletNo) (f : Meter → Meter) : (s.onMeter o f).pending = s.pending
    := rfl
@[simp] theorem State.onMeter_och_clock (s : State) (o : OutletNo) (f : Meter → Meter) : (s.onMeter o f).och.clock = s.och.clock
    := rfl
@[simp] theorem State.onMeter_och_set (s : State) (o : OutletNo) (f : Meter → Meter) : (s.onMeter o f).och.set = s.och.set
    := rfl
@[simp] theorem State.onMeter_och_input (s : State) (o : OutletNo) (f : Meter → Meter) : (s.onMeter o f).och.input = s.och.input
    := rfl
@[simp] theorem State.onMeter_och_lane (s : State) (o : OutletNo) (f : Meter → Meter) : (s.onMeter o f).och.lane = s.och.lane
    := rfl
@[simp] theorem State.onMeter_och_factory (s : State) (o : OutletNo) (f : Meter → Meter) : (s.onMeter o f).och.factory = s.och.factory
    := rfl
@[simp] theorem State.onMeter_och_laneRecord (s : State) (o : OutletNo) (f : Meter → Meter) : (s.onMeter o f).och.laneRecord = s.och.laneRecord
    := rfl
@[simp] theorem State.onMeter_och_meter (s : State) (o : OutletNo) (f : Meter → Meter) : (s.onMeter o f).och.meter = s.och.meter.upd o f
    := rfl
@[simp] theorem State.onMeter_och_analysis (s : State) (o : OutletNo) (f : Meter → Meter) : (s.onMeter o f).och.analysis = s.och.analysis
    := rfl
@[simp] theorem State.onMeter_och_ha (s : State) (o : OutletNo) (f : Meter → Meter) : (s.onMeter o f).och.ha = s.och.ha
    := rfl
@[simp] theorem State.onMeter_och_haPend (s : State) (o : OutletNo) (f : Meter → Meter) : (s.onMeter o f).och.haPend = s.och.haPend
    := rfl
@[simp] theorem State.onMeter_och_supra (s : State) (o : OutletNo) (f : Meter → Meter) : (s.onMeter o f).och.supra = s.och.supra
    := rfl
@[simp] theorem State.onMeter_och_supraStep (s : State) (o : OutletNo) (f : Meter → Meter) : (s.onMeter o f).och.supraStep = s.och.supraStep
    := rfl
@[simp] theorem State.onMeter_och_intervals (s : State) (o : OutletNo) (f : Meter → Meter) : (s.onMeter o f).och.intervals = s.och.intervals
    := rfl
@[simp] theorem State.onMeter_och_snapshots (s : State) (o : OutletNo) (f : Meter → Meter) : (s.onMeter o f).och.snapshots = s.och.snapshots
    := rfl
@[simp] theorem State.onMeter_och_log (s : State) (o : OutletNo) (f : Meter → Meter) : (s.onMeter o f).och.log = s.och.log
    := rfl
@[simp] theorem State.onMeter_och_recs (s : State) (o : OutletNo) (f : Meter → Meter) : (s.onMeter o f).och.recs = s.och.recs
    := rfl
@[simp] theorem State.onMeter_och_tariffs (s : State) (o : OutletNo) (f : Meter → Meter) : (s.onMeter o f).och.tariffs = s.och.tariffs
    := rfl
@[simp] theorem State.onMeter_och_signing (s : State) (o : OutletNo) (f : Meter → Meter) : (s.onMeter o f).och.signing = s.och.signing
    := rfl
@[simp] theorem State.onMeter_och_refusals (s : State) (o : OutletNo) (f : Meter → Meter) : (s.onMeter o f).och.refusals = s.och.refusals
    := rfl
@[simp] theorem State.onMeter_och_display (s : State) (o : OutletNo) (f : Meter → Meter) : (s.onMeter o f).och.display = s.och.display
    := rfl
@[simp] theorem State.onMeter_och_suspect (s : State) (o : OutletNo) (f : Meter → Meter) : (s.onMeter o f).och.suspect = s.och.suspect
    := rfl
@[simp] theorem State.onAnalysis_sup (s : State) (o : OutletNo) (f : Analysis → Analysis) : (s.onAnalysis o f).sup = s.sup
    := rfl
@[simp] theorem State.onAnalysis_modes (s : State) (o : OutletNo) (f : Analysis → Analysis) : (s.onAnalysis o f).modes = s.modes
    := rfl
@[simp] theorem State.onAnalysis_clocks (s : State) (o : OutletNo) (f : Analysis → Analysis) : (s.onAnalysis o f).clocks = s.clocks
    := rfl
@[simp] theorem State.onAnalysis_dies (s : State) (o : OutletNo) (f : Analysis → Analysis) : (s.onAnalysis o f).dies = s.dies
    := rfl
@[simp] theorem State.onAnalysis_teal (s : State) (o : OutletNo) (f : Analysis → Analysis) : (s.onAnalysis o f).teal = s.teal
    := rfl
@[simp] theorem State.onAnalysis_rus (s : State) (o : OutletNo) (f : Analysis → Analysis) : (s.onAnalysis o f).rus = s.rus
    := rfl
@[simp] theorem State.onAnalysis_veh (s : State) (o : OutletNo) (f : Analysis → Analysis) : (s.onAnalysis o f).veh = s.veh
    := rfl
@[simp] theorem State.onAnalysis_spe (s : State) (o : OutletNo) (f : Analysis → Analysis) : (s.onAnalysis o f).spe = s.spe
    := rfl
@[simp] theorem State.onAnalysis_site (s : State) (o : OutletNo) (f : Analysis → Analysis) : (s.onAnalysis o f).site = s.site
    := rfl
@[simp] theorem State.onAnalysis_rdr (s : State) (o : OutletNo) (f : Analysis → Analysis) : (s.onAnalysis o f).rdr = s.rdr
    := rfl
@[simp] theorem State.onAnalysis_tag (s : State) (o : OutletNo) (f : Analysis → Analysis) : (s.onAnalysis o f).tag = s.tag
    := rfl
@[simp] theorem State.onAnalysis_keys (s : State) (o : OutletNo) (f : Analysis → Analysis) : (s.onAnalysis o f).keys = s.keys
    := rfl
@[simp] theorem State.onAnalysis_pair (s : State) (o : OutletNo) (f : Analysis → Analysis) : (s.onAnalysis o f).pair = s.pair
    := rfl
@[simp] theorem State.onAnalysis_upd (s : State) (o : OutletNo) (f : Analysis → Analysis) : (s.onAnalysis o f).upd = s.upd
    := rfl
@[simp] theorem State.onAnalysis_thm (s : State) (o : OutletNo) (f : Analysis → Analysis) : (s.onAnalysis o f).thm = s.thm
    := rfl
@[simp] theorem State.onAnalysis_evt (s : State) (o : OutletNo) (f : Analysis → Analysis) : (s.onAnalysis o f).evt = s.evt
    := rfl
@[simp] theorem State.onAnalysis_mbx (s : State) (o : OutletNo) (f : Analysis → Analysis) : (s.onAnalysis o f).mbx = s.mbx
    := rfl
@[simp] theorem State.onAnalysis_mem (s : State) (o : OutletNo) (f : Analysis → Analysis) : (s.onAnalysis o f).mem = s.mem
    := rfl
@[simp] theorem State.onAnalysis_reported (s : State) (o : OutletNo) (f : Analysis → Analysis) : (s.onAnalysis o f).reported = s.reported
    := rfl
@[simp] theorem State.onAnalysis_free (s : State) (o : OutletNo) (f : Analysis → Analysis) : (s.onAnalysis o f).free = s.free
    := rfl
@[simp] theorem State.onAnalysis_pending (s : State) (o : OutletNo) (f : Analysis → Analysis) : (s.onAnalysis o f).pending = s.pending
    := rfl
@[simp] theorem State.onAnalysis_och_clock (s : State) (o : OutletNo) (f : Analysis → Analysis) : (s.onAnalysis o f).och.clock = s.och.clock
    := rfl
@[simp] theorem State.onAnalysis_och_set (s : State) (o : OutletNo) (f : Analysis → Analysis) : (s.onAnalysis o f).och.set = s.och.set
    := rfl
@[simp] theorem State.onAnalysis_och_input (s : State) (o : OutletNo) (f : Analysis → Analysis) : (s.onAnalysis o f).och.input = s.och.input
    := rfl
@[simp] theorem State.onAnalysis_och_lane (s : State) (o : OutletNo) (f : Analysis → Analysis) : (s.onAnalysis o f).och.lane = s.och.lane
    := rfl
@[simp] theorem State.onAnalysis_och_factory (s : State) (o : OutletNo) (f : Analysis → Analysis) : (s.onAnalysis o f).och.factory = s.och.factory
    := rfl
@[simp] theorem State.onAnalysis_och_laneRecord (s : State) (o : OutletNo) (f : Analysis → Analysis) : (s.onAnalysis o f).och.laneRecord = s.och.laneRecord
    := rfl
@[simp] theorem State.onAnalysis_och_meter (s : State) (o : OutletNo) (f : Analysis → Analysis) : (s.onAnalysis o f).och.meter = s.och.meter
    := rfl
@[simp] theorem State.onAnalysis_och_analysis (s : State) (o : OutletNo) (f : Analysis → Analysis) : (s.onAnalysis o f).och.analysis = s.och.analysis.upd o f
    := rfl
@[simp] theorem State.onAnalysis_och_ha (s : State) (o : OutletNo) (f : Analysis → Analysis) : (s.onAnalysis o f).och.ha = s.och.ha
    := rfl
@[simp] theorem State.onAnalysis_och_haPend (s : State) (o : OutletNo) (f : Analysis → Analysis) : (s.onAnalysis o f).och.haPend = s.och.haPend
    := rfl
@[simp] theorem State.onAnalysis_och_supra (s : State) (o : OutletNo) (f : Analysis → Analysis) : (s.onAnalysis o f).och.supra = s.och.supra
    := rfl
@[simp] theorem State.onAnalysis_och_supraStep (s : State) (o : OutletNo) (f : Analysis → Analysis) : (s.onAnalysis o f).och.supraStep = s.och.supraStep
    := rfl
@[simp] theorem State.onAnalysis_och_intervals (s : State) (o : OutletNo) (f : Analysis → Analysis) : (s.onAnalysis o f).och.intervals = s.och.intervals
    := rfl
@[simp] theorem State.onAnalysis_och_snapshots (s : State) (o : OutletNo) (f : Analysis → Analysis) : (s.onAnalysis o f).och.snapshots = s.och.snapshots
    := rfl
@[simp] theorem State.onAnalysis_och_log (s : State) (o : OutletNo) (f : Analysis → Analysis) : (s.onAnalysis o f).och.log = s.och.log
    := rfl
@[simp] theorem State.onAnalysis_och_recs (s : State) (o : OutletNo) (f : Analysis → Analysis) : (s.onAnalysis o f).och.recs = s.och.recs
    := rfl
@[simp] theorem State.onAnalysis_och_tariffs (s : State) (o : OutletNo) (f : Analysis → Analysis) : (s.onAnalysis o f).och.tariffs = s.och.tariffs
    := rfl
@[simp] theorem State.onAnalysis_och_signing (s : State) (o : OutletNo) (f : Analysis → Analysis) : (s.onAnalysis o f).och.signing = s.och.signing
    := rfl
@[simp] theorem State.onAnalysis_och_refusals (s : State) (o : OutletNo) (f : Analysis → Analysis) : (s.onAnalysis o f).och.refusals = s.och.refusals
    := rfl
@[simp] theorem State.onAnalysis_och_display (s : State) (o : OutletNo) (f : Analysis → Analysis) : (s.onAnalysis o f).och.display = s.och.display
    := rfl
@[simp] theorem State.onAnalysis_och_suspect (s : State) (o : OutletNo) (f : Analysis → Analysis) : (s.onAnalysis o f).och.suspect = s.och.suspect
    := rfl
@[simp] theorem State.onInput_sup (s : State) (i : InputNo) (f : Input → Input) : (s.onInput i f).sup = s.sup := rfl
@[simp] theorem State.onInput_modes (s : State) (i : InputNo) (f : Input → Input) : (s.onInput i f).modes = s.modes
    := rfl
@[simp] theorem State.onInput_clocks (s : State) (i : InputNo) (f : Input → Input) : (s.onInput i f).clocks = s.clocks
    := rfl
@[simp] theorem State.onInput_dies (s : State) (i : InputNo) (f : Input → Input) : (s.onInput i f).dies = s.dies := rfl
@[simp] theorem State.onInput_teal (s : State) (i : InputNo) (f : Input → Input) : (s.onInput i f).teal = s.teal := rfl
@[simp] theorem State.onInput_rus (s : State) (i : InputNo) (f : Input → Input) : (s.onInput i f).rus = s.rus := rfl
@[simp] theorem State.onInput_veh (s : State) (i : InputNo) (f : Input → Input) : (s.onInput i f).veh = s.veh := rfl
@[simp] theorem State.onInput_spe (s : State) (i : InputNo) (f : Input → Input) : (s.onInput i f).spe = s.spe := rfl
@[simp] theorem State.onInput_site (s : State) (i : InputNo) (f : Input → Input) : (s.onInput i f).site = s.site := rfl
@[simp] theorem State.onInput_rdr (s : State) (i : InputNo) (f : Input → Input) : (s.onInput i f).rdr = s.rdr := rfl
@[simp] theorem State.onInput_tag (s : State) (i : InputNo) (f : Input → Input) : (s.onInput i f).tag = s.tag := rfl
@[simp] theorem State.onInput_keys (s : State) (i : InputNo) (f : Input → Input) : (s.onInput i f).keys = s.keys := rfl
@[simp] theorem State.onInput_pair (s : State) (i : InputNo) (f : Input → Input) : (s.onInput i f).pair = s.pair := rfl
@[simp] theorem State.onInput_upd (s : State) (i : InputNo) (f : Input → Input) : (s.onInput i f).upd = s.upd := rfl
@[simp] theorem State.onInput_thm (s : State) (i : InputNo) (f : Input → Input) : (s.onInput i f).thm = s.thm := rfl
@[simp] theorem State.onInput_evt (s : State) (i : InputNo) (f : Input → Input) : (s.onInput i f).evt = s.evt := rfl
@[simp] theorem State.onInput_mbx (s : State) (i : InputNo) (f : Input → Input) : (s.onInput i f).mbx = s.mbx := rfl
@[simp] theorem State.onInput_mem (s : State) (i : InputNo) (f : Input → Input) : (s.onInput i f).mem = s.mem := rfl
@[simp] theorem State.onInput_reported (s : State) (i : InputNo) (f : Input → Input) : (s.onInput i f).reported = s.reported
    := rfl
@[simp] theorem State.onInput_free (s : State) (i : InputNo) (f : Input → Input) : (s.onInput i f).free = s.free := rfl
@[simp] theorem State.onInput_pending (s : State) (i : InputNo) (f : Input → Input) : (s.onInput i f).pending = s.pending
    := rfl
@[simp] theorem State.onInput_och_clock (s : State) (i : InputNo) (f : Input → Input) : (s.onInput i f).och.clock = s.och.clock
    := rfl
@[simp] theorem State.onInput_och_set (s : State) (i : InputNo) (f : Input → Input) : (s.onInput i f).och.set = s.och.set
    := rfl
@[simp] theorem State.onInput_och_input (s : State) (i : InputNo) (f : Input → Input) : (s.onInput i f).och.input = s.och.input.upd i f
    := rfl
@[simp] theorem State.onInput_och_lane (s : State) (i : InputNo) (f : Input → Input) : (s.onInput i f).och.lane = s.och.lane
    := rfl
@[simp] theorem State.onInput_och_factory (s : State) (i : InputNo) (f : Input → Input) : (s.onInput i f).och.factory = s.och.factory
    := rfl
@[simp] theorem State.onInput_och_laneRecord (s : State) (i : InputNo) (f : Input → Input) : (s.onInput i f).och.laneRecord = s.och.laneRecord
    := rfl
@[simp] theorem State.onInput_och_meter (s : State) (i : InputNo) (f : Input → Input) : (s.onInput i f).och.meter = s.och.meter
    := rfl
@[simp] theorem State.onInput_och_analysis (s : State) (i : InputNo) (f : Input → Input) : (s.onInput i f).och.analysis = s.och.analysis
    := rfl
@[simp] theorem State.onInput_och_ha (s : State) (i : InputNo) (f : Input → Input) : (s.onInput i f).och.ha = s.och.ha
    := rfl
@[simp] theorem State.onInput_och_haPend (s : State) (i : InputNo) (f : Input → Input) : (s.onInput i f).och.haPend = s.och.haPend
    := rfl
@[simp] theorem State.onInput_och_supra (s : State) (i : InputNo) (f : Input → Input) : (s.onInput i f).och.supra = s.och.supra
    := rfl
@[simp] theorem State.onInput_och_supraStep (s : State) (i : InputNo) (f : Input → Input) : (s.onInput i f).och.supraStep = s.och.supraStep
    := rfl
@[simp] theorem State.onInput_och_intervals (s : State) (i : InputNo) (f : Input → Input) : (s.onInput i f).och.intervals = s.och.intervals
    := rfl
@[simp] theorem State.onInput_och_snapshots (s : State) (i : InputNo) (f : Input → Input) : (s.onInput i f).och.snapshots = s.och.snapshots
    := rfl
@[simp] theorem State.onInput_och_log (s : State) (i : InputNo) (f : Input → Input) : (s.onInput i f).och.log = s.och.log
    := rfl
@[simp] theorem State.onInput_och_recs (s : State) (i : InputNo) (f : Input → Input) : (s.onInput i f).och.recs = s.och.recs
    := rfl
@[simp] theorem State.onInput_och_tariffs (s : State) (i : InputNo) (f : Input → Input) : (s.onInput i f).och.tariffs = s.och.tariffs
    := rfl
@[simp] theorem State.onInput_och_signing (s : State) (i : InputNo) (f : Input → Input) : (s.onInput i f).och.signing = s.och.signing
    := rfl
@[simp] theorem State.onInput_och_refusals (s : State) (i : InputNo) (f : Input → Input) : (s.onInput i f).och.refusals = s.och.refusals
    := rfl
@[simp] theorem State.onInput_och_display (s : State) (i : InputNo) (f : Input → Input) : (s.onInput i f).och.display = s.och.display
    := rfl
@[simp] theorem State.onInput_och_suspect (s : State) (i : InputNo) (f : Input → Input) : (s.onInput i f).och.suspect = s.och.suspect
    := rfl
@[simp] theorem State.onLane_sup (s : State) (l : LaneNo) (f : Lane → Lane) : (s.onLane l f).sup = s.sup := rfl
@[simp] theorem State.onLane_modes (s : State) (l : LaneNo) (f : Lane → Lane) : (s.onLane l f).modes = s.modes := rfl
@[simp] theorem State.onLane_clocks (s : State) (l : LaneNo) (f : Lane → Lane) : (s.onLane l f).clocks = s.clocks := rfl
@[simp] theorem State.onLane_dies (s : State) (l : LaneNo) (f : Lane → Lane) : (s.onLane l f).dies = s.dies := rfl
@[simp] theorem State.onLane_teal (s : State) (l : LaneNo) (f : Lane → Lane) : (s.onLane l f).teal = s.teal := rfl
@[simp] theorem State.onLane_rus (s : State) (l : LaneNo) (f : Lane → Lane) : (s.onLane l f).rus = s.rus := rfl
@[simp] theorem State.onLane_veh (s : State) (l : LaneNo) (f : Lane → Lane) : (s.onLane l f).veh = s.veh := rfl
@[simp] theorem State.onLane_spe (s : State) (l : LaneNo) (f : Lane → Lane) : (s.onLane l f).spe = s.spe := rfl
@[simp] theorem State.onLane_site (s : State) (l : LaneNo) (f : Lane → Lane) : (s.onLane l f).site = s.site := rfl
@[simp] theorem State.onLane_rdr (s : State) (l : LaneNo) (f : Lane → Lane) : (s.onLane l f).rdr = s.rdr := rfl
@[simp] theorem State.onLane_tag (s : State) (l : LaneNo) (f : Lane → Lane) : (s.onLane l f).tag = s.tag := rfl
@[simp] theorem State.onLane_keys (s : State) (l : LaneNo) (f : Lane → Lane) : (s.onLane l f).keys = s.keys := rfl
@[simp] theorem State.onLane_pair (s : State) (l : LaneNo) (f : Lane → Lane) : (s.onLane l f).pair = s.pair := rfl
@[simp] theorem State.onLane_upd (s : State) (l : LaneNo) (f : Lane → Lane) : (s.onLane l f).upd = s.upd := rfl
@[simp] theorem State.onLane_thm (s : State) (l : LaneNo) (f : Lane → Lane) : (s.onLane l f).thm = s.thm := rfl
@[simp] theorem State.onLane_evt (s : State) (l : LaneNo) (f : Lane → Lane) : (s.onLane l f).evt = s.evt := rfl
@[simp] theorem State.onLane_mbx (s : State) (l : LaneNo) (f : Lane → Lane) : (s.onLane l f).mbx = s.mbx := rfl
@[simp] theorem State.onLane_mem (s : State) (l : LaneNo) (f : Lane → Lane) : (s.onLane l f).mem = s.mem := rfl
@[simp] theorem State.onLane_reported (s : State) (l : LaneNo) (f : Lane → Lane) : (s.onLane l f).reported = s.reported
    := rfl
@[simp] theorem State.onLane_free (s : State) (l : LaneNo) (f : Lane → Lane) : (s.onLane l f).free = s.free := rfl
@[simp] theorem State.onLane_pending (s : State) (l : LaneNo) (f : Lane → Lane) : (s.onLane l f).pending = s.pending
    := rfl
@[simp] theorem State.onLane_och_clock (s : State) (l : LaneNo) (f : Lane → Lane) : (s.onLane l f).och.clock = s.och.clock
    := rfl
@[simp] theorem State.onLane_och_set (s : State) (l : LaneNo) (f : Lane → Lane) : (s.onLane l f).och.set = s.och.set
    := rfl
@[simp] theorem State.onLane_och_input (s : State) (l : LaneNo) (f : Lane → Lane) : (s.onLane l f).och.input = s.och.input
    := rfl
@[simp] theorem State.onLane_och_lane (s : State) (l : LaneNo) (f : Lane → Lane) : (s.onLane l f).och.lane = s.och.lane.upd l f
    := rfl
@[simp] theorem State.onLane_och_factory (s : State) (l : LaneNo) (f : Lane → Lane) : (s.onLane l f).och.factory = s.och.factory
    := rfl
@[simp] theorem State.onLane_och_laneRecord (s : State) (l : LaneNo) (f : Lane → Lane) : (s.onLane l f).och.laneRecord = s.och.laneRecord
    := rfl
@[simp] theorem State.onLane_och_meter (s : State) (l : LaneNo) (f : Lane → Lane) : (s.onLane l f).och.meter = s.och.meter
    := rfl
@[simp] theorem State.onLane_och_analysis (s : State) (l : LaneNo) (f : Lane → Lane) : (s.onLane l f).och.analysis = s.och.analysis
    := rfl
@[simp] theorem State.onLane_och_ha (s : State) (l : LaneNo) (f : Lane → Lane) : (s.onLane l f).och.ha = s.och.ha := rfl
@[simp] theorem State.onLane_och_haPend (s : State) (l : LaneNo) (f : Lane → Lane) : (s.onLane l f).och.haPend = s.och.haPend
    := rfl
@[simp] theorem State.onLane_och_supra (s : State) (l : LaneNo) (f : Lane → Lane) : (s.onLane l f).och.supra = s.och.supra
    := rfl
@[simp] theorem State.onLane_och_supraStep (s : State) (l : LaneNo) (f : Lane → Lane) : (s.onLane l f).och.supraStep = s.och.supraStep
    := rfl
@[simp] theorem State.onLane_och_intervals (s : State) (l : LaneNo) (f : Lane → Lane) : (s.onLane l f).och.intervals = s.och.intervals
    := rfl
@[simp] theorem State.onLane_och_snapshots (s : State) (l : LaneNo) (f : Lane → Lane) : (s.onLane l f).och.snapshots = s.och.snapshots
    := rfl
@[simp] theorem State.onLane_och_log (s : State) (l : LaneNo) (f : Lane → Lane) : (s.onLane l f).och.log = s.och.log
    := rfl
@[simp] theorem State.onLane_och_recs (s : State) (l : LaneNo) (f : Lane → Lane) : (s.onLane l f).och.recs = s.och.recs
    := rfl
@[simp] theorem State.onLane_och_tariffs (s : State) (l : LaneNo) (f : Lane → Lane) : (s.onLane l f).och.tariffs = s.och.tariffs
    := rfl
@[simp] theorem State.onLane_och_signing (s : State) (l : LaneNo) (f : Lane → Lane) : (s.onLane l f).och.signing = s.och.signing
    := rfl
@[simp] theorem State.onLane_och_refusals (s : State) (l : LaneNo) (f : Lane → Lane) : (s.onLane l f).och.refusals = s.och.refusals
    := rfl
@[simp] theorem State.onLane_och_display (s : State) (l : LaneNo) (f : Lane → Lane) : (s.onLane l f).och.display = s.och.display
    := rfl
@[simp] theorem State.onLane_och_suspect (s : State) (l : LaneNo) (f : Lane → Lane) : (s.onLane l f).och.suspect = s.och.suspect
    := rfl
@[simp] theorem State.onChan_sup (s : State) (c : ChanNo) (f : Channel → Channel) : (s.onChan c f).sup = s.sup := rfl
@[simp] theorem State.onChan_modes (s : State) (c : ChanNo) (f : Channel → Channel) : (s.onChan c f).modes = s.modes
    := rfl
@[simp] theorem State.onChan_clocks (s : State) (c : ChanNo) (f : Channel → Channel) : (s.onChan c f).clocks = s.clocks
    := rfl
@[simp] theorem State.onChan_dies (s : State) (c : ChanNo) (f : Channel → Channel) : (s.onChan c f).dies = s.dies := rfl
@[simp] theorem State.onChan_teal (s : State) (c : ChanNo) (f : Channel → Channel) : (s.onChan c f).teal = s.teal := rfl
@[simp] theorem State.onChan_och (s : State) (c : ChanNo) (f : Channel → Channel) : (s.onChan c f).och = s.och := rfl
@[simp] theorem State.onChan_rus (s : State) (c : ChanNo) (f : Channel → Channel) : (s.onChan c f).rus = s.rus := rfl
@[simp] theorem State.onChan_veh (s : State) (c : ChanNo) (f : Channel → Channel) : (s.onChan c f).veh = s.veh := rfl
@[simp] theorem State.onChan_site (s : State) (c : ChanNo) (f : Channel → Channel) : (s.onChan c f).site = s.site := rfl
@[simp] theorem State.onChan_rdr (s : State) (c : ChanNo) (f : Channel → Channel) : (s.onChan c f).rdr = s.rdr := rfl
@[simp] theorem State.onChan_tag (s : State) (c : ChanNo) (f : Channel → Channel) : (s.onChan c f).tag = s.tag := rfl
@[simp] theorem State.onChan_keys (s : State) (c : ChanNo) (f : Channel → Channel) : (s.onChan c f).keys = s.keys := rfl
@[simp] theorem State.onChan_pair (s : State) (c : ChanNo) (f : Channel → Channel) : (s.onChan c f).pair = s.pair := rfl
@[simp] theorem State.onChan_upd (s : State) (c : ChanNo) (f : Channel → Channel) : (s.onChan c f).upd = s.upd := rfl
@[simp] theorem State.onChan_thm (s : State) (c : ChanNo) (f : Channel → Channel) : (s.onChan c f).thm = s.thm := rfl
@[simp] theorem State.onChan_evt (s : State) (c : ChanNo) (f : Channel → Channel) : (s.onChan c f).evt = s.evt := rfl
@[simp] theorem State.onChan_mbx (s : State) (c : ChanNo) (f : Channel → Channel) : (s.onChan c f).mbx = s.mbx := rfl
@[simp] theorem State.onChan_mem (s : State) (c : ChanNo) (f : Channel → Channel) : (s.onChan c f).mem = s.mem := rfl
@[simp] theorem State.onChan_reported (s : State) (c : ChanNo) (f : Channel → Channel) : (s.onChan c f).reported = s.reported
    := rfl
@[simp] theorem State.onChan_free (s : State) (c : ChanNo) (f : Channel → Channel) : (s.onChan c f).free = s.free := rfl
@[simp] theorem State.onChan_pending (s : State) (c : ChanNo) (f : Channel → Channel) : (s.onChan c f).pending = s.pending
    := rfl
@[simp] theorem State.onChan_spe_chan (s : State) (c : ChanNo) (f : Channel → Channel) : (s.onChan c f).spe.chan = s.spe.chan.upd c f
    := rfl
@[simp] theorem State.onChan_spe_aggMax (s : State) (c : ChanNo) (f : Channel → Channel) : (s.onChan c f).spe.aggMax = s.spe.aggMax
    := rfl
@[simp] theorem State.onChan_spe_aggCap (s : State) (c : ChanNo) (f : Channel → Channel) : (s.onChan c f).spe.aggCap = s.spe.aggCap
    := rfl
@[simp] theorem State.onChan_spe_aggI (s : State) (c : ChanNo) (f : Channel → Channel) : (s.onChan c f).spe.aggI = s.spe.aggI
    := rfl
@[simp] theorem State.onChan_spe_overTicks (s : State) (c : ChanNo) (f : Channel → Channel) : (s.onChan c f).spe.overTicks = s.spe.overTicks
    := rfl
@[simp] theorem State.onChan_spe_restoreTicks (s : State) (c : ChanNo) (f : Channel → Channel) : (s.onChan c f).spe.restoreTicks = s.spe.restoreTicks
    := rfl
@[simp] theorem State.onChan_spe_cond (s : State) (c : ChanNo) (f : Channel → Channel) : (s.onChan c f).spe.cond = s.spe.cond
    := rfl
@[simp] theorem State.onChan_spe_flags (s : State) (c : ChanNo) (f : Channel → Channel) : (s.onChan c f).spe.flags = s.spe.flags
    := rfl
@[simp] theorem State.onChan_spe_absent (s : State) (c : ChanNo) (f : Channel → Channel) : (s.onChan c f).spe.absent = s.spe.absent
    := rfl
@[simp] theorem State.onChan_spe_pulse (s : State) (c : ChanNo) (f : Channel → Channel) : (s.onChan c f).spe.pulse = s.spe.pulse
    := rfl
@[simp] theorem State.onChan_spe_loaded (s : State) (c : ChanNo) (f : Channel → Channel) : (s.onChan c f).spe.loaded = s.spe.loaded
    := rfl
@[simp] theorem State.onChan_spe_imageWaits (s : State) (c : ChanNo) (f : Channel → Channel) : (s.onChan c f).spe.imageWaits = s.spe.imageWaits
    := rfl
@[simp] theorem State.onLink_sup (s : State) (l : LinkNo) (f : Link → Link) : (s.onLink l f).sup = s.sup := rfl
@[simp] theorem State.onLink_modes (s : State) (l : LinkNo) (f : Link → Link) : (s.onLink l f).modes = s.modes := rfl
@[simp] theorem State.onLink_clocks (s : State) (l : LinkNo) (f : Link → Link) : (s.onLink l f).clocks = s.clocks := rfl
@[simp] theorem State.onLink_dies (s : State) (l : LinkNo) (f : Link → Link) : (s.onLink l f).dies = s.dies := rfl
@[simp] theorem State.onLink_teal (s : State) (l : LinkNo) (f : Link → Link) : (s.onLink l f).teal = s.teal := rfl
@[simp] theorem State.onLink_och (s : State) (l : LinkNo) (f : Link → Link) : (s.onLink l f).och = s.och := rfl
@[simp] theorem State.onLink_rus (s : State) (l : LinkNo) (f : Link → Link) : (s.onLink l f).rus = s.rus := rfl
@[simp] theorem State.onLink_veh (s : State) (l : LinkNo) (f : Link → Link) : (s.onLink l f).veh = s.veh := rfl
@[simp] theorem State.onLink_spe (s : State) (l : LinkNo) (f : Link → Link) : (s.onLink l f).spe = s.spe := rfl
@[simp] theorem State.onLink_rdr (s : State) (l : LinkNo) (f : Link → Link) : (s.onLink l f).rdr = s.rdr := rfl
@[simp] theorem State.onLink_tag (s : State) (l : LinkNo) (f : Link → Link) : (s.onLink l f).tag = s.tag := rfl
@[simp] theorem State.onLink_keys (s : State) (l : LinkNo) (f : Link → Link) : (s.onLink l f).keys = s.keys := rfl
@[simp] theorem State.onLink_pair (s : State) (l : LinkNo) (f : Link → Link) : (s.onLink l f).pair = s.pair := rfl
@[simp] theorem State.onLink_upd (s : State) (l : LinkNo) (f : Link → Link) : (s.onLink l f).upd = s.upd := rfl
@[simp] theorem State.onLink_thm (s : State) (l : LinkNo) (f : Link → Link) : (s.onLink l f).thm = s.thm := rfl
@[simp] theorem State.onLink_evt (s : State) (l : LinkNo) (f : Link → Link) : (s.onLink l f).evt = s.evt := rfl
@[simp] theorem State.onLink_mbx (s : State) (l : LinkNo) (f : Link → Link) : (s.onLink l f).mbx = s.mbx := rfl
@[simp] theorem State.onLink_mem (s : State) (l : LinkNo) (f : Link → Link) : (s.onLink l f).mem = s.mem := rfl
@[simp] theorem State.onLink_reported (s : State) (l : LinkNo) (f : Link → Link) : (s.onLink l f).reported = s.reported
    := rfl
@[simp] theorem State.onLink_free (s : State) (l : LinkNo) (f : Link → Link) : (s.onLink l f).free = s.free := rfl
@[simp] theorem State.onLink_pending (s : State) (l : LinkNo) (f : Link → Link) : (s.onLink l f).pending = s.pending
    := rfl
@[simp] theorem State.onLink_site_word (s : State) (l : LinkNo) (f : Link → Link) : (s.onLink l f).site.word = s.site.word
    := rfl
@[simp] theorem State.onLink_site_link (s : State) (l : LinkNo) (f : Link → Link) : (s.onLink l f).site.link = s.site.link.upd l f
    := rfl
@[simp] theorem State.onLink_site_sfNum (s : State) (l : LinkNo) (f : Link → Link) : (s.onLink l f).site.sfNum = s.site.sfNum
    := rfl
@[simp] theorem State.onLink_site_mapEpoch (s : State) (l : LinkNo) (f : Link → Link) : (s.onLink l f).site.mapEpoch = s.site.mapEpoch
    := rfl
@[simp] theorem State.onLink_site_tbOk (s : State) (l : LinkNo) (f : Link → Link) : (s.onLink l f).site.tbOk = s.site.tbOk
    := rfl
@[simp] theorem State.onLink_site_txStop (s : State) (l : LinkNo) (f : Link → Link) : (s.onLink l f).site.txStop = s.site.txStop
    := rfl
@[simp] theorem State.onLink_site_hostStop (s : State) (l : LinkNo) (f : Link → Link) : (s.onLink l f).site.hostStop = s.site.hostStop
    := rfl
@[simp] theorem State.onLink_site_unit (s : State) (l : LinkNo) (f : Link → Link) : (s.onLink l f).site.unit = s.site.unit
    := rfl
@[simp] theorem State.onLink_site_unusable (s : State) (l : LinkNo) (f : Link → Link) : (s.onLink l f).site.unusable = s.site.unusable
    := rfl
@[simp] theorem State.onLink_site_noise (s : State) (l : LinkNo) (f : Link → Link) : (s.onLink l f).site.noise = s.site.noise
    := rfl
@[simp] theorem State.onLink_site_beacon2 (s : State) (l : LinkNo) (f : Link → Link) : (s.onLink l f).site.beacon2 = s.site.beacon2
    := rfl
@[simp] theorem State.onLink_site_beacon3 (s : State) (l : LinkNo) (f : Link → Link) : (s.onLink l f).site.beacon3 = s.site.beacon3
    := rfl
@[simp] theorem State.onLink_site_joined (s : State) (l : LinkNo) (f : Link → Link) : (s.onLink l f).site.joined = s.site.joined
    := rfl
@[simp] theorem State.onLink_site_joinIgnored (s : State) (l : LinkNo) (f : Link → Link) : (s.onLink l f).site.joinIgnored = s.site.joinIgnored
    := rfl
@[simp] theorem State.onLink_site_recompute (s : State) (l : LinkNo) (f : Link → Link) : (s.onLink l f).site.recompute = s.site.recompute
    := rfl
@[simp] theorem State.onLink_site_sent (s : State) (l : LinkNo) (f : Link → Link) : (s.onLink l f).site.sent = s.site.sent
    := rfl
@[simp] theorem State.onAerial_sup (s : State) (a : AerialNo) (f : Aerial → Aerial) : (s.onAerial a f).sup = s.sup
    := rfl
@[simp] theorem State.onAerial_modes (s : State) (a : AerialNo) (f : Aerial → Aerial) : (s.onAerial a f).modes = s.modes
    := rfl
@[simp] theorem State.onAerial_clocks (s : State) (a : AerialNo) (f : Aerial → Aerial) : (s.onAerial a f).clocks = s.clocks
    := rfl
@[simp] theorem State.onAerial_dies (s : State) (a : AerialNo) (f : Aerial → Aerial) : (s.onAerial a f).dies = s.dies
    := rfl
@[simp] theorem State.onAerial_teal (s : State) (a : AerialNo) (f : Aerial → Aerial) : (s.onAerial a f).teal = s.teal
    := rfl
@[simp] theorem State.onAerial_och (s : State) (a : AerialNo) (f : Aerial → Aerial) : (s.onAerial a f).och = s.och
    := rfl
@[simp] theorem State.onAerial_rus (s : State) (a : AerialNo) (f : Aerial → Aerial) : (s.onAerial a f).rus = s.rus
    := rfl
@[simp] theorem State.onAerial_veh (s : State) (a : AerialNo) (f : Aerial → Aerial) : (s.onAerial a f).veh = s.veh
    := rfl
@[simp] theorem State.onAerial_spe (s : State) (a : AerialNo) (f : Aerial → Aerial) : (s.onAerial a f).spe = s.spe
    := rfl
@[simp] theorem State.onAerial_site (s : State) (a : AerialNo) (f : Aerial → Aerial) : (s.onAerial a f).site = s.site
    := rfl
@[simp] theorem State.onAerial_tag (s : State) (a : AerialNo) (f : Aerial → Aerial) : (s.onAerial a f).tag = s.tag
    := rfl
@[simp] theorem State.onAerial_keys (s : State) (a : AerialNo) (f : Aerial → Aerial) : (s.onAerial a f).keys = s.keys
    := rfl
@[simp] theorem State.onAerial_pair (s : State) (a : AerialNo) (f : Aerial → Aerial) : (s.onAerial a f).pair = s.pair
    := rfl
@[simp] theorem State.onAerial_upd (s : State) (a : AerialNo) (f : Aerial → Aerial) : (s.onAerial a f).upd = s.upd
    := rfl
@[simp] theorem State.onAerial_thm (s : State) (a : AerialNo) (f : Aerial → Aerial) : (s.onAerial a f).thm = s.thm
    := rfl
@[simp] theorem State.onAerial_evt (s : State) (a : AerialNo) (f : Aerial → Aerial) : (s.onAerial a f).evt = s.evt
    := rfl
@[simp] theorem State.onAerial_mbx (s : State) (a : AerialNo) (f : Aerial → Aerial) : (s.onAerial a f).mbx = s.mbx
    := rfl
@[simp] theorem State.onAerial_mem (s : State) (a : AerialNo) (f : Aerial → Aerial) : (s.onAerial a f).mem = s.mem
    := rfl
@[simp] theorem State.onAerial_reported (s : State) (a : AerialNo) (f : Aerial → Aerial) : (s.onAerial a f).reported = s.reported
    := rfl
@[simp] theorem State.onAerial_free (s : State) (a : AerialNo) (f : Aerial → Aerial) : (s.onAerial a f).free = s.free
    := rfl
@[simp] theorem State.onAerial_pending (s : State) (a : AerialNo) (f : Aerial → Aerial) : (s.onAerial a f).pending = s.pending
    := rfl
@[simp] theorem State.onAerial_rdr_aerial (s : State) (a : AerialNo) (f : Aerial → Aerial) : (s.onAerial a f).rdr.aerial = s.rdr.aerial.upd a f
    := rfl
@[simp] theorem State.onAerial_rdr_port (s : State) (a : AerialNo) (f : Aerial → Aerial) : (s.onAerial a f).rdr.port = s.rdr.port
    := rfl
@[simp] theorem State.onAerial_rdr_auth (s : State) (a : AerialNo) (f : Aerial → Aerial) : (s.onAerial a f).rdr.auth = s.rdr.auth
    := rfl
@[simp] theorem State.onAerial_rdr_authPend (s : State) (a : AerialNo) (f : Aerial → Aerial) : (s.onAerial a f).rdr.authPend = s.rdr.authPend
    := rfl
@[simp] theorem State.onAerial_rdr_allow (s : State) (a : AerialNo) (f : Aerial → Aerial) : (s.onAerial a f).rdr.allow = s.rdr.allow
    := rfl
@[simp] theorem State.onSlot_sup (s : State) (n : Fin 256) (f : Slot → Slot) : (s.onSlot n f).sup = s.sup := rfl
@[simp] theorem State.onSlot_modes (s : State) (n : Fin 256) (f : Slot → Slot) : (s.onSlot n f).modes = s.modes := rfl
@[simp] theorem State.onSlot_clocks (s : State) (n : Fin 256) (f : Slot → Slot) : (s.onSlot n f).clocks = s.clocks
    := rfl
@[simp] theorem State.onSlot_dies (s : State) (n : Fin 256) (f : Slot → Slot) : (s.onSlot n f).dies = s.dies := rfl
@[simp] theorem State.onSlot_teal (s : State) (n : Fin 256) (f : Slot → Slot) : (s.onSlot n f).teal = s.teal := rfl
@[simp] theorem State.onSlot_och (s : State) (n : Fin 256) (f : Slot → Slot) : (s.onSlot n f).och = s.och := rfl
@[simp] theorem State.onSlot_rus (s : State) (n : Fin 256) (f : Slot → Slot) : (s.onSlot n f).rus = s.rus := rfl
@[simp] theorem State.onSlot_veh (s : State) (n : Fin 256) (f : Slot → Slot) : (s.onSlot n f).veh = s.veh := rfl
@[simp] theorem State.onSlot_spe (s : State) (n : Fin 256) (f : Slot → Slot) : (s.onSlot n f).spe = s.spe := rfl
@[simp] theorem State.onSlot_site (s : State) (n : Fin 256) (f : Slot → Slot) : (s.onSlot n f).site = s.site := rfl
@[simp] theorem State.onSlot_rdr (s : State) (n : Fin 256) (f : Slot → Slot) : (s.onSlot n f).rdr = s.rdr := rfl
@[simp] theorem State.onSlot_tag (s : State) (n : Fin 256) (f : Slot → Slot) : (s.onSlot n f).tag = s.tag := rfl
@[simp] theorem State.onSlot_pair (s : State) (n : Fin 256) (f : Slot → Slot) : (s.onSlot n f).pair = s.pair := rfl
@[simp] theorem State.onSlot_upd (s : State) (n : Fin 256) (f : Slot → Slot) : (s.onSlot n f).upd = s.upd := rfl
@[simp] theorem State.onSlot_thm (s : State) (n : Fin 256) (f : Slot → Slot) : (s.onSlot n f).thm = s.thm := rfl
@[simp] theorem State.onSlot_evt (s : State) (n : Fin 256) (f : Slot → Slot) : (s.onSlot n f).evt = s.evt := rfl
@[simp] theorem State.onSlot_mbx (s : State) (n : Fin 256) (f : Slot → Slot) : (s.onSlot n f).mbx = s.mbx := rfl
@[simp] theorem State.onSlot_mem (s : State) (n : Fin 256) (f : Slot → Slot) : (s.onSlot n f).mem = s.mem := rfl
@[simp] theorem State.onSlot_reported (s : State) (n : Fin 256) (f : Slot → Slot) : (s.onSlot n f).reported = s.reported
    := rfl
@[simp] theorem State.onSlot_free (s : State) (n : Fin 256) (f : Slot → Slot) : (s.onSlot n f).free = s.free := rfl
@[simp] theorem State.onSlot_pending (s : State) (n : Fin 256) (f : Slot → Slot) : (s.onSlot n f).pending = s.pending
    := rfl
@[simp] theorem State.onSlot_keys_slot (s : State) (n : Fin 256) (f : Slot → Slot) : (s.onSlot n f).keys.slot = s.keys.slot.upd n f
    := rfl
@[simp] theorem State.onSlot_keys_cell (s : State) (n : Fin 256) (f : Slot → Slot) : (s.onSlot n f).keys.cell = s.keys.cell
    := rfl
@[simp] theorem State.onSlot_keys_lifecycle (s : State) (n : Fin 256) (f : Slot → Slot) : (s.onSlot n f).keys.lifecycle = s.keys.lifecycle
    := rfl
@[simp] theorem State.onSlot_keys_returns (s : State) (n : Fin 256) (f : Slot → Slot) : (s.onSlot n f).keys.returns = s.keys.returns
    := rfl
@[simp] theorem State.onSlot_keys_debugOpen (s : State) (n : Fin 256) (f : Slot → Slot) : (s.onSlot n f).keys.debugOpen = s.keys.debugOpen
    := rfl
@[simp] theorem State.onSlot_keys_steps (s : State) (n : Fin 256) (f : Slot → Slot) : (s.onSlot n f).keys.steps = s.keys.steps
    := rfl
@[simp] theorem State.onSlot_keys_measure (s : State) (n : Fin 256) (f : Slot → Slot) : (s.onSlot n f).keys.measure = s.keys.measure
    := rfl
@[simp] theorem State.onSlot_keys_powerOnDue (s : State) (n : Fin 256) (f : Slot → Slot) : (s.onSlot n f).keys.powerOnDue = s.keys.powerOnDue
    := rfl
@[simp] theorem State.onSlot_keys_roots (s : State) (n : Fin 256) (f : Slot → Slot) : (s.onSlot n f).keys.roots = s.keys.roots
    := rfl
@[simp] theorem State.onSlot_keys_derived (s : State) (n : Fin 256) (f : Slot → Slot) : (s.onSlot n f).keys.derived = s.keys.derived
    := rfl
@[simp] theorem State.onImage_sup (s : State) (t : ImageNo) (f : Image → Image) : (s.onImage t f).sup = s.sup := rfl
@[simp] theorem State.onImage_modes (s : State) (t : ImageNo) (f : Image → Image) : (s.onImage t f).modes = s.modes
    := rfl
@[simp] theorem State.onImage_clocks (s : State) (t : ImageNo) (f : Image → Image) : (s.onImage t f).clocks = s.clocks
    := rfl
@[simp] theorem State.onImage_dies (s : State) (t : ImageNo) (f : Image → Image) : (s.onImage t f).dies = s.dies := rfl
@[simp] theorem State.onImage_teal (s : State) (t : ImageNo) (f : Image → Image) : (s.onImage t f).teal = s.teal := rfl
@[simp] theorem State.onImage_och (s : State) (t : ImageNo) (f : Image → Image) : (s.onImage t f).och = s.och := rfl
@[simp] theorem State.onImage_rus (s : State) (t : ImageNo) (f : Image → Image) : (s.onImage t f).rus = s.rus := rfl
@[simp] theorem State.onImage_veh (s : State) (t : ImageNo) (f : Image → Image) : (s.onImage t f).veh = s.veh := rfl
@[simp] theorem State.onImage_spe (s : State) (t : ImageNo) (f : Image → Image) : (s.onImage t f).spe = s.spe := rfl
@[simp] theorem State.onImage_site (s : State) (t : ImageNo) (f : Image → Image) : (s.onImage t f).site = s.site := rfl
@[simp] theorem State.onImage_rdr (s : State) (t : ImageNo) (f : Image → Image) : (s.onImage t f).rdr = s.rdr := rfl
@[simp] theorem State.onImage_tag (s : State) (t : ImageNo) (f : Image → Image) : (s.onImage t f).tag = s.tag := rfl
@[simp] theorem State.onImage_keys (s : State) (t : ImageNo) (f : Image → Image) : (s.onImage t f).keys = s.keys := rfl
@[simp] theorem State.onImage_pair (s : State) (t : ImageNo) (f : Image → Image) : (s.onImage t f).pair = s.pair := rfl
@[simp] theorem State.onImage_thm (s : State) (t : ImageNo) (f : Image → Image) : (s.onImage t f).thm = s.thm := rfl
@[simp] theorem State.onImage_evt (s : State) (t : ImageNo) (f : Image → Image) : (s.onImage t f).evt = s.evt := rfl
@[simp] theorem State.onImage_mbx (s : State) (t : ImageNo) (f : Image → Image) : (s.onImage t f).mbx = s.mbx := rfl
@[simp] theorem State.onImage_mem (s : State) (t : ImageNo) (f : Image → Image) : (s.onImage t f).mem = s.mem := rfl
@[simp] theorem State.onImage_reported (s : State) (t : ImageNo) (f : Image → Image) : (s.onImage t f).reported = s.reported
    := rfl
@[simp] theorem State.onImage_free (s : State) (t : ImageNo) (f : Image → Image) : (s.onImage t f).free = s.free := rfl
@[simp] theorem State.onImage_pending (s : State) (t : ImageNo) (f : Image → Image) : (s.onImage t f).pending = s.pending
    := rfl
@[simp] theorem State.onImage_upd_image (s : State) (t : ImageNo) (f : Image → Image) : (s.onImage t f).upd.image = s.upd.image.upd t f
    := rfl
@[simp] theorem State.onImage_upd_staging (s : State) (t : ImageNo) (f : Image → Image) : (s.onImage t f).upd.staging = s.upd.staging
    := rfl
@[simp] theorem State.onImage_upd_peerStaging (s : State) (t : ImageNo) (f : Image → Image) : (s.onImage t f).upd.peerStaging = s.upd.peerStaging
    := rfl
@[simp] theorem State.onImage_upd_handleSeq (s : State) (t : ImageNo) (f : Image → Image) : (s.onImage t f).upd.handleSeq = s.upd.handleSeq
    := rfl
@[simp] theorem State.onImage_upd_committed (s : State) (t : ImageNo) (f : Image → Image) : (s.onImage t f).upd.committed = s.upd.committed
    := rfl
@[simp] theorem State.onImage_upd_sessionSlot (s : State) (t : ImageNo) (f : Image → Image) : (s.onImage t f).upd.sessionSlot = s.upd.sessionSlot
    := rfl
@[simp] theorem State.onJob_sup (s : State) (j : JobNo) (f : Job → Job) : (s.onJob j f).sup = s.sup := rfl
@[simp] theorem State.onJob_modes (s : State) (j : JobNo) (f : Job → Job) : (s.onJob j f).modes = s.modes := rfl
@[simp] theorem State.onJob_clocks (s : State) (j : JobNo) (f : Job → Job) : (s.onJob j f).clocks = s.clocks := rfl
@[simp] theorem State.onJob_dies (s : State) (j : JobNo) (f : Job → Job) : (s.onJob j f).dies = s.dies := rfl
@[simp] theorem State.onJob_teal (s : State) (j : JobNo) (f : Job → Job) : (s.onJob j f).teal = s.teal := rfl
@[simp] theorem State.onJob_och (s : State) (j : JobNo) (f : Job → Job) : (s.onJob j f).och = s.och := rfl
@[simp] theorem State.onJob_rus (s : State) (j : JobNo) (f : Job → Job) : (s.onJob j f).rus = s.rus := rfl
@[simp] theorem State.onJob_veh (s : State) (j : JobNo) (f : Job → Job) : (s.onJob j f).veh = s.veh := rfl
@[simp] theorem State.onJob_spe (s : State) (j : JobNo) (f : Job → Job) : (s.onJob j f).spe = s.spe := rfl
@[simp] theorem State.onJob_site (s : State) (j : JobNo) (f : Job → Job) : (s.onJob j f).site = s.site := rfl
@[simp] theorem State.onJob_rdr (s : State) (j : JobNo) (f : Job → Job) : (s.onJob j f).rdr = s.rdr := rfl
@[simp] theorem State.onJob_tag (s : State) (j : JobNo) (f : Job → Job) : (s.onJob j f).tag = s.tag := rfl
@[simp] theorem State.onJob_keys (s : State) (j : JobNo) (f : Job → Job) : (s.onJob j f).keys = s.keys := rfl
@[simp] theorem State.onJob_pair (s : State) (j : JobNo) (f : Job → Job) : (s.onJob j f).pair = s.pair := rfl
@[simp] theorem State.onJob_upd (s : State) (j : JobNo) (f : Job → Job) : (s.onJob j f).upd = s.upd := rfl
@[simp] theorem State.onJob_evt (s : State) (j : JobNo) (f : Job → Job) : (s.onJob j f).evt = s.evt := rfl
@[simp] theorem State.onJob_mbx (s : State) (j : JobNo) (f : Job → Job) : (s.onJob j f).mbx = s.mbx := rfl
@[simp] theorem State.onJob_mem (s : State) (j : JobNo) (f : Job → Job) : (s.onJob j f).mem = s.mem := rfl
@[simp] theorem State.onJob_reported (s : State) (j : JobNo) (f : Job → Job) : (s.onJob j f).reported = s.reported
    := rfl
@[simp] theorem State.onJob_free (s : State) (j : JobNo) (f : Job → Job) : (s.onJob j f).free = s.free := rfl
@[simp] theorem State.onJob_pending (s : State) (j : JobNo) (f : Job → Job) : (s.onJob j f).pending = s.pending := rfl
@[simp] theorem State.onJob_thm_sensor (s : State) (j : JobNo) (f : Job → Job) : (s.onJob j f).thm.sensor = s.thm.sensor
    := rfl
@[simp] theorem State.onJob_thm_tc (s : State) (j : JobNo) (f : Job → Job) : (s.onJob j f).thm.tc = s.thm.tc := rfl
@[simp] theorem State.onJob_thm_tcMax (s : State) (j : JobNo) (f : Job → Job) : (s.onJob j f).thm.tcMax = s.thm.tcMax
    := rfl
@[simp] theorem State.onJob_thm_stage (s : State) (j : JobNo) (f : Job → Job) : (s.onJob j f).thm.stage = s.thm.stage
    := rfl
@[simp] theorem State.onJob_thm_stage6 (s : State) (j : JobNo) (f : Job → Job) : (s.onJob j f).thm.stage6 = s.thm.stage6
    := rfl
@[simp] theorem State.onJob_thm_overRange (s : State) (j : JobNo) (f : Job → Job) : (s.onJob j f).thm.overRange = s.thm.overRange
    := rfl
@[simp] theorem State.onJob_thm_nandHot (s : State) (j : JobNo) (f : Job → Job) : (s.onJob j f).thm.nandHot = s.thm.nandHot
    := rfl
@[simp] theorem State.onJob_thm_job (s : State) (j : JobNo) (f : Job → Job) : (s.onJob j f).thm.job = s.thm.job.upd j f
    := rfl
@[simp] theorem State.onJob_thm_stageTime (s : State) (j : JobNo) (f : Job → Job) : (s.onJob j f).thm.stageTime = s.thm.stageTime
    := rfl
@[simp] theorem State.onJob_thm_powerH (s : State) (j : JobNo) (f : Job → Job) : (s.onJob j f).thm.powerH = s.thm.powerH
    := rfl
@[simp] theorem State.onJob_thm_seconds (s : State) (j : JobNo) (f : Job → Job) : (s.onJob j f).thm.seconds = s.thm.seconds
    := rfl
@[simp] theorem State.onJob_thm_mgmtSpare (s : State) (j : JobNo) (f : Job → Job) : (s.onJob j f).thm.mgmtSpare = s.thm.mgmtSpare
    := rfl
@[simp] theorem State.onJob_thm_mgmtRetired (s : State) (j : JobNo) (f : Job → Job) : (s.onJob j f).thm.mgmtRetired = s.thm.mgmtRetired
    := rfl
@[simp] theorem State.onJob_thm_mgmtCore (s : State) (j : JobNo) (f : Job → Job) : (s.onJob j f).thm.mgmtCore = s.thm.mgmtCore
    := rfl
@[simp] theorem State.onJob_thm_framOchFree (s : State) (j : JobNo) (f : Job → Job) : (s.onJob j f).thm.framOchFree = s.thm.framOchFree
    := rfl
@[simp] theorem State.onJob_thm_framFesFree (s : State) (j : JobNo) (f : Job → Job) : (s.onJob j f).thm.framFesFree = s.thm.framFesFree
    := rfl
@[simp] theorem State.onJob_thm_nandFree (s : State) (j : JobNo) (f : Job → Job) : (s.onJob j f).thm.nandFree = s.thm.nandFree
    := rfl
@[simp] theorem State.onJob_thm_eraseMax (s : State) (j : JobNo) (f : Job → Job) : (s.onJob j f).thm.eraseMax = s.thm.eraseMax
    := rfl
@[simp] theorem State.onJob_thm_eraseMean (s : State) (j : JobNo) (f : Job → Job) : (s.onJob j f).thm.eraseMean = s.thm.eraseMean
    := rfl
@[simp] theorem State.onJob_thm_stepTarget (s : State) (j : JobNo) (f : Job → Job) : (s.onJob j f).thm.stepTarget = s.thm.stepTarget
    := rfl
@[simp] theorem State.onPort_sup (s : State) (p : PortNo) (f : Port → Port) : (s.onPort p f).sup = s.sup := rfl
@[simp] theorem State.onPort_modes (s : State) (p : PortNo) (f : Port → Port) : (s.onPort p f).modes = s.modes := rfl
@[simp] theorem State.onPort_clocks (s : State) (p : PortNo) (f : Port → Port) : (s.onPort p f).clocks = s.clocks := rfl
@[simp] theorem State.onPort_dies (s : State) (p : PortNo) (f : Port → Port) : (s.onPort p f).dies = s.dies := rfl
@[simp] theorem State.onPort_teal (s : State) (p : PortNo) (f : Port → Port) : (s.onPort p f).teal = s.teal := rfl
@[simp] theorem State.onPort_och (s : State) (p : PortNo) (f : Port → Port) : (s.onPort p f).och = s.och := rfl
@[simp] theorem State.onPort_rus (s : State) (p : PortNo) (f : Port → Port) : (s.onPort p f).rus = s.rus := rfl
@[simp] theorem State.onPort_veh (s : State) (p : PortNo) (f : Port → Port) : (s.onPort p f).veh = s.veh := rfl
@[simp] theorem State.onPort_spe (s : State) (p : PortNo) (f : Port → Port) : (s.onPort p f).spe = s.spe := rfl
@[simp] theorem State.onPort_site (s : State) (p : PortNo) (f : Port → Port) : (s.onPort p f).site = s.site := rfl
@[simp] theorem State.onPort_rdr (s : State) (p : PortNo) (f : Port → Port) : (s.onPort p f).rdr = s.rdr := rfl
@[simp] theorem State.onPort_tag (s : State) (p : PortNo) (f : Port → Port) : (s.onPort p f).tag = s.tag := rfl
@[simp] theorem State.onPort_keys (s : State) (p : PortNo) (f : Port → Port) : (s.onPort p f).keys = s.keys := rfl
@[simp] theorem State.onPort_pair (s : State) (p : PortNo) (f : Port → Port) : (s.onPort p f).pair = s.pair := rfl
@[simp] theorem State.onPort_upd (s : State) (p : PortNo) (f : Port → Port) : (s.onPort p f).upd = s.upd := rfl
@[simp] theorem State.onPort_thm (s : State) (p : PortNo) (f : Port → Port) : (s.onPort p f).thm = s.thm := rfl
@[simp] theorem State.onPort_evt (s : State) (p : PortNo) (f : Port → Port) : (s.onPort p f).evt = s.evt := rfl
@[simp] theorem State.onPort_mem (s : State) (p : PortNo) (f : Port → Port) : (s.onPort p f).mem = s.mem := rfl
@[simp] theorem State.onPort_reported (s : State) (p : PortNo) (f : Port → Port) : (s.onPort p f).reported = s.reported
    := rfl
@[simp] theorem State.onPort_free (s : State) (p : PortNo) (f : Port → Port) : (s.onPort p f).free = s.free := rfl
@[simp] theorem State.onPort_pending (s : State) (p : PortNo) (f : Port → Port) : (s.onPort p f).pending = s.pending
    := rfl
@[simp] theorem State.onPort_mbx_port (s : State) (p : PortNo) (f : Port → Port) : (s.onPort p f).mbx.port = s.mbx.port.upd p f
    := rfl
@[simp] theorem State.onPort_mbx_hbCount (s : State) (p : PortNo) (f : Port → Port) : (s.onPort p f).mbx.hbCount = s.mbx.hbCount
    := rfl
@[simp] theorem State.onPort_mbx_ready (s : State) (p : PortNo) (f : Port → Port) : (s.onPort p f).mbx.ready = s.mbx.ready
    := rfl
@[simp] theorem State.onPort_mbx_handover (s : State) (p : PortNo) (f : Port → Port) : (s.onPort p f).mbx.handover = s.mbx.handover
    := rfl
@[simp] theorem State.onPort_mbx_backlog (s : State) (p : PortNo) (f : Port → Port) : (s.onPort p f).mbx.backlog = s.mbx.backlog
    := rfl
@[simp] theorem State.onPort_mbx_busyMs (s : State) (p : PortNo) (f : Port → Port) : (s.onPort p f).mbx.busyMs = s.mbx.busyMs
    := rfl
@[simp] theorem State.onPort_mbx_qspiLvl (s : State) (p : PortNo) (f : Port → Port) : (s.onPort p f).mbx.qspiLvl = s.mbx.qspiLvl
    := rfl
@[simp] theorem State.onPort_mbx_fetched (s : State) (p : PortNo) (f : Port → Port) : (s.onPort p f).mbx.fetched = s.mbx.fetched
    := rfl
@[simp] theorem State.onPort_mbx_turn (s : State) (p : PortNo) (f : Port → Port) : (s.onPort p f).mbx.turn = s.mbx.turn
    := rfl
@[simp] theorem State.onPort_mbx_lrdSeq (s : State) (p : PortNo) (f : Port → Port) : (s.onPort p f).mbx.lrdSeq = s.mbx.lrdSeq
    := rfl
@[simp] theorem State.onPort_mbx_lrdLen (s : State) (p : PortNo) (f : Port → Port) : (s.onPort p f).mbx.lrdLen = s.mbx.lrdLen
    := rfl
@[simp] theorem State.onSource_sup (s : State) (k : SourceNo) (f : Source → Source) : (s.onSource k f).sup = s.sup
    := rfl
@[simp] theorem State.onSource_modes (s : State) (k : SourceNo) (f : Source → Source) : (s.onSource k f).modes = s.modes
    := rfl
@[simp] theorem State.onSource_clocks (s : State) (k : SourceNo) (f : Source → Source) : (s.onSource k f).clocks = s.clocks
    := rfl
@[simp] theorem State.onSource_dies (s : State) (k : SourceNo) (f : Source → Source) : (s.onSource k f).dies = s.dies
    := rfl
@[simp] theorem State.onSource_teal (s : State) (k : SourceNo) (f : Source → Source) : (s.onSource k f).teal = s.teal
    := rfl
@[simp] theorem State.onSource_och (s : State) (k : SourceNo) (f : Source → Source) : (s.onSource k f).och = s.och
    := rfl
@[simp] theorem State.onSource_rus (s : State) (k : SourceNo) (f : Source → Source) : (s.onSource k f).rus = s.rus
    := rfl
@[simp] theorem State.onSource_veh (s : State) (k : SourceNo) (f : Source → Source) : (s.onSource k f).veh = s.veh
    := rfl
@[simp] theorem State.onSource_spe (s : State) (k : SourceNo) (f : Source → Source) : (s.onSource k f).spe = s.spe
    := rfl
@[simp] theorem State.onSource_site (s : State) (k : SourceNo) (f : Source → Source) : (s.onSource k f).site = s.site
    := rfl
@[simp] theorem State.onSource_rdr (s : State) (k : SourceNo) (f : Source → Source) : (s.onSource k f).rdr = s.rdr
    := rfl
@[simp] theorem State.onSource_tag (s : State) (k : SourceNo) (f : Source → Source) : (s.onSource k f).tag = s.tag
    := rfl
@[simp] theorem State.onSource_keys (s : State) (k : SourceNo) (f : Source → Source) : (s.onSource k f).keys = s.keys
    := rfl
@[simp] theorem State.onSource_pair (s : State) (k : SourceNo) (f : Source → Source) : (s.onSource k f).pair = s.pair
    := rfl
@[simp] theorem State.onSource_upd (s : State) (k : SourceNo) (f : Source → Source) : (s.onSource k f).upd = s.upd
    := rfl
@[simp] theorem State.onSource_thm (s : State) (k : SourceNo) (f : Source → Source) : (s.onSource k f).thm = s.thm
    := rfl
@[simp] theorem State.onSource_mbx (s : State) (k : SourceNo) (f : Source → Source) : (s.onSource k f).mbx = s.mbx
    := rfl
@[simp] theorem State.onSource_mem (s : State) (k : SourceNo) (f : Source → Source) : (s.onSource k f).mem = s.mem
    := rfl
@[simp] theorem State.onSource_reported (s : State) (k : SourceNo) (f : Source → Source) : (s.onSource k f).reported = s.reported
    := rfl
@[simp] theorem State.onSource_free (s : State) (k : SourceNo) (f : Source → Source) : (s.onSource k f).free = s.free
    := rfl
@[simp] theorem State.onSource_pending (s : State) (k : SourceNo) (f : Source → Source) : (s.onSource k f).pending = s.pending
    := rfl
@[simp] theorem State.onSource_evt_src (s : State) (k : SourceNo) (f : Source → Source) : (s.onSource k f).evt.src = s.evt.src.upd k f
    := rfl
@[simp] theorem State.onSource_evt_seq (s : State) (k : SourceNo) (f : Source → Source) : (s.onSource k f).evt.seq = s.evt.seq
    := rfl
@[simp] theorem State.onSource_evt_routed (s : State) (k : SourceNo) (f : Source → Source) : (s.onSource k f).evt.routed = s.evt.routed
    := rfl
@[simp] theorem State.onSource_evt_dieQ (s : State) (k : SourceNo) (f : Source → Source) : (s.onSource k f).evt.dieQ = s.evt.dieQ
    := rfl
@[simp] theorem State.onSource_evt_log (s : State) (k : SourceNo) (f : Source → Source) : (s.onSource k f).evt.log = s.evt.log
    := rfl
@[simp] theorem State.onSource_evt_unflushed (s : State) (k : SourceNo) (f : Source → Source) : (s.onSource k f).evt.unflushed = s.evt.unflushed
    := rfl
@[simp] theorem State.onSource_evt_fseq (s : State) (k : SourceNo) (f : Source → Source) : (s.onSource k f).evt.fseq = s.evt.fseq
    := rfl
@[simp] theorem State.onSource_evt_marker (s : State) (k : SourceNo) (f : Source → Source) : (s.onSource k f).evt.marker = s.evt.marker
    := rfl
@[simp] theorem State.onSource_evt_bundle (s : State) (k : SourceNo) (f : Source → Source) : (s.onSource k f).evt.bundle = s.evt.bundle
    := rfl

end Sys2Proof.Machine
end

