-- ==== Sys2Proof/Laws/Tab.lean ====
section
/-! SUPPORT. What an entry of a table is after each table operation. -/

namespace Sys2Proof

@[simp] theorem Tab.at_put {α : Type} {n : Nat} (t : Tab α n) (i j : Fin n) (a : α) :
    (t.put i a).at j = if i = j then a else t.at j := by
  simp [Tab.at, Tab.put, Vector.getElem_set, Fin.ext_iff]

@[simp] theorem Tab.at_upd {α : Type} {n : Nat} (t : Tab α n) (i j : Fin n) (f : α → α) :
    (t.upd i f).at j = if i = j then f (t.at j) else t.at j := by
  by_cases h : i = j
  · subst h
    simp [Tab.upd]
  · simp [Tab.upd, h]

@[simp] theorem Tab.at_all {α : Type} (n : Nat) (a : α) (i : Fin n) : (Tab.all n a).at i = a := by
  simp [Tab.at, Tab.all]

@[simp] theorem Tab.at_each {α β : Type} {n : Nat} (f : α → β) (t : Tab α n) (i : Fin n) : (t.each f).at i = f (t.at i) := by
  simp [Tab.at, Tab.each, Vector.getElem_toList]

theorem numbered_getElem {α β : Type} (f : Nat → α → β) :
    ∀ (l : List α) (k i : Nat) (h : i < (numbered f k l).length),
      (numbered f k l)[i] = f (k + i) (l[i]'(by rwa [numbered_length] at h))
  | [], _, _, h => absurd h (by simp [numbered])
  | _ :: _, _, 0, _ => by simp [numbered]
  | _ :: as, k, i + 1, h => by
    simp only [numbered, List.getElem_cons_succ]
    rw [numbered_getElem f as (k + 1) i]
    congr 1
    omega

@[simp] theorem Tab.at_mapN {α β : Type} {n : Nat} (f : Nat → α → β) (t : Tab α n) (i : Fin n) :
    (t.mapN f).at i = f i.val (t.at i) := by
  simp [Tab.at, Tab.mapN, numbered_getElem]

end Sys2Proof
end

