-- ==== Sys2Proof/Laws/Within.lean ====
section
/-! SUPPORT. What an operation may do to the state at most: the relation `Within`, and how it passes through sequences,
choices and repetitions. -/

set_option linter.unusedTactic false
set_option linter.unreachableTactic false
set_option linter.unusedVariables false

namespace Sys2Proof.Machine

/-- Every part of one mask is in the other. -/
def Sub (a b : Nat) : Prop := ∀ k, a.testBit k = true → b.testBit k = true

theorem Sub.of (a b : Nat) (h : a ||| b = b) : Sub a b := by
  intro k hk
  rw [← h, Nat.testBit_or, hk]; rfl

theorem Sub.trans {a b c : Nat} (h : Sub a b) (g : Sub b c) : Sub a c := fun k hk => g k (h k hk)

/-- What an operation may do, `s` before and `t` after: only the parts whose bits the mask `m` holds change, the queue
never
changes, no free value is used twice, every memory keeps its canonical form, an outlet in Lockout stays off, one-time
steps are
only spent, returns only counted, Ended and Killed are final, and Lockout ends only where the mask has the bit of a
release.
The bits: 0 sup, 1 modes, 2 clocks, 3 dies, 4 teal, 5 legalClock, 6 settings, 7 inputs, 8 meters, 9 windows, 10
intervals, 11 log, 12 records, 13 tariffs, 14 ochreRest, 15 display, 16 guards, 17 pairs, 18 brakes, 19 russetRest, 20
pilots, 21 sessions, 22 vehicleRest, 23 spelt, 24 siteLine, 25 readers, 26 tag, 27 slots, 28 lifecycle, 29 steps, 30
keysRest, 31 peer, 32 images, 33 thermal, 34 events, 35 mailbox, 36 pool, 37 pads, 38 vault, 39 memRest, 40 reported,
41 free, 42 a release from Lockout. -/
structure Within (m : Nat) (s t : State) : Prop where
  pending : t.pending = s.pending
  freeUp : s.free ≤ t.free
  mem : s.memOk → t.memOk
  lock : s.lockSafe → t.lockSafe
  stepsDown : ∀ k, t.keys.steps.at k ≤ s.keys.steps.at k
  returnsUp : s.keys.returns ≤ t.keys.returns
  ended : s.keys.lifecycle = .ended → t.keys.lifecycle = .ended
  killed : s.tag.state = .killed → t.tag.state = .killed
  locked : (∀ o, (s.rus.outlet.at o).fault.classP = true → (t.rus.outlet.at o).fault.classP = true) ∨ m.testBit 42 = true
  supKept : t.sup = s.sup ∨ m.testBit 0 = true
  modesKept : t.modes = s.modes ∨ m.testBit 1 = true
  clocksKept : t.clocks = s.clocks ∨ m.testBit 2 = true
  diesKept : t.dies = s.dies ∨ m.testBit 3 = true
  tealKept : t.teal = s.teal ∨ m.testBit 4 = true
  legalClockKept : t.och.clock = s.och.clock ∨ m.testBit 5 = true
  settingsKept : t.och.set = s.och.set ∨ m.testBit 6 = true
  inputsKept : (t.och.input, t.och.lane, t.och.laneRecord) = (s.och.input, s.och.lane,
      s.och.laneRecord) ∨ m.testBit 7 = true
  metersKept : t.och.meter = s.och.meter ∨ m.testBit 8 = true
  windowsKept : (t.och.analysis, t.och.ha, t.och.haPend, t.och.supra, t.och.supraStep) = (s.och.analysis, s.och.ha,
      s.och.haPend, s.och.supra, s.och.supraStep) ∨ m.testBit 9 = true
  intervalsKept : (t.och.intervals, t.och.snapshots) = (s.och.intervals, s.och.snapshots) ∨ m.testBit 10 = true
  logKept : t.och.log = s.och.log ∨ m.testBit 11 = true
  recordsKept : t.och.recs = s.och.recs ∨ m.testBit 12 = true
  tariffsKept : t.och.tariffs = s.och.tariffs ∨ m.testBit 13 = true
  ochreRestKept : (t.och.signing, t.och.refusals, t.och.suspect, t.och.factory) = (s.och.signing, s.och.refusals,
      s.och.suspect, s.och.factory) ∨ m.testBit 14 = true
  displayKept : t.och.display = s.och.display ∨ m.testBit 15 = true
  guardsKept : t.rus.outlet = s.rus.outlet ∨ m.testBit 16 = true
  pairsKept : t.rus.pair = s.rus.pair ∨ m.testBit 17 = true
  brakesKept : t.rus.brake = s.rus.brake ∨ m.testBit 18 = true
  russetRestKept : (t.rus.estop, t.rus.estopCfg, t.rus.outCfg, t.rus.fast, t.rus.stream, t.rus.lease, t.rus.cause,
      t.rus.pend, t.rus.hubHeld, t.rus.outHeld, t.rus.capture, t.rus.ceStep) = (s.rus.estop, s.rus.estopCfg, s.rus.outCfg, s.rus.fast, s.rus.stream, s.rus.lease, s.rus.cause, s.rus.pend, s.rus.hubHeld, s.rus.outHeld, s.rus.capture, s.rus.ceStep) ∨ m.testBit 19 = true
  pilotsKept : t.veh.pilot = s.veh.pilot ∨ m.testBit 20 = true
  sessionsKept : t.veh.session = s.veh.session ∨ m.testBit 21 = true
  vehicleRestKept : (t.veh.slac, t.veh.ha, t.veh.haPend, t.veh.grant, t.veh.core, t.veh.carries, t.veh.spare,
      t.veh.keyMap, t.veh.module, t.veh.reqId, t.veh.policies, t.veh.expired, t.veh.expiredCerts, t.veh.toConfirm, t.veh.txStopped, t.veh.lateAnswers, t.veh.proxMoves, t.veh.chains) = (s.veh.slac, s.veh.ha, s.veh.haPend, s.veh.grant, s.veh.core, s.veh.carries, s.veh.spare, s.veh.keyMap, s.veh.module, s.veh.reqId, s.veh.policies, s.veh.expired, s.veh.expiredCerts, s.veh.toConfirm, s.veh.txStopped, s.veh.lateAnswers, s.veh.proxMoves, s.veh.chains) ∨ m.testBit 22 = true
  speltKept : t.spe = s.spe ∨ m.testBit 23 = true
  siteLineKept : t.site = s.site ∨ m.testBit 24 = true
  readersKept : t.rdr = s.rdr ∨ m.testBit 25 = true
  tagKept : t.tag = s.tag ∨ m.testBit 26 = true
  slotsKept : (t.keys.slot, t.keys.cell) = (s.keys.slot, s.keys.cell) ∨ m.testBit 27 = true
  lifecycleKept : (t.keys.lifecycle, t.keys.returns) = (s.keys.lifecycle, s.keys.returns) ∨ m.testBit 28 = true
  stepsKept : t.keys.steps = s.keys.steps ∨ m.testBit 29 = true
  keysRestKept : (t.keys.debugOpen, t.keys.measure, t.keys.powerOnDue, t.keys.roots, t.keys.derived) =
      (s.keys.debugOpen, s.keys.measure, s.keys.powerOnDue, s.keys.roots, s.keys.derived) ∨ m.testBit 30 = true
  peerKept : t.pair = s.pair ∨ m.testBit 31 = true
  imagesKept : t.upd = s.upd ∨ m.testBit 32 = true
  thermalKept : t.thm = s.thm ∨ m.testBit 33 = true
  eventsKept : t.evt = s.evt ∨ m.testBit 34 = true
  mailboxKept : t.mbx = s.mbx ∨ m.testBit 35 = true
  poolKept : (t.mem.pool, t.mem.badWords) = (s.mem.pool, s.mem.badWords) ∨ m.testBit 36 = true
  padsKept : t.mem.pads = s.mem.pads ∨ m.testBit 37 = true
  vaultKept : (t.mem.vault, t.mem.wiping) = (s.mem.vault, s.mem.wiping) ∨ m.testBit 38 = true
  memRestKept : (t.mem.bankMap, t.mem.corrected, t.mem.correctedAll, t.mem.copies, t.mem.conflicts, t.mem.returned,
      t.mem.lastServed, t.mem.unitFixed) = (s.mem.bankMap, s.mem.corrected, s.mem.correctedAll, s.mem.copies, s.mem.conflicts, s.mem.returned, s.mem.lastServed, s.mem.unitFixed) ∨ m.testBit 39 = true
  reportedKept : t.reported = s.reported ∨ m.testBit 40 = true
  freeKept : t.free = s.free ∨ m.testBit 41 = true

theorem Within.refl (m : Nat) (s : State) : Within m s s := by
  constructor <;> first
    | exact Nat.le_refl _ | (intro; exact Nat.le_refl _) | exact id | exact Or.inl (fun _ => id) | exact Or.inl rfl
    | rfl

theorem eqTrans {α : Type} {a b c : α} {p : Prop} (h : a = b ∨ p) (g : c = a ∨ p) : c = b ∨ p := by
  rcases h with h | h
  · rcases g with g | g
    · exact .inl (g.trans h)
    · exact .inr g
  · exact .inr h

theorem impTrans {α : Type} {a b c : α → Prop} {p : Prop} (h : (∀ x, a x → b x) ∨ p) (g : (∀ x, b x → c x) ∨ p) :
    (∀ x, a x → c x) ∨ p := by
  rcases h with h | h
  · rcases g with g | g
    · exact .inl fun x y => g x (h x y)
    · exact .inr g
  · exact .inr h

theorem Within.trans {m : Nat} {s t u : State} (h : Within m s t) (g : Within m t u) : Within m s u :=
  ⟨g.pending.trans h.pending, Nat.le_trans h.freeUp g.freeUp, fun x => g.mem (h.mem x), fun x => g.lock (h.lock x),
    fun k => Nat.le_trans (g.stepsDown k) (h.stepsDown k), Nat.le_trans h.returnsUp g.returnsUp, fun x => g.ended (h.ended x),
    fun x => g.killed (h.killed x), impTrans h.locked g.locked,
    eqTrans h.supKept g.supKept, eqTrans h.modesKept g.modesKept, eqTrans h.clocksKept g.clocksKept, eqTrans h.diesKept g.diesKept, eqTrans h.tealKept g.tealKept, eqTrans h.legalClockKept g.legalClockKept, eqTrans h.settingsKept g.settingsKept, eqTrans h.inputsKept g.inputsKept, eqTrans h.metersKept g.metersKept, eqTrans h.windowsKept g.windowsKept, eqTrans h.intervalsKept g.intervalsKept, eqTrans h.logKept g.logKept, eqTrans h.recordsKept g.recordsKept, eqTrans h.tariffsKept g.tariffsKept, eqTrans h.ochreRestKept g.ochreRestKept, eqTrans h.displayKept g.displayKept, eqTrans h.guardsKept g.guardsKept, eqTrans h.pairsKept g.pairsKept, eqTrans h.brakesKept g.brakesKept, eqTrans h.russetRestKept g.russetRestKept, eqTrans h.pilotsKept g.pilotsKept, eqTrans h.sessionsKept g.sessionsKept, eqTrans h.vehicleRestKept g.vehicleRestKept, eqTrans h.speltKept g.speltKept, eqTrans h.siteLineKept g.siteLineKept, eqTrans h.readersKept g.readersKept, eqTrans h.tagKept g.tagKept, eqTrans h.slotsKept g.slotsKept, eqTrans h.lifecycleKept g.lifecycleKept, eqTrans h.stepsKept g.stepsKept, eqTrans h.keysRestKept g.keysRestKept, eqTrans h.peerKept g.peerKept, eqTrans h.imagesKept g.imagesKept, eqTrans h.thermalKept g.thermalKept, eqTrans h.eventsKept g.eventsKept, eqTrans h.mailboxKept g.mailboxKept, eqTrans h.poolKept g.poolKept, eqTrans h.padsKept g.padsKept, eqTrans h.vaultKept g.vaultKept, eqTrans h.memRestKept g.memRestKept, eqTrans h.reportedKept g.reportedKept, eqTrans h.freeKept g.freeKept⟩

theorem within_mk {m : Nat} {s t : State}
    {a0 a1 a2 a3 a4 a5 a6 a7 a8 a9 a10 a11 a12 a13 a14 a15 a16 a17 a18 a19 a20} (h : Within m s t)
    (hp : memWf t.mem.pool = true → memWf a18.pool = true)
    (hv : memWf t.mem.vault = true → memWf a18.vault = true)
    (ht : memWf t.tag.mem = true → memWf a11.mem = true)
    (hd : (∀ p, memWf (t.mem.pads.at p).bytes = true) → ∀ p, memWf (a18.pads.at p).bytes = true)
    (hl : (∀ o, (t.rus.outlet.at o).fault.classP = true →
        (t.rus.pair.at (coilOf o)).cmd = false ∧ (t.rus.pair.at (coilOf o)).turn = .idle) →
      ∀ o, (a6.outlet.at o).fault.classP = true → (a6.pair.at (coilOf o)).cmd = false ∧
        (a6.pair.at (coilOf o)).turn = .idle)
    (hs : ∀ k, a12.steps.at k ≤ t.keys.steps.at k)
    (hr : t.keys.returns ≤ a12.returns)
    (he : t.keys.lifecycle = .ended → a12.lifecycle = .ended)
    (hk : t.tag.state = .killed → a11.state = .killed)
    (ha : (∀ o, (t.rus.outlet.at o).fault.classP = true → (a6.outlet.at o).fault.classP = true) ∨ m.testBit 42 = true)
    (hf : t.free ≤ a20)
    (h0 : a0 = t.sup ∨ m.testBit 0 = true)
    (h1 : a1 = t.modes ∨ m.testBit 1 = true)
    (h2 : a2 = t.clocks ∨ m.testBit 2 = true)
    (h3 : a3 = t.dies ∨ m.testBit 3 = true)
    (h4 : a4 = t.teal ∨ m.testBit 4 = true)
    (h5 : a5.clock = t.och.clock ∨ m.testBit 5 = true)
    (h6 : a5.set = t.och.set ∨ m.testBit 6 = true)
    (h7 : (a5.input, a5.lane, a5.laneRecord) = (t.och.input, t.och.lane, t.och.laneRecord) ∨ m.testBit 7 = true)
    (h8 : a5.meter = t.och.meter ∨ m.testBit 8 = true)
    (h9 : (a5.analysis, a5.ha, a5.haPend, a5.supra, a5.supraStep) = (t.och.analysis, t.och.ha, t.och.haPend,
      t.och.supra, t.och.supraStep) ∨ m.testBit 9 = true)
    (h10 : (a5.intervals, a5.snapshots) = (t.och.intervals, t.och.snapshots) ∨ m.testBit 10 = true)
    (h11 : a5.log = t.och.log ∨ m.testBit 11 = true)
    (h12 : a5.recs = t.och.recs ∨ m.testBit 12 = true)
    (h13 : a5.tariffs = t.och.tariffs ∨ m.testBit 13 = true)
    (h14 : (a5.signing, a5.refusals, a5.suspect, a5.factory) = (t.och.signing, t.och.refusals, t.och.suspect,
      t.och.factory) ∨ m.testBit 14 = true)
    (h15 : a5.display = t.och.display ∨ m.testBit 15 = true)
    (h16 : a6.outlet = t.rus.outlet ∨ m.testBit 16 = true)
    (h17 : a6.pair = t.rus.pair ∨ m.testBit 17 = true)
    (h18 : a6.brake = t.rus.brake ∨ m.testBit 18 = true)
    (h19 : (a6.estop, a6.estopCfg, a6.outCfg, a6.fast, a6.stream, a6.lease, a6.cause, a6.pend, a6.hubHeld,
      a6.outHeld, a6.capture, a6.ceStep) = (t.rus.estop, t.rus.estopCfg, t.rus.outCfg, t.rus.fast, t.rus.stream, t.rus.lease, t.rus.cause, t.rus.pend, t.rus.hubHeld, t.rus.outHeld, t.rus.capture, t.rus.ceStep) ∨ m.testBit 19 = true)
    (h20 : a7.pilot = t.veh.pilot ∨ m.testBit 20 = true)
    (h21 : a7.session = t.veh.session ∨ m.testBit 21 = true)
    (h22 : (a7.slac, a7.ha, a7.haPend, a7.grant, a7.core, a7.carries, a7.spare, a7.keyMap, a7.module, a7.reqId,
      a7.policies, a7.expired, a7.expiredCerts, a7.toConfirm, a7.txStopped, a7.lateAnswers, a7.proxMoves, a7.chains) = (t.veh.slac, t.veh.ha, t.veh.haPend, t.veh.grant, t.veh.core, t.veh.carries, t.veh.spare, t.veh.keyMap, t.veh.module, t.veh.reqId, t.veh.policies, t.veh.expired, t.veh.expiredCerts, t.veh.toConfirm, t.veh.txStopped, t.veh.lateAnswers, t.veh.proxMoves, t.veh.chains) ∨ m.testBit 22 = true)
    (h23 : a8 = t.spe ∨ m.testBit 23 = true)
    (h24 : a9 = t.site ∨ m.testBit 24 = true)
    (h25 : a10 = t.rdr ∨ m.testBit 25 = true)
    (h26 : a11 = t.tag ∨ m.testBit 26 = true)
    (h27 : (a12.slot, a12.cell) = (t.keys.slot, t.keys.cell) ∨ m.testBit 27 = true)
    (h28 : (a12.lifecycle, a12.returns) = (t.keys.lifecycle, t.keys.returns) ∨ m.testBit 28 = true)
    (h29 : a12.steps = t.keys.steps ∨ m.testBit 29 = true)
    (h30 : (a12.debugOpen, a12.measure, a12.powerOnDue, a12.roots, a12.derived) = (t.keys.debugOpen, t.keys.measure,
      t.keys.powerOnDue, t.keys.roots, t.keys.derived) ∨ m.testBit 30 = true)
    (h31 : a13 = t.pair ∨ m.testBit 31 = true)
    (h32 : a14 = t.upd ∨ m.testBit 32 = true)
    (h33 : a15 = t.thm ∨ m.testBit 33 = true)
    (h34 : a16 = t.evt ∨ m.testBit 34 = true)
    (h35 : a17 = t.mbx ∨ m.testBit 35 = true)
    (h36 : (a18.pool, a18.badWords) = (t.mem.pool, t.mem.badWords) ∨ m.testBit 36 = true)
    (h37 : a18.pads = t.mem.pads ∨ m.testBit 37 = true)
    (h38 : (a18.vault, a18.wiping) = (t.mem.vault, t.mem.wiping) ∨ m.testBit 38 = true)
    (h39 : (a18.bankMap, a18.corrected, a18.correctedAll, a18.copies, a18.conflicts, a18.returned, a18.lastServed,
      a18.unitFixed) = (t.mem.bankMap, t.mem.corrected, t.mem.correctedAll, t.mem.copies, t.mem.conflicts, t.mem.returned, t.mem.lastServed, t.mem.unitFixed) ∨ m.testBit 39 = true)
    (h40 : a19 = t.reported ∨ m.testBit 40 = true)
    (h41 : a20 = t.free ∨ m.testBit 41 = true) :
    Within m s (State.mk a0 a1 a2 a3 a4 a5 a6 a7 a8 a9 a10 a11 a12 a13 a14 a15 a16 a17 a18 a19 a20 t.pending) :=
  h.trans ⟨rfl, hf, fun x => ⟨hp x.1, hv x.2.1, ht x.2.2.1, hd x.2.2.2⟩, hl, hs, hr, he, hk, ha, h0, h1, h2, h3, h4, h5, h6, h7, h8, h9, h10, h11, h12, h13, h14, h15, h16, h17, h18, h19, h20, h21, h22, h23, h24, h25, h26, h27, h28, h29, h30, h31, h32, h33, h34, h35, h36, h37, h38, h39, h40, h41⟩

theorem Sub.or {a b k : Nat} (h : a ||| b = b) {p : Prop} (g : p ∨ a.testBit k = true) : p ∨ b.testBit k = true :=
  g.imp id (Sub.of a b h k)

theorem Within.mono {a b : Nat} {s t : State} (h : Within a s t) (e : a ||| b = b) : Within b s t :=
  ⟨h.pending, h.freeUp, h.mem, h.lock, h.stepsDown, h.returnsUp, h.ended, h.killed, Sub.or e h.locked,
    Sub.or e h.supKept, Sub.or e h.modesKept, Sub.or e h.clocksKept, Sub.or e h.diesKept, Sub.or e h.tealKept, Sub.or e h.legalClockKept, Sub.or e h.settingsKept, Sub.or e h.inputsKept, Sub.or e h.metersKept, Sub.or e h.windowsKept, Sub.or e h.intervalsKept, Sub.or e h.logKept, Sub.or e h.recordsKept, Sub.or e h.tariffsKept, Sub.or e h.ochreRestKept, Sub.or e h.displayKept, Sub.or e h.guardsKept, Sub.or e h.pairsKept, Sub.or e h.brakesKept, Sub.or e h.russetRestKept, Sub.or e h.pilotsKept, Sub.or e h.sessionsKept, Sub.or e h.vehicleRestKept, Sub.or e h.speltKept, Sub.or e h.siteLineKept, Sub.or e h.readersKept, Sub.or e h.tagKept, Sub.or e h.slotsKept, Sub.or e h.lifecycleKept, Sub.or e h.stepsKept, Sub.or e h.keysRestKept, Sub.or e h.peerKept, Sub.or e h.imagesKept, Sub.or e h.thermalKept, Sub.or e h.eventsKept, Sub.or e h.mailboxKept, Sub.or e h.poolKept, Sub.or e h.padsKept, Sub.or e h.vaultKept, Sub.or e h.memRestKept, Sub.or e h.reportedKept, Sub.or e h.freeKept⟩

/-- One operation more. -/
theorem Within.go {a b : Nat} {s t u : State} (h : Within a t u) (g : Within b s t) (e : a ||| b = b) : Within b s u :=
  g.trans (h.mono e)

theorem Within.via {m : Nat} {s t u : State} (h : Within m t u) (g : Within m s t) : Within m s u := g.trans h


theorem within_ite {m : Nat} {s a b : State} {c : Prop} [Decidable c] (h1 : Within m s a) (h2 : Within m s b) :
    Within m s (if c then a else b) := by split <;> assumption

theorem within_ite2 {α : Type} {m : Nat} {s : State} {a b : α × State} {c : Prop} [Decidable c] (h1 : Within m s a.2)
    (h2 : Within m s b.2) : Within m s (if c then a else b).2 := by split <;> assumption

theorem within_foldl {α : Type} {m : Nat} {s : State} {f : State → α → State} (hf : ∀ t a, Within m s t → Within m s
    (f t a)) :
    ∀ (l : List α) {t : State}, Within m s t → Within m s (l.foldl f t)
  | [], _, h => h
  | a :: l, t, h => within_foldl hf l (hf t a h)

theorem lorTrans {a b c : Nat} (h : a ||| b = b) (e : b ||| c = c) : a ||| c = c := by
  rw [← e, ← Nat.lor_assoc, h]


/-- The flag of Lockout keeps its value. -/
theorem onGuard_at {s : State} {o : OutletNo} {f : Guard → Guard}
    (hf : (f (s.rus.outlet.at o)).fault.classP = (s.rus.outlet.at o).fault.classP) : Within 65536 s
      (s.onGuard o f) := by
  have key : ∀ i, ((s.rus.outlet.upd o f).at i).fault.classP = (s.rus.outlet.at i).fault.classP := by
    intro i
    rw [Tab.at_upd]
    split
    · rename_i e
      subst e
      exact hf
    · rfl
  unfold State.onGuard
  apply within_mk (.refl _ _)
  case hl => exact fun h i hi => h i ((key i).symm.trans hi)
  case ha => exact .inl fun i hi => (key i).trans hi
  all_goals first
    | with_reducible (first | exact .inl rfl | exact (fun x => x) | apply Nat.le_refl | exact fun _ => Nat.le_refl _)
    | exact .inr rfl

theorem onPair_key {s : State} {p : PairNo} {f : Pair → Pair}
    (hf : ∀ o, coilOf o = p → (s.rus.outlet.at o).fault.classP = true → (s.rus.pair.at p).cmd = false →
      (s.rus.pair.at p).turn = .idle → (f (s.rus.pair.at p)).cmd = false ∧ (f (s.rus.pair.at p)).turn = .idle) :
    Within 131072 s (s.onPair p f) := by
  unfold State.onPair
  apply within_mk (.refl _ _)
  case hl =>
    intro h i hi
    have h := h i hi
    show ((s.rus.pair.upd p f).at (coilOf i)).cmd = false ∧ ((s.rus.pair.upd p f).at (coilOf i)).turn = .idle
    rw [Tab.at_upd]
    split
    · rename_i e
      subst e
      exact hf i rfl hi h.1 h.2
    · exact h
  all_goals first
    | with_reducible (first
        | exact .inl rfl | exact (fun x => x) | exact .inl (fun _ x => x) | apply Nat.le_refl
        | exact fun _ => Nat.le_refl _)
    | exact .inr rfl

theorem onPair_at {s : State} {p : PairNo} {f : Pair → Pair}
    (hf : (s.rus.pair.at p).turn = .idle → (s.rus.pair.at p).cmd = false →
      (f (s.rus.pair.at p)).cmd = false ∧ (f (s.rus.pair.at p)).turn = .idle) : Within 131072 s (s.onPair p f) :=
  onPair_key fun _ _ _ h1 h2 => hf h2 h1

/-- A turn-on is under way. -/
theorem onPair_busy {s : State} {p : PairNo} {f : Pair → Pair} (h : (s.rus.pair.at p).turn ≠ .idle) :
    Within 131072 s (s.onPair p f) :=
  onPair_key fun _ _ _ _ h2 => absurd h2 h

/-- The pair is no outlet's. -/
theorem onPair_brake {s : State} {p : PairNo} {f : Pair → Pair} (h : ∀ o, coilOf o ≠ p) : Within 131072 s
    (s.onPair p f) :=
  onPair_key fun o e => absurd e (h o)

theorem coilOf_inj {o i : OutletNo} (h : coilOf o = coilOf i) : o = i := by
  simp only [coilOf, Fin.ext_iff, Fin.ofNat] at h ⊢
  omega

/-- The outlet is not in Lockout. -/
theorem onPair_open {s : State} {o : OutletNo} {f : Pair → Pair} (h : (s.rus.outlet.at o).fault.classP = false) :
    Within 131072 s (s.onPair (coilOf o) f) :=
  onPair_key fun i e hi => by rw [coilOf_inj e, h] at hi; cases hi

theorem forEach_within {n m : Nat} {s : State} {f : Fin n → State → State}
    (hf : ∀ i t, Within m t (f i t)) {l : List (Fin n)} : Within m s (forEach l f s) :=
  within_foldl (fun t i h => h.trans (hf i t)) l (Within.refl m s)

end Sys2Proof.Machine
end

