-- ==== Sys2Proof/Laws/WithinCore.lean ====
section
/-! SUPPORT. What the operations of operations, trips, detection, outputs, brakes and the mailbox may do at most, one lemma each. -/

set_option linter.unusedTactic false
set_option linter.unreachableTactic false
set_option linter.unusedVariables false

namespace Sys2Proof.Machine

theorem State.onGuard_within {s : State} {o : OutletNo} {f : Guard → Guard}
    (hf : ∀ g, (f g).fault.classP = g.fault.classP) : Within 65536 s (s.onGuard o f) := by
  have key : ∀ i, ((s.rus.outlet.upd o f).at i).fault.classP = (s.rus.outlet.at i).fault.classP := by
    intro i
    rw [Tab.at_upd]
    split
    · exact hf _
    · rfl
  unfold State.onGuard
  apply within_mk <;> first
    | exact fun h i hi => h i ((key i).symm.trans hi) | exact .inl fun i hi => (key i).trans hi
    | with_reducible (first
        | exact .refl _ _ | exact .inl rfl | exact id | exact .inl (fun _ => id) | exact (fun _ => Nat.le_refl _)
        | exact Nat.le_refl _)
    | exact .inr rfl

theorem State.onPair_within {s : State} {p : PairNo} {f : Pair → Pair}
    (hf : ∀ x, x.cmd = false → x.turn = .idle → (f x).cmd = false ∧ (f x).turn = .idle) : Within 131072 s
      (s.onPair p f) := by
  unfold State.onPair
  apply within_mk <;> first
    | refine fun h i hi => ?_
    | with_reducible (first
        | exact .refl _ _ | exact .inl rfl | exact id | exact .inl (fun _ => id) | exact (fun _ => Nat.le_refl _)
        | exact Nat.le_refl _)
    | exact .inr rfl
  have h := h i hi
  show ((s.rus.pair.upd p f).at (coilOf i)).cmd = false ∧ ((s.rus.pair.upd p f).at (coilOf i)).turn = .idle
  rw [Tab.at_upd]
  split
  · exact hf _ h.1 h.2
  · exact h

theorem State.onBrake_within {s : State} {b : BrakeNo} {f : Brake → Brake} :
    Within 262144 s (State.onBrake s b f) := by
  unfold State.onBrake
  repeat' first
    | apply Eq.refl | with_reducible (first | apply Within.refl | assumption)
    | fail_if_no_progress ((with_reducible apply within_mk) <;> first
        | with_reducible (first
            | exact .inl rfl | exact (fun x => x) | exact .inl (fun _ x => x) | apply Nat.le_refl
            | exact fun _ => Nat.le_refl _)
        | exact .inr rfl | skip)
    | with_reducible (first | intro _) | split

theorem State.onEstop_within {s : State} {c : EstopNo} {f : Estop → Estop} :
    Within 524288 s (State.onEstop s c f) := by
  unfold State.onEstop
  repeat' first
    | apply Eq.refl | with_reducible (first | apply Within.refl | assumption)
    | fail_if_no_progress ((with_reducible apply within_mk) <;> first
        | with_reducible (first
            | exact .inl rfl | exact (fun x => x) | exact .inl (fun _ x => x) | apply Nat.le_refl
            | exact fun _ => Nat.le_refl _)
        | exact .inr rfl | skip)
    | with_reducible (first | intro _) | split

theorem State.onPilot_within {s : State} {o : OutletNo} {f : Pilot → Pilot} :
    Within 1048576 s (State.onPilot s o f) := by
  unfold State.onPilot
  repeat' first
    | apply Eq.refl | with_reducible (first | apply Within.refl | assumption)
    | fail_if_no_progress ((with_reducible apply within_mk) <;> first
        | with_reducible (first
            | exact .inl rfl | exact (fun x => x) | exact .inl (fun _ x => x) | apply Nat.le_refl
            | exact fun _ => Nat.le_refl _)
        | exact .inr rfl | skip)
    | with_reducible (first | intro _) | split

theorem State.onSession_within {s : State} {o : OutletNo} {f : Session → Session} :
    Within 2097152 s (State.onSession s o f) := by
  unfold State.onSession
  repeat' first
    | apply Eq.refl | with_reducible (first | apply Within.refl | assumption)
    | fail_if_no_progress ((with_reducible apply within_mk) <;> first
        | with_reducible (first
            | exact .inl rfl | exact (fun x => x) | exact .inl (fun _ x => x) | apply Nat.le_refl
            | exact fun _ => Nat.le_refl _)
        | exact .inr rfl | skip)
    | with_reducible (first | intro _) | split

theorem State.onMeter_within {s : State} {o : OutletNo} {f : Meter → Meter} :
    Within 256 s (State.onMeter s o f) := by
  unfold State.onMeter
  repeat' first
    | apply Eq.refl | with_reducible (first | apply Within.refl | assumption)
    | fail_if_no_progress ((with_reducible apply within_mk) <;> first
        | with_reducible (first
            | exact .inl rfl | exact (fun x => x) | exact .inl (fun _ x => x) | apply Nat.le_refl
            | exact fun _ => Nat.le_refl _)
        | exact .inr rfl | skip)
    | with_reducible (first | intro _) | split

theorem State.onAnalysis_within {s : State} {o : OutletNo} {f : Analysis → Analysis} :
    Within 512 s (State.onAnalysis s o f) := by
  unfold State.onAnalysis
  repeat' first
    | apply Eq.refl | with_reducible (first | apply Within.refl | assumption)
    | fail_if_no_progress ((with_reducible apply within_mk) <;> first
        | with_reducible (first
            | exact .inl rfl | exact (fun x => x) | exact .inl (fun _ x => x) | apply Nat.le_refl
            | exact fun _ => Nat.le_refl _)
        | exact .inr rfl | skip)
    | with_reducible (first | intro _) | split

theorem State.onInput_within {s : State} {i : InputNo} {f : Input → Input} :
    Within 128 s (State.onInput s i f) := by
  unfold State.onInput
  repeat' first
    | apply Eq.refl | with_reducible (first | apply Within.refl | assumption)
    | fail_if_no_progress ((with_reducible apply within_mk) <;> first
        | with_reducible (first
            | exact .inl rfl | exact (fun x => x) | exact .inl (fun _ x => x) | apply Nat.le_refl
            | exact fun _ => Nat.le_refl _)
        | exact .inr rfl | skip)
    | with_reducible (first | intro _) | split

theorem State.onLane_within {s : State} {l : LaneNo} {f : Lane → Lane} :
    Within 128 s (State.onLane s l f) := by
  unfold State.onLane
  repeat' first
    | apply Eq.refl | with_reducible (first | apply Within.refl | assumption)
    | fail_if_no_progress ((with_reducible apply within_mk) <;> first
        | with_reducible (first
            | exact .inl rfl | exact (fun x => x) | exact .inl (fun _ x => x) | apply Nat.le_refl
            | exact fun _ => Nat.le_refl _)
        | exact .inr rfl | skip)
    | with_reducible (first | intro _) | split

theorem State.onChan_within {s : State} {c : ChanNo} {f : Channel → Channel} :
    Within 8388608 s (State.onChan s c f) := by
  unfold State.onChan
  repeat' first
    | apply Eq.refl | with_reducible (first | apply Within.refl | assumption)
    | fail_if_no_progress ((with_reducible apply within_mk) <;> first
        | with_reducible (first
            | exact .inl rfl | exact (fun x => x) | exact .inl (fun _ x => x) | apply Nat.le_refl
            | exact fun _ => Nat.le_refl _)
        | exact .inr rfl | skip)
    | with_reducible (first | intro _) | split

theorem State.onLink_within {s : State} {l : LinkNo} {f : Link → Link} :
    Within 16777216 s (State.onLink s l f) := by
  unfold State.onLink
  repeat' first
    | apply Eq.refl | with_reducible (first | apply Within.refl | assumption)
    | fail_if_no_progress ((with_reducible apply within_mk) <;> first
        | with_reducible (first
            | exact .inl rfl | exact (fun x => x) | exact .inl (fun _ x => x) | apply Nat.le_refl
            | exact fun _ => Nat.le_refl _)
        | exact .inr rfl | skip)
    | with_reducible (first | intro _) | split

theorem State.onAerial_within {s : State} {a : AerialNo} {f : Aerial → Aerial} :
    Within 33554432 s (State.onAerial s a f) := by
  unfold State.onAerial
  repeat' first
    | apply Eq.refl | with_reducible (first | apply Within.refl | assumption)
    | fail_if_no_progress ((with_reducible apply within_mk) <;> first
        | with_reducible (first
            | exact .inl rfl | exact (fun x => x) | exact .inl (fun _ x => x) | apply Nat.le_refl
            | exact fun _ => Nat.le_refl _)
        | exact .inr rfl | skip)
    | with_reducible (first | intro _) | split

theorem State.onSlot_within {s : State} {n : Fin 256} {f : Slot → Slot} :
    Within 134217728 s (State.onSlot s n f) := by
  unfold State.onSlot
  repeat' first
    | apply Eq.refl | with_reducible (first | apply Within.refl | assumption)
    | fail_if_no_progress ((with_reducible apply within_mk) <;> first
        | with_reducible (first
            | exact .inl rfl | exact (fun x => x) | exact .inl (fun _ x => x) | apply Nat.le_refl
            | exact fun _ => Nat.le_refl _)
        | exact .inr rfl | skip)
    | with_reducible (first | intro _) | split

theorem State.onImage_within {s : State} {t : ImageNo} {f : Image → Image} :
    Within 4294967296 s (State.onImage s t f) := by
  unfold State.onImage
  repeat' first
    | apply Eq.refl | with_reducible (first | apply Within.refl | assumption)
    | fail_if_no_progress ((with_reducible apply within_mk) <;> first
        | with_reducible (first
            | exact .inl rfl | exact (fun x => x) | exact .inl (fun _ x => x) | apply Nat.le_refl
            | exact fun _ => Nat.le_refl _)
        | exact .inr rfl | skip)
    | with_reducible (first | intro _) | split

theorem State.onJob_within {s : State} {j : JobNo} {f : Job → Job} :
    Within 8589934592 s (State.onJob s j f) := by
  unfold State.onJob
  repeat' first
    | apply Eq.refl | with_reducible (first | apply Within.refl | assumption)
    | fail_if_no_progress ((with_reducible apply within_mk) <;> first
        | with_reducible (first
            | exact .inl rfl | exact (fun x => x) | exact .inl (fun _ x => x) | apply Nat.le_refl
            | exact fun _ => Nat.le_refl _)
        | exact .inr rfl | skip)
    | with_reducible (first | intro _) | split

theorem State.onPort_within {s : State} {p : PortNo} {f : Port → Port} :
    Within 34359738368 s (State.onPort s p f) := by
  unfold State.onPort
  repeat' first
    | apply Eq.refl | with_reducible (first | apply Within.refl | assumption)
    | fail_if_no_progress ((with_reducible apply within_mk) <;> first
        | with_reducible (first
            | exact .inl rfl | exact (fun x => x) | exact .inl (fun _ x => x) | apply Nat.le_refl
            | exact fun _ => Nat.le_refl _)
        | exact .inr rfl | skip)
    | with_reducible (first | intro _) | split

theorem State.onSource_within {s : State} {k : SourceNo} {f : Source → Source} :
    Within 17179869184 s (State.onSource s k f) := by
  unfold State.onSource
  repeat' first
    | apply Eq.refl | with_reducible (first | apply Within.refl | assumption)
    | fail_if_no_progress ((with_reducible apply within_mk) <;> first
        | with_reducible (first
            | exact .inl rfl | exact (fun x => x) | exact .inl (fun _ x => x) | apply Nat.le_refl
            | exact fun _ => Nat.le_refl _)
        | exact .inr rfl | skip)
    | with_reducible (first | intro _) | split

theorem takeFree_within {s : State} :
    Within 2199023255552 s (takeFree s).2 := by
  unfold takeFree
  repeat' first
    | apply Eq.refl | with_reducible (first | apply Within.refl | assumption)
    | fail_if_no_progress ((with_reducible apply within_mk) <;> first
        | with_reducible (first
            | exact .inl rfl | exact (fun x => x) | exact .inl (fun _ x => x) | apply Nat.le_refl
            | exact (fun _ => Nat.le_refl _) | apply Nat.le_add_right)
        | exact .inr rfl | skip)
    | with_reducible (first | intro _) | split

theorem poolWrite_within {s : State} {a : Nat} {bs : List Byte} : Within 68719476736 s (poolWrite s a bs) := by
  unfold poolWrite
  apply within_mk <;> first
    | exact memWf_memWrite _ _
    | with_reducible (first
        | exact .refl _ _ | exact .inl rfl | exact id | exact .inl (fun _ => id) | exact (fun _ => Nat.le_refl _)
        | exact Nat.le_refl _)
    | exact .inr rfl

theorem poolClear_within {s : State} {a n : Nat} : Within 68719476736 s (poolClear s a n) := by
  unfold poolClear
  apply within_mk <;> first
    | exact memWf_memClear _ _
    | with_reducible (first
        | exact .refl _ _ | exact .inl rfl | exact id | exact .inl (fun _ => id) | exact (fun _ => Nat.le_refl _)
        | exact Nat.le_refl _)
    | exact .inr rfl

theorem mirrorFault_within {s : State} {e : FaultEntry} : Within 67108864 s (mirrorFault s e) := by
  have key : ∀ (t : Tag), memWf t.mem = true → memWf (tagCounters t) = true :=
    fun t h => memWf_memWrite _ _ (memWf_memWrite _ _ (memWf_memWrite _ _ h))
  unfold mirrorFault
  dsimp only
  generalize hm : memWrite s.tag.mem = w
  have hw : ∀ a bs, memWf s.tag.mem = true → memWf (w a bs) = true := fun a bs h => by rw [← hm]; exact memWf_memWrite _ _ h
  clear hm
  split
  · exact .refl _ _
  · apply within_mk (.refl _ _)
    case ht => exact fun h => key _ (hw _ _ h)
    all_goals first
      | with_reducible (first
          | exact .refl _ _ | exact .inl rfl | exact id | exact .inl (fun _ => id) | exact (fun _ => Nat.le_refl _)
          | exact Nat.le_refl _)
      | exact .inr rfl

theorem mirrorFaults_within {s : State} :
    Within 67108864 s (mirrorFaults s) := by
  unfold mirrorFaults
  repeat' first
    | apply Eq.refl | with_reducible (first | apply Within.refl | assumption)
    | with_reducible (first
        | intro _ | apply within_ite | apply within_ite2 | apply Within.go mirrorFault_within | apply within_foldl)
    | split

theorem logFault_within {s : State} {c : Occ} :
    Within 17246978048 s (logFault s c) := by
  unfold logFault
  repeat' first
    | apply Eq.refl | with_reducible (first | apply Within.refl | assumption) | unfold x
    | ((try lift_lets); intro x; first
        | (refine (fun hx => ?_ : Within 17246978048 s x → _) ?_; clear_value x) | skip)
    | fail_if_no_progress ((with_reducible apply within_mk) <;> first
        | with_reducible (first
            | exact .inl rfl | exact (fun x => x) | exact .inl (fun _ x => x) | apply Nat.le_refl
            | exact fun _ => Nat.le_refl _)
        | exact .inr rfl | skip)
    | with_reducible (first | intro _ | apply Within.go mirrorFaults_within) | split

theorem noteHolding_within {c : Occ} {s : State} :
    Within 17179869184 s (noteHolding c s) := by
  unfold noteHolding
  repeat' first
    | apply Eq.refl | with_reducible (first | apply Within.refl | assumption)
    | with_reducible (first | intro _ | apply Within.go State.onSource_within) | split

theorem arrive_within {s : State} {c : Occ} :
    Within 17246978048 s (arrive s c) := by
  unfold arrive
  repeat' first
    | apply Eq.refl | with_reducible (first | apply Within.refl | assumption) | unfold x
    | ((try lift_lets); intro x; first
        | (refine (fun hx => ?_ : Within 17246978048 s x → _) ?_; clear_value x) | skip)
    | fail_if_no_progress ((with_reducible apply within_mk) <;> first
        | with_reducible (first
            | exact .inl rfl | exact (fun x => x) | exact .inl (fun _ x => x) | apply Nat.le_refl
            | exact fun _ => Nat.le_refl _)
        | exact .inr rfl | skip)
    | with_reducible (first
        | intro _ | apply within_ite | apply within_ite2 | apply Within.go State.onSource_within
        | apply Within.go logFault_within)
    | split

theorem raiseOcc_within {source : Nat} {index : Nat} {cause : Nat} {ended : Bool} {peer : Bool} {data : List Byte}
    {s : State} :
    Within 17246978048 s (raiseOcc source index cause ended peer data s) := by
  unfold raiseOcc
  repeat' first
    | apply Eq.refl | with_reducible (first | apply Within.refl | assumption) | unfold x
    | ((try lift_lets); intro x; first
        | (refine (fun hx => ?_ : Within 17246978048 s x → _) ?_; clear_value x) | skip)
    | fail_if_no_progress ((with_reducible apply within_mk) <;> first
        | with_reducible (first
            | exact .inl rfl | exact (fun x => x) | exact .inl (fun _ x => x) | apply Nat.le_refl
            | exact fun _ => Nat.le_refl _)
        | exact .inr rfl | skip)
    | with_reducible (first
        | intro _ | apply within_ite | apply within_ite2 | apply Within.go noteHolding_within
        | apply Within.go arrive_within)
    | split

theorem raise_within {source : Nat} {index : Nat} {cause : Nat} {data : List Byte} {s : State} :
    Within 17246978048 s (raise source index cause data s) := by
  unfold raise
  repeat' first
    | apply Eq.refl | with_reducible (first | apply Within.refl | assumption)
    | with_reducible (first | intro _ | apply Within.go raiseOcc_within) | split

theorem raiseEnd_within {source : Nat} {index : Nat} {data : List Byte} {s : State} :
    Within 17246978048 s (raiseEnd source index data s) := by
  unfold raiseEnd
  repeat' first
    | apply Eq.refl | with_reducible (first | apply Within.refl | assumption)
    | with_reducible (first | intro _ | apply Within.go raiseOcc_within) | split

theorem writeStateArea_within {s : State} : Within 67108864 s (writeStateArea s) := by
  unfold writeStateArea
  lift_lets
  intros
  split
  · apply within_mk (.refl _ _) <;> first
      | with_reducible exact .inl rfl | exact .inr rfl | exact id | exact .inl (fun _ => id)
      | exact (fun _ => Nat.le_refl _) | exact Nat.le_refl _
  · apply within_mk <;> first
      | exact memWf_memWrite _ _
      | with_reducible (first
          | exact .refl _ _ | exact .inl rfl | exact id | exact .inl (fun _ => id) | exact (fun _ => Nat.le_refl _)
          | exact Nat.le_refl _)
      | exact .inr rfl

theorem writeIdentity_within {s : State} : Within 67108864 s (writeIdentity s) := by
  unfold writeIdentity
  apply within_mk <;> first
    | exact memWf_memWrite _ _
    | with_reducible (first
        | exact .refl _ _ | exact .inl rfl | exact id | exact .inl (fun _ => id) | exact (fun _ => Nat.le_refl _)
        | exact Nat.le_refl _)
    | exact .inr rfl

theorem reportDegraded_within {was : Word} {now : Word} {s : State} :
    Within 17246978048 s (reportDegraded was now s) := by
  unfold reportDegraded
  repeat' first
    | apply Eq.refl | with_reducible (first | apply Within.refl | assumption)
    | with_reducible (first | intro _ | apply Within.go raise_within | apply Within.go raiseEnd_within)
    | split <;> try with_reducible cases congrArg Prod.snd ‹_ = (_, _)›

theorem settle_within {s : State} :
    Within 1116758605824 s (settle s) := by
  unfold settle
  repeat' first
    | apply Eq.refl | with_reducible (first | apply Within.refl | assumption) | unfold x
    | ((try lift_lets); intro x; first
        | (refine (fun hx => ?_ : Within 1116758605824 s x → _) ?_; clear_value x) | skip)
    | fail_if_no_progress ((with_reducible apply within_mk) <;> first
        | with_reducible (first
            | exact .inl rfl | exact (fun x => x) | exact .inl (fun _ x => x) | apply Nat.le_refl
            | exact fun _ => Nat.le_refl _)
        | exact .inr rfl | skip)
    | with_reducible (first
        | intro _ | apply within_ite | apply within_ite2 | apply Within.go raise_within
        | apply Within.go writeStateArea_within | apply Within.go reportDegraded_within)
    | split

theorem sendRecord_within {p : PortNo} {r : List Byte} {s : State} :
    Within 34359738368 s (sendRecord p r s) := by
  unfold sendRecord
  repeat' first
    | apply Eq.refl | with_reducible (first | apply Within.refl | assumption)
    | with_reducible (first | intro _ | apply within_ite | apply within_ite2 | apply Within.go State.onPort_within)
    | split

theorem putResponse_within {p : PortNo} {entry : List Byte} {s : State} :
    Within 103079215104 s (putResponse p entry s) := by
  unfold putResponse
  repeat' first
    | apply Eq.refl | with_reducible (first | apply Within.refl | assumption) | unfold x
    | ((try lift_lets); intro x; first
        | (refine (fun hx => ?_ : Within 103079215104 s x → _) ?_; clear_value x) | skip)
    | with_reducible (first
        | intro _ | apply Within.go State.onPort_within | apply Within.go poolWrite_within
        | apply Within.go sendRecord_within)
    | split

theorem writeBulk_within {y0 : List (Desc × List Byte)} {y1 : State} :
    Within 68719476736 y1 (writeBulk y0 y1) := by
  induction y0 generalizing y1 with
  | nil =>
    unfold writeBulk
    repeat' first
      | apply Eq.refl | with_reducible (first | apply Within.refl | assumption)
      | with_reducible (first | intro _ | apply Within.go poolWrite_within)
      | split <;> try with_reducible cases congrArg Prod.snd ‹_ = (_, _)›
  | cons _ _ ih =>
    unfold writeBulk
    repeat' first
      | apply Eq.refl | with_reducible (first | apply Within.refl | assumption)
      | with_reducible (first | intro _ | apply Within.go poolWrite_within | apply Within.via (ih ..))
      | split <;> try with_reducible cases congrArg Prod.snd ‹_ = (_, _)›

theorem answer_within {op : Nat} {c : Cmd} {r : Reply} {s : State} :
    Within 103079215104 s (answer op c r s) := by
  unfold answer
  repeat' first
    | apply Eq.refl | with_reducible (first | apply Within.refl | assumption) | unfold x
    | ((try lift_lets); intro x; first
        | (refine (fun hx => ?_ : Within 103079215104 s x → _) ?_; clear_value x) | skip)
    | fail_if_no_progress ((with_reducible apply within_mk) <;> first
        | with_reducible (first
            | exact .inl rfl | exact (fun x => x) | exact .inl (fun _ x => x) | apply Nat.le_refl
            | exact fun _ => Nat.le_refl _)
        | exact .inr rfl | skip)
    | with_reducible (first
        | intro _ | apply within_ite | apply within_ite2 | apply Within.go putResponse_within
        | apply Within.go writeBulk_within)
    | split

theorem forwardOut_within {op : Nat} {c : Cmd} {s : State} :
    Within 2147483648 s (forwardOut op c s) := by
  unfold forwardOut
  repeat' first
    | apply Eq.refl | with_reducible (first | apply Within.refl | assumption) | unfold x
    | ((try lift_lets); intro x; first | (refine (fun hx => ?_ : Within 2147483648 s x → _) ?_; clear_value x) | skip)
    | fail_if_no_progress ((with_reducible apply within_mk) <;> first
        | with_reducible (first
            | exact .inl rfl | exact (fun x => x) | exact .inl (fun _ x => x) | apply Nat.le_refl
            | exact fun _ => Nat.le_refl _)
        | exact .inr rfl | skip)
    | with_reducible (first | intro _ | apply within_ite | apply within_ite2) | split

theorem runCmd_within {mm : Nat} (e : 1221985304576 ||| mm = mm) {op : Nat} {c : Cmd} {body : Body} {s : State}
    (hbody : ∀ z0 z1, Within mm z1 (body z0 z1).2) :
    Within mm s (runCmd op c body s) := by
  unfold runCmd
  repeat' first
    | apply Eq.refl | exact lorTrans (b := 1221985304576) rfl e
    | with_reducible (first | apply Within.refl | assumption) | unfold x
    | ((try lift_lets); intro x; first | (refine (fun hx => ?_ : Within mm s x → _) ?_; clear_value x) | skip)
    | fail_if_no_progress ((with_reducible apply within_mk) <;> first
        | with_reducible (first
            | exact .inl rfl | exact (fun x => x) | exact .inl (fun _ x => x) | apply Nat.le_refl
            | exact fun _ => Nat.le_refl _)
        | exact .inr (Sub.of _ _ e _ rfl) | skip)
    | with_reducible (first
        | intro _ | apply within_ite | apply within_ite2 | apply Within.go settle_within
        | apply Within.go answer_within | apply Within.go forwardOut_within | apply Within.via (hbody ..))
    | split

theorem reads_within {f : List Byte → State → Reply} {y0 : List Byte} {y1 : State} :
    Within 0 y1 (reads f y0 y1).2 := by
  unfold reads
  repeat' first
    | apply Eq.refl | with_reducible (first | apply Within.refl | assumption) | with_reducible (first | intro _)
    | split

theorem acts_within {mm : Nat} (e : 0 ||| mm = mm) {f : List Byte → State → Reply × State} {y0 : List Byte} {y1 : State}
    (hf : ∀ z0 z1, Within mm z1 (f z0 z1).2) :
    Within mm y1 (acts f y0 y1).2 := by
  unfold acts
  repeat' first
    | apply Eq.refl | exact lorTrans (b := 0) rfl e | with_reducible (first | apply Within.refl | assumption)
    | with_reducible (first | intro _ | apply Within.via (hf ..)) | split

theorem useKey_within {n : Fin 256} {owner : Nat} {bit : Nat} {s : State} :
    Within 17381195776 s (useKey n owner bit s).2 := by
  unfold useKey
  repeat' first
    | apply Eq.refl | with_reducible (first | apply Within.refl | assumption) | unfold x
    | ((try lift_lets); intro x; first
        | (refine (fun hx => ?_ : Within 17381195776 s x → _) ?_; clear_value x) | skip)
    | with_reducible (first
        | intro _ | apply within_ite | apply within_ite2 | apply Within.go State.onSlot_within
        | apply Within.go raise_within)
    | split

theorem useMapped_within {w : BitVec 16} {owner : Nat} {bit : Nat} {s : State} :
    Within 17381195776 s (useMapped w owner bit s).2 := by
  unfold useMapped
  repeat' first
    | apply Eq.refl | with_reducible (first | apply Within.refl | assumption)
    | with_reducible (first | intro _ | apply within_ite | apply within_ite2 | apply Within.go useKey_within) | split

theorem dropDerived_within {d : Derivation} {s : State} :
    Within 1073741824 s (dropDerived d s) := by
  unfold dropDerived
  repeat' first
    | apply Eq.refl | with_reducible (first | apply Within.refl | assumption)
    | fail_if_no_progress ((with_reducible apply within_mk) <;> first
        | with_reducible (first
            | exact .inl rfl | exact (fun x => x) | exact .inl (fun _ x => x) | apply Nat.le_refl
            | exact fun _ => Nat.le_refl _)
        | exact .inr rfl | skip)
    | with_reducible (first | intro _) | split

theorem derive_within {d : Derivation} {context : List Byte} {s : State} :
    Within 1073741824 s (derive d context s) := by
  unfold derive
  repeat' first
    | apply Eq.refl | with_reducible (first | apply Within.refl | assumption)
    | fail_if_no_progress ((with_reducible apply within_mk) <;> first
        | with_reducible (first
            | exact .inl rfl | exact (fun x => x) | exact .inl (fun _ x => x) | apply Nat.le_refl
            | exact fun _ => Nat.le_refl _)
        | exact .inr rfl | skip)
    | with_reducible (first | intro _) | split

theorem refreshDrive_within {o : OutletNo} {s : State} :
    Within 1048576 s (refreshDrive o s) := by
  unfold refreshDrive
  repeat' first
    | apply Eq.refl | with_reducible (first | apply Within.refl | assumption)
    | with_reducible (first | intro _ | apply within_ite | apply within_ite2 | apply Within.go State.onPilot_within)
    | split

theorem refreshDrives_within {s : State} :
    Within 1048576 s (refreshDrives s) := by
  unfold refreshDrives
  repeat' first
    | apply Eq.refl | with_reducible (first | apply Within.refl | assumption)
    | with_reducible (first | intro _ | apply Within.via (forEach_within ?_) | apply Within.go refreshDrive_within)
    | split

theorem openPair_within {o : OutletNo} {s : State} :
    Within 196608 s (openPair o s) := by
  unfold openPair
  repeat' first
    | apply Eq.refl | exact (fun _ => rfl) | exact (fun _ h1 h2 => ⟨h1, h2⟩) | exact (fun _ _ _ => ⟨rfl, rfl⟩)
    | with_reducible (first | apply Within.refl | assumption) | unfold x
    | ((try lift_lets); intro x; first | (refine (fun hx => ?_ : Within 196608 s x → _) ?_; clear_value x) | skip)
    | with_reducible (first
        | intro _ | apply within_ite | apply within_ite2 | apply Within.go (State.onGuard_within ?_)
        | apply Within.go (State.onPair_within ?_))
    | split

theorem abandonTest_within {p : PairNo} {s : State} : Within 131072 s (abandonTest p s) := by
  unfold abandonTest
  refine State.onPair_within (fun x h1 h2 => ?_)
  split <;> exact ⟨h1, h2⟩

theorem offBrake_within {b : BrakeNo} {s : State} :
    Within 131072 s (offBrake b s) := by
  unfold offBrake
  repeat' first
    | apply Eq.refl | exact (fun _ h1 h2 => ⟨h1, h2⟩) | exact (fun _ _ _ => ⟨rfl, rfl⟩)
    | with_reducible (first | apply Within.refl | assumption)
    | with_reducible (first | intro _ | apply Within.go (State.onPair_within ?_)) | split

theorem relay_within {o : OutletNo} {cause : Byte} {cls : Nat} {peer : Bool} {s : State} :
    Within 2147483648 s (relay o cause cls peer s) := by
  unfold relay
  repeat' first
    | apply Eq.refl | with_reducible (first | apply Within.refl | assumption)
    | fail_if_no_progress ((with_reducible apply within_mk) <;> first
        | with_reducible (first
            | exact .inl rfl | exact (fun x => x) | exact .inl (fun _ x => x) | apply Nat.le_refl
            | exact fun _ => Nat.le_refl _)
        | exact .inr rfl | skip)
    | with_reducible (first | intro _ | apply within_ite | apply within_ite2) | split

theorem tripEvent_within {o : OutletNo} {cause : Byte} {cls : Nat} {peer : Bool} {s : State} :
    Within 17246978048 s (tripEvent o cause cls peer s) := by
  unfold tripEvent
  repeat' first
    | apply Eq.refl | with_reducible (first | apply Within.refl | assumption) | unfold x
    | ((try lift_lets); intro x; first
        | (refine (fun hx => ?_ : Within 17246978048 s x → _) ?_; clear_value x) | skip)
    | with_reducible (first | intro _ | apply Within.go raiseOcc_within) | split

theorem saveTimers_within {s : State} : Within 65536 s (saveTimers s) := by
  unfold saveTimers
  lift_lets
  intro mono
  split
  · exact .refl _ _
  · have key : ∀ i, ((s.rus.outlet.each fun g =>
        if g.ce.ends = 0 then g else { g with ce := { g.ce with saved := (g.ce.ends - mono) / 1000 } }).at i).fault.classP
          = (s.rus.outlet.at i).fault.classP := by
      intro i
      rw [Tab.at_each]
      split <;> rfl
    apply within_mk <;> first
      | exact fun h i hi => h i ((key i).symm.trans hi) | exact .inl fun i hi => (key i).trans hi
      | with_reducible (first
          | exact .refl _ _ | exact .inl rfl | exact id | exact .inl (fun _ => id) | exact (fun _ => Nat.le_refl _)
          | exact Nat.le_refl _)
      | exact .inr rfl

theorem count_within {o : OutletNo} {cause : Byte} {peer : Bool} {s : State} :
    Within 65536 s (count o cause peer s) := by
  unfold count
  repeat' first
    | apply Eq.refl | exact (fun _ => rfl) | with_reducible (first | apply Within.refl | assumption)
    | with_reducible (first | intro _ | apply Within.go (State.onGuard_within ?_)) | split

theorem lockOut_within {o : OutletNo} {s : State} : Within 17250320384 s (lockOut o s) := by
  have h1 : Within 17250320384 s (openPair o s) := openPair_within.mono rfl
  have off : ((openPair o s).rus.pair.at (coilOf o)).cmd = false ∧ ((openPair o s).rus.pair.at (coilOf o)).turn = .idle := by
    simp [openPair, State.onPair, State.onGuard]
  have h2 : ∀ f : Guard → Guard, (∀ g, g.fault.classP = true → (f g).fault.classP = true) →
      Within 17250320384 s ((openPair o s).onGuard o f) := by
    intro f hf
    generalize openPair o s = a at h1 off
    unfold State.onGuard
    apply within_mk h1
    case hl =>
      intro h i hi
      by_cases e : o = i
      · subst e
        exact off
      · exact h i (by simpa [e] using hi)
    case ha =>
      refine Or.inl fun i hi => ?_
      by_cases e : o = i
      · subst e
        simpa using hf _ hi
      · simpa [e] using hi
    all_goals first
      | with_reducible (first
          | exact .refl _ _ | exact .inl rfl | exact id | exact .inl (fun _ => id) | exact (fun _ => Nat.le_refl _)
          | exact Nat.le_refl _)
      | exact .inr rfl
  unfold lockOut
  dsimp only
  repeat' first
    | apply Eq.refl | exact (fun _ => rfl) | with_reducible (first | apply Within.refl | assumption)
    | (with_reducible apply h2) | unfold x
    | ((try lift_lets); intro x; first
        | (refine (fun hx => ?_ : Within 17250320384 s x → _) ?_; clear_value x) | skip)
    | with_reducible (first
        | intro _ | apply within_ite | apply within_ite2 | apply Within.go (State.onGuard_within ?_)
        | apply Within.go State.onPilot_within | apply Within.go State.onSession_within
        | apply Within.go raiseEnd_within | apply Within.go refreshDrive_within | apply Within.go openPair_within)
    | split

theorem withdrawRelease_within {o : OutletNo} {s : State} :
    Within 17247043584 s (withdrawRelease o s) := by
  unfold withdrawRelease
  repeat' first
    | apply Eq.refl | exact (fun _ => rfl) | with_reducible (first | apply Within.refl | assumption)
    | with_reducible (first
        | intro _ | apply within_ite | apply within_ite2 | apply Within.go (State.onGuard_within ?_)
        | apply Within.go raise_within)
    | split

theorem tripP_within {o : OutletNo} {cause : Byte} {peer : Bool} {s : State} :
    Within 1118909431808 s (tripP o cause peer s) := by
  unfold tripP
  repeat' first
    | apply Eq.refl | with_reducible (first | apply Within.refl | assumption) | unfold x
    | ((try lift_lets); intro x; first
        | (refine (fun hx => ?_ : Within 1118909431808 s x → _) ?_; clear_value x) | skip)
    | with_reducible (first
        | intro _ | apply within_ite | apply within_ite2 | apply Within.go settle_within
        | apply Within.go abandonTest_within | apply Within.go relay_within | apply Within.go tripEvent_within
        | apply Within.go count_within | apply Within.go lockOut_within | apply Within.go withdrawRelease_within)
    | split

theorem enterClassE_within {o : OutletNo} {s : State} :
    Within 17248092160 s (enterClassE o s) := by
  unfold enterClassE
  repeat' first
    | apply Eq.refl | exact (fun _ => rfl) | with_reducible (first | apply Within.refl | assumption) | unfold x
    | ((try lift_lets); intro x; first
        | (refine (fun hx => ?_ : Within 17248092160 s x → _) ?_; clear_value x) | skip)
    | with_reducible (first
        | intro _ | apply within_ite | apply within_ite2 | apply Within.go (State.onGuard_within ?_)
        | apply Within.go State.onPilot_within | apply Within.go raise_within | apply Within.go refreshDrive_within)
    | split

theorem cancelClose_within {o : OutletNo} {s : State} :
    Within 196608 s (cancelClose o s) := by
  unfold cancelClose
  repeat' first
    | apply Eq.refl | with_reducible (first | apply Within.refl | assumption)
    | with_reducible (first
        | intro _ | apply within_ite | apply within_ite2 | apply Within.go openPair_within
        | apply Within.go abandonTest_within)
    | split

theorem tripE_within {o : OutletNo} {cause : Byte} {peer : Bool} {s : State} :
    Within 19395706880 s (tripE o cause peer s) := by
  unfold tripE
  repeat' first
    | apply Eq.refl | exact (fun _ => rfl) | with_reducible (first | apply Within.refl | assumption) | unfold x
    | ((try lift_lets); intro x; first
        | (refine (fun hx => ?_ : Within 19395706880 s x → _) ?_; clear_value x) | skip)
    | with_reducible (first
        | intro _ | apply within_ite | apply within_ite2 | apply Within.go (State.onGuard_within ?_)
        | apply Within.go relay_within | apply Within.go tripEvent_within | apply Within.go count_within
        | apply Within.go enterClassE_within | apply Within.go cancelClose_within)
    | split

theorem tripOpen_within {o : OutletNo} {cause : Byte} {peer : Bool} {s : State} :
    Within 19395706880 s (tripOpen o cause peer s) := by
  unfold tripOpen
  repeat' first
    | apply Eq.refl | exact (fun _ => rfl) | with_reducible (first | apply Within.refl | assumption) | unfold x
    | ((try lift_lets); intro x; first
        | (refine (fun hx => ?_ : Within 19395706880 s x → _) ?_; clear_value x) | skip)
    | with_reducible (first
        | intro _ | apply within_ite | apply within_ite2 | apply Within.go (State.onGuard_within ?_)
        | apply Within.go openPair_within | apply Within.go abandonTest_within | apply Within.go relay_within
        | apply Within.go tripEvent_within | apply Within.go count_within | apply Within.go enterClassE_within)
    | split

theorem recordCause_within {o : OutletNo} {cause : Byte} {s : State} :
    Within 17247043584 s (recordCause o cause s) := by
  unfold recordCause
  repeat' first
    | apply Eq.refl | with_reducible (first | apply Within.refl | assumption)
    | with_reducible (first | intro _ | apply Within.go tripEvent_within | apply Within.go count_within) | split

theorem endClassE_within {o : OutletNo} {s : State} :
    Within 17248092160 s (endClassE o s) := by
  unfold endClassE
  repeat' first
    | apply Eq.refl | exact (fun _ => rfl) | with_reducible (first | apply Within.refl | assumption) | unfold x
    | ((try lift_lets); intro x; first
        | (refine (fun hx => ?_ : Within 17248092160 s x → _) ?_; clear_value x) | skip)
    | with_reducible (first
        | intro _ | apply within_ite | apply within_ite2 | apply Within.go (State.onGuard_within ?_)
        | apply Within.go State.onPilot_within | apply Within.go raiseEnd_within | apply Within.go refreshDrive_within
        | apply Within.go count_within)
    | split

theorem tryEndClassE_within {o : OutletNo} {s : State} :
    Within 17248092160 s (tryEndClassE o s) := by
  unfold tryEndClassE
  repeat' first
    | apply Eq.refl | with_reducible (first | apply Within.refl | assumption) | unfold x
    | ((try lift_lets); intro x; first
        | (refine (fun hx => ?_ : Within 17248092160 s x → _) ?_; clear_value x) | skip)
    | with_reducible (first | intro _ | apply within_ite | apply within_ite2 | apply Within.go endClassE_within)
    | split <;> try with_reducible cases congrArg Prod.snd ‹_ = (_, _)›

theorem clearCause_within {o : OutletNo} {cause : Byte} {s : State} :
    Within 17248092160 s (clearCause o cause s) := by
  unfold clearCause
  repeat' first
    | apply Eq.refl | exact (fun _ => rfl) | with_reducible (first | apply Within.refl | assumption)
    | with_reducible (first
        | intro _ | apply Within.go (State.onGuard_within ?_) | apply Within.go tryEndClassE_within)
    | split

theorem failBrake_within {b : BrakeNo} {cause : Byte} {s : State} :
    Within 1118909693952 s (failBrake b cause s) := by
  unfold failBrake
  repeat' first
    | apply Eq.refl | with_reducible (first | apply Within.refl | assumption) | unfold x
    | ((try lift_lets); intro x; first
        | (refine (fun hx => ?_ : Within 1118909693952 s x → _) ?_; clear_value x) | skip)
    | with_reducible (first
        | intro _ | apply Within.go State.onBrake_within | apply Within.go raise_within
        | apply Within.go offBrake_within | apply Within.go tripP_within | apply within_foldl)
    | split

theorem engageBrake_within {b : BrakeNo} {s : State} :
    Within 17247371264 s (engageBrake b s) := by
  unfold engageBrake
  repeat' first
    | apply Eq.refl | with_reducible (first | apply Within.refl | assumption)
    | with_reducible (first
        | intro _ | apply within_ite | apply within_ite2 | apply Within.go State.onBrake_within
        | apply Within.go raise_within | apply Within.go offBrake_within)
    | split

theorem switchFault_within {p : PairNo} {cause : Byte} {s : State} :
    Within 1118909693952 s (switchFault p cause s) := by
  unfold switchFault
  repeat' first
    | apply Eq.refl | with_reducible (first | apply Within.refl | assumption) | unfold x
    | ((try lift_lets); intro x; first
        | (refine (fun hx => ?_ : Within 1118909693952 s x → _) ?_; clear_value x) | skip)
    | with_reducible (first
        | intro _ | apply within_ite | apply within_ite2 | apply Within.go tripP_within
        | apply Within.go tripOpen_within | apply Within.go failBrake_within)
    | split

theorem relayedTrip_within {o : OutletNo} {cause : Byte} {classP : Bool} {s : State} :
    Within 1118909431808 s (relayedTrip o cause classP s) := by
  unfold relayedTrip
  repeat' first
    | apply Eq.refl | with_reducible (first | apply Within.refl | assumption)
    | with_reducible (first
        | intro _ | apply within_ite | apply within_ite2 | apply Within.go tripP_within
        | apply Within.go tripOpen_within)
    | split

theorem commitLimited_within {s : State} : Within 17247830016 s (commitLimited s) := by
  have key : ∀ i, ((s.rus.outlet.each commitGuard).at i).fault.classP = (s.rus.outlet.at i).fault.classP := by
    intro i
    rw [Tab.at_each]
    generalize s.rus.outlet.at i = g
    unfold commitGuard
    dsimp only
    repeat' split
    all_goals rfl
  have h1 : ∀ b c d e, Within 17247830016 s { s with rus := { s.rus with
      outlet := s.rus.outlet.each commitGuard, brake := b, estopCfg := c, outCfg := d, fast := e, pend := false, ceStep := false } } := by
    intro b c d e
    apply within_mk (.refl _ _)
    case hl => exact fun h i hi => h i ((key i).symm.trans hi)
    case ha => exact .inl fun i hi => (key i).trans hi
    all_goals first
      | with_reducible (first
          | exact .refl _ _ | exact .inl rfl | exact id | exact .inl (fun _ => id) | exact (fun _ => Nat.le_refl _)
          | exact Nat.le_refl _)
      | exact .inr rfl
  unfold commitLimited
  dsimp only
  repeat' first
    | apply Eq.refl | with_reducible (first | apply Within.refl | assumption) | apply h1 | unfold x
    | ((try lift_lets); intro x; first
        | (refine (fun hx => ?_ : Within 17247830016 s x → _) ?_; clear_value x) | skip)
    | fail_if_no_progress ((with_reducible apply within_mk) <;> first
        | with_reducible (first
            | exact .inl rfl | exact (fun x => x) | exact .inl (fun _ x => x) | apply Nat.le_refl
            | exact fun _ => Nat.le_refl _)
        | exact .inr rfl | skip)
    | with_reducible (first
        | intro _ | apply within_ite | apply within_ite2 | apply Within.go raise_within | apply within_foldl)
    | split

theorem addCauses_within {o : OutletNo} {cs : List Byte} {s : State} :
    Within 65536 s (addCauses o cs s) := by
  unfold addCauses
  repeat' first
    | apply Eq.refl | exact (fun _ => rfl) | with_reducible (first | apply Within.refl | assumption)
    | with_reducible (first
        | intro _ | apply within_ite | apply within_ite2 | apply Within.go (State.onGuard_within ?_)
        | apply within_foldl)
    | split

theorem decideAll_within {o : OutletNo} {ds : List Decision} {s : State} :
    Within 1118909431808 s (decideAll o ds s) := by
  unfold decideAll
  repeat' first
    | apply Eq.refl | with_reducible (first | apply Within.refl | assumption) | unfold x
    | ((try lift_lets); intro x; first
        | (refine (fun hx => ?_ : Within 1118909431808 s x → _) ?_; clear_value x) | skip)
    | with_reducible (first
        | intro _ | apply within_ite | apply within_ite2 | apply Within.go tripP_within | apply Within.go tripE_within
        | apply Within.go tripOpen_within | apply Within.go addCauses_within)
    | split

theorem reportWarnings_within {o : OutletNo} {old : Guard} {g : Guard} {isoDone : Bool} {s : State} :
    Within 17246978048 s (reportWarnings o old g isoDone s) := by
  unfold reportWarnings
  repeat' first
    | apply Eq.refl | with_reducible (first | apply Within.refl | assumption) | unfold x
    | ((try lift_lets); intro x; first
        | (refine (fun hx => ?_ : Within 17246978048 s x → _) ?_; clear_value x) | skip)
    | with_reducible (first
        | intro _ | apply within_ite | apply within_ite2 | apply Within.go raise_within
        | apply Within.go raiseEnd_within)
    | split

theorem clearFrameCauses_within {o : OutletNo} {s : State} :
    Within 17248092160 s (clearFrameCauses o s) := by
  unfold clearFrameCauses
  repeat' first
    | apply Eq.refl | with_reducible (first | apply Within.refl | assumption) | unfold x
    | ((try lift_lets); intro x; first
        | (refine (fun hx => ?_ : Within 17248092160 s x → _) ?_; clear_value x) | skip)
    | with_reducible (first | intro _ | apply within_ite | apply within_ite2 | apply Within.go clearCause_within)
    | split

theorem frameUsed_within {o : OutletNo} {vs : List Rat} {old : Guard} {s : State} :
    Within 3317932687360 s (frameUsed o vs old s) := by
  have key : ∀ (now : Nat) (q : Rat) (g : Guard), (stepIso now q vs g).1.fault.classP = g.fault.classP := by
    intro now q g
    simp only [stepIso, apply_ite Prod.fst, apply_ite Guard.fault]
    repeat' split
    all_goals rfl
  have hg : ∀ g, (stepCounts s o vs (stepResidual g)).fault.classP = g.fault.classP := fun _ => rfl
  have h1 : ∀ (x : Guard × Option IsoResult) (c : Bool), x.1.fault.classP = (s.rus.outlet.at o).fault.classP →
      Within 3317932687360 s ((if c then (takeFree s).2 else s).onGuard o fun _ => x.1) := by
    intro x c hx
    refine (onGuard_at ?_).go (within_ite (takeFree_within.mono rfl) (.refl _ _)) rfl
    split <;> exact hx
  unfold frameUsed
  extract_lets g x a b c
  have hx : x.1.fault.classP = (s.rus.outlet.at o).fault.classP := by
    rw [← hg]
    unfold x
    split
    · exact key _ _ _
    · rfl
  have hb : Within 3317932687360 s b := h1 x _ hx
  clear_value b
  exact clearFrameCauses_within.go (decideAll_within.go (reportWarnings_within.go hb rfl) rfl) rfl

theorem frameOutlet_within {f : Frame} {o : OutletNo} {s : State} :
    Within 3317932687360 s (frameOutlet f o s) := by
  unfold frameOutlet
  repeat' first
    | apply Eq.refl | exact (fun _ => rfl) | with_reducible (first | apply Within.refl | assumption) | unfold x
    | ((try lift_lets); intro x; first
        | (refine (fun hx => ?_ : Within 3317932687360 s x → _) ?_; clear_value x) | skip)
    | with_reducible (first
        | intro _ | apply within_ite | apply within_ite2 | apply Within.go (State.onGuard_within ?_)
        | apply Within.go frameUsed_within)
    | split

theorem streamStale_within {s : State} :
    Within 19396231168 s (streamStale s) := by
  unfold streamStale
  repeat' first
    | apply Eq.refl | with_reducible (first | apply Within.refl | assumption) | unfold x
    | ((try lift_lets); intro x; first
        | (refine (fun hx => ?_ : Within 19396231168 s x → _) ?_; clear_value x) | skip)
    | fail_if_no_progress ((with_reducible apply within_mk) <;> first
        | with_reducible (first
            | exact .inl rfl | exact (fun x => x) | exact .inl (fun _ x => x) | apply Nat.le_refl
            | exact fun _ => Nat.le_refl _)
        | exact .inr rfl | skip)
    | with_reducible (first
        | intro _ | apply within_ite | apply within_ite2 | apply Within.via (forEach_within ?_)
        | apply Within.go raise_within | apply Within.go tripE_within)
    | split

theorem takeRoles_within {s : State} : Within 65536 s (takeRoles s) := by
  have key : ∀ i, ((s.rus.outlet.mapN fun o g => takeRole s (Fin.ofNat 64 o) g).at i).fault.classP =
      (s.rus.outlet.at i).fault.classP := by
    intro i
    rw [Tab.at_mapN]
    rfl
  unfold takeRoles
  apply within_mk (.refl _ _)
  case hl => exact fun h i hi => h i ((key i).symm.trans hi)
  case ha => exact .inl fun i hi => (key i).trans hi
  all_goals first
    | with_reducible (first
        | exact .refl _ _ | exact .inl rfl | exact id | exact .inl (fun _ => id) | exact (fun _ => Nat.le_refl _)
        | exact Nat.le_refl _)
    | exact .inr rfl

theorem quantityFrame_within {f : Frame} {s : State} :
    Within 3317933473792 s (quantityFrame f s) := by
  unfold quantityFrame
  repeat' first
    | apply Eq.refl | with_reducible (first | apply Within.refl | assumption) | unfold x
    | ((try lift_lets); intro x; first
        | (refine (fun hx => ?_ : Within 3317933473792 s x → _) ?_; clear_value x) | skip)
    | fail_if_no_progress ((with_reducible apply within_mk) <;> first
        | with_reducible (first
            | exact .inl rfl | exact (fun x => x) | exact .inl (fun _ x => x) | apply Nat.le_refl
            | exact fun _ => Nat.le_refl _)
        | exact .inr rfl | skip)
    | with_reducible (first
        | intro _ | apply within_ite | apply within_ite2 | apply Within.via (forEach_within ?_)
        | apply Within.go commitLimited_within | apply Within.go frameOutlet_within
        | apply Within.go streamStale_within | apply Within.go takeRoles_within)
    | split

theorem streamTimeout_within {s : State} :
    Within 19396231168 s (streamTimeout s) := by
  unfold streamTimeout
  repeat' first
    | apply Eq.refl | with_reducible (first | apply Within.refl | assumption)
    | fail_if_no_progress ((with_reducible apply within_mk) <;> first
        | with_reducible (first
            | exact .inl rfl | exact (fun x => x) | exact .inl (fun _ x => x) | apply Nat.le_refl
            | exact fun _ => Nat.le_refl _)
        | exact .inr rfl | skip)
    | with_reducible (first | intro _ | apply within_ite | apply within_ite2 | apply Within.go streamStale_within)
    | split

theorem streamFresh_within {units : Nat} {s : State} :
    Within 17247502336 s (streamFresh units s) := by
  unfold streamFresh
  repeat' first
    | apply Eq.refl | with_reducible (first | apply Within.refl | assumption) | unfold x
    | ((try lift_lets); intro x; first
        | (refine (fun hx => ?_ : Within 17247502336 s x → _) ?_; clear_value x) | skip)
    | fail_if_no_progress ((with_reducible apply within_mk) <;> first
        | with_reducible (first
            | exact .inl rfl | exact (fun x => x) | exact .inl (fun _ x => x) | apply Nat.le_refl
            | exact fun _ => Nat.le_refl _)
        | exact .inr rfl | skip)
    | with_reducible (first | intro _ | apply within_ite | apply within_ite2 | apply Within.go raiseEnd_within)
    | split

theorem streamLockout_within {s : State} :
    Within 1118909431808 s (streamLockout s) := by
  unfold streamLockout
  repeat' first
    | apply Eq.refl | with_reducible (first | apply Within.refl | assumption)
    | with_reducible (first
        | intro _ | apply within_ite | apply within_ite2 | apply Within.via (forEach_within ?_)
        | apply Within.go tripP_within)
    | split

theorem streamClassEEnd_within {s : State} :
    Within 17248092160 s (streamClassEEnd s) := by
  unfold streamClassEEnd
  repeat' first
    | apply Eq.refl | with_reducible (first | apply Within.refl | assumption)
    | with_reducible (first
        | intro _ | apply within_ite | apply within_ite2 | apply Within.via (forEach_within ?_)
        | apply Within.go clearCause_within)
    | split

theorem fastPath_within {i : InputNo} {bits : Bits} {s : State} :
    Within 1118909431808 s (fastPath i bits s) := by
  unfold fastPath
  repeat' first
    | apply Eq.refl | with_reducible (first | apply Within.refl | assumption) | unfold x
    | ((try lift_lets); intro x; first
        | (refine (fun hx => ?_ : Within 1118909431808 s x → _) ?_; clear_value x) | skip)
    | with_reducible (first
        | intro _ | apply within_ite | apply within_ite2 | apply Within.go tripP_within
        | apply Within.go tripOpen_within)
    | split

theorem holdExpiry_within {o : OutletNo} {dc : Bool} {k : PointNo} {s : State} :
    Within 1118909431808 s (holdExpiry o dc k s) := by
  unfold holdExpiry
  repeat' first
    | apply Eq.refl | exact (fun _ => rfl) | with_reducible (first | apply Within.refl | assumption) | unfold x
    | ((try lift_lets); intro x; first
        | (refine (fun hx => ?_ : Within 1118909431808 s x → _) ?_; clear_value x) | skip)
    | with_reducible (first
        | intro _ | apply within_ite | apply within_ite2 | apply Within.go (State.onGuard_within ?_)
        | apply Within.go tripP_within)
    | split

theorem injectorFailure_within {o : OutletNo} {s : State} :
    Within 19395706880 s (injectorFailure o s) := by
  unfold injectorFailure
  repeat' first
    | apply Eq.refl | exact (fun _ => rfl) | with_reducible (first | apply Within.refl | assumption)
    | with_reducible (first
        | intro _ | apply within_ite | apply within_ite2 | apply Within.go (State.onGuard_within ?_)
        | apply Within.go tripE_within)
    | split

theorem weldNotTested_within {o : OutletNo} {s : State} :
    Within 17247043584 s (weldNotTested o s) := by
  unfold weldNotTested
  repeat' first
    | apply Eq.refl | exact (fun _ => rfl) | with_reducible (first | apply Within.refl | assumption)
    | with_reducible (first | intro _ | apply Within.go (State.onGuard_within ?_) | apply Within.go raise_within)
    | split

theorem weldCheck_within {o : OutletNo} {fs : List (List Rat)} {s : State} :
    Within 1118909431808 s (weldCheck o fs s) := by
  unfold weldCheck
  repeat' first
    | apply Eq.refl | exact (fun _ => rfl) | with_reducible (first | apply Within.refl | assumption) | unfold x
    | ((try lift_lets); intro x; first
        | (refine (fun hx => ?_ : Within 1118909431808 s x → _) ?_; clear_value x) | skip)
    | with_reducible (first
        | intro _ | apply within_ite | apply within_ite2 | apply Within.go (State.onGuard_within ?_)
        | apply Within.go tripP_within | apply Within.go weldNotTested_within)
    | split

theorem peLossDc_within {o : OutletNo} {s : State} :
    Within 1118909431808 s (peLossDc o s) := by
  unfold peLossDc
  repeat' first
    | apply Eq.refl | with_reducible (first | apply Within.refl | assumption)
    | with_reducible (first | intro _ | apply within_ite | apply within_ite2 | apply Within.go tripP_within) | split

theorem redundantDisagreement_within {o : OutletNo} {s : State} :
    Within 19395706880 s (redundantDisagreement o s) := by
  unfold redundantDisagreement
  repeat' first
    | apply Eq.refl | exact (fun _ => rfl) | with_reducible (first | apply Within.refl | assumption)
    | with_reducible (first
        | intro _ | apply within_ite | apply within_ite2 | apply Within.go (State.onGuard_within ?_)
        | apply Within.go tripE_within)
    | split

theorem redundantEnd_within {o : OutletNo} {s : State} :
    Within 17248092160 s (redundantEnd o s) := by
  unfold redundantEnd
  repeat' first
    | apply Eq.refl | exact (fun _ => rfl) | with_reducible (first | apply Within.refl | assumption)
    | with_reducible (first
        | intro _ | apply within_ite | apply within_ite2 | apply Within.go (State.onGuard_within ?_)
        | apply Within.go clearCause_within)
    | split

theorem inputInvalidTimeout_within {o : OutletNo} {s : State} :
    Within 1118909431808 s (inputInvalidTimeout o s) := by
  unfold inputInvalidTimeout
  repeat' first
    | apply Eq.refl | with_reducible (first | apply Within.refl | assumption)
    | with_reducible (first | intro _ | apply within_ite | apply within_ite2 | apply Within.go tripP_within) | split

theorem supervisionStart_within {o : OutletNo} {s : State} :
    Within 65536 s (supervisionStart o s) := by
  unfold supervisionStart
  repeat' first
    | apply Eq.refl | exact (fun _ => rfl) | with_reducible (first | apply Within.refl | assumption) | unfold x
    | ((try lift_lets); intro x; first | (refine (fun hx => ?_ : Within 65536 s x → _) ?_; clear_value x) | skip)
    | with_reducible (first
        | intro _ | apply within_ite | apply within_ite2 | apply Within.go (State.onGuard_within ?_))
    | split

theorem classEOvercurrent_within {o : OutletNo} {s : State} :
    Within 19395706880 s (classEOvercurrent o s) := by
  unfold classEOvercurrent
  repeat' first
    | apply Eq.refl | with_reducible (first | apply Within.refl | assumption) | unfold x
    | ((try lift_lets); intro x; first
        | (refine (fun hx => ?_ : Within 19395706880 s x → _) ?_; clear_value x) | skip)
    | with_reducible (first | intro _ | apply within_ite | apply within_ite2 | apply Within.go tripOpen_within)
    | split

theorem classEExpiry_within {o : OutletNo} {s : State} :
    Within 19395706880 s (classEExpiry o s) := by
  unfold classEExpiry
  repeat' first
    | apply Eq.refl | exact (fun _ => rfl) | with_reducible (first | apply Within.refl | assumption) | unfold x
    | ((try lift_lets); intro x; first
        | (refine (fun hx => ?_ : Within 19395706880 s x → _) ?_; clear_value x) | skip)
    | with_reducible (first
        | intro _ | apply within_ite | apply within_ite2 | apply Within.go (State.onGuard_within ?_)
        | apply Within.go tripOpen_within)
    | split

theorem estopTrip_within {c : EstopNo} {cause : Byte} {s : State} :
    Within 1118909693952 s (estopTrip c cause s) := by
  unfold estopTrip
  repeat' first
    | apply Eq.refl | with_reducible (first | apply Within.refl | assumption) | unfold x
    | ((try lift_lets); intro x; first
        | (refine (fun hx => ?_ : Within 1118909693952 s x → _) ?_; clear_value x) | skip)
    | with_reducible (first
        | intro _ | apply Within.go raise_within | apply Within.go tripP_within | apply Within.go engageBrake_within
        | apply within_foldl)
    | split

theorem estopLevel_within {c : EstopNo} {inputB : Bool} {stop : Bool} {samples : Nat} {s : State} :
    Within 1118910218240 s (estopLevel c inputB stop samples s) := by
  unfold estopLevel
  repeat' first
    | apply Eq.refl | with_reducible (first | apply Within.refl | assumption) | unfold x
    | ((try lift_lets); intro x; first
        | (refine (fun hx => ?_ : Within 1118910218240 s x → _) ?_; clear_value x) | skip)
    | with_reducible (first
        | intro _ | apply within_ite | apply within_ite2 | apply Within.go State.onEstop_within
        | apply Within.go raiseEnd_within | apply Within.go estopTrip_within)
    | split

theorem estopDiscrepancy_within {c : EstopNo} {s : State} :
    Within 1118910218240 s (estopDiscrepancy c s) := by
  unfold estopDiscrepancy
  repeat' first
    | apply Eq.refl | with_reducible (first | apply Within.refl | assumption) | unfold x
    | ((try lift_lets); intro x; first
        | (refine (fun hx => ?_ : Within 1118910218240 s x → _) ?_; clear_value x) | skip)
    | with_reducible (first
        | intro _ | apply within_ite | apply within_ite2 | apply Within.go State.onEstop_within
        | apply Within.go estopTrip_within)
    | split

theorem refuseClose_within {o : OutletNo} {n : Nat} {s : State} :
    Within 17249140736 s (refuseClose o n s) := by
  unfold refuseClose
  repeat' first
    | apply Eq.refl | exact (fun _ => rfl) | with_reducible (first | apply Within.refl | assumption) | unfold x
    | ((try lift_lets); intro x; first
        | (refine (fun hx => ?_ : Within 17249140736 s x → _) ?_; clear_value x) | skip)
    | with_reducible (first
        | intro _ | apply Within.go (State.onGuard_within ?_) | apply Within.go State.onSession_within
        | apply Within.go raise_within)
    | split

theorem grantClose_within {o : OutletNo} {s : State} (hc : (s.rus.outlet.at o).fault.classP = false) :
    Within 2147680256 s (grantClose o s) := by
  have h1 : ∀ f, Within 2147680256 s ((abandonTest (coilOf o) s).onPair (coilOf o) f) := fun f =>
    (onPair_open (s := abandonTest (coilOf o) s) hc).go (abandonTest_within.mono rfl) rfl
  unfold grantClose
  dsimp only
  repeat' first
    | apply Eq.refl | exact (fun _ => rfl) | exact (fun _ h1 h2 => ⟨h1, h2⟩) | exact (fun _ _ _ => ⟨rfl, rfl⟩)
    | with_reducible (first | apply Within.refl | assumption) | apply h1 | unfold x
    | ((try lift_lets); intro x; first | (refine (fun hx => ?_ : Within 2147680256 s x → _) ?_; clear_value x) | skip)
    | fail_if_no_progress ((with_reducible apply within_mk) <;> first
        | with_reducible (first
            | exact .inl rfl | exact (fun x => x) | exact .inl (fun _ x => x) | apply Nat.le_refl
            | exact fun _ => Nat.le_refl _)
        | exact .inr rfl | skip)
    | with_reducible (first
        | intro _ | apply within_ite | apply within_ite2 | apply Within.go (State.onGuard_within ?_)
        | apply Within.go (State.onPair_within ?_) | apply Within.go abandonTest_within)
    | split

theorem decideClose_within {o : OutletNo} {s : State} : Within 19396755456 s (decideClose o s) := by
  unfold decideClose
  split
  · rename_i h
    refine (grantClose_within ?_).mono rfl
    cases hp : (s.rus.outlet.at o).fault.classP
    · rfl
    · cases he : (s.rus.outlet.at o).enable <;> simp [closeRefusal, permissives, firstFailing, hp, he] at h
  · repeat' first
      | apply Eq.refl | with_reducible (first | apply Within.refl | assumption)
      | with_reducible (first | intro _ | apply Within.go refuseClose_within | apply Within.go grantClose_within)
      | split

theorem closeRequest_within {o : OutletNo} {openSameCycle : Bool} {s : State} :
    Within 19396755456 s (closeRequest o openSameCycle s) := by
  unfold closeRequest
  repeat' first
    | apply Eq.refl | exact (fun _ => rfl) | with_reducible (first | apply Within.refl | assumption) | unfold x
    | ((try lift_lets); intro x; first
        | (refine (fun hx => ?_ : Within 19396755456 s x → _) ?_; clear_value x) | skip)
    | with_reducible (first
        | intro _ | apply within_ite | apply within_ite2 | apply Within.go (State.onGuard_within ?_)
        | apply Within.go refuseClose_within | apply Within.go decideClose_within)
    | split

theorem mirrorGrant_within {o : OutletNo} {s : State} :
    Within 19396755456 s (mirrorGrant o s) := by
  unfold mirrorGrant
  repeat' first
    | apply Eq.refl | exact (fun _ => rfl) | with_reducible (first | apply Within.refl | assumption) | unfold x
    | ((try lift_lets); intro x; first
        | (refine (fun hx => ?_ : Within 19396755456 s x → _) ?_; clear_value x) | skip)
    | with_reducible (first
        | intro _ | apply within_ite | apply within_ite2 | apply Within.go (State.onGuard_within ?_)
        | apply Within.go decideClose_within)
    | split

theorem switchOn_within {o : OutletNo} {s : State} : Within 17247174656 s (switchOn o s) := by
  unfold switchOn
  split
  · rename_i h
    have hb : (s.rus.pair.at (coilOf o)).turn ≠ .idle := by simp_all
    dsimp only
    repeat' first
      | apply Eq.refl | exact (fun _ => rfl) | exact (fun _ h1 h2 => ⟨h1, h2⟩) | exact (fun _ _ _ => ⟨rfl, rfl⟩)
      | with_reducible (first | apply Within.refl | assumption) | (with_reducible apply Within.go (onPair_busy hb))
      | unfold x
      | ((try lift_lets); intro x; first
          | (refine (fun hx => ?_ : Within 17247174656 s x → _) ?_; clear_value x) | skip)
      | with_reducible (first
          | intro _ | apply within_ite | apply within_ite2 | apply Within.go (State.onGuard_within ?_)
          | apply Within.go (State.onPair_within ?_) | apply Within.go weldNotTested_within)
      | split
  · exact .refl _ _

theorem highSideOn_within {o : OutletNo} {s : State} : Within 19395706880 s (highSideOn o s) := by
  unfold highSideOn
  split
  · rename_i h
    have hb : (s.rus.pair.at (coilOf o)).turn ≠ .idle := by simp_all
    dsimp only
    repeat' first
      | apply Eq.refl | exact (fun _ => rfl) | exact (fun _ h1 h2 => ⟨h1, h2⟩) | exact (fun _ _ _ => ⟨rfl, rfl⟩)
      | with_reducible (first | apply Within.refl | assumption) | (with_reducible apply Within.go (onPair_busy hb))
      | unfold x
      | ((try lift_lets); intro x; first
          | (refine (fun hx => ?_ : Within 19395706880 s x → _) ?_; clear_value x) | skip)
      | with_reducible (first
          | intro _ | apply within_ite | apply within_ite2 | apply Within.go (State.onGuard_within ?_)
          | apply Within.go (State.onPair_within ?_) | apply Within.go tripE_within)
      | split
  · exact .refl _ _

theorem readback_within {p : PairNo} {vh : RbLevel} {vl : RbLevel} {s : State} :
    Within 131072 s (readback p vh vl s) := by
  unfold readback
  repeat' first
    | apply Eq.refl | exact (fun _ h1 h2 => ⟨h1, h2⟩) | exact (fun _ _ _ => ⟨rfl, rfl⟩)
    | with_reducible (first | apply Within.refl | assumption)
    | with_reducible (first | intro _ | apply Within.go (State.onPair_within ?_)) | split

theorem turnOnCheck_within {o : OutletNo} {vh vl : RbLevel} {s : State} : Within 1118909693952 s
    (turnOnCheck o vh vl s) := by
  unfold turnOnCheck
  dsimp only
  have h1 : ∀ (t : State) (p : PairNo), Within 131072 t (t.onPair p fun p => { p with turn := .idle }) :=
    fun t p => onPair_at fun _ h => ⟨h, rfl⟩
  repeat' first
    | apply Eq.refl | exact (fun _ h1 h2 => ⟨h1, h2⟩) | exact (fun _ _ _ => ⟨rfl, rfl⟩)
    | with_reducible (first | apply Within.refl | assumption) | (with_reducible apply Within.go (h1 _ _)) | unfold x
    | ((try lift_lets); intro x; first
        | (refine (fun hx => ?_ : Within 1118909693952 s x → _) ?_; clear_value x) | skip)
    | with_reducible (first
        | intro _ | apply within_ite | apply within_ite2 | apply Within.go (State.onPair_within ?_)
        | apply Within.go switchFault_within | apply Within.go readback_within)
    | split

theorem leaseExpiry_within {s : State} :
    Within 5767168 s (leaseExpiry s) := by
  unfold leaseExpiry
  repeat' first
    | apply Eq.refl | with_reducible (first | apply Within.refl | assumption) | unfold x
    | ((try lift_lets); intro x; first | (refine (fun hx => ?_ : Within 5767168 s x → _) ?_; clear_value x) | skip)
    | fail_if_no_progress ((with_reducible apply within_mk) <;> first
        | with_reducible (first
            | exact .inl rfl | exact (fun x => x) | exact .inl (fun _ x => x) | apply Nat.le_refl
            | exact fun _ => Nat.le_refl _)
        | exact .inr rfl | skip)
    | with_reducible (first | intro _ | apply within_ite | apply within_ite2 | apply Within.go refreshDrives_within)
    | split

theorem pendingModes_within {o : OutletNo} {s : State} :
    Within 37749248 s (pendingModes o s) := by
  unfold pendingModes
  repeat' first
    | apply Eq.refl | with_reducible (first | apply Within.refl | assumption) | unfold x
    | ((try lift_lets); intro x; first | (refine (fun hx => ?_ : Within 37749248 s x → _) ?_; clear_value x) | skip)
    | fail_if_no_progress ((with_reducible apply within_mk) <;> first
        | with_reducible (first
            | exact .inl rfl | exact (fun x => x) | exact .inl (fun _ x => x) | apply Nat.le_refl
            | exact fun _ => Nat.le_refl _)
        | exact .inr rfl | skip)
    | with_reducible (first | intro _ | apply within_ite | apply within_ite2) | split

theorem overCurrent_within {p : PairNo} {s : State} :
    Within 1118909693952 s (overCurrent p s) := by
  unfold overCurrent
  repeat' first
    | apply Eq.refl | with_reducible (first | apply Within.refl | assumption) | unfold x
    | ((try lift_lets); intro x; first
        | (refine (fun hx => ?_ : Within 1118909693952 s x → _) ?_; clear_value x) | skip)
    | with_reducible (first | intro _ | apply within_ite | apply within_ite2 | apply Within.go switchFault_within)
    | split

theorem readbackDeparture_within {p : PairNo} {vh : RbLevel} {vl : RbLevel} {us : Nat} {s : State} :
    Within 1118909693952 s (readbackDeparture p vh vl us s) := by
  unfold readbackDeparture
  repeat' first
    | apply Eq.refl | with_reducible (first | apply Within.refl | assumption) | unfold x
    | ((try lift_lets); intro x; first
        | (refine (fun hx => ?_ : Within 1118909693952 s x → _) ?_; clear_value x) | skip)
    | with_reducible (first
        | intro _ | apply within_ite | apply within_ite2 | apply Within.go switchFault_within
        | apply Within.go readback_within)
    | split

theorem startTest_within {p : PairNo} {s : State} : Within 131072 s (startTest p s) := by
  unfold startTest
  dsimp only
  split
  · exact .refl _ _
  · refine State.onPair_within fun x h1 h2 => ?_
    repeat' split
    all_goals exact ⟨h1, h2⟩

theorem testFaults_within {p : PairNo} {own : Option Byte} {others : List PairNo} {s : State} :
    Within 1118909693952 s (testFaults p own others s) := by
  unfold testFaults
  repeat' first
    | apply Eq.refl | with_reducible (first | apply Within.refl | assumption) | unfold x
    | ((try lift_lets); intro x; first
        | (refine (fun hx => ?_ : Within 1118909693952 s x → _) ?_; clear_value x) | skip)
    | with_reducible (first
        | intro _ | apply within_ite | apply within_ite2 | apply Within.go switchFault_within | apply within_foldl)
    | split

theorem offPulseCheck_within {p : PairNo} {vh : RbLevel} {vl : RbLevel} {others : List PairNo} {s : State} :
    Within 1118909693952 s (offPulseCheck p vh vl others s) := by
  unfold offPulseCheck
  repeat' first
    | apply Eq.refl | with_reducible (first | apply Within.refl | assumption)
    | with_reducible (first
        | intro _ | apply within_ite | apply within_ite2 | apply Within.go readback_within
        | apply Within.go testFaults_within)
    | split

theorem offPulseEnd_within {p : PairNo} {s : State} :
    Within 131072 s (offPulseEnd p s) := by
  unfold offPulseEnd
  repeat' first
    | apply Eq.refl | exact (fun _ h1 h2 => ⟨h1, h2⟩) | exact (fun _ _ _ => ⟨rfl, rfl⟩)
    | with_reducible (first | apply Within.refl | assumption)
    | with_reducible (first
        | intro _ | apply within_ite | apply within_ite2 | apply Within.go (State.onPair_within ?_))
    | split <;> try with_reducible cases congrArg Prod.snd ‹_ = (_, _)›

theorem offPulseRestore_within {p : PairNo} {vh : RbLevel} {vl : RbLevel} {s : State} :
    Within 1118909693952 s (offPulseRestore p vh vl s) := by
  unfold offPulseRestore
  repeat' first
    | apply Eq.refl | exact (fun _ h1 h2 => ⟨h1, h2⟩) | exact (fun _ _ _ => ⟨rfl, rfl⟩)
    | with_reducible (first | apply Within.refl | assumption) | unfold x
    | ((try lift_lets); intro x; first
        | (refine (fun hx => ?_ : Within 1118909693952 s x → _) ?_; clear_value x) | skip)
    | with_reducible (first
        | intro _ | apply within_ite | apply within_ite2 | apply Within.go (State.onPair_within ?_)
        | apply Within.go readback_within | apply Within.go testFaults_within)
    | split

theorem onPulseCheck_within {p : PairNo} {vl : RbLevel} {others : List PairNo} {s : State} :
    Within 1118909693952 s (onPulseCheck p vl others s) := by
  unfold onPulseCheck
  repeat' first
    | apply Eq.refl | exact (fun _ h1 h2 => ⟨h1, h2⟩) | exact (fun _ _ _ => ⟨rfl, rfl⟩)
    | with_reducible (first | apply Within.refl | assumption)
    | with_reducible (first
        | intro _ | apply within_ite | apply within_ite2 | apply Within.go (State.onPair_within ?_)
        | apply Within.go testFaults_within)
    | split

theorem onPulseEnd_within {p : PairNo} {s : State} :
    Within 131072 s (onPulseEnd p s) := by
  unfold onPulseEnd
  repeat' first
    | apply Eq.refl | exact (fun _ h1 h2 => ⟨h1, h2⟩) | exact (fun _ _ _ => ⟨rfl, rfl⟩)
    | with_reducible (first | apply Within.refl | assumption)
    | with_reducible (first
        | intro _ | apply within_ite | apply within_ite2 | apply Within.go (State.onPair_within ?_))
    | split

theorem showMirror_within {o : OutletNo} {showsOpen : Bool} {s : State} :
    Within 65536 s (showMirror o showsOpen s) := by
  unfold showMirror
  repeat' first
    | apply Eq.refl | exact (fun _ => rfl) | with_reducible (first | apply Within.refl | assumption)
    | with_reducible (first | intro _ | apply Within.go (State.onGuard_within ?_)) | split

theorem contactFault_within {o : OutletNo} {showsOpen : Bool} {s : State} :
    Within 1118909431808 s (contactFault o showsOpen s) := by
  unfold contactFault
  repeat' first
    | apply Eq.refl | with_reducible (first | apply Within.refl | assumption)
    | with_reducible (first
        | intro _ | apply within_ite | apply within_ite2 | apply Within.go tripP_within
        | apply Within.go tripOpen_within)
    | split

theorem mirrorTimeout_within {o : OutletNo} {showsOpen : Bool} {s : State} :
    Within 1118909431808 s (mirrorTimeout o showsOpen s) := by
  unfold mirrorTimeout
  repeat' first
    | apply Eq.refl | with_reducible (first | apply Within.refl | assumption) | unfold x
    | ((try lift_lets); intro x; first
        | (refine (fun hx => ?_ : Within 1118909431808 s x → _) ?_; clear_value x) | skip)
    | with_reducible (first
        | intro _ | apply within_ite | apply within_ite2 | apply Within.go showMirror_within
        | apply Within.go contactFault_within)
    | split

theorem mirrorUncommanded_within {o : OutletNo} {showsOpen : Bool} {s : State} :
    Within 1118909431808 s (mirrorUncommanded o showsOpen s) := by
  unfold mirrorUncommanded
  repeat' first
    | apply Eq.refl | with_reducible (first | apply Within.refl | assumption) | unfold x
    | ((try lift_lets); intro x; first
        | (refine (fun hx => ?_ : Within 1118909431808 s x → _) ?_; clear_value x) | skip)
    | with_reducible (first
        | intro _ | apply within_ite | apply within_ite2 | apply Within.go showMirror_within
        | apply Within.go contactFault_within)
    | split

theorem setBrake_within {b : BrakeNo} {st : BrakeState} {s : State} :
    Within 17247240192 s (setBrake b st s) := by
  unfold setBrake
  repeat' first
    | apply Eq.refl | with_reducible (first | apply Within.refl | assumption)
    | with_reducible (first | intro _ | apply Within.go State.onBrake_within | apply Within.go raise_within) | split

theorem releaseBrake_within {b : BrakeNo} {s : State} : Within 17247371264 s (releaseBrake b s) := by
  have h1 : ∀ o, coilOf o ≠ brakeOf b := by
    intro o
    simp only [brakeOf, coilOf, Fin.ext_iff, Fin.ofNat, ne_eq]
    omega
  unfold releaseBrake
  dsimp only
  repeat' first
    | apply Eq.refl | exact (fun _ h1 h2 => ⟨h1, h2⟩) | exact (fun _ _ _ => ⟨rfl, rfl⟩)
    | with_reducible (first | apply Within.refl | assumption) | (with_reducible apply Within.go (onPair_brake h1))
    | unfold x
    | ((try lift_lets); intro x; first
        | (refine (fun hx => ?_ : Within 17247371264 s x → _) ?_; clear_value x) | skip)
    | with_reducible (first
        | intro _ | apply Within.go (State.onPair_within ?_) | apply Within.go abandonTest_within
        | apply Within.go setBrake_within)
    | split

theorem startHolding_within {b : BrakeNo} {s : State} :
    Within 17247371264 s (startHolding b s) := by
  unfold startHolding
  repeat' first
    | apply Eq.refl | with_reducible (first | apply Within.refl | assumption) | unfold x
    | ((try lift_lets); intro x; first
        | (refine (fun hx => ?_ : Within 17247371264 s x → _) ?_; clear_value x) | skip)
    | with_reducible (first
        | intro _ | apply Within.go State.onBrake_within | apply Within.go abandonTest_within
        | apply Within.go setBrake_within)
    | split

theorem releaseCheck_within {b : BrakeNo} {released : Bool} {rise : List Nat} {s : State} :
    Within 1118909693952 s (releaseCheck b released rise s) := by
  unfold releaseCheck
  repeat' first
    | apply Eq.refl | with_reducible (first | apply Within.refl | assumption)
    | with_reducible (first
        | intro _ | apply within_ite | apply within_ite2 | apply Within.go failBrake_within
        | apply Within.go setBrake_within)
    | split

theorem engageCheck_within {b : BrakeNo} {engaged : Bool} {s : State} :
    Within 1118909693952 s (engageCheck b engaged s) := by
  unfold engageCheck
  repeat' first
    | apply Eq.refl | with_reducible (first | apply Within.refl | assumption)
    | with_reducible (first
        | intro _ | apply within_ite | apply within_ite2 | apply Within.go State.onBrake_within
        | apply Within.go failBrake_within | apply Within.go setBrake_within)
    | split

theorem currentFault_within {b : BrakeNo} {currents : List Nat} {s : State} :
    Within 1118909693952 s (currentFault b currents s) := by
  unfold currentFault
  repeat' first
    | apply Eq.refl | with_reducible (first | apply Within.refl | assumption)
    | with_reducible (first | intro _ | apply within_ite | apply within_ite2 | apply Within.go failBrake_within)
    | split

theorem noteDelta_within {b : BrakeNo} {delta : Nat} {s : State} :
    Within 262144 s (noteDelta b delta s) := by
  unfold noteDelta
  repeat' first
    | apply Eq.refl | with_reducible (first | apply Within.refl | assumption)
    | with_reducible (first | intro _ | apply Within.go State.onBrake_within) | split

theorem holdingMovement_within {b : BrakeNo} {samples : List (Bool × Bool)} {s : State} :
    Within 1118909693952 s (holdingMovement b samples s) := by
  unfold holdingMovement
  repeat' first
    | apply Eq.refl | with_reducible (first | apply Within.refl | assumption) | unfold x
    | ((try lift_lets); intro x; first
        | (refine (fun hx => ?_ : Within 1118909693952 s x → _) ?_; clear_value x) | skip)
    | with_reducible (first
        | intro _ | apply within_ite | apply within_ite2 | apply Within.go failBrake_within
        | apply Within.go noteDelta_within)
    | split

theorem torqueEnd_within {b : BrakeNo} {s : State} :
    Within 262144 s (torqueEnd b s) := by
  unfold torqueEnd
  repeat' first
    | apply Eq.refl | with_reducible (first | apply Within.refl | assumption)
    | with_reducible (first | intro _ | apply within_ite | apply within_ite2 | apply Within.go State.onBrake_within)
    | split

theorem passHolding_within {b : BrakeNo} {s : State} :
    Within 17247240192 s (passHolding b s) := by
  unfold passHolding
  repeat' first
    | apply Eq.refl | with_reducible (first | apply Within.refl | assumption) | unfold x
    | ((try lift_lets); intro x; first
        | (refine (fun hx => ?_ : Within 17247240192 s x → _) ?_; clear_value x) | skip)
    | with_reducible (first
        | intro _ | apply within_ite | apply within_ite2 | apply Within.go State.onBrake_within
        | apply Within.go setBrake_within)
    | split

theorem holdingEnd_within {b : BrakeNo} {samples : List (Bool × Bool)} {s : State} :
    Within 1118909693952 s (holdingEnd b samples s) := by
  unfold holdingEnd
  repeat' first
    | apply Eq.refl | with_reducible (first | apply Within.refl | assumption) | unfold x
    | ((try lift_lets); intro x; first
        | (refine (fun hx => ?_ : Within 1118909693952 s x → _) ?_; clear_value x) | skip)
    | with_reducible (first
        | intro _ | apply within_ite | apply within_ite2 | apply Within.go failBrake_within
        | apply Within.go noteDelta_within | apply Within.go passHolding_within)
    | split

theorem holdingOverdue_within {b : BrakeNo} {s : State} :
    Within 262144 s (holdingOverdue b s) := by
  unfold holdingOverdue
  repeat' first
    | apply Eq.refl | with_reducible (first | apply Within.refl | assumption)
    | with_reducible (first | intro _ | apply within_ite | apply within_ite2 | apply Within.go State.onBrake_within)
    | split

end Sys2Proof.Machine
end

