-- ==== Sys2Proof/Laws/WithinMeter.lean ====
section
/-! SUPPORT. What the operations of metering, legal records, sessions and the display may do at most, one lemma each. -/

set_option linter.unusedTactic false
set_option linter.unreachableTactic false
set_option linter.unusedVariables false

namespace Sys2Proof.Machine

theorem hostTraffic_within {p : PortNo} {s : State} :
    Within 51606716416 s (hostTraffic p s) := by
  unfold hostTraffic
  repeat' first
    | apply Eq.refl | with_reducible (first | apply Within.refl | assumption)
    | with_reducible (first
        | intro _ | apply within_ite | apply within_ite2 | apply Within.go State.onPort_within
        | apply Within.go raiseEnd_within)
    | split

theorem accessRefused_within {p : PortNo} {s : State} :
    Within 51606716416 s (accessRefused p s) := by
  unfold accessRefused
  repeat' first
    | apply Eq.refl | with_reducible (first | apply Within.refl | assumption)
    | with_reducible (first | intro _ | apply Within.go State.onPort_within | apply Within.go raise_within) | split

theorem doorbellRefused_within {p : PortNo} {s : State} :
    Within 51606716416 s (doorbellRefused p s) := by
  unfold doorbellRefused
  repeat' first
    | apply Eq.refl | with_reducible (first | apply Within.refl | assumption)
    | with_reducible (first | intro _ | apply Within.go State.onPort_within | apply Within.go raise_within) | split

theorem enableRings_within {p : PortNo} {s : State} :
    Within 103079215104 s (enableRings p s) := by
  unfold enableRings
  repeat' first
    | apply Eq.refl | with_reducible (first | apply Within.refl | assumption) | unfold x
    | ((try lift_lets); intro x; first
        | (refine (fun hx => ?_ : Within 103079215104 s x → _) ?_; clear_value x) | skip)
    | with_reducible (first | intro _ | apply Within.go State.onPort_within | apply Within.go poolClear_within)
    | split

theorem disableRings_within {p : PortNo} {s : State} :
    Within 34359738368 s (disableRings p s) := by
  unfold disableRings
  repeat' first
    | apply Eq.refl | with_reducible (first | apply Within.refl | assumption) | unfold x
    | ((try lift_lets); intro x; first
        | (refine (fun hx => ?_ : Within 34359738368 s x → _) ?_; clear_value x) | skip)
    | fail_if_no_progress ((with_reducible apply within_mk) <;> first
        | with_reducible (first
            | exact .inl rfl | exact (fun x => x) | exact .inl (fun _ x => x) | apply Nat.le_refl
            | exact fun _ => Nat.le_refl _)
        | exact .inr rfl | skip)
    | with_reducible (first | intro _ | apply within_ite | apply within_ite2 | apply Within.go State.onPort_within)
    | split

theorem setRings_within {p : PortNo} {on : Bool} {s : State} :
    Within 103079215104 s (setRings p on s) := by
  unfold setRings
  repeat' first
    | apply Eq.refl | with_reducible (first | apply Within.refl | assumption)
    | with_reducible (first | intro _ | apply Within.go enableRings_within | apply Within.go disableRings_within)
    | split <;> try with_reducible cases congrArg Prod.snd ‹_ = (_, _)›

theorem writePortCtrl_within {p : PortNo} {v : Word} {s : State} :
    Within 103079215104 s (writePortCtrl p v s) := by
  unfold writePortCtrl
  repeat' first
    | apply Eq.refl | with_reducible (first | apply Within.refl | assumption) | unfold x
    | ((try lift_lets); intro x; first
        | (refine (fun hx => ?_ : Within 103079215104 s x → _) ?_; clear_value x) | skip)
    | with_reducible (first
        | intro _ | apply within_ite | apply within_ite2 | apply Within.go State.onPort_within
        | apply Within.go setRings_within)
    | split

theorem ring_within {p : PortNo} {urgent : Bool} {v : BitVec 16} {s : State} :
    Within 51606716416 s (ring p urgent v s) := by
  unfold ring
  repeat' first
    | apply Eq.refl | with_reducible (first | apply Within.refl | assumption) | unfold x
    | ((try lift_lets); intro x; first
        | (refine (fun hx => ?_ : Within 51606716416 s x → _) ?_; clear_value x) | skip)
    | with_reducible (first
        | intro _ | apply within_ite | apply within_ite2 | apply Within.go State.onPort_within
        | apply Within.go doorbellRefused_within)
    | split

theorem consume_within {p : PortNo} {event : Bool} {v : BitVec 16} {s : State} :
    Within 51606716416 s (consume p event v s) := by
  unfold consume
  repeat' first
    | apply Eq.refl | with_reducible (first | apply Within.refl | assumption) | unfold x
    | ((try lift_lets); intro x; first
        | (refine (fun hx => ?_ : Within 51606716416 s x → _) ?_; clear_value x) | skip)
    | with_reducible (first
        | intro _ | apply within_ite | apply within_ite2 | apply Within.go State.onPort_within
        | apply Within.go doorbellRefused_within)
    | split

theorem writePortRegister_within {p : PortNo} {off : Nat} {v : Word} {s : State} :
    Within 120326193152 s (writePortRegister p off v s) := by
  unfold writePortRegister
  repeat' first
    | apply Eq.refl | with_reducible (first | apply Within.refl | assumption)
    | with_reducible (first
        | intro _ | apply Within.go State.onPort_within | apply Within.go accessRefused_within
        | apply Within.go writePortCtrl_within | apply Within.go ring_within | apply Within.go consume_within)
    | split

theorem writeWindow_within {p : PortNo} {addr : Nat} {v : Word} {s : State} :
    Within 120326717440 s (writeWindow p addr v s) := by
  unfold writeWindow
  repeat' first
    | apply Eq.refl | with_reducible (first | apply Within.refl | assumption) | unfold x
    | ((try lift_lets); intro x; first
        | (refine (fun hx => ?_ : Within 120326717440 s x → _) ?_; clear_value x) | skip)
    | fail_if_no_progress ((with_reducible apply within_mk) <;> first
        | with_reducible (first
            | exact .inl rfl | exact (fun x => x) | exact .inl (fun _ x => x) | apply Nat.le_refl
            | exact fun _ => Nat.le_refl _)
        | exact .inr rfl | skip)
    | with_reducible (first
        | intro _ | apply within_ite | apply within_ite2 | apply Within.go accessRefused_within
        | apply Within.go writePortRegister_within)
    | split

theorem hostWrite_within {p : PortNo} {addr : Nat} {v : Word} {s : State} :
    Within 120326717440 s (hostWrite p addr v s) := by
  unfold hostWrite
  repeat' first
    | apply Eq.refl | with_reducible (first | apply Within.refl | assumption)
    | with_reducible (first
        | intro _ | apply within_ite | apply within_ite2 | apply Within.go hostTraffic_within
        | apply Within.go writeWindow_within)
    | split

theorem closeConnection_within {p : PortNo} {s : State} :
    Within 51606716416 s (closeConnection p s) := by
  unfold closeConnection
  repeat' first
    | apply Eq.refl | with_reducible (first | apply Within.refl | assumption) | unfold x
    | ((try lift_lets); intro x; first
        | (refine (fun hx => ?_ : Within 51606716416 s x → _) ?_; clear_value x) | skip)
    | with_reducible (first
        | intro _ | apply within_ite | apply within_ite2 | apply Within.go State.onPort_within
        | apply Within.go raise_within | apply Within.go disableRings_within)
    | split

theorem closeConnections_within {s : State} :
    Within 51606716416 s (closeConnections s) := by
  unfold closeConnections
  repeat' first
    | apply Eq.refl | with_reducible (first | apply Within.refl | assumption)
    | with_reducible (first | intro _ | apply Within.go closeConnection_within) | split

theorem handshake_within {q : Port} {root : ClientRoot} {s : State} : Within 17381195776 s (handshake q root s).2 := by
  unfold handshake
  repeat' first
    | apply Eq.refl | with_reducible (first | apply Within.refl | assumption) | dsimp only | unfold x
    | ((try lift_lets); intro x; first
        | (refine (fun hx => ?_ : Within 17381195776 s x → _) ?_; clear_value x) | skip)
    | with_reducible (first | intro _ | apply Within.go useMapped_within)
    | split <;> try with_reducible cases congrArg Prod.snd ‹_ = (_, _)›

theorem openConnection_within {p : PortNo} {root : ClientRoot} {s : State} :
    Within 121534152704 s (openConnection p root s) := by
  unfold openConnection
  repeat' first
    | apply Eq.refl | with_reducible (first | apply Within.refl | assumption) | unfold x
    | ((try lift_lets); intro x; first
        | (refine (fun hx => ?_ : Within 121534152704 s x → _) ?_; clear_value x) | skip)
    | with_reducible (first
        | intro _ | apply within_ite | apply within_ite2 | apply Within.go State.onPort_within
        | apply Within.go raise_within | apply Within.go derive_within | apply Within.go hostTraffic_within
        | apply Within.go enableRings_within | apply Within.go closeConnection_within
        | apply Within.go handshake_within)
    | split <;> try with_reducible cases congrArg Prod.snd ‹_ = (_, _)›

theorem portSilence_within {p : PortNo} {s : State} :
    Within 51606716416 s (portSilence p s) := by
  unfold portSilence
  repeat' first
    | apply Eq.refl | with_reducible (first | apply Within.refl | assumption) | unfold x
    | ((try lift_lets); intro x; first
        | (refine (fun hx => ?_ : Within 51606716416 s x → _) ?_; clear_value x) | skip)
    | with_reducible (first
        | intro _ | apply within_ite | apply within_ite2 | apply Within.go State.onPort_within
        | apply Within.go raise_within | apply Within.go closeConnection_within)
    | split <;> try with_reducible cases congrArg Prod.snd ‹_ = (_, _)›

theorem onRecord_within {mm : Nat} (e : 51606716416 ||| mm = mm) {p : PortNo} {f : State → State} {s : State}
    (hf : ∀ z0, Within mm z0 (f z0)) :
    Within mm s (onRecord p f s) := by
  unfold onRecord
  repeat' first
    | apply Eq.refl | exact lorTrans (b := 51606716416) rfl e
    | with_reducible (first | apply Within.refl | assumption)
    | with_reducible (first
        | intro _ | apply within_ite | apply within_ite2 | apply Within.go hostTraffic_within
        | apply Within.via (hf ..))
    | split

theorem recordEntry_within {p : PortNo} {urgent : Bool} {entry : List Byte} {s : State} :
    Within 120326193152 s (recordEntry p urgent entry s) := by
  unfold recordEntry
  repeat' first
    | apply Eq.refl | with_reducible (first | apply Within.refl | assumption) | unfold x
    | ((try lift_lets); intro x; first
        | (refine (fun hx => ?_ : Within 120326193152 s x → _) ?_; clear_value x) | skip)
    | with_reducible (first
        | intro _ | apply within_ite | apply within_ite2 | apply Within.go poolWrite_within
        | apply Within.go doorbellRefused_within | apply Within.go ring_within
        | apply Within.go closeConnection_within)
    | split

theorem recordRead_within {p : PortNo} {tag : BitVec 16} {addr : Nat} {count : Nat} {s : State} :
    Within 51606716416 s (recordRead p tag addr count s) := by
  unfold recordRead
  repeat' first
    | apply Eq.refl | with_reducible (first | apply Within.refl | assumption) | unfold x
    | ((try lift_lets); intro x; first
        | (refine (fun hx => ?_ : Within 51606716416 s x → _) ?_; clear_value x) | skip)
    | with_reducible (first
        | intro _ | apply within_ite | apply within_ite2 | apply Within.go sendRecord_within
        | apply Within.go closeConnection_within)
    | split

theorem writeWords_within {p : PortNo} {y0 : Nat} {y1 : List Word} {y2 : State} :
    Within 120326717440 y2 (writeWords p y0 y1 y2) := by
  induction y1 generalizing y0 y2 with
  | nil =>
    unfold writeWords
    repeat' first
      | apply Eq.refl | with_reducible (first | apply Within.refl | assumption)
      | with_reducible (first | intro _ | apply Within.go writeWindow_within) | split
  | cons _ _ ih =>
    unfold writeWords
    repeat' first
      | apply Eq.refl | with_reducible (first | apply Within.refl | assumption)
      | with_reducible (first | intro _ | apply Within.go writeWindow_within | apply Within.via (ih ..)) | split

theorem recordBulkIn_within {p : PortNo} {off : Nat} {bytes : List Byte} {s : State} :
    Within 120326193152 s (recordBulkIn p off bytes s) := by
  unfold recordBulkIn
  repeat' first
    | apply Eq.refl | with_reducible (first | apply Within.refl | assumption)
    | with_reducible (first
        | intro _ | apply within_ite | apply within_ite2 | apply Within.go poolWrite_within
        | apply Within.go accessRefused_within | apply Within.go closeConnection_within)
    | split

theorem recordBulkOut_within {p : PortNo} {tag : BitVec 16} {off : Nat} {len : Nat} {s : State} :
    Within 51606716416 s (recordBulkOut p tag off len s) := by
  unfold recordBulkOut
  repeat' first
    | apply Eq.refl | with_reducible (first | apply Within.refl | assumption)
    | with_reducible (first
        | intro _ | apply within_ite | apply within_ite2 | apply Within.go sendRecord_within
        | apply Within.go accessRefused_within | apply Within.go closeConnection_within)
    | split

theorem qspiAnswer_within {bytes : List Byte} {s : State} :
    Within 34359738368 s (qspiAnswer bytes s) := by
  unfold qspiAnswer
  repeat' first
    | apply Eq.refl | with_reducible (first | apply Within.refl | assumption)
    | with_reducible (first | intro _ | apply Within.go State.onPort_within) | split

theorem countAccess_within {m : MasterNo} {off : Nat} {s : State} :
    Within 549755813888 s (countAccess m off s) := by
  unfold countAccess
  repeat' first
    | apply Eq.refl | with_reducible (first | apply Within.refl | assumption)
    | fail_if_no_progress ((with_reducible apply within_mk) <;> first
        | with_reducible (first
            | exact .inl rfl | exact (fun x => x) | exact .inl (fun _ x => x) | apply Nat.le_refl
            | exact fun _ => Nat.le_refl _)
        | exact .inr rfl | skip)
    | with_reducible (first | intro _) | split

theorem qspiPoolRead_within {off : Nat} {s : State} :
    Within 601362530304 s (qspiPoolRead off s) := by
  unfold qspiPoolRead
  repeat' first
    | apply Eq.refl | with_reducible (first | apply Within.refl | assumption) | unfold x
    | ((try lift_lets); intro x; first
        | (refine (fun hx => ?_ : Within 601362530304 s x → _) ?_; clear_value x) | skip)
    | with_reducible (first
        | intro _ | apply within_ite | apply within_ite2 | apply Within.go accessRefused_within
        | apply Within.go qspiAnswer_within | apply Within.go countAccess_within)
    | split

theorem qspiPoolWrite_within {off : Nat} {v : Word} {s : State} :
    Within 670082007040 s (qspiPoolWrite off v s) := by
  unfold qspiPoolWrite
  repeat' first
    | apply Eq.refl | with_reducible (first | apply Within.refl | assumption)
    | with_reducible (first
        | intro _ | apply within_ite | apply within_ite2 | apply Within.go poolWrite_within
        | apply Within.go hostTraffic_within | apply Within.go accessRefused_within
        | apply Within.go countAccess_within)
    | split

theorem qspiAccess_within {addr : Nat} {write : Option Word} {s : State} :
    Within 670082531328 s (qspiAccess addr write s) := by
  unfold qspiAccess
  repeat' first
    | apply Eq.refl | with_reducible (first | apply Within.refl | assumption) | unfold x
    | ((try lift_lets); intro x; first
        | (refine (fun hx => ?_ : Within 670082531328 s x → _) ?_; clear_value x) | skip)
    | with_reducible (first
        | intro _ | apply within_ite | apply within_ite2 | apply Within.go hostTraffic_within
        | apply Within.go writeWindow_within | apply Within.go qspiAnswer_within | apply Within.go qspiPoolRead_within
        | apply Within.go qspiPoolWrite_within)
    | split <;> try with_reducible cases congrArg Prod.snd ‹_ = (_, _)›

theorem consumed_within {p : PortNo} {urgent : Bool} {s : State} :
    Within 34359738368 s (consumed p urgent s) := by
  unfold consumed
  repeat' first
    | apply Eq.refl | with_reducible (first | apply Within.refl | assumption) | unfold x
    | ((try lift_lets); intro x; first
        | (refine (fun hx => ?_ : Within 34359738368 s x → _) ?_; clear_value x) | skip)
    | fail_if_no_progress ((with_reducible apply within_mk) <;> first
        | with_reducible (first
            | exact .inl rfl | exact (fun x => x) | exact .inl (fun _ x => x) | apply Nat.le_refl
            | exact fun _ => Nat.le_refl _)
        | exact .inr rfl | skip)
    | with_reducible (first | intro _ | apply within_ite | apply within_ite2 | apply Within.go State.onPort_within)
    | split

theorem setBacklog_within {on : Bool} {s : State} :
    Within 51606716416 s (setBacklog on s) := by
  unfold setBacklog
  repeat' first
    | apply Eq.refl | with_reducible (first | apply Within.refl | assumption) | unfold x
    | ((try lift_lets); intro x; first
        | (refine (fun hx => ?_ : Within 51606716416 s x → _) ?_; clear_value x) | skip)
    | fail_if_no_progress ((with_reducible apply within_mk) <;> first
        | with_reducible (first
            | exact .inl rfl | exact (fun x => x) | exact .inl (fun _ x => x) | apply Nat.le_refl
            | exact fun _ => Nat.le_refl _)
        | exact .inr rfl | skip)
    | with_reducible (first
        | intro _ | apply within_ite | apply within_ite2 | apply Within.go raise_within
        | apply Within.go raiseEnd_within)
    | split

theorem answerEntry_within {p : PortNo} {e : List Byte} {r : Reply} {s : State} :
    Within 103079215104 s (answerEntry p e r s) := by
  unfold answerEntry
  repeat' first
    | apply Eq.refl | with_reducible (first | apply Within.refl | assumption)
    | with_reducible (first | intro _ | apply Within.go putResponse_within) | split

theorem fetchEntry_within {p : PortNo} {urgent : Bool} {estimate : Nat} {e : List Byte} {s : State} :
    Within 122473676800 s (fetchEntry p urgent estimate e s) := by
  unfold fetchEntry
  repeat' first
    | apply Eq.refl | with_reducible (first | apply Within.refl | assumption) | unfold x
    | ((try lift_lets); intro x; first
        | (refine (fun hx => ?_ : Within 122473676800 s x → _) ?_; clear_value x) | skip)
    | fail_if_no_progress ((with_reducible apply within_mk) <;> first
        | with_reducible (first
            | exact .inl rfl | exact (fun x => x) | exact .inl (fun _ x => x) | apply Nat.le_refl
            | exact fun _ => Nat.le_refl _)
        | exact .inr rfl | skip)
    | with_reducible (first
        | intro _ | apply within_ite | apply within_ite2 | apply Within.go forwardOut_within
        | apply Within.go setBacklog_within | apply Within.go answerEntry_within)
    | split

theorem fetchNext_within {estimate : Nat} {s : State} :
    Within 2321496932352 s (fetchNext estimate s) := by
  unfold fetchNext
  repeat' first
    | apply Eq.refl | with_reducible (first | apply Within.refl | assumption) | unfold x
    | ((try lift_lets); intro x; first
        | (refine (fun hx => ?_ : Within 2321496932352 s x → _) ?_; clear_value x) | skip)
    | with_reducible (first
        | intro _ | apply within_ite | apply within_ite2 | apply Within.go takeFree_within
        | apply Within.go putResponse_within | apply Within.go consumed_within | apply Within.go fetchEntry_within)
    | split <;> try with_reducible cases congrArg Prod.snd ‹_ = (_, _)›

theorem putEvent_within {p : PortNo} {entry : List Byte} {s : State} :
    Within 103079215104 s (putEvent p entry s) := by
  unfold putEvent
  repeat' first
    | apply Eq.refl | with_reducible (first | apply Within.refl | assumption) | unfold x
    | ((try lift_lets); intro x; first
        | (refine (fun hx => ?_ : Within 103079215104 s x → _) ?_; clear_value x) | skip)
    | with_reducible (first
        | intro _ | apply Within.go State.onPort_within | apply Within.go poolWrite_within
        | apply Within.go sendRecord_within)
    | split

theorem putLost_within {p : PortNo} {s : State} :
    Within 2302102470656 s (putLost p s) := by
  unfold putLost
  repeat' first
    | apply Eq.refl | with_reducible (first | apply Within.refl | assumption) | unfold x
    | ((try lift_lets); intro x; first
        | (refine (fun hx => ?_ : Within 2302102470656 s x → _) ?_; clear_value x) | skip)
    | with_reducible (first
        | intro _ | apply within_ite | apply within_ite2 | apply Within.go State.onPort_within
        | apply Within.go takeFree_within | apply Within.go putEvent_within)
    | split <;> try with_reducible cases congrArg Prod.snd ‹_ = (_, _)›

theorem deliver_within {c : Occ} {p : PortNo} {s : State} :
    Within 2302102470656 s (deliver c p s) := by
  unfold deliver
  repeat' first
    | apply Eq.refl | with_reducible (first | apply Within.refl | assumption) | unfold x
    | ((try lift_lets); intro x; first
        | (refine (fun hx => ?_ : Within 2302102470656 s x → _) ?_; clear_value x) | skip)
    | with_reducible (first
        | intro _ | apply within_ite | apply within_ite2 | apply Within.go State.onPort_within
        | apply Within.go putEvent_within | apply Within.go putLost_within)
    | split

theorem writeEvent_within {s : State} :
    Within 2319282339840 s (writeEvent s) := by
  unfold writeEvent
  repeat' first
    | apply Eq.refl | with_reducible (first | apply Within.refl | assumption)
    | fail_if_no_progress ((with_reducible apply within_mk) <;> first
        | with_reducible (first
            | exact .inl rfl | exact (fun x => x) | exact .inl (fun _ x => x) | apply Nat.le_refl
            | exact fun _ => Nat.le_refl _)
        | exact .inr rfl | skip)
    | with_reducible (first
        | intro _ | apply within_ite | apply within_ite2 | apply Within.via (forEach_within ?_)
        | apply Within.go deliver_within)
    | split

theorem deliverQueue_within {d : Fin 4} {s : State} :
    Within 17246978048 s (deliverQueue d s) := by
  unfold deliverQueue
  repeat' first
    | apply Eq.refl | with_reducible (first | apply Within.refl | assumption) | unfold x
    | ((try lift_lets); intro x; first
        | (refine (fun hx => ?_ : Within 17246978048 s x → _) ?_; clear_value x) | skip)
    | fail_if_no_progress ((with_reducible apply within_mk) <;> first
        | with_reducible (first
            | exact .inl rfl | exact (fun x => x) | exact .inl (fun _ x => x) | apply Nat.le_refl
            | exact fun _ => Nat.le_refl _)
        | exact .inr rfl | skip)
    | with_reducible (first
        | intro _ | apply within_ite | apply within_ite2 | apply Within.go arrive_within
        | apply Within.go raise_within | apply within_foldl)
    | split

theorem deliverQueues_within {s : State} :
    Within 17246978048 s (deliverQueues s) := by
  unfold deliverQueues
  repeat' first
    | apply Eq.refl | with_reducible (first | apply Within.refl | assumption)
    | with_reducible (first
        | intro _ | apply within_ite | apply within_ite2 | apply Within.via (forEach_within ?_)
        | apply Within.go deliverQueue_within)
    | split

theorem writeLog_within {type : Nat} {src : Nat} {outlet : Nat} {data : List Byte} {s : State} :
    Within 17246980096 s (writeLog type src outlet data s) := by
  unfold writeLog
  repeat' first
    | apply Eq.refl | with_reducible (first | apply Within.refl | assumption) | unfold x
    | ((try lift_lets); intro x; first
        | (refine (fun hx => ?_ : Within 17246980096 s x → _) ?_; clear_value x) | skip)
    | fail_if_no_progress ((with_reducible apply within_mk) <;> first
        | with_reducible (first
            | exact .inl rfl | exact (fun x => x) | exact .inl (fun _ x => x) | apply Nat.le_refl
            | exact fun _ => Nat.le_refl _)
        | exact .inr rfl | skip)
    | with_reducible (first | intro _ | apply within_ite | apply within_ite2 | apply Within.go raise_within) | split

theorem logOchre_within {type : Nat} {data : List Byte} {s : State} :
    Within 17246980096 s (logOchre type data s) := by
  unfold logOchre
  repeat' first
    | apply Eq.refl | with_reducible (first | apply Within.refl | assumption)
    | with_reducible (first | intro _ | apply Within.go writeLog_within) | split

theorem logWhitelist_within {type : Nat} {data : List Byte} {s : State} :
    Within 17246980096 s (logWhitelist type data s) := by
  unfold logWhitelist
  repeat' first
    | apply Eq.refl | with_reducible (first | apply Within.refl | assumption)
    | with_reducible (first | intro _ | apply Within.go writeLog_within) | split

theorem writeSummaries_within {y0 : List Suppressed} {y1 : State} :
    Within 17246980096 y1 (writeSummaries y0 y1) := by
  induction y0 generalizing y1 with
  | nil =>
    unfold writeSummaries
    repeat' first
      | apply Eq.refl | with_reducible (first | apply Within.refl | assumption)
      | with_reducible (first | intro _ | apply Within.go logOchre_within) | split
  | cons _ _ ih =>
    unfold writeSummaries
    repeat' first
      | apply Eq.refl | with_reducible (first | apply Within.refl | assumption)
      | with_reducible (first | intro _ | apply Within.go logOchre_within | apply Within.via (ih ..)) | split

theorem countRefusal_within {reason : Fin 6} {s : State} :
    Within 17246994432 s (countRefusal reason s) := by
  unfold countRefusal
  repeat' first
    | apply Eq.refl | with_reducible (first | apply Within.refl | assumption)
    | fail_if_no_progress ((with_reducible apply within_mk) <;> first
        | with_reducible (first
            | exact .inl rfl | exact (fun x => x) | exact .inl (fun _ x => x) | apply Nat.le_refl
            | exact fun _ => Nat.le_refl _)
        | exact .inr rfl | skip)
    | with_reducible (first | intro _ | apply Within.go raise_within) | split

theorem ochreRefuses_within {r : Reply} {s : State} :
    Within 17246994432 s (ochreRefuses r s).2 := by
  unfold ochreRefuses
  repeat' first
    | apply Eq.refl | with_reducible (first | apply Within.refl | assumption)
    | with_reducible (first | intro _ | apply Within.go countRefusal_within)
    | split <;> try with_reducible cases congrArg Prod.snd ‹_ = (_, _)›

theorem markInterval_within {o : OutletNo} {w : Word} {s : State} :
    Within 256 s (markInterval o w s) := by
  unfold markInterval
  repeat' first
    | apply Eq.refl | with_reducible (first | apply Within.refl | assumption)
    | with_reducible (first | intro _ | apply Within.go State.onMeter_within) | split

theorem State.onRecord_within {s : State} {o : OutletNo} {f : OpenSlot → OpenSlot} :
    Within 4096 s (State.onRecord s o f) := by
  unfold State.onRecord
  repeat' first
    | apply Eq.refl | with_reducible (first | apply Within.refl | assumption)
    | fail_if_no_progress ((with_reducible apply within_mk) <;> first
        | with_reducible (first
            | exact .inl rfl | exact (fun x => x) | exact .inl (fun _ x => x) | apply Nat.le_refl
            | exact fun _ => Nat.le_refl _)
        | exact .inr rfl | skip)
    | with_reducible (first | intro _) | split

theorem markSession_within {o : OutletNo} {w : Word} {s : State} :
    Within 4096 s (markSession o w s) := by
  unfold markSession
  repeat' first
    | apply Eq.refl | with_reducible (first | apply Within.refl | assumption)
    | with_reducible (first | intro _ | apply Within.go State.onRecord_within) | split

theorem markAll_within {w : Word} {s : State} :
    Within 4352 s (markAll w s) := by
  unfold markAll
  repeat' first
    | apply Eq.refl | with_reducible (first | apply Within.refl | assumption)
    | with_reducible (first
        | intro _ | apply Within.via (forEach_within ?_) | apply Within.go markInterval_within
        | apply Within.go markSession_within)
    | split

theorem accumulate_within {o : OutletNo} {start : Nat} {e : Energy} {s : State} :
    Within 4352 s (accumulate o start e s) := by
  unfold accumulate
  repeat' first
    | apply Eq.refl | with_reducible (first | apply Within.refl | assumption) | unfold x
    | ((try lift_lets); intro x; first | (refine (fun hx => ?_ : Within 4352 s x → _) ?_; clear_value x) | skip)
    | with_reducible (first | intro _ | apply Within.go State.onMeter_within | apply Within.go State.onRecord_within)
    | split

theorem raiseMaxima_within {o : OutletNo} {i : Interval} {s : State} :
    Within 2199023256832 s (raiseMaxima o i s) := by
  unfold raiseMaxima
  repeat' first
    | apply Eq.refl | with_reducible (first | apply Within.refl | assumption) | unfold x
    | ((try lift_lets); intro x; first
        | (refine (fun hx => ?_ : Within 2199023256832 s x → _) ?_; clear_value x) | skip)
    | fail_if_no_progress ((with_reducible apply within_mk) <;> first
        | with_reducible (first
            | exact .inl rfl | exact (fun x => x) | exact .inl (fun _ x => x) | apply Nat.le_refl
            | exact (fun _ => Nat.le_refl _) | apply Nat.le_add_right)
        | exact .inr rfl | skip)
    | with_reducible (first | intro _ | apply within_ite | apply within_ite2 | apply Within.go State.onMeter_within)
    | split

theorem keepInterval_within {o : OutletNo} {i : Interval} {s : State} :
    Within 2199023256832 s (keepInterval o i s) := by
  unfold keepInterval
  repeat' first
    | apply Eq.refl | with_reducible (first | apply Within.refl | assumption) | unfold x
    | ((try lift_lets); intro x; first
        | (refine (fun hx => ?_ : Within 2199023256832 s x → _) ?_; clear_value x) | skip)
    | fail_if_no_progress ((with_reducible apply within_mk) <;> first
        | with_reducible (first
            | exact .inl rfl | exact (fun x => x) | exact .inl (fun _ x => x) | apply Nat.le_refl
            | exact fun _ => Nat.le_refl _)
        | exact .inr rfl | skip)
    | with_reducible (first | intro _ | apply within_ite | apply within_ite2 | apply Within.go raiseMaxima_within)
    | split

theorem finalInterval_within {o : OutletNo} {s : State} :
    Within 2199023256832 s (finalInterval o s) := by
  unfold finalInterval
  repeat' first
    | apply Eq.refl | with_reducible (first | apply Within.refl | assumption)
    | with_reducible (first | intro _ | apply Within.go State.onMeter_within | apply Within.go keepInterval_within)
    | split

theorem finalIntervals_within {o : OutletNo} {s : State} :
    Within 2199023256832 s (finalIntervals o s) := by
  unfold finalIntervals
  repeat' first
    | apply Eq.refl | with_reducible (first | apply Within.refl | assumption) | unfold x
    | ((try lift_lets); intro x; first
        | (refine (fun hx => ?_ : Within 2199023256832 s x → _) ?_; clear_value x) | skip)
    | with_reducible (first
        | intro _ | apply Within.go State.onMeter_within | apply Within.go keepInterval_within | apply within_foldl)
    | split

theorem finalByNow_within {mono : Nat} {o : OutletNo} {s : State} :
    Within 2199023256832 s (finalByNow mono o s) := by
  unfold finalByNow
  repeat' first
    | apply Eq.refl | with_reducible (first | apply Within.refl | assumption)
    | with_reducible (first | intro _ | apply within_ite | apply within_ite2 | apply Within.go finalInterval_within)
    | split

theorem closeInterval_within {minute : Nat} {mono : Nat} {opens : Word} {o : OutletNo} {s : State} :
    Within 2199023256832 s (closeInterval minute mono opens o s) := by
  unfold closeInterval
  repeat' first
    | apply Eq.refl | with_reducible (first | apply Within.refl | assumption) | unfold x
    | ((try lift_lets); intro x; first
        | (refine (fun hx => ?_ : Within 2199023256832 s x → _) ?_; clear_value x) | skip)
    | with_reducible (first
        | intro _ | apply within_ite | apply within_ite2 | apply Within.go State.onMeter_within
        | apply Within.go finalByNow_within)
    | split

theorem closeIntervals_within {minute : Nat} {mono : Nat} {opens : Word} {s : State} :
    Within 2199023265024 s (closeIntervals minute mono opens s) := by
  unfold closeIntervals
  repeat' first
    | apply Eq.refl | with_reducible (first | apply Within.refl | assumption) | unfold x
    | ((try lift_lets); intro x; first
        | (refine (fun hx => ?_ : Within 2199023265024 s x → _) ?_; clear_value x) | skip)
    | fail_if_no_progress ((with_reducible apply within_mk) <;> first
        | with_reducible (first
            | exact .inl rfl | exact (fun x => x) | exact .inl (fun _ x => x) | apply Nat.le_refl
            | exact fun _ => Nat.le_refl _)
        | exact .inr rfl | skip)
    | with_reducible (first | intro _ | apply Within.via (forEach_within ?_) | apply Within.go closeInterval_within)
    | split

theorem endBilling_within {minute : Nat} {s : State} :
    Within 9472 s (endBilling minute s) := by
  unfold endBilling
  repeat' first
    | apply Eq.refl | with_reducible (first | apply Within.refl | assumption) | unfold x
    | ((try lift_lets); intro x; first | (refine (fun hx => ?_ : Within 9472 s x → _) ?_; clear_value x) | skip)
    | fail_if_no_progress ((with_reducible apply within_mk) <;> first
        | with_reducible (first
            | exact .inl rfl | exact (fun x => x) | exact .inl (fun _ x => x) | apply Nat.le_refl
            | exact fun _ => Nat.le_refl _)
        | exact .inr rfl | skip)
    | with_reducible (first | intro _) | split

theorem activate_within {us : Nat} {s : State} :
    Within 17246992640 s (activate us s) := by
  unfold activate
  repeat' first
    | apply Eq.refl | with_reducible (first | apply Within.refl | assumption) | unfold x
    | ((try lift_lets); intro x; first
        | (refine (fun hx => ?_ : Within 17246992640 s x → _) ?_; clear_value x) | skip)
    | fail_if_no_progress ((with_reducible apply within_mk) <;> first
        | with_reducible (first
            | exact .inl rfl | exact (fun x => x) | exact .inl (fun _ x => x) | apply Nat.le_refl
            | exact fun _ => Nat.le_refl _)
        | exact .inr rfl | skip)
    | with_reducible (first | intro _ | apply Within.go logOchre_within | apply Within.go markAll_within) | split

theorem switchTariff_within {t : Nat} {us : Nat} {mono : Nat} {s : State} :
    Within 17246992640 s (switchTariff t us mono s) := by
  unfold switchTariff
  repeat' first
    | apply Eq.refl | with_reducible (first | apply Within.refl | assumption) | unfold x
    | ((try lift_lets); intro x; first
        | (refine (fun hx => ?_ : Within 17246992640 s x → _) ?_; clear_value x) | skip)
    | fail_if_no_progress ((with_reducible apply within_mk) <;> first
        | with_reducible (first
            | exact .inl rfl | exact (fun x => x) | exact .inl (fun _ x => x) | apply Nat.le_refl
            | exact fun _ => Nat.le_refl _)
        | exact .inr rfl | skip)
    | with_reducible (first
        | intro _ | apply within_ite | apply within_ite2 | apply Within.go raise_within
        | apply Within.go logOchre_within | apply Within.go markAll_within)
    | split

theorem applyTariff_within {us : Nat} {mono : Nat} {s : State} :
    Within 17246992640 s (applyTariff us mono s) := by
  unfold applyTariff
  repeat' first
    | apply Eq.refl | with_reducible (first | apply Within.refl | assumption) | unfold x
    | ((try lift_lets); intro x; first
        | (refine (fun hx => ?_ : Within 17246992640 s x → _) ?_; clear_value x) | skip)
    | with_reducible (first | intro _ | apply within_ite | apply within_ite2 | apply Within.go switchTariff_within)
    | split

theorem lengthAt_within {minute : Nat} {s : State} :
    Within 8192 s (lengthAt minute s) := by
  unfold lengthAt
  repeat' first
    | apply Eq.refl | with_reducible (first | apply Within.refl | assumption)
    | fail_if_no_progress ((with_reducible apply within_mk) <;> first
        | with_reducible (first
            | exact .inl rfl | exact (fun x => x) | exact .inl (fun _ x => x) | apply Nat.le_refl
            | exact fun _ => Nat.le_refl _)
        | exact .inr rfl | skip)
    | with_reducible (first | intro _ | apply within_ite | apply within_ite2)
    | split <;> try with_reducible cases congrArg Prod.snd ‹_ = (_, _)›

theorem minuteTick_within {minute : Nat} {mono : Nat} {s : State} :
    Within 2216270249216 s (minuteTick minute mono s) := by
  unfold minuteTick
  repeat' first
    | apply Eq.refl | with_reducible (first | apply Within.refl | assumption) | unfold x
    | ((try lift_lets); intro x; first
        | (refine (fun hx => ?_ : Within 2216270249216 s x → _) ?_; clear_value x) | skip)
    | with_reducible (first
        | intro _ | apply within_ite | apply within_ite2 | apply Within.go closeIntervals_within
        | apply Within.go endBilling_within | apply Within.go activate_within | apply Within.go applyTariff_within
        | apply Within.go lengthAt_within)
    | split

theorem advance_within {d : Nat} {s : State} :
    Within 32 s (advance d s) := by
  unfold advance
  repeat' first
    | apply Eq.refl | with_reducible (first | apply Within.refl | assumption)
    | fail_if_no_progress ((with_reducible apply within_mk) <;> first
        | with_reducible (first
            | exact .inl rfl | exact (fun x => x) | exact .inl (fun _ x => x) | apply Nat.le_refl
            | exact fun _ => Nat.le_refl _)
        | exact .inr rfl | skip)
    | with_reducible (first | intro _) | split

theorem legalTick_within {quiet : Nat} {s : State} :
    Within 2216270249248 s (legalTick quiet s) := by
  unfold legalTick
  repeat' first
    | apply Eq.refl | with_reducible (first | apply Within.refl | assumption) | unfold x
    | ((try lift_lets); intro x; first
        | (refine (fun hx => ?_ : Within 2216270249248 s x → _) ?_; clear_value x) | skip)
    | with_reducible (first
        | intro _ | apply within_ite | apply within_ite2 | apply Within.go minuteTick_within
        | apply Within.go advance_within)
    | split

theorem deferredTicks_within {y0 : Nat} {y1 : Nat} {y2 : State} :
    Within 2216270249216 y2 (deferredTicks y0 y1 y2) := by
  induction y0 generalizing y1 y2 with
  | zero =>
    unfold deferredTicks
    repeat' first
      | apply Eq.refl | with_reducible (first | apply Within.refl | assumption) | unfold x
      | ((try lift_lets); intro x; first
          | (refine (fun hx => ?_ : Within 2216270249216 y2 x → _) ?_; clear_value x) | skip)
      | with_reducible (first | intro _ | apply Within.go minuteTick_within) | split
  | succ _ ih =>
    unfold deferredTicks
    repeat' first
      | apply Eq.refl | with_reducible (first | apply Within.refl | assumption) | unfold x
      | ((try lift_lets); intro x; first
          | (refine (fun hx => ?_ : Within 2216270249216 y2 x → _) ?_; clear_value x) | skip)
      | with_reducible (first | intro _ | apply Within.go minuteTick_within | apply Within.via (ih ..)) | split

theorem processUpTo_within {fromUs : Nat} {toUs : Nat} {s : State} :
    Within 2216270249216 s (processUpTo fromUs toUs s) := by
  unfold processUpTo
  repeat' first
    | apply Eq.refl | with_reducible (first | apply Within.refl | assumption)
    | with_reducible (first | intro _ | apply Within.go deferredTicks_within) | split

theorem processDeferred_within {fromUs : Nat} {s : State} :
    Within 2216270249216 s (processDeferred fromUs s) := by
  unfold processDeferred
  repeat' first
    | apply Eq.refl | with_reducible (first | apply Within.refl | assumption)
    | with_reducible (first | intro _ | apply Within.go processUpTo_within) | split

theorem billBetween_within {from_ : Nat} {to_ : Nat} {s : State} :
    Within 9472 s (billBetween from_ to_ s) := by
  unfold billBetween
  repeat' first
    | apply Eq.refl | with_reducible (first | apply Within.refl | assumption)
    | with_reducible (first | intro _ | apply within_ite | apply within_ite2 | apply Within.go endBilling_within)
    | split

theorem crossTo_within {us : Nat} {mono : Nat} {opens : Word} {s : State} :
    Within 2216270249216 s (crossTo us mono opens s) := by
  unfold crossTo
  repeat' first
    | apply Eq.refl | with_reducible (first | apply Within.refl | assumption)
    | with_reducible (first
        | intro _ | apply within_ite | apply within_ite2 | apply Within.go closeIntervals_within
        | apply Within.go activate_within | apply Within.go lengthAt_within | apply Within.go billBetween_within)
    | unfold x
    | ((try lift_lets); intro x; first
        | (refine (fun hx => ?_ : Within 2216270249216 s x → _) ?_; clear_value x) | skip)
    | split

theorem announceTariff_within {s : State} :
    Within 17246986240 s (announceTariff s) := by
  unfold announceTariff
  repeat' first
    | apply Eq.refl | with_reducible (first | apply Within.refl | assumption) | unfold x
    | ((try lift_lets); intro x; first
        | (refine (fun hx => ?_ : Within 17246986240 s x → _) ?_; clear_value x) | skip)
    | fail_if_no_progress ((with_reducible apply within_mk) <;> first
        | with_reducible (first
            | exact .inl rfl | exact (fun x => x) | exact .inl (fun _ x => x) | apply Nat.le_refl
            | exact fun _ => Nat.le_refl _)
        | exact .inr rfl | skip)
    | with_reducible (first | intro _ | apply within_ite | apply within_ite2 | apply Within.go raise_within) | split

theorem copyTeal_within {r : TealRecord} {s : State} :
    Within 17246984464 s (copyTeal r s) := by
  unfold copyTeal
  repeat' first
    | apply Eq.refl | with_reducible (first | apply Within.refl | assumption) | unfold x
    | ((try lift_lets); intro x; first
        | (refine (fun hx => ?_ : Within 17246984464 s x → _) ?_; clear_value x) | skip)
    | fail_if_no_progress ((with_reducible apply within_mk) <;> first
        | with_reducible (first
            | exact .inl rfl | exact (fun x => x) | exact .inl (fun _ x => x) | apply Nat.le_refl
            | exact fun _ => Nat.le_refl _)
        | exact .inr rfl | skip)
    | with_reducible (first
        | intro _ | apply within_ite | apply within_ite2 | apply Within.go raise_within
        | apply Within.go writeLog_within | apply Within.go markAll_within)
    | split

theorem logTealLost_within {s : State} :
    Within 51606718464 s (logTealLost s) := by
  unfold logTealLost
  repeat' first
    | apply Eq.refl | with_reducible (first | apply Within.refl | assumption) | unfold x
    | ((try lift_lets); intro x; first
        | (refine (fun hx => ?_ : Within 51606718464 s x → _) ?_; clear_value x) | skip)
    | with_reducible (first
        | intro _ | apply within_ite | apply within_ite2 | apply Within.go ring_within
        | apply Within.go logOchre_within)
    | split

theorem copyTealRecords_within {s : State} :
    Within 51606722832 s (copyTealRecords s) := by
  unfold copyTealRecords
  repeat' first
    | apply Eq.refl | with_reducible (first | apply Within.refl | assumption) | unfold x
    | ((try lift_lets); intro x; first
        | (refine (fun hx => ?_ : Within 51606722832 s x → _) ?_; clear_value x) | skip)
    | fail_if_no_progress ((with_reducible apply within_mk) <;> first
        | with_reducible (first
            | exact .inl rfl | exact (fun x => x) | exact .inl (fun _ x => x) | apply Nat.le_refl
            | exact fun _ => Nat.le_refl _)
        | exact .inr rfl | skip)
    | with_reducible (first
        | intro _ | apply within_ite | apply within_ite2 | apply Within.go ring_within
        | apply Within.go copyTeal_within | apply Within.go logTealLost_within | apply within_foldl)
    | split

theorem mismatch_within {bits : Nat} {s : State} :
    Within 19394461696 s (mismatch bits s) := by
  unfold mismatch
  repeat' first
    | apply Eq.refl | with_reducible (first | apply Within.refl | assumption) | unfold x
    | ((try lift_lets); intro x; first
        | (refine (fun hx => ?_ : Within 19394461696 s x → _) ?_; clear_value x) | skip)
    | fail_if_no_progress ((with_reducible apply within_mk) <;> first
        | with_reducible (first
            | exact .inl rfl | exact (fun x => x) | exact .inl (fun _ x => x) | apply Nat.le_refl
            | exact fun _ => Nat.le_refl _)
        | exact .inr rfl | skip)
    | with_reducible (first | intro _ | apply within_ite | apply within_ite2 | apply Within.go raise_within) | split

theorem legalMismatch_within {o : OutletNo} {s : State} :
    Within 19394461696 s (legalMismatch o s) := by
  unfold legalMismatch
  repeat' first
    | apply Eq.refl | with_reducible (first | apply Within.refl | assumption)
    | with_reducible (first | intro _ | apply Within.go raise_within | apply Within.go mismatch_within) | split

theorem keepSealed_within {o : OutletNo} {start : Nat} {e : Energy} {s : State} :
    Within 2147483648 s (keepSealed o start e s) := by
  unfold keepSealed
  repeat' first
    | apply Eq.refl | with_reducible (first | apply Within.refl | assumption)
    | fail_if_no_progress ((with_reducible apply within_mk) <;> first
        | with_reducible (first
            | exact .inl rfl | exact (fun x => x) | exact .inl (fun _ x => x) | apply Nat.le_refl
            | exact fun _ => Nat.le_refl _)
        | exact .inr rfl | skip)
    | with_reducible (first | intro _) | split

theorem enter_within {o : OutletNo} {k : Fin 8} {i : Ival} {own : Bool} {w : Word} {e : Energy} {s : State} :
    Within 4352 s (enter o k i own w e s) := by
  unfold enter
  repeat' first
    | apply Eq.refl | with_reducible (first | apply Within.refl | assumption) | unfold x
    | ((try lift_lets); intro x; first | (refine (fun hx => ?_ : Within 4352 s x → _) ?_; clear_value x) | skip)
    | with_reducible (first
        | intro _ | apply within_ite | apply within_ite2 | apply Within.go State.onMeter_within
        | apply Within.go State.onRecord_within)
    | split

theorem enterOwn_within {w : SealedWait} {s : State} :
    Within 4352 s (enterOwn w s) := by
  unfold enterOwn
  repeat' first
    | apply Eq.refl | with_reducible (first | apply Within.refl | assumption)
    | with_reducible (first | intro _ | apply Within.go enter_within) | split

theorem enterPeer_within {w : SealedWait} {x : SealedEntry} {s : State} :
    Within 4352 s (enterPeer w x s) := by
  unfold enterPeer
  repeat' first
    | apply Eq.refl | with_reducible (first | apply Within.refl | assumption)
    | with_reducible (first | intro _ | apply Within.go enter_within) | split

theorem settlePair_within {w : SealedWait} {x : SealedEntry} {s : State} :
    Within 19394466048 s (settlePair w x s) := by
  unfold settlePair
  repeat' first
    | apply Eq.refl | with_reducible (first | apply Within.refl | assumption)
    | with_reducible (first
        | intro _ | apply within_ite | apply within_ite2 | apply Within.go legalMismatch_within
        | apply Within.go enterOwn_within | apply Within.go enterPeer_within)
    | split <;> try with_reducible cases congrArg Prod.snd ‹_ = (_, _)›

theorem correct_within {w : SealedWait} {x : SealedEntry} {s : State} :
    Within 19394466048 s (correct w x s) := by
  unfold correct
  repeat' first
    | apply Eq.refl | with_reducible (first | apply Within.refl | assumption) | unfold x
    | ((try lift_lets); intro x; first
        | (refine (fun hx => ?_ : Within 19394466048 s x → _) ?_; clear_value x) | skip)
    | with_reducible (first
        | intro _ | apply within_ite | apply within_ite2 | apply Within.go legalMismatch_within
        | apply Within.go enter_within | apply Within.go enterPeer_within)
    | split

theorem settleOwn_within {o : OutletNo} {start : Nat} {e : Energy} {s : State} :
    Within 19394466048 s (settleOwn o start e s) := by
  unfold settleOwn
  repeat' first
    | apply Eq.refl | with_reducible (first | apply Within.refl | assumption) | unfold x
    | ((try lift_lets); intro x; first
        | (refine (fun hx => ?_ : Within 19394466048 s x → _) ?_; clear_value x) | skip)
    | fail_if_no_progress ((with_reducible apply within_mk) <;> first
        | with_reducible (first
            | exact .inl rfl | exact (fun x => x) | exact .inl (fun _ x => x) | apply Nat.le_refl
            | exact fun _ => Nat.le_refl _)
        | exact .inr rfl | skip)
    | with_reducible (first | intro _ | apply Within.go settlePair_within) | split

theorem takeEntry_within {x : SealedEntry} {s : State} :
    Within 19394466048 s (takeEntry x s) := by
  unfold takeEntry
  repeat' first
    | apply Eq.refl | with_reducible (first | apply Within.refl | assumption)
    | fail_if_no_progress ((with_reducible apply within_mk) <;> first
        | with_reducible (first
            | exact .inl rfl | exact (fun x => x) | exact .inl (fun _ x => x) | apply Nat.le_refl
            | exact fun _ => Nat.le_refl _)
        | exact .inr rfl | skip)
    | with_reducible (first | intro _ | apply Within.go settlePair_within | apply Within.go correct_within) | split

theorem flushWaiting_within {s : State} :
    Within 2147488000 s (flushWaiting s) := by
  unfold flushWaiting
  repeat' first
    | apply Eq.refl | with_reducible (first | apply Within.refl | assumption)
    | fail_if_no_progress ((with_reducible apply within_mk) <;> first
        | with_reducible (first
            | exact .inl rfl | exact (fun x => x) | exact .inl (fun _ x => x) | apply Nat.le_refl
            | exact fun _ => Nat.le_refl _)
        | exact .inr rfl | skip)
    | with_reducible (first | intro _ | apply Within.go enterOwn_within | apply within_foldl) | split

theorem takeFlags_within {x : SealedEntry} {s : State} :
    Within 4352 s (takeFlags x s) := by
  unfold takeFlags
  repeat' first
    | apply Eq.refl | with_reducible (first | apply Within.refl | assumption) | unfold x
    | ((try lift_lets); intro x; first | (refine (fun hx => ?_ : Within 4352 s x → _) ?_; clear_value x) | skip)
    | with_reducible (first
        | intro _ | apply within_ite | apply within_ite2 | apply Within.go State.onMeter_within
        | apply Within.go markInterval_within | apply Within.go markSession_within)
    | split

theorem remember_within {o : OutletNo} {w : Word} {s : State} :
    Within 256 s (remember o w s) := by
  unfold remember
  repeat' first
    | apply Eq.refl | with_reducible (first | apply Within.refl | assumption)
    | with_reducible (first | intro _ | apply Within.go State.onMeter_within) | split

theorem setValidity_within {i : InputNo} {f : Input → Input} {s : State} :
    Within 17246978432 s (setValidity i f s) := by
  unfold setValidity
  repeat' first
    | apply Eq.refl | with_reducible (first | apply Within.refl | assumption) | unfold x
    | ((try lift_lets); intro x; first
        | (refine (fun hx => ?_ : Within 17246978432 s x → _) ?_; clear_value x) | skip)
    | with_reducible (first
        | intro _ | apply within_ite | apply within_ite2 | apply Within.go State.onInput_within
        | apply Within.go raise_within | apply Within.go raiseEnd_within | apply Within.go remember_within)
    | split <;> try with_reducible cases congrArg Prod.snd ‹_ = (_, _)›

theorem clockInvalid_within {g : GroupNo} {s : State} :
    Within 17246978432 s (clockInvalid g s) := by
  unfold clockInvalid
  repeat' first
    | apply Eq.refl | with_reducible (first | apply Within.refl | assumption)
    | with_reducible (first
        | intro _ | apply within_ite | apply within_ite2 | apply Within.via (forEach_within ?_)
        | apply Within.go setValidity_within)
    | split

theorem russetLock_within {i : InputNo} {out : Bool} {s : State} :
    Within 524288 s (russetLock i out s) := by
  unfold russetLock
  repeat' first
    | apply Eq.refl | with_reducible (first | apply Within.refl | assumption)
    | fail_if_no_progress ((with_reducible apply within_mk) <;> first
        | with_reducible (first
            | exact .inl rfl | exact (fun x => x) | exact .inl (fun _ x => x) | apply Nat.le_refl
            | exact fun _ => Nat.le_refl _)
        | exact .inr rfl | skip)
    | with_reducible (first | intro _ | apply within_ite | apply within_ite2) | split

theorem ochreLock_within {i : InputNo} {out : Bool} {s : State} :
    Within 17246978432 s (ochreLock i out s) := by
  unfold ochreLock
  repeat' first
    | apply Eq.refl | with_reducible (first | apply Within.refl | assumption)
    | with_reducible (first | intro _ | apply within_ite | apply within_ite2 | apply Within.go setValidity_within)
    | split

theorem lockAcquired_within {i : InputNo} {s : State} :
    Within 17247502720 s (lockAcquired i s) := by
  unfold lockAcquired
  repeat' first
    | apply Eq.refl | with_reducible (first | apply Within.refl | assumption)
    | with_reducible (first | intro _ | apply Within.go russetLock_within | apply Within.go ochreLock_within) | split

theorem lockLost_within {i : InputNo} {s : State} :
    Within 17247502720 s (lockLost i s) := by
  unfold lockLost
  repeat' first
    | apply Eq.refl | with_reducible (first | apply Within.refl | assumption)
    | with_reducible (first | intro _ | apply Within.go russetLock_within | apply Within.go ochreLock_within) | split

theorem stuckInput_within {i : InputNo} {s : State} :
    Within 17246978432 s (stuckInput i s) := by
  unfold stuckInput
  repeat' first
    | apply Eq.refl | with_reducible (first | apply Within.refl | assumption)
    | with_reducible (first | intro _ | apply within_ite | apply within_ite2 | apply Within.go setValidity_within)
    | split

theorem validAgain_within {i : InputNo} {s : State} :
    Within 17246978432 s (validAgain i s) := by
  unfold validAgain
  repeat' first
    | apply Eq.refl | with_reducible (first | apply Within.refl | assumption)
    | with_reducible (first | intro _ | apply Within.go setValidity_within) | split

theorem startSwap_within {i : InputNo} {s : State} :
    Within 17246978176 s (startSwap i s) := by
  unfold startSwap
  repeat' first
    | apply Eq.refl | with_reducible (first | apply Within.refl | assumption) | unfold x
    | ((try lift_lets); intro x; first
        | (refine (fun hx => ?_ : Within 17246978176 s x → _) ?_; clear_value x) | skip)
    | with_reducible (first | intro _ | apply Within.go State.onInput_within | apply Within.go raise_within)
    | split <;> try with_reducible cases congrArg Prod.snd ‹_ = (_, _)›

theorem laneFails_within {l : LaneNo} {s : State} :
    Within 17246978176 s (laneFails l s) := by
  unfold laneFails
  repeat' first
    | apply Eq.refl | with_reducible (first | apply Within.refl | assumption) | unfold x
    | ((try lift_lets); intro x; first
        | (refine (fun hx => ?_ : Within 17246978176 s x → _) ?_; clear_value x) | skip)
    | with_reducible (first
        | intro _ | apply within_ite | apply within_ite2 | apply Within.go State.onInput_within
        | apply Within.go State.onLane_within | apply Within.go startSwap_within)
    | split <;> try with_reducible cases congrArg Prod.snd ‹_ = (_, _)›

theorem selfTest_within {l : LaneNo} {pass : Bool} {s : State} :
    Within 17246978176 s (selfTest l pass s) := by
  unfold selfTest
  repeat' first
    | apply Eq.refl | with_reducible (first | apply Within.refl | assumption)
    | with_reducible (first
        | intro _ | apply within_ite | apply within_ite2 | apply Within.go State.onLane_within
        | apply Within.go laneFails_within)
    | split

theorem comparisonEnd_within {i : InputNo} {pairs : List (Int × Int)} {s : State} :
    Within 128 s (comparisonEnd i pairs s) := by
  unfold comparisonEnd
  repeat' first
    | apply Eq.refl | with_reducible (first | apply Within.refl | assumption)
    | with_reducible (first | intro _ | apply Within.go State.onInput_within) | split

theorem markSuspect_within {o : OutletNo} {s : State} :
    Within 4352 s (markSuspect o s) := by
  unfold markSuspect
  repeat' first
    | apply Eq.refl | with_reducible (first | apply Within.refl | assumption) | unfold x
    | ((try lift_lets); intro x; first | (refine (fun hx => ?_ : Within 4352 s x → _) ?_; clear_value x) | skip)
    | with_reducible (first | intro _ | apply Within.go State.onMeter_within | apply Within.go State.onRecord_within)
    | split

theorem swapLane_within {i : InputNo} {s : State} :
    Within 17246984576 s (swapLane i s) := by
  unfold swapLane
  repeat' first
    | apply Eq.refl | with_reducible (first | apply Within.refl | assumption) | unfold x
    | ((try lift_lets); intro x; first
        | (refine (fun hx => ?_ : Within 17246984576 s x → _) ?_; clear_value x) | skip)
    | fail_if_no_progress ((with_reducible apply within_mk) <;> first
        | with_reducible (first
            | exact .inl rfl | exact (fun x => x) | exact .inl (fun _ x => x) | apply Nat.le_refl
            | exact fun _ => Nat.le_refl _)
        | exact .inr rfl | skip)
    | with_reducible (first
        | intro _ | apply within_ite | apply within_ite2 | apply Within.go State.onInput_within
        | apply Within.go State.onLane_within | apply Within.go raise_within | apply Within.go logOchre_within
        | apply Within.go markSuspect_within)
    | split <;> try with_reducible cases congrArg Prod.snd ‹_ = (_, _)›

theorem setOver_within {o : OutletNo} {bits : List Bits} {s : State} :
    Within 128 s (setOver o bits s) := by
  unfold setOver
  repeat' first
    | apply Eq.refl | with_reducible (first | apply Within.refl | assumption) | unfold x
    | ((try lift_lets); intro x; first | (refine (fun hx => ?_ : Within 128 s x → _) ?_; clear_value x) | skip)
    | with_reducible (first
        | intro _ | apply within_ite | apply within_ite2 | apply Within.go State.onInput_within
        | apply Within.via (forEach_within ?_))
    | split

theorem addSecond_within {o : OutletNo} {legal : Nat} {dur : Nat} {values : List Rat} {regular : Bool} {w : Word}
    {s : State} :
    Within 256 s (addSecond o legal dur values regular w s) := by
  unfold addSecond
  repeat' first
    | apply Eq.refl | with_reducible (first | apply Within.refl | assumption)
    | with_reducible (first | intro _ | apply within_ite | apply within_ite2 | apply Within.go State.onMeter_within)
    | split

theorem formSecond_within {s : State} :
    Within 256 s (formSecond s) := by
  unfold formSecond
  repeat' first
    | apply Eq.refl | with_reducible (first | apply Within.refl | assumption) | unfold x
    | ((try lift_lets); intro x; first | (refine (fun hx => ?_ : Within 256 s x → _) ?_; clear_value x) | skip)
    | fail_if_no_progress ((with_reducible apply within_mk) <;> first
        | with_reducible (first
            | exact .inl rfl | exact (fun x => x) | exact .inl (fun _ x => x) | apply Nat.le_refl
            | exact fun _ => Nat.le_refl _)
        | exact .inr rfl | skip)
    | with_reducible (first | intro _) | split

theorem sendCapture_within {i : InputNo} {s : State} :
    Within 524288 s (sendCapture i s) := by
  unfold sendCapture
  repeat' first
    | apply Eq.refl | with_reducible (first | apply Within.refl | assumption) | unfold x
    | ((try lift_lets); intro x; first | (refine (fun hx => ?_ : Within 524288 s x → _) ?_; clear_value x) | skip)
    | fail_if_no_progress ((with_reducible apply within_mk) <;> first
        | with_reducible (first
            | exact .inl rfl | exact (fun x => x) | exact .inl (fun _ x => x) | apply Nat.le_refl
            | exact fun _ => Nat.le_refl _)
        | exact .inr rfl | skip)
    | with_reducible (first | intro _) | split

theorem restartLock_within {g : GroupNo} {was now : Word} {s : State} : Within 17247502720 s
    (restartLock g was now s) := by
  unfold restartLock
  refine within_ite (.refl _ _) (forEach_within fun i t => ?_)
  have h := (setValidity_within (i := i) (f := fun x => { x with unlocked := wBit now 0, stuck := false }) (s := t)).mono
    (b := 17247502720) rfl
  dsimp only
  generalize setValidity i _ t = u at h ⊢
  apply within_mk h
  all_goals first
    | with_reducible (first
        | exact .refl _ _ | exact .inl rfl | exact id | exact .inl (fun _ => id) | exact (fun _ => Nat.le_refl _)
        | exact Nat.le_refl _)
    | exact .inr rfl

theorem neutralise_within {o : OutletNo} {s : State} :
    Within 64 s (neutralise o s) := by
  unfold neutralise
  repeat' first
    | apply Eq.refl | with_reducible (first | apply Within.refl | assumption) | unfold x
    | ((try lift_lets); intro x; first | (refine (fun hx => ?_ : Within 64 s x → _) ?_; clear_value x) | skip)
    | fail_if_no_progress ((with_reducible apply within_mk) <;> first
        | with_reducible (first
            | exact .inl rfl | exact (fun x => x) | exact .inl (fun _ x => x) | apply Nat.le_refl
            | exact fun _ => Nat.le_refl _)
        | exact .inr rfl | skip)
    | with_reducible (first | intro _ | apply Within.via (forEach_within ?_)) | split

theorem commitOutlet_within {o : OutletNo} {s : State} :
    Within 320 s (commitOutlet o s) := by
  unfold commitOutlet
  repeat' first
    | apply Eq.refl | with_reducible (first | apply Within.refl | assumption) | unfold x
    | ((try lift_lets); intro x; first | (refine (fun hx => ?_ : Within 320 s x → _) ?_; clear_value x) | skip)
    | fail_if_no_progress ((with_reducible apply within_mk) <;> first
        | with_reducible (first
            | exact .inl rfl | exact (fun x => x) | exact .inl (fun _ x => x) | apply Nat.le_refl
            | exact fun _ => Nat.le_refl _)
        | exact .inr rfl | skip)
    | with_reducible (first
        | intro _ | apply within_ite | apply within_ite2 | apply Within.go State.onMeter_within
        | apply Within.go neutralise_within)
    | split

theorem commitRole_within {o : OutletNo} {s : State} :
    Within 17247502784 s (commitRole o s) := by
  unfold commitRole
  repeat' first
    | apply Eq.refl | with_reducible (first | apply Within.refl | assumption) | unfold x
    | ((try lift_lets); intro x; first
        | (refine (fun hx => ?_ : Within 17247502784 s x → _) ?_; clear_value x) | skip)
    | fail_if_no_progress ((with_reducible apply within_mk) <;> first
        | with_reducible (first
            | exact .inl rfl | exact (fun x => x) | exact .inl (fun _ x => x) | apply Nat.le_refl
            | exact fun _ => Nat.le_refl _)
        | exact .inr rfl | skip)
    | with_reducible (first
        | intro _ | apply within_ite | apply within_ite2 | apply Within.go restartLock_within
        | apply Within.go commitOutlet_within)
    | split <;> try with_reducible cases congrArg Prod.snd ‹_ = (_, _)›

theorem passStep_within {o : OutletNo} {s : State} :
    Within 64 s (passStep o s) := by
  unfold passStep
  repeat' first
    | apply Eq.refl | with_reducible (first | apply Within.refl | assumption)
    | fail_if_no_progress ((with_reducible apply within_mk) <;> first
        | with_reducible (first
            | exact .inl rfl | exact (fun x => x) | exact .inl (fun _ x => x) | apply Nat.le_refl
            | exact fun _ => Nat.le_refl _)
        | exact .inr rfl | skip)
    | with_reducible (first | intro _ | apply within_ite | apply within_ite2) | split

theorem commitCalibration_within {o : OutletNo} {s : State} :
    Within 64 s (commitCalibration o s) := by
  unfold commitCalibration
  repeat' first
    | apply Eq.refl | with_reducible (first | apply Within.refl | assumption) | unfold x
    | ((try lift_lets); intro x; first | (refine (fun hx => ?_ : Within 64 s x → _) ?_; clear_value x) | skip)
    | fail_if_no_progress ((with_reducible apply within_mk) <;> first
        | with_reducible (first
            | exact .inl rfl | exact (fun x => x) | exact .inl (fun _ x => x) | apply Nat.le_refl
            | exact fun _ => Nat.le_refl _)
        | exact .inr rfl | skip)
    | with_reducible (first | intro _ | apply within_ite | apply within_ite2 | apply Within.via (forEach_within ?_))
    | split

theorem commitSettings_within {o : OutletNo} {s : State} :
    Within 17247502784 s (commitSettings o s) := by
  unfold commitSettings
  repeat' first
    | apply Eq.refl | with_reducible (first | apply Within.refl | assumption) | unfold x
    | ((try lift_lets); intro x; first
        | (refine (fun hx => ?_ : Within 17247502784 s x → _) ?_; clear_value x) | skip)
    | with_reducible (first
        | intro _ | apply Within.via (forEach_within ?_) | apply Within.go sendCapture_within
        | apply Within.go commitRole_within | apply Within.go passStep_within
        | apply Within.go commitCalibration_within)
    | split

theorem commitBoundary_within {o : OutletNo} {c : Cycle} {s : State} :
    Within 17247508928 s (commitBoundary o c s) := by
  unfold commitBoundary
  repeat' first
    | apply Eq.refl | with_reducible (first | apply Within.refl | assumption) | unfold x
    | ((try lift_lets); intro x; first
        | (refine (fun hx => ?_ : Within 17247508928 s x → _) ?_; clear_value x) | skip)
    | with_reducible (first
        | intro _ | apply within_ite | apply within_ite2 | apply Within.go State.onMeter_within
        | apply Within.via (forEach_within ?_) | apply Within.go swapLane_within
        | apply Within.go commitSettings_within)
    | split

theorem meterIn_within {o : OutletNo} {start : Nat} {e : Energy} {s : State} :
    Within 19394466048 s (meterIn o start e s) := by
  unfold meterIn
  repeat' first
    | apply Eq.refl | with_reducible (first | apply Within.refl | assumption)
    | with_reducible (first
        | intro _ | apply Within.go accumulate_within | apply Within.go keepSealed_within
        | apply Within.go settleOwn_within)
    | split

theorem joinWindow_within {o : OutletNo} {start : Nat} {len : Nat} {irr : Bool} {sf : Word} {s : State} :
    Within 512 s (joinWindow o start len irr sf s) := by
  unfold joinWindow
  repeat' first
    | apply Eq.refl | with_reducible (first | apply Within.refl | assumption)
    | with_reducible (first
        | intro _ | apply within_ite | apply within_ite2 | apply Within.go State.onAnalysis_within)
    | split

theorem joinLocked_within {o : OutletNo} {start : Nat} {len : Nat} {synth : Bool} {irr : Bool} {s : State} :
    Within 512 s (joinLocked o start len synth irr s) := by
  unfold joinLocked
  repeat' first
    | apply Eq.refl | with_reducible (first | apply Within.refl | assumption)
    | with_reducible (first | intro _ | apply Within.via (forEach_within ?_) | apply Within.go joinWindow_within)
    | split <;> try with_reducible cases congrArg Prod.snd ‹_ = (_, _)›

theorem meterAc_within {o : OutletNo} {c : Cycle} {synth : Bool} {s : State} :
    Within 19394466688 s (meterAc o c synth s) := by
  unfold meterAc
  repeat' first
    | apply Eq.refl | with_reducible (first | apply Within.refl | assumption) | unfold x
    | ((try lift_lets); intro x; first
        | (refine (fun hx => ?_ : Within 19394466688 s x → _) ?_; clear_value x) | skip)
    | with_reducible (first
        | intro _ | apply within_ite | apply within_ite2 | apply Within.go State.onMeter_within
        | apply Within.go setOver_within | apply Within.go addSecond_within | apply Within.go meterIn_within
        | apply Within.go joinWindow_within | apply Within.go joinLocked_within)
    | split <;> try with_reducible cases congrArg Prod.snd ‹_ = (_, _)›

theorem meterDc_within {o : OutletNo} {c : Cycle} {s : State} :
    Within 896 s (meterDc o c s) := by
  unfold meterDc
  repeat' first
    | apply Eq.refl | with_reducible (first | apply Within.refl | assumption) | unfold x
    | ((try lift_lets); intro x; first | (refine (fun hx => ?_ : Within 896 s x → _) ?_; clear_value x) | skip)
    | with_reducible (first
        | intro _ | apply within_ite | apply within_ite2 | apply Within.go State.onMeter_within
        | apply Within.go State.onAnalysis_within | apply Within.go setOver_within | apply Within.go addSecond_within
        | apply Within.go joinWindow_within)
    | split

theorem setSynth_within {o : OutletNo} {on : Bool} {s : State} :
    Within 17246978304 s (setSynth o on s) := by
  unfold setSynth
  repeat' first
    | apply Eq.refl | with_reducible (first | apply Within.refl | assumption) | unfold x
    | ((try lift_lets); intro x; first
        | (refine (fun hx => ?_ : Within 17246978304 s x → _) ?_; clear_value x) | skip)
    | with_reducible (first
        | intro _ | apply within_ite | apply within_ite2 | apply Within.go State.onMeter_within
        | apply Within.go raise_within | apply Within.go raiseEnd_within)
    | split

theorem commitSiteRole_within {o : OutletNo} {s : State} :
    Within 16777216 s (commitSiteRole o s) := by
  unfold commitSiteRole
  repeat' first
    | apply Eq.refl | with_reducible (first | apply Within.refl | assumption)
    | fail_if_no_progress ((with_reducible apply within_mk) <;> first
        | with_reducible (first
            | exact .inl rfl | exact (fun x => x) | exact .inl (fun _ x => x) | apply Nat.le_refl
            | exact fun _ => Nat.le_refl _)
        | exact .inr rfl | skip)
    | with_reducible (first | intro _ | apply within_ite | apply within_ite2) | split

theorem boundary_within {o : OutletNo} {c : Cycle} {s : State} :
    Within 19411803072 s (boundary o c s) := by
  unfold boundary
  repeat' first
    | apply Eq.refl | with_reducible (first | apply Within.refl | assumption) | unfold x
    | ((try lift_lets); intro x; first
        | (refine (fun hx => ?_ : Within 19411803072 s x → _) ?_; clear_value x) | skip)
    | fail_if_no_progress ((with_reducible apply within_mk) <;> first
        | with_reducible (first
            | exact .inl rfl | exact (fun x => x) | exact .inl (fun _ x => x) | apply Nat.le_refl
            | exact fun _ => Nat.le_refl _)
        | exact .inr rfl | skip)
    | with_reducible (first
        | intro _ | apply within_ite | apply within_ite2 | apply Within.go State.onMeter_within
        | apply Within.go commitBoundary_within | apply Within.go meterAc_within | apply Within.go meterDc_within
        | apply Within.go setSynth_within | apply Within.go commitSiteRole_within)
    | split <;> try with_reducible cases congrArg Prod.snd ‹_ = (_, _)›

theorem syntheticStart_within {o : OutletNo} {s : State} :
    Within 17246978304 s (syntheticStart o s) := by
  unfold syntheticStart
  repeat' first
    | apply Eq.refl | with_reducible (first | apply Within.refl | assumption)
    | with_reducible (first | intro _ | apply within_ite | apply within_ite2 | apply Within.go setSynth_within)
    | split

theorem dcPeriod_within {o : OutletNo} {d : DcPeriod} {s : State} :
    Within 19394466048 s (dcPeriod o d s) := by
  unfold dcPeriod
  repeat' first
    | apply Eq.refl | with_reducible (first | apply Within.refl | assumption)
    | with_reducible (first | intro _ | apply within_ite | apply within_ite2 | apply Within.go meterIn_within) | split

theorem saveAll_within {ts : List Tail} {meteredTo : Nat} {s : State} :
    Within 289 s (saveAll ts meteredTo s) := by
  unfold saveAll
  repeat' first
    | apply Eq.refl | with_reducible (first | apply Within.refl | assumption) | unfold x
    | ((try lift_lets); intro x; first | (refine (fun hx => ?_ : Within 289 s x → _) ?_; clear_value x) | skip)
    | fail_if_no_progress ((with_reducible apply within_mk) <;> first
        | with_reducible (first
            | exact .inl rfl | exact (fun x => x) | exact .inl (fun _ x => x) | apply Nat.le_refl
            | exact fun _ => Nat.le_refl _)
        | exact .inr rfl | skip)
    | with_reducible (first | intro _ | apply within_ite | apply within_ite2) | split

theorem commitTariff_within {s : State} :
    Within 8256 s (commitTariff s) := by
  unfold commitTariff
  repeat' first
    | apply Eq.refl | with_reducible (first | apply Within.refl | assumption) | unfold x
    | ((try lift_lets); intro x; first | (refine (fun hx => ?_ : Within 8256 s x → _) ?_; clear_value x) | skip)
    | fail_if_no_progress ((with_reducible apply within_mk) <;> first
        | with_reducible (first
            | exact .inl rfl | exact (fun x => x) | exact .inl (fun _ x => x) | apply Nat.le_refl
            | exact fun _ => Nat.le_refl _)
        | exact .inr rfl | skip)
    | with_reducible (first | intro _ | apply within_ite | apply within_ite2) | split

theorem saveBoundary_within {opens : List Tail} {late : Bool} {s : State} :
    Within 8545 s (saveBoundary opens late s) := by
  unfold saveBoundary
  repeat' first
    | apply Eq.refl | with_reducible (first | apply Within.refl | assumption) | unfold x
    | ((try lift_lets); intro x; first | (refine (fun hx => ?_ : Within 8545 s x → _) ?_; clear_value x) | skip)
    | with_reducible (first
        | intro _ | apply within_ite | apply within_ite2 | apply Within.go saveAll_within
        | apply Within.go commitTariff_within)
    | split

theorem truncate_within {o : OutletNo} {start : Nat} {ep : Rat} {veh : Rat} {len : Nat} {s : State} :
    Within 19394466048 s (truncate o start ep veh len s) := by
  unfold truncate
  repeat' first
    | apply Eq.refl | with_reducible (first | apply Within.refl | assumption) | unfold x
    | ((try lift_lets); intro x; first
        | (refine (fun hx => ?_ : Within 19394466048 s x → _) ?_; clear_value x) | skip)
    | with_reducible (first
        | intro _ | apply within_ite | apply within_ite2 | apply Within.go remember_within
        | apply Within.go meterIn_within)
    | split

theorem truncateTail_within {t : Tail} {s : State} :
    Within 19394466048 s (truncateTail t s) := by
  unfold truncateTail
  repeat' first
    | apply Eq.refl | with_reducible (first | apply Within.refl | assumption)
    | with_reducible (first | intro _ | apply Within.go truncate_within)
    | split <;> try with_reducible cases congrArg Prod.snd ‹_ = (_, _)›

theorem finalSave_within {ts : List Tail} {s : State} :
    Within 2218417722657 s (finalSave ts s) := by
  unfold finalSave
  repeat' first
    | apply Eq.refl | with_reducible (first | apply Within.refl | assumption) | unfold x
    | ((try lift_lets); intro x; first
        | (refine (fun hx => ?_ : Within 2218417722657 s x → _) ?_; clear_value x) | skip)
    | fail_if_no_progress ((with_reducible apply within_mk) <;> first
        | with_reducible (first
            | exact .inl rfl | exact (fun x => x) | exact .inl (fun _ x => x) | apply Nat.le_refl
            | exact fun _ => Nat.le_refl _)
        | exact .inr rfl | skip)
    | with_reducible (first
        | intro _ | apply Within.via (forEach_within ?_) | apply Within.go finalIntervals_within
        | apply Within.go flushWaiting_within | apply Within.go saveAll_within | apply Within.go truncateTail_within
        | apply within_foldl)
    | split

theorem harmonicEnd_within {o : OutletNo} {w : HarmonicInput} {s : State} :
    Within 512 s (harmonicEnd o w s) := by
  unfold harmonicEnd
  repeat' first
    | apply Eq.refl | with_reducible (first | apply Within.refl | assumption) | unfold x
    | ((try lift_lets); intro x; first | (refine (fun hx => ?_ : Within 512 s x → _) ?_; clear_value x) | skip)
    | with_reducible (first
        | intro _ | apply within_ite | apply within_ite2 | apply Within.go State.onAnalysis_within)
    | split <;> try with_reducible cases congrArg Prod.snd ‹_ = (_, _)›

theorem keepSupra_within {step : Nat} {r : SupraInput} {s : State} :
    Within 512 s (keepSupra step r s) := by
  unfold keepSupra
  repeat' first
    | apply Eq.refl | with_reducible (first | apply Within.refl | assumption) | unfold x
    | ((try lift_lets); intro x; first | (refine (fun hx => ?_ : Within 512 s x → _) ?_; clear_value x) | skip)
    | fail_if_no_progress ((with_reducible apply within_mk) <;> first
        | with_reducible (first
            | exact .inl rfl | exact (fun x => x) | exact .inl (fun _ x => x) | apply Nat.le_refl
            | exact fun _ => Nat.le_refl _)
        | exact .inr rfl | skip)
    | with_reducible (first | intro _ | apply within_ite | apply within_ite2) | split

theorem supraStep_within {rs : List SupraInput} {s : State} :
    Within 640 s (supraStep rs s) := by
  unfold supraStep
  repeat' first
    | apply Eq.refl | with_reducible (first | apply Within.refl | assumption) | unfold x
    | ((try lift_lets); intro x; first | (refine (fun hx => ?_ : Within 640 s x → _) ?_; clear_value x) | skip)
    | fail_if_no_progress ((with_reducible apply within_mk) <;> first
        | with_reducible (first
            | exact .inl rfl | exact (fun x => x) | exact .inl (fun _ x => x) | apply Nat.le_refl
            | exact fun _ => Nat.le_refl _)
        | exact .inr rfl | skip)
    | with_reducible (first
        | intro _ | apply within_ite | apply within_ite2 | apply Within.go State.onInput_within
        | apply Within.via (forEach_within ?_) | apply Within.go keepSupra_within | apply within_foldl)
    | split

theorem rawComplete_within {o : OutletNo} {r : RawInput} {s : State} :
    Within 512 s (rawComplete o r s) := by
  unfold rawComplete
  repeat' first
    | apply Eq.refl | with_reducible (first | apply Within.refl | assumption) | unfold x
    | ((try lift_lets); intro x; first | (refine (fun hx => ?_ : Within 512 s x → _) ?_; clear_value x) | skip)
    | with_reducible (first
        | intro _ | apply within_ite | apply within_ite2 | apply Within.go State.onAnalysis_within)
    | split

theorem setPhase_within {o : OutletNo} {n : Nat} {s : State} :
    Within 17250123776 s (setPhase o n s) := by
  unfold setPhase
  repeat' first
    | apply Eq.refl | with_reducible (first | apply Within.refl | assumption) | unfold x
    | ((try lift_lets); intro x; first
        | (refine (fun hx => ?_ : Within 17250123776 s x → _) ?_; clear_value x) | skip)
    | with_reducible (first
        | intro _ | apply within_ite | apply within_ite2 | apply Within.go State.onSession_within
        | apply Within.go raise_within | apply Within.go refreshDrive_within)
    | split

theorem fescueOpen_within {o : OutletNo} {s : State} :
    Within 196608 s (fescueOpen o s) := by
  unfold fescueOpen
  repeat' first
    | apply Eq.refl | with_reducible (first | apply Within.refl | assumption)
    | with_reducible (first | intro _ | apply Within.go openPair_within) | split

theorem stopSession_within {o : OutletNo} {s : State} :
    Within 17250320384 s (stopSession o s) := by
  unfold stopSession
  repeat' first
    | apply Eq.refl | with_reducible (first | apply Within.refl | assumption) | unfold x
    | ((try lift_lets); intro x; first
        | (refine (fun hx => ?_ : Within 17250320384 s x → _) ?_; clear_value x) | skip)
    | with_reducible (first
        | intro _ | apply within_ite | apply within_ite2 | apply Within.go setPhase_within
        | apply Within.go fescueOpen_within)
    | split

theorem withdrawPolicies_within {o : OutletNo} {s : State} :
    Within 4194304 s (withdrawPolicies o s) := by
  unfold withdrawPolicies
  repeat' first
    | apply Eq.refl | with_reducible (first | apply Within.refl | assumption)
    | fail_if_no_progress ((with_reducible apply within_mk) <;> first
        | with_reducible (first
            | exact .inl rfl | exact (fun x => x) | exact .inl (fun _ x => x) | apply Nat.le_refl
            | exact fun _ => Nat.le_refl _)
        | exact .inr rfl | skip)
    | with_reducible (first | intro _) | split

theorem endSessionNow_within {o : OutletNo} {s : State} :
    Within 17254514688 s (endSessionNow o s) := by
  unfold endSessionNow
  repeat' first
    | apply Eq.refl | with_reducible (first | apply Within.refl | assumption) | unfold x
    | ((try lift_lets); intro x; first
        | (refine (fun hx => ?_ : Within 17254514688 s x → _) ?_; clear_value x) | skip)
    | with_reducible (first
        | intro _ | apply within_ite | apply within_ite2 | apply Within.go State.onSession_within
        | apply Within.go setPhase_within | apply Within.go fescueOpen_within
        | apply Within.go withdrawPolicies_within)
    | split

theorem holdSession_within {o : OutletNo} {s : State} :
    Within 17254514688 s (holdSession o s) := by
  unfold holdSession
  repeat' first
    | apply Eq.refl | with_reducible (first | apply Within.refl | assumption) | unfold x
    | ((try lift_lets); intro x; first
        | (refine (fun hx => ?_ : Within 17254514688 s x → _) ?_; clear_value x) | skip)
    | with_reducible (first
        | intro _ | apply within_ite | apply within_ite2 | apply Within.go State.onSession_within
        | apply Within.go refreshDrive_within | apply Within.go withdrawPolicies_within
        | apply Within.go endSessionNow_within)
    | split

theorem holdAll_within {s : State} :
    Within 17254514688 s (holdAll s) := by
  unfold holdAll
  repeat' first
    | apply Eq.refl | with_reducible (first | apply Within.refl | assumption)
    | with_reducible (first
        | intro _ | apply within_ite | apply within_ite2 | apply Within.via (forEach_within ?_)
        | apply Within.go holdSession_within)
    | fail_if_no_progress ((with_reducible apply within_mk) <;> first
        | with_reducible (first
            | exact .inl rfl | exact (fun x => x) | exact .inl (fun _ x => x) | apply Nat.le_refl
            | exact fun _ => Nat.le_refl _)
        | exact .inr rfl | skip)
    | unfold x
    | ((try lift_lets); intro x; first
        | (refine (fun hx => ?_ : Within 17254514688 s x → _) ?_; clear_value x) | skip)
    | split

theorem ochreStart_within {o : OutletNo} {sid : BitVec 64} {auth : BitVec 64} {s : State} :
    Within 4352 s (ochreStart o sid auth s) := by
  unfold ochreStart
  repeat' first
    | apply Eq.refl | with_reducible (first | apply Within.refl | assumption) | unfold x
    | ((try lift_lets); intro x; first | (refine (fun hx => ?_ : Within 4352 s x → _) ?_; clear_value x) | skip)
    | fail_if_no_progress ((with_reducible apply within_mk) <;> first
        | with_reducible (first
            | exact .inl rfl | exact (fun x => x) | exact .inl (fun _ x => x) | apply Nat.le_refl
            | exact fun _ => Nat.le_refl _)
        | exact .inr rfl | skip)
    | with_reducible (first | intro _ | apply Within.go State.onMeter_within) | split

theorem refuseStart_within {o : OutletNo} {st : Status} {s : State} :
    Within 17254531072 s (refuseStart o st s) := by
  unfold refuseStart
  repeat' first
    | apply Eq.refl | with_reducible (first | apply Within.refl | assumption) | unfold x
    | ((try lift_lets); intro x; first
        | (refine (fun hx => ?_ : Within 17254531072 s x → _) ?_; clear_value x) | skip)
    | with_reducible (first
        | intro _ | apply within_ite | apply within_ite2 | apply Within.go State.onSession_within
        | apply Within.go raise_within | apply Within.go ochreRefuses_within | apply Within.go refreshDrive_within
        | apply Within.go endSessionNow_within)
    | split

theorem nowReady_within {o : OutletNo} {s : State} :
    Within 17250123776 s (nowReady o s) := by
  unfold nowReady
  repeat' first
    | apply Eq.refl | with_reducible (first | apply Within.refl | assumption) | unfold x
    | ((try lift_lets); intro x; first
        | (refine (fun hx => ?_ : Within 17250123776 s x → _) ?_; clear_value x) | skip)
    | with_reducible (first | intro _ | apply within_ite | apply within_ite2 | apply Within.go setPhase_within)
    | split

theorem sessionStart_within {o : OutletNo} {sid : BitVec 64} {auth : BitVec 64} {s : State} :
    Within 17254535424 s (sessionStart o sid auth s) := by
  unfold sessionStart
  repeat' first
    | apply Eq.refl | with_reducible (first | apply Within.refl | assumption)
    | with_reducible (first
        | intro _ | apply within_ite | apply within_ite2 | apply Within.go State.onSession_within
        | apply Within.go refreshDrive_within | apply Within.go ochreStart_within | apply Within.go refuseStart_within
        | apply Within.go nowReady_within)
    | split

theorem stopRecord_within {r : SessionRecord} {extra : Word} {s : State} :
    Within 4096 s (stopRecord r extra s).2 := by
  unfold stopRecord
  repeat' first
    | apply Eq.refl | with_reducible (first | apply Within.refl | assumption) | unfold x
    | ((try lift_lets); intro x; first | (refine (fun hx => ?_ : Within 4096 s x → _) ?_; clear_value x) | skip)
    | fail_if_no_progress ((with_reducible apply within_mk) <;> first
        | with_reducible (first
            | exact .inl rfl | exact (fun x => x) | exact .inl (fun _ x => x) | apply Nat.le_refl
            | exact fun _ => Nat.le_refl _)
        | exact .inr rfl | skip)
    | with_reducible (first | intro _ | apply within_ite | apply within_ite2)
    | split <;> try with_reducible cases congrArg Prod.snd ‹_ = (_, _)›

theorem ochreStop_within {o : OutletNo} {sid : BitVec 64} {late : Bool} {s : State} :
    Within 4096 s (ochreStop o sid late s).2 := by
  unfold ochreStop
  repeat' first
    | apply Eq.refl | with_reducible (first | apply Within.refl | assumption) | unfold x
    | ((try lift_lets); intro x; first | (refine (fun hx => ?_ : Within 4096 s x → _) ?_; clear_value x) | skip)
    | fail_if_no_progress ((with_reducible apply within_mk) <;> first
        | with_reducible (first
            | exact .inl rfl | exact (fun x => x) | exact .inl (fun _ x => x) | apply Nat.le_refl
            | exact fun _ => Nat.le_refl _)
        | exact .inr rfl | skip)
    | with_reducible (first | intro _ | apply within_ite | apply within_ite2 | apply Within.go stopRecord_within)
    | split <;> try with_reducible cases congrArg Prod.snd ‹_ = (_, _)›

theorem lateStops_within {s : State} :
    Within 2097152 s (lateStops s) := by
  unfold lateStops
  repeat' first
    | apply Eq.refl | with_reducible (first | apply Within.refl | assumption)
    | with_reducible (first | intro _ | apply Within.go State.onSession_within | apply Within.via (forEach_within ?_))
    | split <;> try with_reducible cases congrArg Prod.snd ‹_ = (_, _)›

theorem sessionStop_within {o : OutletNo} {sid : BitVec 64} {s : State} :
    Within 17246998528 s (sessionStop o sid s) := by
  unfold sessionStop
  repeat' first
    | apply Eq.refl | with_reducible (first | apply Within.refl | assumption) | unfold x
    | ((try lift_lets); intro x; first
        | (refine (fun hx => ?_ : Within 17246998528 s x → _) ?_; clear_value x) | skip)
    | fail_if_no_progress ((with_reducible apply within_mk) <;> first
        | with_reducible (first
            | exact .inl rfl | exact (fun x => x) | exact .inl (fun _ x => x) | apply Nat.le_refl
            | exact fun _ => Nat.le_refl _)
        | exact .inr rfl | skip)
    | with_reducible (first
        | intro _ | apply within_ite | apply within_ite2 | apply Within.go ochreRefuses_within
        | apply Within.go ochreStop_within)
    | split <;> try with_reducible cases congrArg Prod.snd ‹_ = (_, _)›

theorem resendStop_within {o : OutletNo} {s : State} :
    Within 17246998528 s (resendStop o s) := by
  unfold resendStop
  repeat' first
    | apply Eq.refl | with_reducible (first | apply Within.refl | assumption)
    | with_reducible (first | intro _ | apply Within.go sessionStop_within) | split

theorem retain_within {r : SessionRecord} {s : State} :
    Within 4096 s (retain r s) := by
  unfold retain
  repeat' first
    | apply Eq.refl | with_reducible (first | apply Within.refl | assumption) | unfold x
    | ((try lift_lets); intro x; first | (refine (fun hx => ?_ : Within 4096 s x → _) ?_; clear_value x) | skip)
    | fail_if_no_progress ((with_reducible apply within_mk) <;> first
        | with_reducible (first
            | exact .inl rfl | exact (fun x => x) | exact .inl (fun _ x => x) | apply Nat.le_refl
            | exact fun _ => Nat.le_refl _)
        | exact .inr rfl | skip)
    | with_reducible (first | intro _ | apply within_ite | apply within_ite2) | split

theorem storeRecord_within {o : OutletNo} {r : SessionRecord} {s : State} :
    Within 17246982144 s (storeRecord o r s) := by
  unfold storeRecord
  repeat' first
    | apply Eq.refl | with_reducible (first | apply Within.refl | assumption) | unfold x
    | ((try lift_lets); intro x; first
        | (refine (fun hx => ?_ : Within 17246982144 s x → _) ?_; clear_value x) | skip)
    | fail_if_no_progress ((with_reducible apply within_mk) <;> first
        | with_reducible (first
            | exact .inl rfl | exact (fun x => x) | exact .inl (fun _ x => x) | apply Nat.le_refl
            | exact fun _ => Nat.le_refl _)
        | exact .inr rfl | skip)
    | with_reducible (first
        | intro _ | apply within_ite | apply within_ite2 | apply Within.go raise_within
        | apply Within.go retain_within)
    | split

theorem placeRecord_within {o : OutletNo} {r : SessionRecord} {s : State} :
    Within 19394465792 s (placeRecord o r s) := by
  unfold placeRecord
  repeat' first
    | apply Eq.refl | with_reducible (first | apply Within.refl | assumption) | unfold x
    | ((try lift_lets); intro x; first
        | (refine (fun hx => ?_ : Within 19394465792 s x → _) ?_; clear_value x) | skip)
    | fail_if_no_progress ((with_reducible apply within_mk) <;> first
        | with_reducible (first
            | exact .inl rfl | exact (fun x => x) | exact .inl (fun _ x => x) | apply Nat.le_refl
            | exact fun _ => Nat.le_refl _)
        | exact .inr rfl | skip)
    | with_reducible (first | intro _ | apply within_ite | apply within_ite2 | apply Within.go storeRecord_within)
    | split

theorem recordSign_within {o : OutletNo} {s : State} :
    Within 19394465792 s (recordSign o s) := by
  unfold recordSign
  repeat' first
    | apply Eq.refl | with_reducible (first | apply Within.refl | assumption)
    | with_reducible (first | intro _ | apply within_ite | apply within_ite2 | apply Within.go placeRecord_within)
    | split

theorem moveWaiting_within {s : State} :
    Within 4096 s (moveWaiting s) := by
  unfold moveWaiting
  repeat' first
    | apply Eq.refl | with_reducible (first | apply Within.refl | assumption)
    | fail_if_no_progress ((with_reducible apply within_mk) <;> first
        | with_reducible (first
            | exact .inl rfl | exact (fun x => x) | exact .inl (fun _ x => x) | apply Nat.le_refl
            | exact fun _ => Nat.le_refl _)
        | exact .inr rfl | skip)
    | with_reducible (first | intro _ | apply within_ite | apply within_ite2 | apply Within.go retain_within)
    | split <;> try with_reducible cases congrArg Prod.snd ‹_ = (_, _)›

theorem powerStop_within {o : OutletNo} {s : State} :
    Within 19394465792 s (powerStop o s) := by
  unfold powerStop
  repeat' first
    | apply Eq.refl | with_reducible (first | apply Within.refl | assumption) | unfold x
    | ((try lift_lets); intro x; first
        | (refine (fun hx => ?_ : Within 19394465792 s x → _) ?_; clear_value x) | skip)
    | fail_if_no_progress ((with_reducible apply within_mk) <;> first
        | with_reducible (first
            | exact .inl rfl | exact (fun x => x) | exact .inl (fun _ x => x) | apply Nat.le_refl
            | exact fun _ => Nat.le_refl _)
        | exact .inr rfl | skip)
    | with_reducible (first | intro _ | apply Within.go stopRecord_within | apply Within.go placeRecord_within)
    | split <;> try with_reducible cases congrArg Prod.snd ‹_ = (_, _)›

theorem State.onDisplay_within {s : State} {f : Display → Display} :
    Within 32768 s (State.onDisplay s f) := by
  unfold State.onDisplay
  repeat' first
    | apply Eq.refl | with_reducible (first | apply Within.refl | assumption)
    | fail_if_no_progress ((with_reducible apply within_mk) <;> first
        | with_reducible (first
            | exact .inl rfl | exact (fun x => x) | exact .inl (fun _ x => x) | apply Nat.le_refl
            | exact fun _ => Nat.le_refl _)
        | exact .inr rfl | skip)
    | with_reducible (first | intro _) | split

theorem compose_within {s : State} :
    Within 32768 s (compose s) := by
  unfold compose
  repeat' first
    | apply Eq.refl | with_reducible (first | apply Within.refl | assumption) | unfold x
    | ((try lift_lets); intro x; first | (refine (fun hx => ?_ : Within 32768 s x → _) ?_; clear_value x) | skip)
    | with_reducible (first | intro _ | apply within_ite | apply within_ite2 | apply Within.go State.onDisplay_within)
    | split

theorem frameEnd_within {late : Bool} {s : State} :
    Within 32768 s (frameEnd late s) := by
  unfold frameEnd
  repeat' first
    | apply Eq.refl | with_reducible (first | apply Within.refl | assumption) | unfold x
    | ((try lift_lets); intro x; first | (refine (fun hx => ?_ : Within 32768 s x → _) ?_; clear_value x) | skip)
    | with_reducible (first | intro _ | apply within_ite | apply within_ite2 | apply Within.go State.onDisplay_within)
    | split

theorem updateStart_within {s : State} :
    Within 32768 s (updateStart s) := by
  unfold updateStart
  repeat' first
    | apply Eq.refl | with_reducible (first | apply Within.refl | assumption) | unfold x
    | ((try lift_lets); intro x; first | (refine (fun hx => ?_ : Within 32768 s x → _) ?_; clear_value x) | skip)
    | with_reducible (first | intro _ | apply within_ite | apply within_ite2 | apply Within.go State.onDisplay_within)
    | split

theorem writeEnd_within {s : State} :
    Within 32768 s (writeEnd s) := by
  unfold writeEnd
  repeat' first
    | apply Eq.refl | with_reducible (first | apply Within.refl | assumption) | unfold x
    | ((try lift_lets); intro x; first | (refine (fun hx => ?_ : Within 32768 s x → _) ?_; clear_value x) | skip)
    | with_reducible (first | intro _ | apply within_ite | apply within_ite2 | apply Within.go State.onDisplay_within)
    | split

theorem updateCommit_within {late : Bool} {s : State} :
    Within 32768 s (updateCommit late s) := by
  unfold updateCommit
  repeat' first
    | apply Eq.refl | with_reducible (first | apply Within.refl | assumption) | unfold x
    | ((try lift_lets); intro x; first | (refine (fun hx => ?_ : Within 32768 s x → _) ?_; clear_value x) | skip)
    | with_reducible (first | intro _ | apply within_ite | apply within_ite2 | apply Within.go State.onDisplay_within)
    | split

theorem displayStop_within {s : State} :
    Within 32768 s (displayStop s) := by
  unfold displayStop
  repeat' first
    | apply Eq.refl | with_reducible (first | apply Within.refl | assumption)
    | with_reducible (first | intro _ | apply Within.go State.onDisplay_within) | split

theorem displayRestart_within {s : State} :
    Within 32768 s (displayRestart s) := by
  unfold displayRestart
  repeat' first
    | apply Eq.refl | with_reducible (first | apply Within.refl | assumption) | unfold x
    | ((try lift_lets); intro x; first | (refine (fun hx => ?_ : Within 32768 s x → _) ?_; clear_value x) | skip)
    | with_reducible (first | intro _ | apply within_ite | apply within_ite2 | apply Within.go State.onDisplay_within)
    | split

theorem displayPowerOn_within {s : State} :
    Within 32768 s (displayPowerOn s) := by
  unfold displayPowerOn
  repeat' first
    | apply Eq.refl | with_reducible (first | apply Within.refl | assumption) | unfold x
    | ((try lift_lets); intro x; first | (refine (fun hx => ?_ : Within 32768 s x → _) ?_; clear_value x) | skip)
    | with_reducible (first | intro _ | apply within_ite | apply within_ite2 | apply Within.go State.onDisplay_within)
    | split

theorem identityTimeout_within {s : State} :
    Within 32768 s (identityTimeout s) := by
  unfold identityTimeout
  repeat' first
    | apply Eq.refl | with_reducible (first | apply Within.refl | assumption)
    | with_reducible (first | intro _ | apply Within.go State.onDisplay_within | apply Within.go compose_within)
    | split

theorem copyMirror_within {s : State} :
    Within 103079215104 s (copyMirror s) := by
  unfold copyMirror
  repeat' first
    | apply Eq.refl | with_reducible (first | apply Within.refl | assumption)
    | fail_if_no_progress ((with_reducible apply within_mk) <;> first
        | with_reducible (first
            | exact .inl rfl | exact (fun x => x) | exact .inl (fun _ x => x) | apply Nat.le_refl
            | exact fun _ => Nat.le_refl _)
        | exact .inr rfl | skip)
    | with_reducible (first | intro _ | apply within_ite | apply within_ite2 | apply Within.go poolWrite_within)
    | split

theorem legalSecond_within {s : State} :
    Within 103079313664 s (legalSecond s) := by
  unfold legalSecond
  repeat' first
    | apply Eq.refl | with_reducible (first | apply Within.refl | assumption) | unfold x
    | ((try lift_lets); intro x; first
        | (refine (fun hx => ?_ : Within 103079313664 s x → _) ?_; clear_value x) | skip)
    | with_reducible (first
        | intro _ | apply within_ite | apply within_ite2 | apply Within.go saveTimers_within
        | apply Within.go formSecond_within | apply Within.go State.onDisplay_within | apply Within.go compose_within
        | apply Within.go copyMirror_within)
    | split

theorem whitelist_within {mm : Nat} (e : 17246994432 ||| mm = mm) {judge : List Byte → State → Option Reply}
    {effect : List Byte → State → Reply × State} {y0 : List Byte} {y1 : State}
    (heffect : ∀ z0 z1, Within mm z1 (effect z0 z1).2) :
    Within mm y1 (whitelist judge effect y0 y1).2 := by
  unfold whitelist
  repeat' first
    | apply Eq.refl | exact lorTrans (b := 17246994432) rfl e
    | with_reducible (first | apply Within.refl | assumption)
    | with_reducible (first
        | intro _ | apply within_ite | apply within_ite2 | apply Within.go ochreRefuses_within
        | apply Within.via (heffect ..))
    | split

theorem readOchre_within {mm : Nat} (e : 0 ||| mm = mm) {f : List Byte → State → Reply × State} {y0 : List Byte}
    {y1 : State}
    (hf : ∀ z0 z1, Within mm z1 (f z0 z1).2) :
    Within mm y1 (readOchre f y0 y1).2 := by
  unfold readOchre
  repeat' first
    | apply Eq.refl | exact lorTrans (b := 0) rfl e | with_reducible (first | apply Within.refl | assumption)
    | with_reducible (first | intro _ | apply within_ite | apply within_ite2 | apply Within.via (hf ..)) | split

theorem showOchre_within {f : List Byte → State → Reply} {y0 : List Byte} {y1 : State} :
    Within 0 y1 (showOchre f y0 y1).2 := by
  unfold showOchre
  repeat' first
    | apply Eq.refl | with_reducible (first | apply Within.refl | assumption)
    | with_reducible (first | intro _ | apply Within.via (readOchre_within ?_ ?_)) | split

theorem inRange_within {m op : Nat} {c : Cmd} {checks : List (Nat × Bool)} {r : Reply × State} {s : State}
    (hr : Within m s r.2) : Within m s (inRange op c checks r s).2 := by
  unfold inRange
  split
  · exact .refl _ _
  · exact hr

theorem read1sValues_within {c : Cmd} {y0 : State} :
    Within 3421008560128 y0 (read1sValues c y0) := by
  unfold read1sValues
  repeat' first
    | apply Eq.refl | with_reducible (first | apply Within.refl | assumption) | unfold x
    | ((try lift_lets); intro x; first
        | (refine (fun hx => ?_ : Within 3421008560128 y0 x → _) ?_; clear_value x) | skip)
    | fail_if_no_progress ((with_reducible apply within_mk) <;> first
        | with_reducible (first
            | exact .inl rfl | exact (fun x => x) | exact .inl (fun _ x => x) | apply Nat.le_refl
            | exact (fun _ => Nat.le_refl _) | apply Nat.le_add_right)
        | exact .inr rfl | skip)
    | with_reducible (first
        | intro _ | apply within_ite | apply within_ite2 | apply Within.via (runCmd_within ?_ ?_)
        | apply Within.via (readOchre_within ?_ ?_))
    | split

theorem readTotals_within {c : Cmd} {y0 : State} :
    Within 1221985304576 y0 (readTotals c y0) := by
  unfold readTotals
  repeat' first
    | apply Eq.refl | with_reducible (first | apply Within.refl | assumption) | unfold x
    | ((try lift_lets); intro x; first
        | (refine (fun hx => ?_ : Within 1221985304576 y0 x → _) ?_; clear_value x) | skip)
    | with_reducible (first | intro _ | apply Within.via (runCmd_within ?_ ?_) | apply Within.go showOchre_within)
    | split

theorem harmonicReply_within {sel : Nat} {o : OutletNo} {s : State} :
    Within 512 s (harmonicReply sel o s).2 := by
  unfold harmonicReply
  repeat' first
    | apply Eq.refl | with_reducible (first | apply Within.refl | assumption) | unfold x
    | ((try lift_lets); intro x; first | (refine (fun hx => ?_ : Within 512 s x → _) ?_; clear_value x) | skip)
    | with_reducible (first
        | intro _ | apply within_ite | apply within_ite2 | apply Within.go State.onAnalysis_within)
    | split <;> try with_reducible cases congrArg Prod.snd ‹_ = (_, _)›

theorem readHarmonicWindow_within {c : Cmd} {y0 : State} :
    Within 1221985305088 y0 (readHarmonicWindow c y0) := by
  unfold readHarmonicWindow
  repeat' first
    | apply Eq.refl | with_reducible (first | apply Within.refl | assumption)
    | with_reducible (first
        | intro _ | apply Within.via (runCmd_within ?_ ?_) | apply Within.via (readOchre_within ?_ ?_)
        | apply inRange_within | apply Within.go harmonicReply_within)
    | split

theorem readSupraharmonicResult_within {c : Cmd} {y0 : State} :
    Within 1221985304576 y0 (readSupraharmonicResult c y0) := by
  unfold readSupraharmonicResult
  repeat' first
    | apply Eq.refl | with_reducible (first | apply Within.refl | assumption)
    | with_reducible (first | intro _ | apply Within.via (runCmd_within ?_ ?_) | apply Within.go showOchre_within)
    | split

theorem collectRawSampleBlock_within {c : Cmd} {y0 : State} :
    Within 1221985305088 y0 (collectRawSampleBlock c y0) := by
  unfold collectRawSampleBlock
  repeat' first
    | apply Eq.refl | with_reducible (first | apply Within.refl | assumption) | unfold x
    | ((try lift_lets); intro x; first
        | (refine (fun hx => ?_ : Within 1221985305088 y0 x → _) ?_; clear_value x) | skip)
    | with_reducible (first
        | intro _ | apply Within.go State.onAnalysis_within | apply Within.via (runCmd_within ?_ ?_)
        | apply Within.via (readOchre_within ?_ ?_))
    | split

theorem readMetrologyTable_within {c : Cmd} {y0 : State} :
    Within 1221985304576 y0 (readMetrologyTable c y0) := by
  unfold readMetrologyTable
  repeat' first
    | apply Eq.refl | with_reducible (first | apply Within.refl | assumption)
    | with_reducible (first
        | intro _ | apply Within.via (runCmd_within ?_ ?_) | apply Within.via (readOchre_within ?_ ?_)
        | apply inRange_within)
    | split

theorem useStep_within {k : Fin 9} {s : State} : Within 536870912 s (useStep k s) := by
  unfold useStep
  apply within_mk (.refl _ _)
  case hs => exact fun i => by rw [Tab.at_upd]; split <;> omega
  all_goals first
    | with_reducible (first
        | exact .refl _ _ | exact .inl rfl | exact id | exact .inl (fun _ => id) | exact (fun _ => Nat.le_refl _)
        | exact Nat.le_refl _)
    | exact .inr rfl

theorem logRole_within {index : Nat} {old : RoleRecord} {new : RoleRecord} {s : State} :
    Within 17246980096 s (logRole index old new s) := by
  unfold logRole
  repeat' first
    | apply Eq.refl | with_reducible (first | apply Within.refl | assumption)
    | with_reducible (first | intro _ | apply Within.go logWhitelist_within) | split

theorem acceptRecord_within {r : RoleRecord} {s : State} :
    Within 17783851072 s (acceptRecord r s) := by
  unfold acceptRecord
  repeat' first
    | apply Eq.refl | with_reducible (first | apply Within.refl | assumption) | unfold x
    | ((try lift_lets); intro x; first
        | (refine (fun hx => ?_ : Within 17783851072 s x → _) ?_; clear_value x) | skip)
    | fail_if_no_progress ((with_reducible apply within_mk) <;> first
        | with_reducible (first
            | exact .inl rfl | exact (fun x => x) | exact .inl (fun _ x => x) | apply Nat.le_refl
            | exact fun _ => Nat.le_refl _)
        | exact .inr rfl | skip)
    | with_reducible (first
        | intro _ | apply within_ite | apply within_ite2 | apply Within.go useStep_within
        | apply Within.go logRole_within | apply within_foldl)
    | split

theorem acceptClock_within {w : Word} {s : State} :
    Within 17246980160 s (acceptClock w s) := by
  unfold acceptClock
  repeat' first
    | apply Eq.refl | with_reducible (first | apply Within.refl | assumption) | unfold x
    | ((try lift_lets); intro x; first
        | (refine (fun hx => ?_ : Within 17246980160 s x → _) ?_; clear_value x) | skip)
    | fail_if_no_progress ((with_reducible apply within_mk) <;> first
        | with_reducible (first
            | exact .inl rfl | exact (fun x => x) | exact .inl (fun _ x => x) | apply Nat.le_refl
            | exact fun _ => Nat.le_refl _)
        | exact .inr rfl | skip)
    | with_reducible (first | intro _ | apply Within.go logWhitelist_within) | split

theorem assignRoles_within {ws : List Word} {s : State} :
    Within 17783851072 s (assignRoles ws s).2 := by
  unfold assignRoles
  repeat' first
    | apply Eq.refl | with_reducible (first | apply Within.refl | assumption) | unfold x
    | ((try lift_lets); intro x; first
        | (refine (fun hx => ?_ : Within 17783851072 s x → _) ?_; clear_value x) | skip)
    | with_reducible (first
        | intro _ | apply within_ite | apply within_ite2 | apply Within.go acceptRecord_within
        | apply Within.go acceptClock_within)
    | split

theorem outletRoleAssignment_within {c : Cmd} {y0 : State} :
    Within 1222522193984 y0 (outletRoleAssignment c y0) := by
  unfold outletRoleAssignment
  repeat' first
    | apply Eq.refl | with_reducible (first | apply Within.refl | assumption) | unfold x
    | ((try lift_lets); intro x; first
        | (refine (fun hx => ?_ : Within 1222522193984 y0 x → _) ?_; clear_value x) | skip)
    | with_reducible (first
        | intro _ | apply Within.via (runCmd_within ?_ ?_) | apply Within.via (whitelist_within ?_ ?_)
        | apply Within.go assignRoles_within)
    | split

theorem calibrateUser_within {ws : List Word} {s : State} :
    Within 17247012928 s (calibrateUser ws s).2 := by
  unfold calibrateUser
  repeat' first
    | apply Eq.refl | with_reducible (first | apply Within.refl | assumption) | unfold x
    | ((try lift_lets); intro x; first
        | (refine (fun hx => ?_ : Within 17247012928 s x → _) ?_; clear_value x) | skip)
    | fail_if_no_progress ((with_reducible apply within_mk) <;> first
        | with_reducible (first
            | exact .inl rfl | exact (fun x => x) | exact .inl (fun _ x => x) | apply Nat.le_refl
            | exact fun _ => Nat.le_refl _)
        | exact .inr rfl | skip)
    | with_reducible (first | intro _ | apply Within.go logWhitelist_within | apply Within.go State.onDisplay_within)
    | split

theorem userCalibration_within {c : Cmd} {y0 : State} :
    Within 1221985355840 y0 (userCalibration c y0) := by
  unfold userCalibration
  repeat' first
    | apply Eq.refl | with_reducible (first | apply Within.refl | assumption) | unfold x
    | ((try lift_lets); intro x; first
        | (refine (fun hx => ?_ : Within 1221985355840 y0 x → _) ?_; clear_value x) | skip)
    | with_reducible (first
        | intro _ | apply Within.via (runCmd_within ?_ ?_) | apply Within.via (whitelist_within ?_ ?_)
        | apply Within.go calibrateUser_within)
    | split

theorem setMeteringMode_within {o : OutletNo} {ha : Bool} {s : State} :
    Within 512 s (setMeteringMode o ha s).2 := by
  unfold setMeteringMode
  repeat' first
    | apply Eq.refl | with_reducible (first | apply Within.refl | assumption)
    | fail_if_no_progress ((with_reducible apply within_mk) <;> first
        | with_reducible (first
            | exact .inl rfl | exact (fun x => x) | exact .inl (fun _ x => x) | apply Nat.le_refl
            | exact fun _ => Nat.le_refl _)
        | exact .inr rfl | skip)
    | with_reducible (first | intro _ | apply within_ite | apply within_ite2) | split

theorem meteringMode_within {c : Cmd} {y0 : State} :
    Within 1221985305088 y0 (meteringMode c y0) := by
  unfold meteringMode
  repeat' first
    | apply Eq.refl | with_reducible (first | apply Within.refl | assumption)
    | with_reducible (first
        | intro _ | apply Within.via (runCmd_within ?_ ?_) | apply Within.via (acts_within ?_ ?_)
        | apply inRange_within | apply Within.go setMeteringMode_within)
    | split

end Sys2Proof.Machine
end

