-- ==== Sys2Proof/Laws/WithinPower.lean ====
section
/-! SUPPORT. What the operations of resets, supplies, modes and images may do at most, one lemma each. -/

set_option linter.unusedTactic false
set_option linter.unreachableTactic false
set_option linter.unusedVariables false

namespace Sys2Proof.Machine

theorem burnTo_within {t : ImageNo} {h : List Byte} {s : State} : Within 4831838208 s (burnTo t h s) := by
  have h1 : ∀ n, Within 4831838208 s { s with keys.steps := s.keys.steps.upd (imageStep t) (· - n) } := by
    intro n
    apply within_mk (.refl _ _)
    case hs => exact fun i => by dsimp only; rw [Tab.at_upd]; split <;> omega
    all_goals first
      | with_reducible (first
          | exact .refl _ _ | exact .inl rfl | exact id | exact .inl (fun _ => id) | exact (fun _ => Nat.le_refl _)
          | exact Nat.le_refl _)
      | exact .inr rfl
  unfold burnTo
  dsimp only
  repeat' first
    | apply Eq.refl | with_reducible (first | apply Within.refl | assumption) | apply h1 | unfold x
    | ((try lift_lets); intro x; first | (refine (fun hx => ?_ : Within 4831838208 s x → _) ?_; clear_value x) | skip)
    | fail_if_no_progress ((with_reducible apply within_mk) <;> first
        | with_reducible (first
            | exact .inl rfl | exact (fun x => x) | exact .inl (fun _ x => x) | apply Nat.le_refl
            | exact fun _ => Nat.le_refl _)
        | exact .inr rfl | skip)
    | with_reducible (first | intro _ | apply within_ite | apply within_ite2 | apply Within.go State.onImage_within)
    | split

theorem bringIn_within {t : ImageNo} {s : State} :
    Within 4831838208 s (bringIn t s) := by
  unfold bringIn
  repeat' first
    | apply Eq.refl | with_reducible (first | apply Within.refl | assumption) | unfold x
    | ((try lift_lets); intro x; first | (refine (fun hx => ?_ : Within 4831838208 s x → _) ?_; clear_value x) | skip)
    | with_reducible (first | intro _ | apply Within.go State.onImage_within | apply Within.go burnTo_within) | split

theorem bringWaiting_within {t : ImageNo} {s : State} :
    Within 4831838208 s (bringWaiting t s) := by
  unfold bringWaiting
  repeat' first
    | apply Eq.refl | with_reducible (first | apply Within.refl | assumption)
    | with_reducible (first | intro _ | apply within_ite | apply within_ite2 | apply Within.go bringIn_within) | split

theorem chooseSlots_within {s : State} :
    Within 4831838208 s (chooseSlots s) := by
  unfold chooseSlots
  repeat' first
    | apply Eq.refl | with_reducible (first | apply Within.refl | assumption)
    | with_reducible (first
        | intro _ | apply within_ite | apply within_ite2 | apply Within.go State.onImage_within
        | apply Within.via (forEach_within ?_) | apply Within.go bringIn_within)
    | split

theorem failTrial_within {t : ImageNo} {s : State} :
    Within 21541945344 s (failTrial t s) := by
  unfold failTrial
  repeat' first
    | apply Eq.refl | with_reducible (first | apply Within.refl | assumption) | unfold x
    | ((try lift_lets); intro x; first
        | (refine (fun hx => ?_ : Within 21541945344 s x → _) ?_; clear_value x) | skip)
    | fail_if_no_progress ((with_reducible apply within_mk) <;> first
        | with_reducible (first
            | exact .inl rfl | exact (fun x => x) | exact .inl (fun _ x => x) | apply Nat.le_refl
            | exact fun _ => Nat.le_refl _)
        | exact .inr rfl | skip)
    | with_reducible (first
        | intro _ | apply within_ite | apply within_ite2 | apply Within.go State.onImage_within
        | apply Within.go raise_within)
    | split

theorem watchTrial_within {t : ImageNo} {s : State} :
    Within 21541945344 s (watchTrial t s) := by
  unfold watchTrial
  repeat' first
    | apply Eq.refl | with_reducible (first | apply Within.refl | assumption) | unfold x
    | ((try lift_lets); intro x; first
        | (refine (fun hx => ?_ : Within 21541945344 s x → _) ?_; clear_value x) | skip)
    | with_reducible (first
        | intro _ | apply within_ite | apply within_ite2 | apply Within.go State.onImage_within
        | apply Within.go failTrial_within)
    | split

theorem abortStaging_within {s : State} :
    Within 1122127314946 s (abortStaging s) := by
  unfold abortStaging
  repeat' first
    | apply Eq.refl | with_reducible (first | apply Within.refl | assumption) | unfold x
    | ((try lift_lets); intro x; first
        | (refine (fun hx => ?_ : Within 1122127314946 s x → _) ?_; clear_value x) | skip)
    | fail_if_no_progress ((with_reducible apply within_mk) <;> first
        | with_reducible (first
            | exact .inl rfl | exact (fun x => x) | exact .inl (fun _ x => x) | apply Nat.le_refl
            | exact fun _ => Nat.le_refl _)
        | exact .inr rfl | skip)
    | with_reducible (first
        | intro _ | apply Within.go State.onImage_within | apply Within.go raise_within
        | apply Within.go settle_within | apply Within.go dropDerived_within)
    | split

theorem setCause_within {bit : Nat} {s : State} :
    Within 524288 s (setCause bit s) := by
  unfold setCause
  repeat' first
    | apply Eq.refl | with_reducible (first | apply Within.refl | assumption)
    | fail_if_no_progress ((with_reducible apply within_mk) <;> first
        | with_reducible (first
            | exact .inl rfl | exact (fun x => x) | exact .inl (fun _ x => x) | apply Nat.le_refl
            | exact fun _ => Nat.le_refl _)
        | exact .inr rfl | skip)
    | with_reducible (first | intro _) | split

theorem resetEvent_within {die : Nat} {why : ResetBy} {s : State} :
    Within 17246978048 s (resetEvent die why s) := by
  unfold resetEvent
  repeat' first
    | apply Eq.refl | with_reducible (first | apply Within.refl | assumption)
    | with_reducible (first | intro _ | apply Within.go raise_within) | split

theorem sessionLosesTls_within {o : OutletNo} {s : State} :
    Within 17254514688 s (sessionLosesTls o s) := by
  unfold sessionLosesTls
  repeat' first
    | apply Eq.refl | with_reducible (first | apply Within.refl | assumption)
    | with_reducible (first | intro _ | apply within_ite | apply within_ite2 | apply Within.go holdSession_within)
    | split

theorem startTransfer_within {s : State} :
    Within 2147483648 s (startTransfer s) := by
  unfold startTransfer
  repeat' first
    | apply Eq.refl | with_reducible (first | apply Within.refl | assumption)
    | fail_if_no_progress ((with_reducible apply within_mk) <;> first
        | with_reducible (first
            | exact .inl rfl | exact (fun x => x) | exact .inl (fun _ x => x) | apply Nat.le_refl
            | exact fun _ => Nat.le_refl _)
        | exact .inr rfl | skip)
    | with_reducible (first | intro _) | split

theorem wipeVault_within {trigger : Nat} {s : State} :
    Within 1433519980546 s (wipeVault trigger s) := by
  unfold wipeVault
  repeat' first
    | apply Eq.refl | with_reducible (first | apply Within.refl | assumption) | unfold x
    | ((try lift_lets); intro x; first
        | (refine (fun hx => ?_ : Within 1433519980546 s x → _) ?_; clear_value x) | skip)
    | fail_if_no_progress ((with_reducible apply within_mk) <;> first
        | with_reducible (first
            | exact .inl rfl | exact (fun x => x) | exact .inl (fun _ x => x) | apply Nat.le_refl
            | exact fun _ => Nat.le_refl _)
        | exact .inr rfl | skip)
    | with_reducible (first
        | intro _ | apply within_ite | apply within_ite2 | apply Within.via (forEach_within ?_)
        | apply Within.go raise_within | apply Within.go dropDerived_within | apply Within.go closeConnections_within
        | apply Within.go abortStaging_within | apply Within.go sessionLosesTls_within
        | apply Within.go startTransfer_within)
    | split

theorem enterRecovery_within {s : State} :
    Within 1433519980554 s (enterRecovery s) := by
  unfold enterRecovery
  repeat' first
    | apply Eq.refl | with_reducible (first | apply Within.refl | assumption) | unfold x
    | ((try lift_lets); intro x; first
        | (refine (fun hx => ?_ : Within 1433519980554 s x → _) ?_; clear_value x) | skip)
    | fail_if_no_progress ((with_reducible apply within_mk) <;> first
        | with_reducible (first
            | exact .inl rfl | exact (fun x => x) | exact .inl (fun _ x => x) | apply Nat.le_refl
            | exact fun _ => Nat.le_refl _)
        | exact .inr rfl | skip)
    | with_reducible (first
        | intro _ | apply Within.go raise_within | apply Within.go settle_within | apply Within.go wipeVault_within)
    | split

theorem leaveCommissioning_within {s : State} :
    Within 70 s (leaveCommissioning s) := by
  unfold leaveCommissioning
  repeat' first
    | apply Eq.refl | with_reducible (first | apply Within.refl | assumption) | unfold x
    | ((try lift_lets); intro x; first | (refine (fun hx => ?_ : Within 70 s x → _) ?_; clear_value x) | skip)
    | fail_if_no_progress ((with_reducible apply within_mk) <;> first
        | with_reducible (first
            | exact .inl rfl | exact (fun x => x) | exact .inl (fun _ x => x) | apply Nat.le_refl
            | exact fun _ => Nat.le_refl _)
        | exact .inr rfl | skip)
    | with_reducible (first | intro _ | apply within_ite | apply within_ite2) | split

theorem expireKeys_within {s : State} :
    Within 1207959552 s (expireKeys s) := by
  unfold expireKeys
  repeat' first
    | apply Eq.refl | with_reducible (first | apply Within.refl | assumption) | unfold x
    | ((try lift_lets); intro x; first | (refine (fun hx => ?_ : Within 1207959552 s x → _) ?_; clear_value x) | skip)
    | fail_if_no_progress ((with_reducible apply within_mk) <;> first
        | with_reducible (first
            | exact .inl rfl | exact (fun x => x) | exact .inl (fun _ x => x) | apply Nat.le_refl
            | exact fun _ => Nat.le_refl _)
        | exact .inr rfl | skip)
    | with_reducible (first | intro _ | apply within_ite | apply within_ite2 | apply Within.go dropDerived_within)
    | split

theorem requeue_within {s : State} {e : FaultEntry} :
    Within 17179869184 s (requeue s e) := by
  unfold requeue
  repeat' first
    | apply Eq.refl | with_reducible (first | apply Within.refl | assumption)
    | fail_if_no_progress ((with_reducible apply within_mk) <;> first
        | with_reducible (first
            | exact .inl rfl | exact (fun x => x) | exact .inl (fun _ x => x) | apply Nat.le_refl
            | exact fun _ => Nat.le_refl _)
        | exact .inr rfl | skip)
    | with_reducible (first | intro _) | split

theorem aggregatorReset_within {s : State} :
    Within 17179869184 s (aggregatorReset s) := by
  unfold aggregatorReset
  repeat' first
    | apply Eq.refl | with_reducible (first | apply Within.refl | assumption) | unfold x
    | ((try lift_lets); intro x; first
        | (refine (fun hx => ?_ : Within 17179869184 s x → _) ?_; clear_value x) | skip)
    | fail_if_no_progress ((with_reducible apply within_mk) <;> first
        | with_reducible (first
            | exact .inl rfl | exact (fun x => x) | exact .inl (fun _ x => x) | apply Nat.le_refl
            | exact fun _ => Nat.le_refl _)
        | exact .inr rfl | skip)
    | with_reducible (first | intro _ | apply Within.go requeue_within | apply within_foldl) | split

theorem mailboxReset_within {s : State} :
    Within 34359738368 s (mailboxReset s) := by
  unfold mailboxReset
  repeat' first
    | apply Eq.refl | with_reducible (first | apply Within.refl | assumption)
    | fail_if_no_progress ((with_reducible apply within_mk) <;> first
        | with_reducible (first
            | exact .inl rfl | exact (fun x => x) | exact .inl (fun _ x => x) | apply Nat.le_refl
            | exact fun _ => Nat.le_refl _)
        | exact .inr rfl | skip)
    | with_reducible (first | intro _) | split

theorem memoryReset_within {s : State} : Within 1030792151040 s (memoryReset s) := by
  unfold memoryReset
  apply within_mk (.refl _ _)
  case hp => exact fun _ => rfl
  case hd => exact fun _ p => by simp [MemState.reset, memWf]
  all_goals first
    | with_reducible (first
        | exact .refl _ _ | exact .inl rfl | exact id | exact .inl (fun _ => id) | exact (fun _ => Nat.le_refl _)
        | exact Nat.le_refl _)
    | exact .inr rfl

theorem linkReset_within {s : State} :
    Within 2147483648 s (linkReset s) := by
  unfold linkReset
  repeat' first
    | apply Eq.refl | with_reducible (first | apply Within.refl | assumption)
    | fail_if_no_progress ((with_reducible apply within_mk) <;> first
        | with_reducible (first
            | exact .inl rfl | exact (fun x => x) | exact .inl (fun _ x => x) | apply Nat.le_refl
            | exact fun _ => Nat.le_refl _)
        | exact .inr rfl | skip)
    | with_reducible (first | intro _) | split

theorem milletReset_within {s : State} :
    Within 12952010752 s (milletReset s) := by
  unfold milletReset
  repeat' first
    | apply Eq.refl | with_reducible (first | apply Within.refl | assumption)
    | fail_if_no_progress ((with_reducible apply within_mk) <;> first
        | with_reducible (first
            | exact .inl rfl | exact (fun x => x) | exact .inl (fun _ x => x) | apply Nat.le_refl
            | exact fun _ => Nat.le_refl _)
        | exact .inr rfl | skip)
    | with_reducible (first | intro _ | apply Within.go reads_within) | split

theorem controlReset_within {bit : Nat} {why : ResetBy} {s : State} :
    Within 2198690332750 s (controlReset bit why s) := by
  unfold controlReset
  repeat' first
    | apply Eq.refl | with_reducible (first | apply Within.refl | assumption) | unfold x
    | ((try lift_lets); intro x; first
        | (refine (fun hx => ?_ : Within 2198690332750 s x → _) ?_; clear_value x) | skip)
    | fail_if_no_progress ((with_reducible apply within_mk) <;> first
        | with_reducible (first
            | exact .inl rfl | exact (fun x => x) | exact .inl (fun _ x => x) | apply Nat.le_refl
            | exact fun _ => Nat.le_refl _)
        | exact .inr rfl | skip)
    | with_reducible (first
        | intro _ | apply within_ite | apply within_ite2 | apply Within.go settle_within
        | apply Within.go lateStops_within | apply Within.go bringWaiting_within | apply Within.go watchTrial_within
        | apply Within.go abortStaging_within | apply Within.go setCause_within | apply Within.go resetEvent_within
        | apply Within.go leaveCommissioning_within | apply Within.go expireKeys_within
        | apply Within.go aggregatorReset_within | apply Within.go mailboxReset_within
        | apply Within.go memoryReset_within | apply Within.go linkReset_within | apply Within.go milletReset_within)
    | split

theorem controlWatchdog_within {s : State} :
    Within 2198690332750 s (controlWatchdog s) := by
  unfold controlWatchdog
  repeat' first
    | apply Eq.refl | with_reducible (first | apply Within.refl | assumption)
    | with_reducible (first | intro _ | apply within_ite | apply within_ite2 | apply Within.go controlReset_within)
    | split

theorem failedStart_within {s : State} :
    Within 1433520504842 s (failedStart s) := by
  unfold failedStart
  repeat' first
    | apply Eq.refl | with_reducible (first | apply Within.refl | assumption) | unfold x
    | ((try lift_lets); intro x; first
        | (refine (fun hx => ?_ : Within 1433520504842 s x → _) ?_; clear_value x) | skip)
    | fail_if_no_progress ((with_reducible apply within_mk) <;> first
        | with_reducible (first
            | exact .inl rfl | exact (fun x => x) | exact .inl (fun _ x => x) | apply Nat.le_refl
            | exact fun _ => Nat.le_refl _)
        | exact .inr rfl | skip)
    | with_reducible (first
        | intro _ | apply within_ite | apply within_ite2 | apply Within.go setCause_within
        | apply Within.go enterRecovery_within)
    | split

theorem startLimit_within {s : State} :
    Within 2198695772238 s (startLimit s) := by
  unfold startLimit
  repeat' first
    | apply Eq.refl | with_reducible (first | apply Within.refl | assumption)
    | with_reducible (first
        | intro _ | apply within_ite | apply within_ite2 | apply Within.go controlReset_within
        | apply Within.go failedStart_within)
    | split

theorem resetAfterResponse_within {s : State} :
    Within 2198690332750 s (resetAfterResponse s) := by
  unfold resetAfterResponse
  repeat' first
    | apply Eq.refl | with_reducible (first | apply Within.refl | assumption)
    | with_reducible (first | intro _ | apply within_ite | apply within_ite2 | apply Within.go controlReset_within)
    | split

theorem fescueReset_within {bit : Nat} {why : ResetBy} {s : State} :
    Within 22084583432 s (fescueReset bit why s) := by
  unfold fescueReset
  repeat' first
    | apply Eq.refl | with_reducible (first | apply Within.refl | assumption) | unfold x
    | ((try lift_lets); intro x; first
        | (refine (fun hx => ?_ : Within 22084583432 s x → _) ?_; clear_value x) | skip)
    | fail_if_no_progress ((with_reducible apply within_mk) <;> first
        | with_reducible (first
            | exact .inl rfl | exact (fun x => x) | exact .inl (fun _ x => x) | apply Nat.le_refl
            | exact fun _ => Nat.le_refl _)
        | exact .inr rfl | skip)
    | with_reducible (first
        | intro _ | apply within_ite | apply within_ite2 | apply Within.go bringWaiting_within
        | apply Within.go watchTrial_within | apply Within.go setCause_within | apply Within.go resetEvent_within)
    | split

theorem fescueBeat_within {s : State} :
    Within 17248026632 s (fescueBeat s) := by
  unfold fescueBeat
  repeat' first
    | apply Eq.refl | with_reducible (first | apply Within.refl | assumption) | unfold x
    | ((try lift_lets); intro x; first
        | (refine (fun hx => ?_ : Within 17248026632 s x → _) ?_; clear_value x) | skip)
    | fail_if_no_progress ((with_reducible apply within_mk) <;> first
        | with_reducible (first
            | exact .inl rfl | exact (fun x => x) | exact .inl (fun _ x => x) | apply Nat.le_refl
            | exact fun _ => Nat.le_refl _)
        | exact .inr rfl | skip)
    | with_reducible (first
        | intro _ | apply within_ite | apply within_ite2 | apply Within.go raiseEnd_within
        | apply Within.go refreshDrives_within)
    | split

theorem fescueMissing_within {s : State} :
    Within 17248026632 s (fescueMissing s) := by
  unfold fescueMissing
  repeat' first
    | apply Eq.refl | with_reducible (first | apply Within.refl | assumption) | unfold x
    | ((try lift_lets); intro x; first
        | (refine (fun hx => ?_ : Within 17248026632 s x → _) ?_; clear_value x) | skip)
    | fail_if_no_progress ((with_reducible apply within_mk) <;> first
        | with_reducible (first
            | exact .inl rfl | exact (fun x => x) | exact .inl (fun _ x => x) | apply Nat.le_refl
            | exact fun _ => Nat.le_refl _)
        | exact .inr rfl | skip)
    | with_reducible (first
        | intro _ | apply within_ite | apply within_ite2 | apply Within.go raise_within
        | apply Within.go fescueBeat_within)
    | split

theorem openRecorded_within {cause : Byte} {o : OutletNo} {s : State} :
    Within 17247174656 s (openRecorded cause o s) := by
  unfold openRecorded
  repeat' first
    | apply Eq.refl | with_reducible (first | apply Within.refl | assumption)
    | with_reducible (first
        | intro _ | apply within_ite | apply within_ite2 | apply Within.go openPair_within
        | apply Within.go recordCause_within)
    | split

theorem fescueLoss_within {s : State} :
    Within 22084780040 s (fescueLoss s) := by
  unfold fescueLoss
  repeat' first
    | apply Eq.refl | with_reducible (first | apply Within.refl | assumption)
    | with_reducible (first
        | intro _ | apply within_ite | apply within_ite2 | apply Within.via (forEach_within ?_)
        | apply Within.go fescueReset_within | apply Within.go openRecorded_within)
    | split

theorem speltReset_within {bit : Nat} {why : ResetBy} {s : State} :
    Within 22087729160 s (speltReset bit why s) := by
  unfold speltReset
  repeat' first
    | apply Eq.refl | with_reducible (first | apply Within.refl | assumption) | unfold x
    | ((try lift_lets); intro x; first
        | (refine (fun hx => ?_ : Within 22087729160 s x → _) ?_; clear_value x) | skip)
    | fail_if_no_progress ((with_reducible apply within_mk) <;> first
        | with_reducible (first
            | exact .inl rfl | exact (fun x => x) | exact .inl (fun _ x => x) | apply Nat.le_refl
            | exact fun _ => Nat.le_refl _)
        | exact .inr rfl | skip)
    | with_reducible (first
        | intro _ | apply within_ite | apply within_ite2 | apply Within.go bringWaiting_within
        | apply Within.go watchTrial_within | apply Within.go setCause_within | apply Within.go resetEvent_within)
    | split

theorem speltReady_within {s : State} :
    Within 8 s (speltReady s) := by
  unfold speltReady
  repeat' first
    | apply Eq.refl | with_reducible (first | apply Within.refl | assumption)
    | fail_if_no_progress ((with_reducible apply within_mk) <;> first
        | with_reducible (first
            | exact .inl rfl | exact (fun x => x) | exact .inl (fun _ x => x) | apply Nat.le_refl
            | exact fun _ => Nat.le_refl _)
        | exact .inr rfl | skip)
    | with_reducible (first | intro _ | apply within_ite | apply within_ite2) | split

theorem speltWatchdog_within {s : State} :
    Within 22087729160 s (speltWatchdog s) := by
  unfold speltWatchdog
  repeat' first
    | apply Eq.refl | with_reducible (first | apply Within.refl | assumption)
    | with_reducible (first | intro _ | apply within_ite | apply within_ite2 | apply Within.go speltReset_within)
    | split

theorem russetReset_within {bit : Nat} {s : State} : Within 4832821256 s (russetReset bit s) := by
  have h1 : ∀ d, Within 4832821256 s { s with rus := s.rus.afterReset s.och.clock.mono, dies := d } := by
    intro d
    apply within_mk (.refl _ _)
    case hl => exact fun _ i _ => by simp [Russet.afterReset, Pair.afterReset, Pair.reset]
    case ha =>
      refine .inl fun i hi => ?_
      simp only [Russet.afterReset, Tab.at_each, Guard.afterReset]
      exact hi
    all_goals first
      | with_reducible (first
          | exact .refl _ _ | exact .inl rfl | exact id | exact .inl (fun _ => id) | exact (fun _ => Nat.le_refl _)
          | exact Nat.le_refl _)
      | exact .inr rfl
  unfold russetReset
  dsimp only
  repeat' first
    | apply Eq.refl | with_reducible (first | apply Within.refl | assumption) | apply h1 | unfold x
    | ((try lift_lets); intro x; first | (refine (fun hx => ?_ : Within 4832821256 s x → _) ?_; clear_value x) | skip)
    | fail_if_no_progress ((with_reducible apply within_mk) <;> first
        | with_reducible (first
            | exact .inl rfl | exact (fun x => x) | exact .inl (fun _ x => x) | apply Nat.le_refl
            | exact fun _ => Nat.le_refl _)
        | exact .inr rfl | skip)
    | with_reducible (first | intro _ | apply Within.go bringWaiting_within) | split

theorem lockstepMismatch_within {s : State} :
    Within 4832821256 s (lockstepMismatch s) := by
  unfold lockstepMismatch
  repeat' first
    | apply Eq.refl | with_reducible (first | apply Within.refl | assumption)
    | with_reducible (first | intro _ | apply within_ite | apply within_ite2 | apply Within.go russetReset_within)
    | split

theorem russetWatchdog_within {s : State} :
    Within 4832821256 s (russetWatchdog s) := by
  unfold russetWatchdog
  repeat' first
    | apply Eq.refl | with_reducible (first | apply Within.refl | assumption)
    | with_reducible (first | intro _ | apply within_ite | apply within_ite2 | apply Within.go russetReset_within)
    | split

theorem recordMapped_within {o : OutletNo} {s : State} :
    Within 17247043584 s (recordMapped o s) := by
  unfold recordMapped
  repeat' first
    | apply Eq.refl | exact (fun _ => rfl) | with_reducible (first | apply Within.refl | assumption)
    | with_reducible (first
        | intro _ | apply within_ite | apply within_ite2 | apply Within.go (State.onGuard_within ?_)
        | apply Within.go recordCause_within)
    | split

theorem resumeTimers_within {s : State} : Within 65536 s (resumeTimers s) := by
  unfold resumeTimers
  apply within_mk (.refl _ _)
  case hl =>
    intro h i hi
    refine h i ?_
    rw [Tab.at_each] at hi
    split at hi <;> exact hi
  case ha =>
    refine .inl fun i hi => ?_
    rw [Tab.at_each]
    split <;> exact hi
  all_goals first
    | with_reducible (first
        | exact .refl _ _ | exact .inl rfl | exact id | exact .inl (fun _ => id) | exact (fun _ => Nat.le_refl _)
        | exact Nat.le_refl _)
    | exact .inr rfl

theorem russetRestart_within {s : State} :
    Within 1121055211528 s (russetRestart s) := by
  unfold russetRestart
  repeat' first
    | apply Eq.refl | with_reducible (first | apply Within.refl | assumption) | unfold x
    | ((try lift_lets); intro x; first
        | (refine (fun hx => ?_ : Within 1121055211528 s x → _) ?_; clear_value x) | skip)
    | fail_if_no_progress ((with_reducible apply within_mk) <;> first
        | with_reducible (first
            | exact .inl rfl | exact (fun x => x) | exact .inl (fun _ x => x) | apply Nat.le_refl
            | exact fun _ => Nat.le_refl _)
        | exact .inr rfl | skip)
    | with_reducible (first
        | intro _ | apply within_ite | apply within_ite2 | apply Within.via (forEach_within ?_)
        | apply Within.go settle_within | apply Within.go refreshDrives_within | apply Within.go watchTrial_within
        | apply Within.go setCause_within | apply Within.go resetEvent_within | apply Within.go recordMapped_within
        | apply Within.go resumeTimers_within)
    | split

theorem relock_within {s : State} :
    Within 17246978432 s (relock s) := by
  unfold relock
  repeat' first
    | apply Eq.refl | with_reducible (first | apply Within.refl | assumption) | unfold x
    | ((try lift_lets); intro x; first
        | (refine (fun hx => ?_ : Within 17246978432 s x → _) ?_; clear_value x) | skip)
    | with_reducible (first | intro _ | apply Within.go setValidity_within | apply within_foldl) | split

theorem ochreRestartState_within {s : State} :
    Within 896 s (ochreRestartState s) := by
  unfold ochreRestartState
  repeat' first
    | apply Eq.refl | with_reducible (first | apply Within.refl | assumption)
    | fail_if_no_progress ((with_reducible apply within_mk) <;> first
        | with_reducible (first
            | exact .inl rfl | exact (fun x => x) | exact .inl (fun _ x => x) | apply Nat.le_refl
            | exact fun _ => Nat.le_refl _)
        | exact .inr rfl | skip)
    | with_reducible (first | intro _ | apply Within.go supraStep_within) | split

theorem ochreReset_within {bit : Nat} {why : ResetBy} {tails : List Tail} {s : State} :
    Within 2218418280361 s (ochreReset bit why tails s) := by
  unfold ochreReset
  repeat' first
    | apply Eq.refl | with_reducible (first | apply Within.refl | assumption) | unfold x
    | ((try lift_lets); intro x; first
        | (refine (fun hx => ?_ : Within 2218418280361 s x → _) ?_; clear_value x) | skip)
    | fail_if_no_progress ((with_reducible apply within_mk) <;> first
        | with_reducible (first
            | exact .inl rfl | exact (fun x => x) | exact .inl (fun _ x => x) | apply Nat.le_refl
            | exact fun _ => Nat.le_refl _)
        | exact .inr rfl | skip)
    | with_reducible (first
        | intro _ | apply within_ite | apply within_ite2 | apply Within.go finalSave_within
        | apply Within.go displayStop_within | apply Within.go setCause_within | apply Within.go resetEvent_within
        | apply Within.go ochreRestartState_within)
    | split

theorem ochreWatchdog_within {tails : List Tail} {s : State} :
    Within 2218418280361 s (ochreWatchdog tails s) := by
  unfold ochreWatchdog
  repeat' first
    | apply Eq.refl | with_reducible (first | apply Within.refl | assumption)
    | with_reducible (first | intro _ | apply within_ite | apply within_ite2 | apply Within.go ochreReset_within)
    | split

theorem markGap_within {s : State} :
    Within 4352 s (markGap s) := by
  unfold markGap
  repeat' first
    | apply Eq.refl | with_reducible (first | apply Within.refl | assumption)
    | with_reducible (first
        | intro _ | apply Within.via (forEach_within ?_) | apply Within.go markInterval_within
        | apply Within.go markSession_within)
    | split

theorem missedTicks_within {from_ : Nat} {s : State} :
    Within 2216270249256 s (missedTicks from_ s) := by
  unfold missedTicks
  repeat' first
    | apply Eq.refl | with_reducible (first | apply Within.refl | assumption) | unfold x
    | ((try lift_lets); intro x; first
        | (refine (fun hx => ?_ : Within 2216270249256 s x → _) ?_; clear_value x) | skip)
    | fail_if_no_progress ((with_reducible apply within_mk) <;> first
        | with_reducible (first
            | exact .inl rfl | exact (fun x => x) | exact .inl (fun _ x => x) | apply Nat.le_refl
            | exact fun _ => Nat.le_refl _)
        | exact .inr rfl | skip)
    | with_reducible (first
        | intro _ | apply within_ite | apply within_ite2 | apply Within.go processUpTo_within
        | apply Within.go processDeferred_within)
    | split

theorem ochreRestart_within {gap : Nat} {s : State} :
    Within 2216270282152 s (ochreRestart gap s) := by
  unfold ochreRestart
  repeat' first
    | apply Eq.refl | with_reducible (first | apply Within.refl | assumption) | unfold x
    | ((try lift_lets); intro x; first
        | (refine (fun hx => ?_ : Within 2216270282152 s x → _) ?_; clear_value x) | skip)
    | fail_if_no_progress ((with_reducible apply within_mk) <;> first
        | with_reducible (first
            | exact .inl rfl | exact (fun x => x) | exact .inl (fun _ x => x) | apply Nat.le_refl
            | exact fun _ => Nat.le_refl _)
        | exact .inr rfl | skip)
    | with_reducible (first
        | intro _ | apply within_ite | apply within_ite2 | apply Within.go logOchre_within
        | apply Within.go compose_within | apply Within.go displayRestart_within | apply Within.go relock_within
        | apply Within.go markGap_within | apply Within.go missedTicks_within)
    | split

theorem yieldLease_within {s : State} :
    Within 2148532224 s (yieldLease s) := by
  unfold yieldLease
  repeat' first
    | apply Eq.refl | with_reducible (first | apply Within.refl | assumption)
    | fail_if_no_progress ((with_reducible apply within_mk) <;> first
        | with_reducible (first
            | exact .inl rfl | exact (fun x => x) | exact .inl (fun _ x => x) | apply Nat.le_refl
            | exact fun _ => Nat.le_refl _)
        | exact .inr rfl | skip)
    | with_reducible (first | intro _ | apply within_ite | apply within_ite2 | apply Within.go refreshDrives_within)
    | split

theorem flushFaults_within {s : State} : Within 17179869184 s (flushFaults s) := by
  have h1 : ∀ a b, Within 17179869184 s { s with evt.log := a, evt.unflushed := b } := by
    intro a b
    apply within_mk (.refl _ _)
    all_goals first
      | with_reducible (first
          | exact .refl _ _ | exact .inl rfl | exact id | exact .inl (fun _ => id) | exact (fun _ => Nat.le_refl _)
          | exact Nat.le_refl _)
      | exact .inr rfl
  exact h1 _ _

theorem abandonBundle_within {s : State} :
    Within 51539607552 s (abandonBundle s) := by
  unfold abandonBundle
  repeat' first
    | apply Eq.refl | with_reducible (first | apply Within.refl | assumption)
    | fail_if_no_progress ((with_reducible apply within_mk) <;> first
        | with_reducible (first
            | exact .inl rfl | exact (fun x => x) | exact .inl (fun _ x => x) | apply Nat.le_refl
            | exact fun _ => Nat.le_refl _)
        | exact .inr rfl | skip)
    | with_reducible (first | intro _) | split <;> try with_reducible cases congrArg Prod.snd ‹_ = (_, _)›

theorem controlAtPfw_within {s : State} :
    Within 1156487053314 s (controlAtPfw s) := by
  unfold controlAtPfw
  repeat' first
    | apply Eq.refl | with_reducible (first | apply Within.refl | assumption) | unfold x
    | ((try lift_lets); intro x; first
        | (refine (fun hx => ?_ : Within 1156487053314 s x → _) ?_; clear_value x) | skip)
    | fail_if_no_progress ((with_reducible apply within_mk) <;> first
        | with_reducible (first
            | exact .inl rfl | exact (fun x => x) | exact .inl (fun _ x => x) | apply Nat.le_refl
            | exact fun _ => Nat.le_refl _)
        | exact .inr rfl | skip)
    | with_reducible (first
        | intro _ | apply within_ite | apply within_ite2 | apply Within.go mirrorFaults_within
        | apply Within.go abortStaging_within | apply Within.go flushFaults_within
        | apply Within.go abandonBundle_within)
    | split

theorem pfwInReset_within {at_ : Nat} {s : State} :
    Within 9 s (pfwInReset at_ s) := by
  unfold pfwInReset
  repeat' first
    | apply Eq.refl | with_reducible (first | apply Within.refl | assumption)
    | fail_if_no_progress ((with_reducible apply within_mk) <;> first
        | with_reducible (first
            | exact .inl rfl | exact (fun x => x) | exact .inl (fun _ x => x) | apply Nat.le_refl
            | exact fun _ => Nat.le_refl _)
        | exact .inr rfl | skip)
    | with_reducible (first | intro _) | split

theorem pfwAssert_within {us : Nat} {tails : List Tail} {saved : Bool} {s : State} :
    Within 3357658879275 s (pfwAssert us tails saved s) := by
  unfold pfwAssert
  repeat' first
    | apply Eq.refl | with_reducible (first | apply Within.refl | assumption) | unfold x
    | ((try lift_lets); intro x; first
        | (refine (fun hx => ?_ : Within 3357658879275 s x → _) ?_; clear_value x) | skip)
    | fail_if_no_progress ((with_reducible apply within_mk) <;> first
        | with_reducible (first
            | exact .inl rfl | exact (fun x => x) | exact .inl (fun _ x => x) | apply Nat.le_refl
            | exact fun _ => Nat.le_refl _)
        | exact .inr rfl | skip)
    | with_reducible (first
        | intro _ | apply within_ite | apply within_ite2 | apply Within.go advance_within
        | apply Within.go finalSave_within | apply Within.go displayStop_within | apply Within.go yieldLease_within
        | apply Within.go controlAtPfw_within | apply Within.go pfwInReset_within)
    | split

theorem pfwOpen_within {s : State} :
    Within 17247436801 s (pfwOpen s) := by
  unfold pfwOpen
  repeat' first
    | apply Eq.refl | with_reducible (first | apply Within.refl | assumption) | unfold x
    | ((try lift_lets); intro x; first
        | (refine (fun hx => ?_ : Within 17247436801 s x → _) ?_; clear_value x) | skip)
    | fail_if_no_progress ((with_reducible apply within_mk) <;> first
        | with_reducible (first
            | exact .inl rfl | exact (fun x => x) | exact .inl (fun _ x => x) | apply Nat.le_refl
            | exact fun _ => Nat.le_refl _)
        | exact .inr rfl | skip)
    | with_reducible (first
        | intro _ | apply within_ite | apply within_ite2 | apply Within.via (forEach_within ?_)
        | apply Within.go engageBrake_within | apply Within.go openRecorded_within)
    | split

theorem dipEnded_within {start : Nat} {durationUs : Nat} {s : State} :
    Within 17246980097 s (dipEnded start durationUs s) := by
  unfold dipEnded
  repeat' first
    | apply Eq.refl | with_reducible (first | apply Within.refl | assumption)
    | fail_if_no_progress ((with_reducible apply within_mk) <;> first
        | with_reducible (first
            | exact .inl rfl | exact (fun x => x) | exact .inl (fun _ x => x) | apply Nat.le_refl
            | exact fun _ => Nat.le_refl _)
        | exact .inr rfl | skip)
    | with_reducible (first | intro _ | apply within_ite | apply within_ite2 | apply Within.go logOchre_within)
    | split

theorem pfwDeassert_within {durationUs : Nat} {s : State} :
    Within 2216273624353 s (pfwDeassert durationUs s) := by
  unfold pfwDeassert
  repeat' first
    | apply Eq.refl | with_reducible (first | apply Within.refl | assumption) | unfold x
    | ((try lift_lets); intro x; first
        | (refine (fun hx => ?_ : Within 2216273624353 s x → _) ?_; clear_value x) | skip)
    | fail_if_no_progress ((with_reducible apply within_mk) <;> first
        | with_reducible (first
            | exact .inl rfl | exact (fun x => x) | exact .inl (fun _ x => x) | apply Nat.le_refl
            | exact fun _ => Nat.le_refl _)
        | exact .inr rfl | skip)
    | with_reducible (first
        | intro _ | apply within_ite | apply within_ite2 | apply Within.go processDeferred_within
        | apply Within.go stopSession_within | apply Within.go compose_within | apply Within.go displayRestart_within
        | apply Within.go dipEnded_within | apply within_foldl)
    | split

theorem supplyLost_within {s : State} : Within 2198699933775 s (supplyLost s) := by
  have h1 : ∀ (x : State) u v w y z, Within 2198699933775 x { x with
      sup := u, modes := v, dies := w,
      rus.pair := x.rus.pair.each fun (p : Pair) => { Pair.reset with changed := p.changed },
      spe.chan := y, mbx.ready := z } := by
    intro x u v w y z
    apply within_mk (.refl _ _)
    case hl => exact fun _ i _ => by simp [Pair.reset]
    case ha => exact .inl fun i hi => hi
    all_goals first
      | with_reducible (first
          | exact .refl _ _ | exact .inl rfl | exact id | exact .inl (fun _ => id) | exact (fun _ => Nat.le_refl _)
          | exact Nat.le_refl _)
      | exact .inr rfl
  unfold supplyLost
  split
  · exact .refl _ _
  · generalize hx : abortStaging s = x
    have h2 : Within 2198699933775 s x := hx ▸ abortStaging_within.mono rfl
    exact State.onDisplay_within.go (Within.via (h1 x _ _ _ _ _) h2) rfl

theorem tealPowerOn_within {s : State} :
    Within 51606716433 s (tealPowerOn s) := by
  unfold tealPowerOn
  repeat' first
    | apply Eq.refl | with_reducible (first | apply Within.refl | assumption)
    | fail_if_no_progress ((with_reducible apply within_mk) <;> first
        | with_reducible (first
            | exact .inl rfl | exact (fun x => x) | exact .inl (fun _ x => x) | apply Nat.le_refl
            | exact fun _ => Nat.le_refl _)
        | exact .inr rfl | skip)
    | with_reducible (first | intro _ | apply within_ite | apply within_ite2 | apply Within.go ring_within) | split

theorem tamperChange_within {k : TamperNo} {opened : Bool} {s : State} :
    Within 1433519984914 s (tamperChange k opened s) := by
  unfold tamperChange
  repeat' first
    | apply Eq.refl | with_reducible (first | apply Within.refl | assumption) | unfold x
    | ((try lift_lets); intro x; first
        | (refine (fun hx => ?_ : Within 1433519984914 s x → _) ?_; clear_value x) | skip)
    | fail_if_no_progress ((with_reducible apply within_mk) <;> first
        | with_reducible (first
            | exact .inl rfl | exact (fun x => x) | exact .inl (fun _ x => x) | apply Nat.le_refl
            | exact fun _ => Nat.le_refl _)
        | exact .inr rfl | skip)
    | with_reducible (first
        | intro _ | apply within_ite | apply within_ite2 | apply Within.go ring_within
        | apply Within.go markAll_within | apply Within.go wipeVault_within)
    | split <;> try with_reducible cases congrArg Prod.snd ‹_ = (_, _)›

theorem rebuilt_within {pfwLow : Bool} {s : State} : Within 1099511627775 s (rebuilt pfwLow s) := by
  have h := expireKeys_within (s := s)
  unfold rebuilt
  dsimp only
  apply within_mk (.refl _ _)
  case hp => exact fun _ => rfl
  case hv => exact fun _ => rfl
  case ht => exact fun h => h
  case hd => exact fun _ p => by simp [MemState.reset, memWf]
  case hl => exact fun _ i _ => by simp [Pair.reset]
  case hs => exact h.stepsDown
  case hr => exact h.returnsUp
  case he => exact h.ended
  case hk => exact fun h => h
  case ha =>
    refine .inl fun i hi => ?_
    simp only [Tab.at_each, Russet.afterReset, Guard.afterReset]
    exact hi
  all_goals first
    | with_reducible (first
        | exact .refl _ _ | exact .inl rfl | exact id | exact .inl (fun _ => id) | exact (fun _ => Nat.le_refl _)
        | exact Nat.le_refl _)
    | exact .inr rfl

theorem closeSaved_within {o : OutletNo} {s : State} :
    Within 19394466048 s (closeSaved o s) := by
  unfold closeSaved
  repeat' first
    | apply Eq.refl | with_reducible (first | apply Within.refl | assumption) | unfold x
    | ((try lift_lets); intro x; first
        | (refine (fun hx => ?_ : Within 19394466048 s x → _) ?_; clear_value x) | skip)
    | with_reducible (first | intro _ | apply within_ite | apply within_ite2 | apply Within.go truncate_within)
    | split

theorem closeLost_within {o : OutletNo} {s : State} :
    Within 2218417722624 s (closeLost o s) := by
  unfold closeLost
  repeat' first
    | apply Eq.refl | with_reducible (first | apply Within.refl | assumption)
    | with_reducible (first
        | intro _ | apply Within.go markInterval_within | apply Within.go markSession_within
        | apply Within.go finalIntervals_within | apply Within.go closeSaved_within)
    | split

theorem recordFailure_within {s : State} :
    Within 2218417724672 s (recordFailure s) := by
  unfold recordFailure
  repeat' first
    | apply Eq.refl | with_reducible (first | apply Within.refl | assumption) | unfold x
    | ((try lift_lets); intro x; first
        | (refine (fun hx => ?_ : Within 2218417724672 s x → _) ?_; clear_value x) | skip)
    | with_reducible (first
        | intro _ | apply within_ite | apply within_ite2 | apply Within.via (forEach_within ?_)
        | apply Within.go logOchre_within | apply Within.go markInterval_within | apply Within.go closeLost_within)
    | split

theorem recordTealLoss_within {s : State} :
    Within 17246980144 s (recordTealLoss s) := by
  unfold recordTealLoss
  repeat' first
    | apply Eq.refl | with_reducible (first | apply Within.refl | assumption) | unfold x
    | ((try lift_lets); intro x; first
        | (refine (fun hx => ?_ : Within 17246980144 s x → _) ?_; clear_value x) | skip)
    | fail_if_no_progress ((with_reducible apply within_mk) <;> first
        | with_reducible (first
            | exact .inl rfl | exact (fun x => x) | exact .inl (fun _ x => x) | apply Nat.le_refl
            | exact fun _ => Nat.le_refl _)
        | exact .inr rfl | skip)
    | with_reducible (first
        | intro _ | apply within_ite | apply within_ite2 | apply Within.go raise_within
        | apply Within.go logOchre_within)
    | split

theorem absenceTo_within {from_ : Nat} {to_ : Nat} {s : State} :
    Within 17246993664 s (absenceTo from_ to_ s) := by
  unfold absenceTo
  repeat' first
    | apply Eq.refl | with_reducible (first | apply Within.refl | assumption) | unfold x
    | ((try lift_lets); intro x; first
        | (refine (fun hx => ?_ : Within 17246993664 s x → _) ?_; clear_value x) | skip)
    | with_reducible (first
        | intro _ | apply within_ite | apply within_ite2 | apply Within.go activate_within
        | apply Within.go billBetween_within)
    | split

theorem absenceDays_within {to_ : Nat} {y0 : Nat} {y1 : Nat} {y2 : State} :
    Within 17246993664 y2 (absenceDays to_ y0 y1 y2) := by
  induction y0 generalizing y1 y2 with
  | zero =>
    unfold absenceDays
    repeat' first
      | apply Eq.refl | with_reducible (first | apply Within.refl | assumption) | unfold x
      | ((try lift_lets); intro x; first
          | (refine (fun hx => ?_ : Within 17246993664 y2 x → _) ?_; clear_value x) | skip)
      | with_reducible (first | intro _ | apply Within.go absenceTo_within) | split
  | succ _ ih =>
    unfold absenceDays
    repeat' first
      | apply Eq.refl | with_reducible (first | apply Within.refl | assumption) | unfold x
      | ((try lift_lets); intro x; first
          | (refine (fun hx => ?_ : Within 17246993664 y2 x → _) ?_; clear_value x) | skip)
      | with_reducible (first | intro _ | apply Within.go absenceTo_within | apply Within.via (ih ..)) | split

theorem absenceStretch_within {from_ : Nat} {to_ : Nat} {s : State} :
    Within 17246993664 s (absenceStretch from_ to_ s) := by
  unfold absenceStretch
  repeat' first
    | apply Eq.refl | with_reducible (first | apply Within.refl | assumption)
    | with_reducible (first | intro _ | apply Within.go absenceDays_within) | split

theorem openAtPowerUp_within {s : State} :
    Within 8448 s (openAtPowerUp s) := by
  unfold openAtPowerUp
  repeat' first
    | apply Eq.refl | with_reducible (first | apply Within.refl | assumption) | unfold x
    | ((try lift_lets); intro x; first | (refine (fun hx => ?_ : Within 8448 s x → _) ?_; clear_value x) | skip)
    | fail_if_no_progress ((with_reducible apply within_mk) <;> first
        | with_reducible (first
            | exact .inl rfl | exact (fun x => x) | exact .inl (fun _ x => x) | apply Nat.le_refl
            | exact fun _ => Nat.le_refl _)
        | exact .inr rfl | skip)
    | with_reducible (first | intro _ | apply Within.go lengthAt_within) | split

theorem closeFailed_within {label : Nat} {s : State} :
    Within 2199023265024 s (closeFailed label s) := by
  unfold closeFailed
  repeat' first
    | apply Eq.refl | with_reducible (first | apply Within.refl | assumption)
    | with_reducible (first
        | intro _ | apply Within.via (forEach_within ?_) | apply Within.go finalIntervals_within
        | apply Within.go closeIntervals_within)
    | split

theorem silentTariff_within {s : State} :
    Within 8192 s (silentTariff s) := by
  unfold silentTariff
  repeat' first
    | apply Eq.refl | with_reducible (first | apply Within.refl | assumption) | unfold x
    | ((try lift_lets); intro x; first | (refine (fun hx => ?_ : Within 8192 s x → _) ?_; clear_value x) | skip)
    | fail_if_no_progress ((with_reducible apply within_mk) <;> first
        | with_reducible (first
            | exact .inl rfl | exact (fun x => x) | exact .inl (fun _ x => x) | apply Nat.le_refl
            | exact fun _ => Nat.le_refl _)
        | exact .inr rfl | skip)
    | with_reducible (first | intro _) | split

theorem absence_within {failed : Nat} {s : State} :
    Within 2216270249216 s (absence failed s) := by
  unfold absence
  repeat' first
    | apply Eq.refl | with_reducible (first | apply Within.refl | assumption) | unfold x
    | ((try lift_lets); intro x; first
        | (refine (fun hx => ?_ : Within 2216270249216 s x → _) ?_; clear_value x) | skip)
    | with_reducible (first
        | intro _ | apply within_ite | apply within_ite2 | apply Within.go absenceStretch_within
        | apply Within.go openAtPowerUp_within | apply Within.go closeFailed_within
        | apply Within.go silentTariff_within)
    | split

theorem closeOutPeriod_within {s : State} :
    Within 17246980100 s (closeOutPeriod s) := by
  unfold closeOutPeriod
  repeat' first
    | apply Eq.refl | with_reducible (first | apply Within.refl | assumption) | unfold x
    | ((try lift_lets); intro x; first
        | (refine (fun hx => ?_ : Within 17246980100 s x → _) ?_; clear_value x) | skip)
    | fail_if_no_progress ((with_reducible apply within_mk) <;> first
        | with_reducible (first
            | exact .inl rfl | exact (fun x => x) | exact .inl (fun _ x => x) | apply Nat.le_refl
            | exact fun _ => Nat.le_refl _)
        | exact .inr rfl | skip)
    | with_reducible (first | intro _ | apply Within.go logOchre_within) | split

theorem ochrePowerUp_within {failed : Nat} {now : Nat} {s : State} :
    Within 2252777471285 s (ochrePowerUp failed now s) := by
  unfold ochrePowerUp
  repeat' first
    | apply Eq.refl | with_reducible (first | apply Within.refl | assumption) | unfold x
    | ((try lift_lets); intro x; first
        | (refine (fun hx => ?_ : Within 2252777471285 s x → _) ?_; clear_value x) | skip)
    | fail_if_no_progress ((with_reducible apply within_mk) <;> first
        | with_reducible (first
            | exact .inl rfl | exact (fun x => x) | exact .inl (fun _ x => x) | apply Nat.le_refl
            | exact fun _ => Nat.le_refl _)
        | exact .inr rfl | skip)
    | with_reducible (first
        | intro _ | apply within_ite | apply within_ite2 | apply Within.via (forEach_within ?_)
        | apply Within.go logOchre_within | apply Within.go copyTealRecords_within | apply Within.go powerStop_within
        | apply Within.go recordFailure_within | apply Within.go recordTealLoss_within
        | apply Within.go absence_within | apply Within.go closeOutPeriod_within)
    | split

theorem reportKill_within {s : State} :
    Within 17246978048 s (reportKill s) := by
  unfold reportKill
  repeat' first
    | apply Eq.refl | with_reducible (first | apply Within.refl | assumption)
    | fail_if_no_progress ((with_reducible apply within_mk) <;> first
        | with_reducible (first
            | exact .inl rfl | exact (fun x => x) | exact .inl (fun _ x => x) | apply Nat.le_refl
            | exact fun _ => Nat.le_refl _)
        | exact .inr rfl | skip)
    | with_reducible (first | intro _ | apply within_ite | apply within_ite2 | apply Within.go raise_within) | split

theorem legalCheck_within {romCrc : BitVec 32} {s : State} :
    Within 17246978080 s (legalCheck romCrc s) := by
  unfold legalCheck
  repeat' first
    | apply Eq.refl | with_reducible (first | apply Within.refl | assumption) | unfold x
    | ((try lift_lets); intro x; first
        | (refine (fun hx => ?_ : Within 17246978080 s x → _) ?_; clear_value x) | skip)
    | fail_if_no_progress ((with_reducible apply within_mk) <;> first
        | with_reducible (first
            | exact .inl rfl | exact (fun x => x) | exact .inl (fun _ x => x) | apply Nat.le_refl
            | exact fun _ => Nat.le_refl _)
        | exact .inr rfl | skip)
    | with_reducible (first | intro _ | apply within_ite | apply within_ite2 | apply Within.go raise_within) | split

theorem checkFactory_within {s : State} :
    Within 17246978176 s (checkFactory s) := by
  unfold checkFactory
  repeat' first
    | apply Eq.refl | with_reducible (first | apply Within.refl | assumption)
    | with_reducible (first | intro _ | apply Within.go laneFails_within | apply within_foldl) | split

theorem pfwAtStart_within {at_ : Option Nat} {s : State} :
    Within 33 s (pfwAtStart at_ s) := by
  unfold pfwAtStart
  repeat' first
    | apply Eq.refl | with_reducible (first | apply Within.refl | assumption) | unfold x
    | ((try lift_lets); intro x; first | (refine (fun hx => ?_ : Within 33 s x → _) ?_; clear_value x) | skip)
    | fail_if_no_progress ((with_reducible apply within_mk) <;> first
        | with_reducible (first
            | exact .inl rfl | exact (fun x => x) | exact .inl (fun _ x => x) | apply Nat.le_refl
            | exact fun _ => Nat.le_refl _)
        | exact .inr rfl | skip)
    | with_reducible (first | intro _) | split

theorem startTaken_within {s : State} :
    Within 65 s (startTaken s) := by
  unfold startTaken
  repeat' first
    | apply Eq.refl | with_reducible (first | apply Within.refl | assumption)
    | fail_if_no_progress ((with_reducible apply within_mk) <;> first
        | with_reducible (first
            | exact .inl rfl | exact (fun x => x) | exact .inl (fun _ x => x) | apply Nat.le_refl
            | exact fun _ => Nat.le_refl _)
        | exact .inr rfl | skip)
    | with_reducible (first | intro _) | split

theorem supplyReturns_within {pfwLow : Bool} {absenceMs : Nat} {pfwAt : Option Nat} {romCrc : BitVec 32} {s : State} :
    Within 4398046511103 s (supplyReturns pfwLow absenceMs pfwAt romCrc s) := by
  have h : ∀ n now, Within 4398046511103 s (displayPowerOn (resumeTimers (pfwAtStart pfwAt (checkFactory (legalCheck romCrc
      (startTaken (ochrePowerUp n now (rebuilt pfwLow s)))))))) := fun n now =>
    displayPowerOn_within.go (resumeTimers_within.go (pfwAtStart_within.go (checkFactory_within.go (legalCheck_within.go
      (startTaken_within.go (ochrePowerUp_within.go (rebuilt_within.mono rfl) rfl) rfl) rfl) rfl) rfl) rfl) rfl
  unfold supplyReturns
  refine within_ite (.refl _ _) ?_
  refine reportKill_within.go (settle_within.go ?_ rfl) rfl
  split
  · exact displayStop_within.go (h _ _) rfl
  · exact h _ _

theorem becomeReady_within {s : State} :
    Within 51606716416 s (becomeReady s) := by
  unfold becomeReady
  repeat' first
    | apply Eq.refl | with_reducible (first | apply Within.refl | assumption) | unfold x
    | ((try lift_lets); intro x; first
        | (refine (fun hx => ?_ : Within 51606716416 s x → _) ?_; clear_value x) | skip)
    | fail_if_no_progress ((with_reducible apply within_mk) <;> first
        | with_reducible (first
            | exact .inl rfl | exact (fun x => x) | exact .inl (fun _ x => x) | apply Nat.le_refl
            | exact fun _ => Nat.le_refl _)
        | exact .inr rfl | skip)
    | with_reducible (first | intro _ | apply within_ite | apply within_ite2 | apply Within.go raise_within)
    | split <;> try with_reducible cases congrArg Prod.snd ‹_ = (_, _)›

theorem enterRole_within {r : Role} {s : State} :
    Within 1151119917058 s (enterRole r s) := by
  unfold enterRole
  repeat' first
    | apply Eq.refl | with_reducible (first | apply Within.refl | assumption) | unfold x
    | ((try lift_lets); intro x; first
        | (refine (fun hx => ?_ : Within 1151119917058 s x → _) ?_; clear_value x) | skip)
    | fail_if_no_progress ((with_reducible apply within_mk) <;> first
        | with_reducible (first
            | exact .inl rfl | exact (fun x => x) | exact .inl (fun _ x => x) | apply Nat.le_refl
            | exact fun _ => Nat.le_refl _)
        | exact .inr rfl | skip)
    | with_reducible (first
        | intro _ | apply Within.go settle_within | apply Within.go refreshDrives_within
        | apply Within.go becomeReady_within)
    | split

theorem pllsLocked_within {s : State} :
    Within 4 s (pllsLocked s) := by
  unfold pllsLocked
  repeat' first
    | apply Eq.refl | with_reducible (first | apply Within.refl | assumption)
    | fail_if_no_progress ((with_reducible apply within_mk) <;> first
        | with_reducible (first
            | exact .inl rfl | exact (fun x => x) | exact .inl (fun _ x => x) | apply Nat.le_refl
            | exact fun _ => Nat.le_refl _)
        | exact .inr rfl | skip)
    | with_reducible (first | intro _) | split

theorem startChecked_within {s : State} :
    Within 5913968640 s (startChecked s) := by
  unfold startChecked
  repeat' first
    | apply Eq.refl | with_reducible (first | apply Within.refl | assumption) | unfold x
    | ((try lift_lets); intro x; first | (refine (fun hx => ?_ : Within 5913968640 s x → _) ?_; clear_value x) | skip)
    | fail_if_no_progress ((with_reducible apply within_mk) <;> first
        | with_reducible (first
            | exact .inl rfl | exact (fun x => x) | exact .inl (fun _ x => x) | apply Nat.le_refl
            | exact fun _ => Nat.le_refl _)
        | exact .inr rfl | skip)
    | with_reducible (first | intro _ | apply Within.go chooseSlots_within) | split

theorem joinStandby_within {s : State} :
    Within 1151119917058 s (joinStandby s) := by
  unfold joinStandby
  repeat' first
    | apply Eq.refl | with_reducible (first | apply Within.refl | assumption)
    | with_reducible (first
        | intro _ | apply within_ite | apply within_ite2 | apply Within.go raise_within
        | apply Within.go enterRole_within)
    | split

theorem decideRole_within {peer : PeerAtStart} {s : State} :
    Within 1151119917058 s (decideRole peer s) := by
  unfold decideRole
  repeat' first
    | apply Eq.refl | with_reducible (first | apply Within.refl | assumption)
    | fail_if_no_progress ((with_reducible apply within_mk) <;> first
        | with_reducible (first
            | exact .inl rfl | exact (fun x => x) | exact .inl (fun _ x => x) | apply Nat.le_refl
            | exact fun _ => Nat.le_refl _)
        | exact .inr rfl | skip)
    | with_reducible (first
        | intro _ | apply within_ite | apply within_ite2 | apply Within.go enterRole_within
        | apply Within.go joinStandby_within)
    | split

theorem startEnds_within {checks : StartChecks} {peer : PeerAtStart} {s : State} :
    Within 1434065764366 s (startEnds checks peer s) := by
  unfold startEnds
  repeat' first
    | apply Eq.refl | with_reducible (first | apply Within.refl | assumption) | unfold x
    | ((try lift_lets); intro x; first
        | (refine (fun hx => ?_ : Within 1434065764366 s x → _) ?_; clear_value x) | skip)
    | fail_if_no_progress ((with_reducible apply within_mk) <;> first
        | with_reducible (first
            | exact .inl rfl | exact (fun x => x) | exact .inl (fun _ x => x) | apply Nat.le_refl
            | exact fun _ => Nat.le_refl _)
        | exact .inr rfl | skip)
    | with_reducible (first
        | intro _ | apply within_ite | apply within_ite2 | apply Within.go settle_within
        | apply Within.go enterRecovery_within | apply Within.go failedStart_within
        | apply Within.go becomeReady_within | apply Within.go pllsLocked_within | apply Within.go startChecked_within
        | apply Within.go decideRole_within)
    | split <;> try with_reducible cases congrArg Prod.snd ‹_ = (_, _)›

theorem peerSilent_within {s : State} :
    Within 1151119917058 s (peerSilent s) := by
  unfold peerSilent
  repeat' first
    | apply Eq.refl | with_reducible (first | apply Within.refl | assumption)
    | with_reducible (first | intro _ | apply within_ite | apply within_ite2 | apply Within.go enterRole_within)
    | split

theorem leaveRecovery_within {s : State} :
    Within 34359738370 s (leaveRecovery s) := by
  unfold leaveRecovery
  repeat' first
    | apply Eq.refl | with_reducible (first | apply Within.refl | assumption) | unfold x
    | ((try lift_lets); intro x; first
        | (refine (fun hx => ?_ : Within 34359738370 s x → _) ?_; clear_value x) | skip)
    | fail_if_no_progress ((with_reducible apply within_mk) <;> first
        | with_reducible (first
            | exact .inl rfl | exact (fun x => x) | exact .inl (fun _ x => x) | apply Nat.le_refl
            | exact fun _ => Nat.le_refl _)
        | exact .inr rfl | skip)
    | with_reducible (first | intro _ | apply within_ite | apply within_ite2) | split

theorem firstBeat_within {s : State} :
    Within 1151125880842 s (firstBeat s) := by
  unfold firstBeat
  repeat' first
    | apply Eq.refl | with_reducible (first | apply Within.refl | assumption) | unfold x
    | ((try lift_lets); intro x; first
        | (refine (fun hx => ?_ : Within 1151125880842 s x → _) ?_; clear_value x) | skip)
    | fail_if_no_progress ((with_reducible apply within_mk) <;> first
        | with_reducible (first
            | exact .inl rfl | exact (fun x => x) | exact .inl (fun _ x => x) | apply Nat.le_refl
            | exact fun _ => Nat.le_refl _)
        | exact .inr rfl | skip)
    | with_reducible (first
        | intro _ | apply within_ite | apply within_ite2 | apply Within.go settle_within
        | apply Within.go refreshDrives_within | apply Within.go holdAll_within | apply Within.go becomeReady_within
        | apply Within.go leaveRecovery_within)
    | split

theorem milletBeat_within {s : State} :
    Within 1151125880842 s (milletBeat s) := by
  unfold milletBeat
  repeat' first
    | apply Eq.refl | with_reducible (first | apply Within.refl | assumption)
    | fail_if_no_progress ((with_reducible apply within_mk) <;> first
        | with_reducible (first
            | exact .inl rfl | exact (fun x => x) | exact .inl (fun _ x => x) | apply Nat.le_refl
            | exact fun _ => Nat.le_refl _)
        | exact .inr rfl | skip)
    | with_reducible (first | intro _ | apply Within.go firstBeat_within) | split

theorem beatLost_within {s : State} :
    Within 1116766142466 s (beatLost s) := by
  unfold beatLost
  repeat' first
    | apply Eq.refl | with_reducible (first | apply Within.refl | assumption)
    | fail_if_no_progress ((with_reducible apply within_mk) <;> first
        | with_reducible (first
            | exact .inl rfl | exact (fun x => x) | exact .inl (fun _ x => x) | apply Nat.le_refl
            | exact fun _ => Nat.le_refl _)
        | exact .inr rfl | skip)
    | with_reducible (first
        | intro _ | apply within_ite | apply within_ite2 | apply Within.go settle_within
        | apply Within.go holdAll_within | apply Within.go lateStops_within)
    | split

theorem sessionsConfirmed_within {s : State} :
    Within 1116762800130 s (sessionsConfirmed s) := by
  unfold sessionsConfirmed
  repeat' first
    | apply Eq.refl | with_reducible (first | apply Within.refl | assumption)
    | fail_if_no_progress ((with_reducible apply within_mk) <;> first
        | with_reducible (first
            | exact .inl rfl | exact (fun x => x) | exact .inl (fun _ x => x) | apply Nat.le_refl
            | exact fun _ => Nat.le_refl _)
        | exact .inr rfl | skip)
    | with_reducible (first | intro _ | apply within_ite | apply within_ite2 | apply Within.go settle_within) | split

theorem commissioningTimeout_within {s : State} :
    Within 1116759654470 s (commissioningTimeout s) := by
  unfold commissioningTimeout
  repeat' first
    | apply Eq.refl | with_reducible (first | apply Within.refl | assumption)
    | with_reducible (first
        | intro _ | apply Within.go settle_within | apply Within.go refreshDrives_within
        | apply Within.go leaveCommissioning_within)
    | split

theorem refLost_within {s : State} :
    Within 1116759136518 s (refLost s) := by
  unfold refLost
  repeat' first
    | apply Eq.refl | with_reducible (first | apply Within.refl | assumption) | unfold x
    | ((try lift_lets); intro x; first
        | (refine (fun hx => ?_ : Within 1116759136518 s x → _) ?_; clear_value x) | skip)
    | fail_if_no_progress ((with_reducible apply within_mk) <;> first
        | with_reducible (first
            | exact .inl rfl | exact (fun x => x) | exact .inl (fun _ x => x) | apply Nat.le_refl
            | exact fun _ => Nat.le_refl _)
        | exact .inr rfl | skip)
    | with_reducible (first
        | intro _ | apply within_ite | apply within_ite2 | apply Within.go raise_within
        | apply Within.go settle_within | apply Within.go logOchre_within | apply Within.go markAll_within
        | apply Within.go setCause_within)
    | split

theorem fallbackCorrected_within {s : State} :
    Within 4 s (fallbackCorrected s) := by
  unfold fallbackCorrected
  repeat' first
    | apply Eq.refl | with_reducible (first | apply Within.refl | assumption) | unfold x
    | ((try lift_lets); intro x; first | (refine (fun hx => ?_ : Within 4 s x → _) ?_; clear_value x) | skip)
    | fail_if_no_progress ((with_reducible apply within_mk) <;> first
        | with_reducible (first
            | exact .inl rfl | exact (fun x => x) | exact .inl (fun _ x => x) | apply Nat.le_refl
            | exact fun _ => Nat.le_refl _)
        | exact .inr rfl | skip)
    | with_reducible (first | intro _ | apply within_ite | apply within_ite2) | split

theorem xrefBack_within {s : State} :
    Within 4 s (xrefBack s) := by
  unfold xrefBack
  repeat' first
    | apply Eq.refl | with_reducible (first | apply Within.refl | assumption)
    | fail_if_no_progress ((with_reducible apply within_mk) <;> first
        | with_reducible (first
            | exact .inl rfl | exact (fun x => x) | exact .inl (fun _ x => x) | apply Nat.le_refl
            | exact fun _ => Nat.le_refl _)
        | exact .inr rfl | skip)
    | with_reducible (first | intro _ | apply within_ite | apply within_ite2) | split

theorem slewDone_within {s : State} :
    Within 1116758607878 s (slewDone s) := by
  unfold slewDone
  repeat' first
    | apply Eq.refl | with_reducible (first | apply Within.refl | assumption) | unfold x
    | ((try lift_lets); intro x; first
        | (refine (fun hx => ?_ : Within 1116758607878 s x → _) ?_; clear_value x) | skip)
    | fail_if_no_progress ((with_reducible apply within_mk) <;> first
        | with_reducible (first
            | exact .inl rfl | exact (fun x => x) | exact .inl (fun _ x => x) | apply Nat.le_refl
            | exact fun _ => Nat.le_refl _)
        | exact .inr rfl | skip)
    | with_reducible (first
        | intro _ | apply within_ite | apply within_ite2 | apply Within.go raiseEnd_within
        | apply Within.go settle_within | apply Within.go closeOutPeriod_within)
    | split

theorem clockStep_within {s : State} :
    Within 8589934596 s (clockStep s) := by
  unfold clockStep
  repeat' first
    | apply Eq.refl | with_reducible (first | apply Within.refl | assumption) | unfold x
    | ((try lift_lets); intro x; first | (refine (fun hx => ?_ : Within 8589934596 s x → _) ?_; clear_value x) | skip)
    | fail_if_no_progress ((with_reducible apply within_mk) <;> first
        | with_reducible (first
            | exact .inl rfl | exact (fun x => x) | exact .inl (fun _ x => x) | apply Nat.le_refl
            | exact fun _ => Nat.le_refl _)
        | exact .inr rfl | skip)
    | with_reducible (first | intro _ | apply within_ite | apply within_ite2) | split

theorem checked_within {mm : Nat} (e : 0 ||| mm = mm) {op : Nat} {c : Cmd} {bad : List (Nat × Bool)}
    {effect : State → Reply × State} {s : State}
    (heffect : ∀ z0, Within mm z0 (effect z0).2) :
    Within mm s (checked op c bad effect s).2 := by
  unfold checked
  repeat' first
    | apply Eq.refl | exact lorTrans (b := 0) rfl e | with_reducible (first | apply Within.refl | assumption)
    | with_reducible (first | intro _ | apply Within.via (heffect ..))
    | split <;> try with_reducible cases congrArg Prod.snd ‹_ = (_, _)›

theorem echo_within {c : Cmd} {y0 : State} :
    Within 1221985304576 y0 (echo c y0) := by
  unfold echo
  repeat' first
    | apply Eq.refl | with_reducible (first | apply Within.refl | assumption)
    | with_reducible (first | intro _ | apply Within.via (runCmd_within ?_ ?_) | apply Within.go reads_within) | split

theorem readIdentity_within {c : Cmd} {y0 : State} :
    Within 1221985304576 y0 (readIdentity c y0) := by
  unfold readIdentity
  repeat' first
    | apply Eq.refl | with_reducible (first | apply Within.refl | assumption)
    | with_reducible (first | intro _ | apply Within.via (runCmd_within ?_ ?_) | apply Within.go reads_within) | split

theorem goCommissioning_within {s : State} :
    Within 1048578 s (goCommissioning s) := by
  unfold goCommissioning
  repeat' first
    | apply Eq.refl | with_reducible (first | apply Within.refl | assumption)
    | fail_if_no_progress ((with_reducible apply within_mk) <;> first
        | with_reducible (first
            | exact .inl rfl | exact (fun x => x) | exact .inl (fun _ x => x) | apply Nat.le_refl
            | exact fun _ => Nat.le_refl _)
        | exact .inr rfl | skip)
    | with_reducible (first | intro _ | apply Within.go refreshDrives_within) | split

theorem enterCommissioning_within {c : Cmd} {y0 : State} :
    Within 1221986353154 y0 (enterCommissioning c y0) := by
  unfold enterCommissioning
  repeat' first
    | apply Eq.refl | with_reducible (first | apply Within.refl | assumption)
    | with_reducible (first
        | intro _ | apply within_ite | apply within_ite2 | apply Within.via (runCmd_within ?_ ?_)
        | apply Within.via (acts_within ?_ ?_) | apply Within.go goCommissioning_within)
    | split

theorem leaveCommissioningCmd_within {c : Cmd} {y0 : State} :
    Within 1221986353222 y0 (leaveCommissioningCmd c y0) := by
  unfold leaveCommissioningCmd
  repeat' first
    | apply Eq.refl | with_reducible (first | apply Within.refl | assumption)
    | with_reducible (first
        | intro _ | apply Within.via (runCmd_within ?_ ?_) | apply Within.via (acts_within ?_ ?_)
        | apply Within.go refreshDrives_within | apply Within.go leaveCommissioning_within)
    | split

theorem commandedReset_within {die : Nat} {tails : List Tail} {s : State} :
    Within 4397727717359 s (commandedReset die tails s) := by
  unfold commandedReset
  repeat' first
    | apply Eq.refl | with_reducible (first | apply Within.refl | assumption)
    | fail_if_no_progress ((with_reducible apply within_mk) <;> first
        | with_reducible (first
            | exact .inl rfl | exact (fun x => x) | exact .inl (fun _ x => x) | apply Nat.le_refl
            | exact fun _ => Nat.le_refl _)
        | exact .inr rfl | skip)
    | with_reducible (first
        | intro _ | apply Within.go resetAfterResponse_within | apply Within.go fescueReset_within
        | apply Within.go speltReset_within | apply Within.go russetReset_within | apply Within.go ochreReset_within)
    | split

theorem dieReset_within {c : Cmd} {tails : List Tail} {y0 : State} :
    Within 4397727717359 y0 (dieReset c tails y0) := by
  unfold dieReset
  repeat' first
    | apply Eq.refl | with_reducible (first | apply Within.refl | assumption)
    | with_reducible (first
        | intro _ | apply Within.via (runCmd_within ?_ ?_) | apply Within.via (acts_within ?_ ?_)
        | apply Within.via (checked_within ?_ ?_) | apply Within.go commandedReset_within)
    | split

theorem networkSettings_within {c : Cmd} {y0 : State} :
    Within 1221985304576 y0 (networkSettings c y0) := by
  unfold networkSettings
  repeat' first
    | apply Eq.refl | with_reducible (first | apply Within.refl | assumption)
    | with_reducible (first
        | intro _ | apply Within.go State.onPort_within | apply Within.via (runCmd_within ?_ ?_)
        | apply Within.via (acts_within ?_ ?_) | apply Within.via (checked_within ?_ ?_))
    | split

theorem mailboxKeySlots_within {c : Cmd} {y0 : State} :
    Within 1221985304576 y0 (mailboxKeySlots c y0) := by
  unfold mailboxKeySlots
  repeat' first
    | apply Eq.refl | with_reducible (first | apply Within.refl | assumption) | unfold x
    | ((try lift_lets); intro x; first
        | (refine (fun hx => ?_ : Within 1221985304576 y0 x → _) ?_; clear_value x) | skip)
    | with_reducible (first
        | intro _ | apply Within.go State.onPort_within | apply Within.via (runCmd_within ?_ ?_)
        | apply Within.via (acts_within ?_ ?_) | apply Within.via (checked_within ?_ ?_))
    | split

theorem setQspiAuthority_within {c : Cmd} {y0 : State} :
    Within 1221985304576 y0 (setQspiAuthority c y0) := by
  unfold setQspiAuthority
  repeat' first
    | apply Eq.refl | with_reducible (first | apply Within.refl | assumption)
    | fail_if_no_progress ((with_reducible apply within_mk) <;> first
        | with_reducible (first
            | exact .inl rfl | exact (fun x => x) | exact .inl (fun _ x => x) | apply Nat.le_refl
            | exact fun _ => Nat.le_refl _)
        | exact .inr rfl | skip)
    | with_reducible (first
        | intro _ | apply within_ite | apply within_ite2 | apply Within.via (runCmd_within ?_ ?_)
        | apply Within.via (acts_within ?_ ?_) | apply Within.via (checked_within ?_ ?_))
    | split

end Sys2Proof.Machine
end

