-- ==== Sys2Proof/Laws/WithinVehicle.lean ====
section
/-! SUPPORT. What the operations of pilots, vehicle sessions, the tag and the readers may do at most, one lemma each. -/

set_option linter.unusedTactic false
set_option linter.unreachableTactic false
set_option linter.unusedVariables false

namespace Sys2Proof.Machine

theorem authorise_within {o : OutletNo} {ref : BitVec 64} {s : State} :
    Within 17254318080 s (authorise o ref s) := by
  unfold authorise
  repeat' first
    | apply Eq.refl | with_reducible (first | apply Within.refl | assumption) | unfold x
    | ((try lift_lets); intro x; first
        | (refine (fun hx => ?_ : Within 17254318080 s x → _) ?_; clear_value x) | skip)
    | fail_if_no_progress ((with_reducible apply within_mk) <;> first
        | with_reducible (first
            | exact .inl rfl | exact (fun x => x) | exact .inl (fun _ x => x) | apply Nat.le_refl
            | exact fun _ => Nat.le_refl _)
        | exact .inr rfl | skip)
    | with_reducible (first
        | intro _ | apply Within.go State.onSession_within | apply Within.go refreshDrive_within
        | apply Within.go setPhase_within)
    | split

theorem grant_within {o : OutletNo} {ref : BitVec 64} {s : State} :
    Within 17254318080 s (grant o ref s) := by
  unfold grant
  repeat' first
    | apply Eq.refl | with_reducible (first | apply Within.refl | assumption) | unfold x
    | ((try lift_lets); intro x; first
        | (refine (fun hx => ?_ : Within 17254318080 s x → _) ?_; clear_value x) | skip)
    | fail_if_no_progress ((with_reducible apply within_mk) <;> first
        | with_reducible (first
            | exact .inl rfl | exact (fun x => x) | exact .inl (fun _ x => x) | apply Nat.le_refl
            | exact fun _ => Nat.le_refl _)
        | exact .inr rfl | skip)
    | with_reducible (first | intro _ | apply within_ite | apply within_ite2 | apply Within.go authorise_within)
    | split <;> try with_reducible cases congrArg Prod.snd ‹_ = (_, _)›

theorem useHeld_within {o : OutletNo} {s : State} :
    Within 17254318080 s (useHeld o s) := by
  unfold useHeld
  repeat' first
    | apply Eq.refl | with_reducible (first | apply Within.refl | assumption)
    | with_reducible (first
        | intro _ | apply within_ite | apply within_ite2 | apply Within.go authorise_within
        | apply Within.go grant_within)
    | split

theorem plugged_within {o : OutletNo} {s : State} :
    Within 17254318080 s (plugged o s) := by
  unfold plugged
  repeat' first
    | apply Eq.refl | with_reducible (first | apply Within.refl | assumption) | unfold x
    | ((try lift_lets); intro x; first
        | (refine (fun hx => ?_ : Within 17254318080 s x → _) ?_; clear_value x) | skip)
    | fail_if_no_progress ((with_reducible apply within_mk) <;> first
        | with_reducible (first
            | exact .inl rfl | exact (fun x => x) | exact .inl (fun _ x => x) | apply Nat.le_refl
            | exact fun _ => Nat.le_refl _)
        | exact .inr rfl | skip)
    | with_reducible (first
        | intro _ | apply within_ite | apply within_ite2 | apply Within.go State.onSession_within
        | apply Within.go setPhase_within | apply Within.go useHeld_within)
    | split

theorem askHost_within {o : OutletNo} {kind : PolicyKind} {auth : BitVec 64} {tech : BitVec 2}
    {aerial : Option AerialNo} {limit : Nat} {s : State} :
    Within 17251172352 s (askHost o kind auth tech aerial limit s) := by
  unfold askHost
  repeat' first
    | apply Eq.refl | with_reducible (first | apply Within.refl | assumption) | unfold x
    | ((try lift_lets); intro x; first
        | (refine (fun hx => ?_ : Within 17251172352 s x → _) ?_; clear_value x) | skip)
    | fail_if_no_progress ((with_reducible apply within_mk) <;> first
        | with_reducible (first
            | exact .inl rfl | exact (fun x => x) | exact .inl (fun _ x => x) | apply Nat.le_refl
            | exact fun _ => Nat.le_refl _)
        | exact .inr rfl | skip)
    | with_reducible (first | intro _ | apply Within.go raise_within)
    | split <;> try with_reducible cases congrArg Prod.snd ‹_ = (_, _)›

theorem v2gEnd_within {o : OutletNo} {a : V2gAnswer} {s : State} :
    Within 120333729792 s (v2gEnd o a s) := by
  unfold v2gEnd
  repeat' first
    | apply Eq.refl | with_reducible (first | apply Within.refl | assumption)
    | with_reducible (first
        | intro _ | apply Within.go State.onSession_within | apply Within.go raise_within
        | apply Within.go answer_within | apply Within.go endSessionNow_within)
    | split

theorem reportCredential_within {aerial : Option AerialNo} {ref : BitVec 64} {tech : BitVec 2} {result : Nat}
    {s : State} :
    Within 17280532480 s (reportCredential aerial ref tech result s) := by
  unfold reportCredential
  repeat' first
    | apply Eq.refl | with_reducible (first | apply Within.refl | assumption) | unfold x
    | ((try lift_lets); intro x; first
        | (refine (fun hx => ?_ : Within 17280532480 s x → _) ?_; clear_value x) | skip)
    | with_reducible (first
        | intro _ | apply within_ite | apply within_ite2 | apply Within.go State.onAerial_within
        | apply Within.go raise_within)
    | split

theorem credentialDecided_within {o : OutletNo} {ref : BitVec 64} {tech : BitVec 2} {aerial : Option AerialNo}
    {result : Nat} {s : State} :
    Within 120367284224 s (credentialDecided o ref tech aerial result s) := by
  unfold credentialDecided
  repeat' first
    | apply Eq.refl | with_reducible (first | apply Within.refl | assumption) | unfold x
    | ((try lift_lets); intro x; first
        | (refine (fun hx => ?_ : Within 120367284224 s x → _) ?_; clear_value x) | skip)
    | with_reducible (first
        | intro _ | apply within_ite | apply within_ite2 | apply Within.go authorise_within
        | apply Within.go grant_within | apply Within.go v2gEnd_within | apply Within.go reportCredential_within)
    | split

theorem present_within {o : OutletNo} {ref : BitVec 64} {tech : BitVec 2} {aerial : Option AerialNo} {s : State} :
    Within 120367284224 s (present o ref tech aerial s) := by
  unfold present
  repeat' first
    | apply Eq.refl | with_reducible (first | apply Within.refl | assumption)
    | with_reducible (first
        | intro _ | apply within_ite | apply within_ite2 | apply Within.go stopSession_within
        | apply Within.go askHost_within | apply Within.go reportCredential_within
        | apply Within.go credentialDecided_within)
    | split

theorem policyFallback_within {r : PolicyRequest} {s : State} :
    Within 120367284224 s (policyFallback r s) := by
  unfold policyFallback
  repeat' first
    | apply Eq.refl | with_reducible (first | apply Within.refl | assumption) | unfold x
    | ((try lift_lets); intro x; first
        | (refine (fun hx => ?_ : Within 120367284224 s x → _) ?_; clear_value x) | skip)
    | with_reducible (first
        | intro _ | apply within_ite | apply within_ite2 | apply Within.go State.onSession_within
        | apply Within.go credentialDecided_within)
    | split

theorem policyAnswered_within {r : PolicyRequest} {accept : Bool} {schedules : List Byte} {s : State} :
    Within 120367284224 s (policyAnswered r accept schedules s) := by
  unfold policyAnswered
  repeat' first
    | apply Eq.refl | with_reducible (first | apply Within.refl | assumption) | unfold x
    | ((try lift_lets); intro x; first
        | (refine (fun hx => ?_ : Within 120367284224 s x → _) ?_; clear_value x) | skip)
    | with_reducible (first
        | intro _ | apply within_ite | apply within_ite2 | apply Within.go State.onSession_within
        | apply Within.go credentialDecided_within)
    | split

theorem commitLink_within {o : OutletNo} {s : State} :
    Within 5242880 s (commitLink o s) := by
  unfold commitLink
  repeat' first
    | apply Eq.refl | with_reducible (first | apply Within.refl | assumption) | unfold x
    | ((try lift_lets); intro x; first | (refine (fun hx => ?_ : Within 5242880 s x → _) ?_; clear_value x) | skip)
    | fail_if_no_progress ((with_reducible apply within_mk) <;> first
        | with_reducible (first
            | exact .inl rfl | exact (fun x => x) | exact .inl (fun _ x => x) | apply Nat.le_refl
            | exact fun _ => Nat.le_refl _)
        | exact .inr rfl | skip)
    | with_reducible (first | intro _ | apply within_ite | apply within_ite2 | apply Within.go State.onPilot_within)
    | split

theorem commitDrive_within {o : OutletNo} {s : State} :
    Within 1114112 s (commitDrive o s) := by
  unfold commitDrive
  repeat' first
    | apply Eq.refl | exact (fun _ => rfl) | with_reducible (first | apply Within.refl | assumption) | unfold x
    | ((try lift_lets); intro x; first | (refine (fun hx => ?_ : Within 1114112 s x → _) ?_; clear_value x) | skip)
    | with_reducible (first
        | intro _ | apply within_ite | apply within_ite2 | apply Within.go (State.onGuard_within ?_)
        | apply Within.go State.onPilot_within)
    | split

theorem pilotBoundary_within {o : OutletNo} {samples : List Int} {late : Bool} {s : State} :
    Within 5308416 s (pilotBoundary o samples late s) := by
  unfold pilotBoundary
  repeat' first
    | apply Eq.refl | with_reducible (first | apply Within.refl | assumption) | unfold x
    | ((try lift_lets); intro x; first | (refine (fun hx => ?_ : Within 5308416 s x → _) ?_; clear_value x) | skip)
    | with_reducible (first
        | intro _ | apply within_ite | apply within_ite2 | apply Within.go State.onPilot_within
        | apply Within.go refreshDrive_within | apply Within.go commitLink_within | apply Within.go commitDrive_within)
    | split

theorem discardDuty_within {o : OutletNo} {s : State} :
    Within 1048576 s (discardDuty o s) := by
  unfold discardDuty
  repeat' first
    | apply Eq.refl | with_reducible (first | apply Within.refl | assumption)
    | with_reducible (first | intro _ | apply within_ite | apply within_ite2 | apply Within.go State.onPilot_within)
    | split <;> try with_reducible cases congrArg Prod.snd ‹_ = (_, _)›

theorem unplugged_within {o : OutletNo} {s : State} :
    Within 17254514688 s (unplugged o s) := by
  unfold unplugged
  repeat' first
    | apply Eq.refl | with_reducible (first | apply Within.refl | assumption) | unfold x
    | ((try lift_lets); intro x; first
        | (refine (fun hx => ?_ : Within 17254514688 s x → _) ?_; clear_value x) | skip)
    | fail_if_no_progress ((with_reducible apply within_mk) <;> first
        | with_reducible (first
            | exact .inl rfl | exact (fun x => x) | exact .inl (fun _ x => x) | apply Nat.le_refl
            | exact fun _ => Nat.le_refl _)
        | exact .inr rfl | skip)
    | with_reducible (first
        | intro _ | apply Within.go refreshDrive_within | apply Within.go endSessionNow_within
        | apply Within.go grant_within)
    | split

theorem notReady_within {o : OutletNo} {s : State} :
    Within 17250320384 s (notReady o s) := by
  unfold notReady
  repeat' first
    | apply Eq.refl | with_reducible (first | apply Within.refl | assumption) | unfold x
    | ((try lift_lets); intro x; first
        | (refine (fun hx => ?_ : Within 17250320384 s x → _) ?_; clear_value x) | skip)
    | with_reducible (first
        | intro _ | apply within_ite | apply within_ite2 | apply Within.go fescueOpen_within
        | apply Within.go stopSession_within)
    | split

theorem sessionOnState_within {o : OutletNo} {old : PilotState} {new : PilotState} {s : State} :
    Within 17254514688 s (sessionOnState o old new s) := by
  unfold sessionOnState
  repeat' first
    | apply Eq.refl | with_reducible (first | apply Within.refl | assumption) | unfold x
    | ((try lift_lets); intro x; first
        | (refine (fun hx => ?_ : Within 17254514688 s x → _) ?_; clear_value x) | skip)
    | with_reducible (first
        | intro _ | apply within_ite | apply within_ite2 | apply Within.go nowReady_within
        | apply Within.go plugged_within | apply Within.go unplugged_within | apply Within.go notReady_within)
    | split

theorem judgeReport_within {o : OutletNo} {old : PilotState} {new : PilotState} {s : State} :
    Within 1118909431808 s (judgeReport o old new s) := by
  unfold judgeReport
  repeat' first
    | apply Eq.refl | with_reducible (first | apply Within.refl | assumption)
    | with_reducible (first | intro _ | apply within_ite | apply within_ite2 | apply Within.go tripP_within) | split

theorem changeState_within {o : OutletNo} {new : PilotState} {inval : Bool} {s : State} :
    Within 1118913626112 s (changeState o new inval s) := by
  unfold changeState
  repeat' first
    | apply Eq.refl | exact (fun _ => rfl) | with_reducible (first | apply Within.refl | assumption) | unfold x
    | ((try lift_lets); intro x; first
        | (refine (fun hx => ?_ : Within 1118913626112 s x → _) ?_; clear_value x) | skip)
    | with_reducible (first
        | intro _ | apply within_ite | apply within_ite2 | apply Within.go (State.onGuard_within ?_)
        | apply Within.go State.onPilot_within | apply Within.go raise_within | apply Within.go refreshDrive_within
        | apply Within.go discardDuty_within | apply Within.go sessionOnState_within
        | apply Within.go judgeReport_within)
    | split

theorem filteredChange_within {o : OutletNo} {c : PilotClass} {s : State} :
    Within 1118913626112 s (filteredChange o c s) := by
  unfold filteredChange
  repeat' first
    | apply Eq.refl | with_reducible (first | apply Within.refl | assumption) | unfold x
    | ((try lift_lets); intro x; first
        | (refine (fun hx => ?_ : Within 1118913626112 s x → _) ?_; clear_value x) | skip)
    | with_reducible (first
        | intro _ | apply within_ite | apply within_ite2 | apply Within.go State.onPilot_within
        | apply Within.go changeState_within)
    | split

theorem moveWindow_within {reads : List ProxRead} {s : State} :
    Within 4194304 s (moveWindow reads s) := by
  unfold moveWindow
  repeat' first
    | apply Eq.refl | with_reducible (first | apply Within.refl | assumption)
    | fail_if_no_progress ((with_reducible apply within_mk) <;> first
        | with_reducible (first
            | exact .inl rfl | exact (fun x => x) | exact .inl (fun _ x => x) | apply Nat.le_refl
            | exact fun _ => Nat.le_refl _)
        | exact .inr rfl | skip)
    | with_reducible (first | intro _ | apply Within.go reads_within) | split

theorem proxChange_within {o : OutletNo} {reads : List ProxRead} {s : State} :
    Within 17254514688 s (proxChange o reads s) := by
  unfold proxChange
  repeat' first
    | apply Eq.refl | with_reducible (first | apply Within.refl | assumption) | unfold x
    | ((try lift_lets); intro x; first
        | (refine (fun hx => ?_ : Within 17254514688 s x → _) ?_; clear_value x) | skip)
    | with_reducible (first
        | intro _ | apply within_ite | apply within_ite2 | apply Within.go State.onPilot_within
        | apply Within.go raise_within | apply Within.go reads_within | apply Within.go refreshDrive_within
        | apply Within.go fescueOpen_within | apply Within.go stopSession_within | apply Within.go moveWindow_within)
    | split

theorem offerTimeout_within {o : OutletNo} {s : State} :
    Within 1245184 s (offerTimeout o s) := by
  unfold offerTimeout
  repeat' first
    | apply Eq.refl | with_reducible (first | apply Within.refl | assumption)
    | with_reducible (first
        | intro _ | apply within_ite | apply within_ite2 | apply Within.go State.onPilot_within
        | apply Within.go fescueOpen_within)
    | split

theorem slacMessage_within {o : OutletNo} {m : SlacMsg} {s : State} :
    Within 4194304 s (slacMessage o m s) := by
  unfold slacMessage
  repeat' first
    | apply Eq.refl | with_reducible (first | apply Within.refl | assumption)
    | fail_if_no_progress ((with_reducible apply within_mk) <;> first
        | with_reducible (first
            | exact .inl rfl | exact (fun x => x) | exact .inl (fun _ x => x) | apply Nat.le_refl
            | exact fun _ => Nat.le_refl _)
        | exact .inr rfl | skip)
    | with_reducible (first | intro _ | apply within_ite | apply within_ite2) | split

theorem answerOn_within {o : OutletNo} {run : BitVec 64} {mac : BitVec 48} {s : State} :
    Within 4194304 s (answerOn o run mac s) := by
  unfold answerOn
  repeat' first
    | apply Eq.refl | with_reducible (first | apply Within.refl | assumption)
    | fail_if_no_progress ((with_reducible apply within_mk) <;> first
        | with_reducible (first
            | exact .inl rfl | exact (fun x => x) | exact .inl (fun _ x => x) | apply Nat.le_refl
            | exact fun _ => Nat.le_refl _)
        | exact .inr rfl | skip)
    | with_reducible (first | intro _) | split

theorem forgetAnswers_within {mac : BitVec 48} {s : State} :
    Within 4194304 s (forgetAnswers mac s) := by
  unfold forgetAnswers
  repeat' first
    | apply Eq.refl | with_reducible (first | apply Within.refl | assumption)
    | fail_if_no_progress ((with_reducible apply within_mk) <;> first
        | with_reducible (first
            | exact .inl rfl | exact (fun x => x) | exact .inl (fun _ x => x) | apply Nat.le_refl
            | exact fun _ => Nat.le_refl _)
        | exact .inr rfl | skip)
    | with_reducible (first | intro _) | split

theorem ambiguous_within {run : BitVec 64} {mac : BitVec 48} {cands : List OutletNo} {s : State} :
    Within 17251237888 s (ambiguous run mac cands s) := by
  unfold ambiguous
  repeat' first
    | apply Eq.refl | with_reducible (first | apply Within.refl | assumption) | unfold x
    | ((try lift_lets); intro x; first
        | (refine (fun hx => ?_ : Within 17251237888 s x → _) ?_; clear_value x) | skip)
    | fail_if_no_progress ((with_reducible apply within_mk) <;> first
        | with_reducible (first
            | exact .inl rfl | exact (fun x => x) | exact .inl (fun _ x => x) | apply Nat.le_refl
            | exact fun _ => Nat.le_refl _)
        | exact .inr rfl | skip)
    | with_reducible (first
        | intro _ | apply within_ite | apply within_ite2 | apply Within.go raise_within | apply Within.go count_within
        | apply Within.go answerOn_within | apply within_foldl)
    | split

theorem soundingEnd_within {run : BitVec 64} {s : State} :
    Within 17251237888 s (soundingEnd run s) := by
  unfold soundingEnd
  repeat' first
    | apply Eq.refl | with_reducible (first | apply Within.refl | assumption) | unfold x
    | ((try lift_lets); intro x; first
        | (refine (fun hx => ?_ : Within 17251237888 s x → _) ?_; clear_value x) | skip)
    | fail_if_no_progress ((with_reducible apply within_mk) <;> first
        | with_reducible (first
            | exact .inl rfl | exact (fun x => x) | exact .inl (fun _ x => x) | apply Nat.le_refl
            | exact fun _ => Nat.le_refl _)
        | exact .inr rfl | skip)
    | with_reducible (first
        | intro _ | apply within_ite | apply within_ite2 | apply Within.go answerOn_within
        | apply Within.go forgetAnswers_within | apply Within.go ambiguous_within)
    | split

theorem slacMatch_within {o : OutletNo} {run : BitVec 64} {nmk : BitVec 128} {s : State} :
    Within 17254318080 s (slacMatch o run nmk s) := by
  unfold slacMatch
  repeat' first
    | apply Eq.refl | with_reducible (first | apply Within.refl | assumption) | unfold x
    | ((try lift_lets); intro x; first
        | (refine (fun hx => ?_ : Within 17254318080 s x → _) ?_; clear_value x) | skip)
    | fail_if_no_progress ((with_reducible apply within_mk) <;> first
        | with_reducible (first
            | exact .inl rfl | exact (fun x => x) | exact .inl (fun _ x => x) | apply Nat.le_refl
            | exact fun _ => Nat.le_refl _)
        | exact .inr rfl | skip)
    | with_reducible (first
        | intro _ | apply within_ite | apply within_ite2 | apply Within.go raise_within
        | apply Within.go setPhase_within)
    | split

theorem slacTimeout_within {o : OutletNo} {s : State} :
    Within 17254318080 s (slacTimeout o s) := by
  unfold slacTimeout
  repeat' first
    | apply Eq.refl | with_reducible (first | apply Within.refl | assumption) | unfold x
    | ((try lift_lets); intro x; first
        | (refine (fun hx => ?_ : Within 17254318080 s x → _) ?_; clear_value x) | skip)
    | fail_if_no_progress ((with_reducible apply within_mk) <;> first
        | with_reducible (first
            | exact .inl rfl | exact (fun x => x) | exact .inl (fun _ x => x) | apply Nat.le_refl
            | exact fun _ => Nat.le_refl _)
        | exact .inr rfl | skip)
    | with_reducible (first
        | intro _ | apply within_ite | apply within_ite2 | apply Within.go State.onPilot_within
        | apply Within.go raise_within | apply Within.go refreshDrive_within | apply Within.go useHeld_within)
    | split <;> try with_reducible cases congrArg Prod.snd ‹_ = (_, _)›

theorem slacRestart_within {o : OutletNo} {s : State} :
    Within 5242880 s (slacRestart o s) := by
  unfold slacRestart
  repeat' first
    | apply Eq.refl | with_reducible (first | apply Within.refl | assumption)
    | fail_if_no_progress ((with_reducible apply within_mk) <;> first
        | with_reducible (first
            | exact .inl rfl | exact (fun x => x) | exact .inl (fun _ x => x) | apply Nat.le_refl
            | exact fun _ => Nat.le_refl _)
        | exact .inr rfl | skip)
    | with_reducible (first
        | intro _ | apply within_ite | apply within_ite2 | apply Within.go State.onPilot_within
        | apply Within.go refreshDrive_within)
    | split

theorem sendAnswer_within {o : OutletNo} {a : V2gAnswer} {s : State} :
    Within 103081312256 s (sendAnswer o a s) := by
  unfold sendAnswer
  repeat' first
    | apply Eq.refl | with_reducible (first | apply Within.refl | assumption)
    | with_reducible (first | intro _ | apply Within.go State.onSession_within | apply Within.go answer_within)
    | split

theorem request_within {mm : Nat} (e : 120333729792 ||| mm = mm) {o : OutletNo} {protos : List Nat}
    {phases : List Nat} {act : State → State} {s : State}
    (hact : ∀ z0, Within mm z0 (act z0)) :
    Within mm s (request o protos phases act s) := by
  unfold request
  repeat' first
    | apply Eq.refl | exact lorTrans (b := 120333729792) rfl e
    | with_reducible (first | apply Within.refl | assumption) | unfold x
    | ((try lift_lets); intro x; first | (refine (fun hx => ?_ : Within mm s x → _) ?_; clear_value x) | skip)
    | with_reducible (first
        | intro _ | apply within_ite | apply within_ite2 | apply Within.go v2gEnd_within | apply Within.via (hact ..))
    | split

theorem requiring_within {mm : Nat} (e : 120333729792 ||| mm = mm) {o : OutletNo} {ok : State → Bool}
    {act : State → State} {s : State}
    (hact : ∀ z0, Within mm z0 (act z0)) :
    Within mm s (requiring o ok act s) := by
  unfold requiring
  repeat' first
    | apply Eq.refl | exact lorTrans (b := 120333729792) rfl e
    | with_reducible (first | apply Within.refl | assumption)
    | with_reducible (first
        | intro _ | apply within_ite | apply within_ite2 | apply Within.go v2gEnd_within | apply Within.via (hact ..))
    | split

theorem supportedAppProtocol_within {o : OutletNo} {ranking : List Proto} {y0 : State} :
    Within 120333729792 y0 (supportedAppProtocol o ranking y0) := by
  unfold supportedAppProtocol
  repeat' first
    | apply Eq.refl | with_reducible (first | apply Within.refl | assumption)
    | with_reducible (first
        | intro _ | apply Within.go State.onSession_within | apply Within.go v2gEnd_within
        | apply Within.go sendAnswer_within | apply Within.via (request_within ?_ ?_))
    | split

theorem sessionSetup_within {o : OutletNo} {y0 : State} :
    Within 120333729792 y0 (sessionSetup o y0) := by
  unfold sessionSetup
  repeat' first
    | apply Eq.refl | with_reducible (first | apply Within.refl | assumption)
    | with_reducible (first | intro _ | apply Within.go sendAnswer_within | apply Within.via (request_within ?_ ?_))
    | split

theorem serviceDiscovery_within {o : OutletNo} {y0 : State} :
    Within 120333729792 y0 (serviceDiscovery o y0) := by
  unfold serviceDiscovery
  repeat' first
    | apply Eq.refl | with_reducible (first | apply Within.refl | assumption)
    | with_reducible (first | intro _ | apply Within.go sendAnswer_within | apply Within.via (request_within ?_ ?_))
    | split

theorem serviceDetail_within {o : OutletNo} {v : V2gService} {y0 : State} :
    Within 120333729792 y0 (serviceDetail o v y0) := by
  unfold serviceDetail
  repeat' first
    | apply Eq.refl | with_reducible (first | apply Within.refl | assumption)
    | with_reducible (first
        | intro _ | apply Within.go sendAnswer_within | apply Within.via (request_within ?_ ?_)
        | apply Within.via (requiring_within ?_ ?_))
    | split

theorem serviceSelection_within {o : OutletNo} {v : V2gService} {contract : Bool} {y0 : State} :
    Within 120333729792 y0 (serviceSelection o v contract y0) := by
  unfold serviceSelection
  repeat' first
    | apply Eq.refl | with_reducible (first | apply Within.refl | assumption)
    | with_reducible (first
        | intro _ | apply Within.go State.onSession_within | apply Within.go sendAnswer_within
        | apply Within.via (request_within ?_ ?_) | apply Within.via (requiring_within ?_ ?_))
    | split

theorem verifyRoot_within {entries : List (Fin 8)} {s : State} : Within 17381195776 s (verifyRoot entries s).2 := by
  induction entries generalizing s with
  | nil => exact .refl _ _
  | cons k ks ih =>
    have h : Within 17381195776 s (useMapped (s.veh.keyMap.at k) 1 30 s).2 := useMapped_within.mono rfl
    unfold verifyRoot
    split
    · rename_i t e
      rw [e] at h
      exact h
    · rename_i t e
      rw [e] at h
      exact h.trans ih

theorem paymentDetails_within {o : OutletNo} {id : List Byte} {chainOk : Bool} {y0 : State} :
    Within 120467947520 y0 (paymentDetails o id chainOk y0) := by
  unfold paymentDetails
  repeat' first
    | apply Eq.refl | with_reducible (first | apply Within.refl | assumption)
    | with_reducible (first
        | intro _ | apply within_ite | apply within_ite2 | apply Within.go State.onSession_within
        | apply Within.go v2gEnd_within | apply Within.go sendAnswer_within | apply Within.via (request_within ?_ ?_)
        | apply Within.via (requiring_within ?_ ?_) | apply Within.go verifyRoot_within)
    | split <;> try with_reducible cases congrArg Prod.snd ‹_ = (_, _)›

theorem authorizationSetup_within {o : OutletNo} {y0 : State} :
    Within 120333729792 y0 (authorizationSetup o y0) := by
  unfold authorizationSetup
  repeat' first
    | apply Eq.refl | with_reducible (first | apply Within.refl | assumption)
    | with_reducible (first | intro _ | apply Within.go sendAnswer_within | apply Within.via (request_within ?_ ?_))
    | split

theorem authorizeContract_within {o : OutletNo} {ref : BitVec 64} {s : State} :
    Within 120367284224 s (authorizeContract o ref s) := by
  unfold authorizeContract
  repeat' first
    | apply Eq.refl | with_reducible (first | apply Within.refl | assumption) | unfold x
    | ((try lift_lets); intro x; first
        | (refine (fun hx => ?_ : Within 120367284224 s x → _) ?_; clear_value x) | skip)
    | with_reducible (first
        | intro _ | apply within_ite | apply within_ite2 | apply Within.go State.onSession_within
        | apply Within.go present_within | apply Within.go sendAnswer_within)
    | split

theorem authorizeOther_within {o : OutletNo} {s : State} :
    Within 120333533184 s (authorizeOther o s) := by
  unfold authorizeOther
  repeat' first
    | apply Eq.refl | with_reducible (first | apply Within.refl | assumption) | unfold x
    | ((try lift_lets); intro x; first
        | (refine (fun hx => ?_ : Within 120333533184 s x → _) ?_; clear_value x) | skip)
    | with_reducible (first
        | intro _ | apply Within.go authorise_within | apply Within.go grant_within
        | apply Within.go sendAnswer_within)
    | split

theorem contractChain_within {o : OutletNo} {chainOk : Bool} {s : State} :
    Within 17381195776 s (contractChain o chainOk s).2 := by
  unfold contractChain
  repeat' first
    | apply Eq.refl | with_reducible (first | apply Within.refl | assumption)
    | with_reducible (first | intro _ | apply within_ite | apply within_ite2 | apply Within.go verifyRoot_within)
    | split <;> try with_reducible cases congrArg Prod.snd ‹_ = (_, _)›

theorem contractAsks_within {o : OutletNo} {sigOk : Bool} {chainOk : Bool} {id : List Byte} {s : State} :
    Within 120501501952 s (contractAsks o sigOk chainOk id s) := by
  unfold contractAsks
  repeat' first
    | apply Eq.refl | with_reducible (first | apply Within.refl | assumption)
    | with_reducible (first
        | intro _ | apply within_ite | apply within_ite2 | apply Within.go v2gEnd_within
        | apply Within.go authorizeContract_within | apply Within.go contractChain_within)
    | split <;> try with_reducible cases congrArg Prod.snd ‹_ = (_, _)›

theorem authorization_within {o : OutletNo} {sigOk : Bool} {chainOk : Bool} {id : List Byte} {y0 : State} :
    Within 120501501952 y0 (authorization o sigOk chainOk id y0) := by
  unfold authorization
  repeat' first
    | apply Eq.refl | with_reducible (first | apply Within.refl | assumption) | unfold x
    | ((try lift_lets); intro x; first
        | (refine (fun hx => ?_ : Within 120501501952 y0 x → _) ?_; clear_value x) | skip)
    | with_reducible (first
        | intro _ | apply within_ite | apply within_ite2 | apply Within.go sendAnswer_within
        | apply Within.via (request_within ?_ ?_) | apply Within.via (requiring_within ?_ ?_)
        | apply Within.go authorizeOther_within | apply Within.go contractAsks_within)
    | split <;> try with_reducible cases congrArg Prod.snd ‹_ = (_, _)›

theorem waitFor_within {o : OutletNo} {kind : PolicyKind} {s : State} :
    Within 120332484608 s (waitFor o kind s) := by
  unfold waitFor
  repeat' first
    | apply Eq.refl | with_reducible (first | apply Within.refl | assumption)
    | with_reducible (first
        | intro _ | apply within_ite | apply within_ite2 | apply Within.go askHost_within
        | apply Within.go sendAnswer_within)
    | split

theorem parameters_within {o : OutletNo} {most : Nat} {s : State} :
    Within 120333729792 s (parameters o most s) := by
  unfold parameters
  repeat' first
    | apply Eq.refl | with_reducible (first | apply Within.refl | assumption) | unfold x
    | ((try lift_lets); intro x; first
        | (refine (fun hx => ?_ : Within 120333729792 s x → _) ?_; clear_value x) | skip)
    | with_reducible (first
        | intro _ | apply within_ite | apply within_ite2 | apply Within.go State.onSession_within
        | apply Within.go setPhase_within | apply Within.go v2gEnd_within | apply Within.go sendAnswer_within
        | apply Within.go waitFor_within)
    | split

theorem chargeParameterDiscovery_within {o : OutletNo} {most : Nat} {y0 : State} :
    Within 120333729792 y0 (chargeParameterDiscovery o most y0) := by
  unfold chargeParameterDiscovery
  repeat' first
    | apply Eq.refl | with_reducible (first | apply Within.refl | assumption)
    | with_reducible (first
        | intro _ | apply Within.via (request_within ?_ ?_) | apply Within.via (requiring_within ?_ ?_)
        | apply Within.go parameters_within)
    | split

theorem settleDischarge_within {o : OutletNo} {s : State} :
    Within 2097152 s (settleDischarge o s) := by
  unfold settleDischarge
  repeat' first
    | apply Eq.refl | with_reducible (first | apply Within.refl | assumption)
    | with_reducible (first | intro _ | apply within_ite | apply within_ite2 | apply Within.go State.onSession_within)
    | split

theorem scheduleExchange_within {o : OutletNo} {dynamic : Bool} {y0 : State} :
    Within 120333729792 y0 (scheduleExchange o dynamic y0) := by
  unfold scheduleExchange
  repeat' first
    | apply Eq.refl | with_reducible (first | apply Within.refl | assumption)
    | with_reducible (first
        | intro _ | apply within_ite | apply within_ite2 | apply Within.go State.onSession_within
        | apply Within.go sendAnswer_within | apply Within.via (request_within ?_ ?_) | apply Within.go waitFor_within
        | apply Within.go settleDischarge_within)
    | unfold x
    | ((try lift_lets); intro x; first
        | (refine (fun hx => ?_ : Within 120333729792 y0 x → _) ?_; clear_value x) | skip)
    | split

theorem cableCheck_within {o : OutletNo} {y0 : State} :
    Within 120333729792 y0 (cableCheck o y0) := by
  unfold cableCheck
  repeat' first
    | apply Eq.refl | with_reducible (first | apply Within.refl | assumption)
    | with_reducible (first
        | intro _ | apply within_ite | apply within_ite2 | apply Within.go setPhase_within
        | apply Within.go sendAnswer_within | apply Within.via (request_within ?_ ?_)
        | apply Within.via (requiring_within ?_ ?_))
    | unfold x
    | ((try lift_lets); intro x; first
        | (refine (fun hx => ?_ : Within 120333729792 y0 x → _) ?_; clear_value x) | skip)
    | split

theorem preCharge_within {o : OutletNo} {y0 : State} :
    Within 120333729792 y0 (preCharge o y0) := by
  unfold preCharge
  repeat' first
    | apply Eq.refl | with_reducible (first | apply Within.refl | assumption)
    | with_reducible (first
        | intro _ | apply Within.go sendAnswer_within | apply Within.via (request_within ?_ ?_)
        | apply Within.via (requiring_within ?_ ?_))
    | split

theorem powerStart_within {o : OutletNo} {y0 : State} :
    Within 120333729792 y0 (powerStart o y0) := by
  unfold powerStart
  repeat' first
    | apply Eq.refl | with_reducible (first | apply Within.refl | assumption)
    | with_reducible (first
        | intro _ | apply within_ite | apply within_ite2 | apply Within.go setPhase_within
        | apply Within.go sendAnswer_within | apply Within.via (requiring_within ?_ ?_))
    | split

theorem renegotiate_within {o : OutletNo} {y0 : State} :
    Within 120333729792 y0 (renegotiate o y0) := by
  unfold renegotiate
  repeat' first
    | apply Eq.refl | with_reducible (first | apply Within.refl | assumption)
    | with_reducible (first
        | intro _ | apply within_ite | apply within_ite2 | apply Within.go askHost_within
        | apply Within.go sendAnswer_within | apply Within.via (requiring_within ?_ ?_))
    | unfold x
    | ((try lift_lets); intro x; first
        | (refine (fun hx => ?_ : Within 120333729792 y0 x → _) ?_; clear_value x) | skip)
    | split

theorem powerDelivery_within {o : OutletNo} {k : PowerKind} {y0 : State} :
    Within 120333729792 y0 (powerDelivery o k y0) := by
  unfold powerDelivery
  repeat' first
    | apply Eq.refl | with_reducible (first | apply Within.refl | assumption)
    | with_reducible (first
        | intro _ | apply Within.go stopSession_within | apply Within.go sendAnswer_within
        | apply Within.via (request_within ?_ ?_) | apply Within.go powerStart_within
        | apply Within.go renegotiate_within)
    | split

theorem loopAnswer_within {o : OutletNo} {current : Nat} {s : State} :
    Within 103081312256 s (loopAnswer o current s) := by
  unfold loopAnswer
  repeat' first
    | apply Eq.refl | with_reducible (first | apply Within.refl | assumption) | unfold x
    | ((try lift_lets); intro x; first
        | (refine (fun hx => ?_ : Within 103081312256 s x → _) ?_; clear_value x) | skip)
    | with_reducible (first | intro _ | apply Within.go sendAnswer_within) | split

theorem chargeLoop_within {o : OutletNo} {protos : List Nat} {dc : Bool} {current : Nat} {y0 : State} :
    Within 120333729792 y0 (chargeLoop o protos dc current y0) := by
  unfold chargeLoop
  repeat' first
    | apply Eq.refl | with_reducible (first | apply Within.refl | assumption)
    | with_reducible (first
        | intro _ | apply Within.via (request_within ?_ ?_) | apply Within.via (requiring_within ?_ ?_)
        | apply Within.go loopAnswer_within)
    | split

theorem currentDemand_within {o : OutletNo} {current : Nat} {y0 : State} :
    Within 120333729792 y0 (currentDemand o current y0) := by
  unfold currentDemand
  repeat' first
    | apply Eq.refl | with_reducible (first | apply Within.refl | assumption)
    | with_reducible (first | intro _ | apply Within.go chargeLoop_within) | split

theorem chargingStatus_within {o : OutletNo} {s : State} :
    Within 120333729792 s (chargingStatus o s) := by
  unfold chargingStatus
  repeat' first
    | apply Eq.refl | with_reducible (first | apply Within.refl | assumption)
    | with_reducible (first | intro _ | apply Within.go chargeLoop_within) | split

theorem acChargeLoop_within {o : OutletNo} {current : Nat} {y0 : State} :
    Within 120333729792 y0 (acChargeLoop o current y0) := by
  unfold acChargeLoop
  repeat' first
    | apply Eq.refl | with_reducible (first | apply Within.refl | assumption)
    | with_reducible (first | intro _ | apply Within.go chargeLoop_within) | split

theorem dcChargeLoop_within {o : OutletNo} {current : Nat} {y0 : State} :
    Within 120333729792 y0 (dcChargeLoop o current y0) := by
  unfold dcChargeLoop
  repeat' first
    | apply Eq.refl | with_reducible (first | apply Within.refl | assumption)
    | with_reducible (first | intro _ | apply Within.go chargeLoop_within) | split

theorem meteringReceipt_within {o : OutletNo} {y0 : State} :
    Within 120333729792 y0 (meteringReceipt o y0) := by
  unfold meteringReceipt
  repeat' first
    | apply Eq.refl | with_reducible (first | apply Within.refl | assumption)
    | with_reducible (first | intro _ | apply Within.go sendAnswer_within | apply Within.via (request_within ?_ ?_))
    | split

theorem weldingDetection_within {o : OutletNo} {y0 : State} :
    Within 120333729792 y0 (weldingDetection o y0) := by
  unfold weldingDetection
  repeat' first
    | apply Eq.refl | with_reducible (first | apply Within.refl | assumption)
    | with_reducible (first
        | intro _ | apply within_ite | apply within_ite2 | apply Within.go setPhase_within
        | apply Within.go sendAnswer_within | apply Within.via (request_within ?_ ?_)
        | apply Within.via (requiring_within ?_ ?_))
    | split

theorem completeStop_within {o : OutletNo} {s : State} :
    Within 17254514688 s (completeStop o s) := by
  unfold completeStop
  repeat' first
    | apply Eq.refl | with_reducible (first | apply Within.refl | assumption)
    | with_reducible (first | intro _ | apply Within.go stopSession_within | apply Within.go endSessionNow_within)
    | split

theorem sessionStopMessage_within {o : OutletNo} {pause : Bool} {y0 : State} :
    Within 120333729792 y0 (sessionStopMessage o pause y0) := by
  unfold sessionStopMessage
  repeat' first
    | apply Eq.refl | with_reducible (first | apply Within.refl | assumption)
    | with_reducible (first
        | intro _ | apply Within.go State.onSession_within | apply Within.go sendAnswer_within
        | apply Within.via (request_within ?_ ?_) | apply Within.via (requiring_within ?_ ?_)
        | apply Within.go completeStop_within)
    | split

theorem unsupported_within {o : OutletNo} {s : State} :
    Within 120333729792 s (unsupported o s) := by
  unfold unsupported
  repeat' first
    | apply Eq.refl | with_reducible (first | apply Within.refl | assumption)
    | with_reducible (first | intro _ | apply within_ite | apply within_ite2 | apply Within.go v2gEnd_within) | split

theorem sequenceTimeout_within {o : OutletNo} {s : State} :
    Within 17254514688 s (sequenceTimeout o s) := by
  unfold sequenceTimeout
  repeat' first
    | apply Eq.refl | with_reducible (first | apply Within.refl | assumption)
    | with_reducible (first | intro _ | apply within_ite | apply within_ite2 | apply Within.go completeStop_within)
    | split

theorem relayCertificate_within {o : OutletNo} {kind : Nat} {checkOk : Bool} {s : State} :
    Within 120467947520 s (relayCertificate o kind checkOk s) := by
  unfold relayCertificate
  repeat' first
    | apply Eq.refl | with_reducible (first | apply Within.refl | assumption) | unfold x
    | ((try lift_lets); intro x; first
        | (refine (fun hx => ?_ : Within 120467947520 s x → _) ?_; clear_value x) | skip)
    | fail_if_no_progress ((with_reducible apply within_mk) <;> first
        | with_reducible (first
            | exact .inl rfl | exact (fun x => x) | exact .inl (fun _ x => x) | apply Nat.le_refl
            | exact fun _ => Nat.le_refl _)
        | exact .inr rfl | skip)
    | with_reducible (first
        | intro _ | apply within_ite | apply within_ite2 | apply Within.go State.onSession_within
        | apply Within.go raise_within | apply Within.go answer_within | apply Within.go v2gEnd_within
        | apply Within.go sendAnswer_within | apply Within.go verifyRoot_within)
    | split <;> try with_reducible cases congrArg Prod.snd ‹_ = (_, _)›

theorem certificateInstallation_within {o : OutletNo} {checkOk : Bool} {y0 : State} :
    Within 120467947520 y0 (certificateInstallation o checkOk y0) := by
  unfold certificateInstallation
  repeat' first
    | apply Eq.refl | with_reducible (first | apply Within.refl | assumption)
    | with_reducible (first
        | intro _ | apply Within.via (request_within ?_ ?_) | apply Within.go relayCertificate_within)
    | split

theorem certificateUpdate_within {o : OutletNo} {checkOk : Bool} {y0 : State} :
    Within 120467947520 y0 (certificateUpdate o checkOk y0) := by
  unfold certificateUpdate
  repeat' first
    | apply Eq.refl | with_reducible (first | apply Within.refl | assumption)
    | with_reducible (first
        | intro _ | apply Within.via (request_within ?_ ?_) | apply Within.go relayCertificate_within)
    | split

theorem certificateTimeout_within {o : OutletNo} {s : State} :
    Within 103085506560 s (certificateTimeout o s) := by
  unfold certificateTimeout
  repeat' first
    | apply Eq.refl | with_reducible (first | apply Within.refl | assumption) | unfold x
    | ((try lift_lets); intro x; first
        | (refine (fun hx => ?_ : Within 103085506560 s x → _) ?_; clear_value x) | skip)
    | fail_if_no_progress ((with_reducible apply within_mk) <;> first
        | with_reducible (first
            | exact .inl rfl | exact (fun x => x) | exact .inl (fun _ x => x) | apply Nat.le_refl
            | exact fun _ => Nat.le_refl _)
        | exact .inr rfl | skip)
    | with_reducible (first
        | intro _ | apply within_ite | apply within_ite2 | apply Within.go State.onSession_within
        | apply Within.go answer_within)
    | split <;> try with_reducible cases congrArg Prod.snd ‹_ = (_, _)›

theorem readChain_within {entry : Fin 2} {s : State} :
    Within 2199027449856 s (readChain entry s) := by
  unfold readChain
  repeat' first
    | apply Eq.refl | with_reducible (first | apply Within.refl | assumption)
    | fail_if_no_progress ((with_reducible apply within_mk) <;> first
        | with_reducible (first
            | exact .inl rfl | exact (fun x => x) | exact .inl (fun _ x => x) | apply Nat.le_refl
            | exact (fun _ => Nat.le_refl _) | apply Nat.le_add_right)
        | exact .inr rfl | skip)
    | with_reducible (first | intro _) | split

theorem tlsPresent_within {o : OutletNo} {version : Nat} {suite : CipherSuite} {s : State} :
    Within 2319491203072 s (tlsPresent o version suite s) := by
  unfold tlsPresent
  repeat' first
    | apply Eq.refl | with_reducible (first | apply Within.refl | assumption) | unfold x
    | ((try lift_lets); intro x; first
        | (refine (fun hx => ?_ : Within 2319491203072 s x → _) ?_; clear_value x) | skip)
    | with_reducible (first
        | intro _ | apply within_ite | apply within_ite2 | apply Within.go State.onSession_within
        | apply Within.go useMapped_within | apply Within.go v2gEnd_within | apply Within.go readChain_within)
    | split <;> try with_reducible cases congrArg Prod.snd ‹_ = (_, _)›

theorem tlsHandshake_within {o : OutletNo} {f : TlsOffer} {s : State} :
    Within 2319491203072 s (tlsHandshake o f s) := by
  unfold tlsHandshake
  repeat' first
    | apply Eq.refl | with_reducible (first | apply Within.refl | assumption)
    | with_reducible (first
        | intro _ | apply within_ite | apply within_ite2 | apply Within.go v2gEnd_within
        | apply Within.go tlsPresent_within)
    | split

theorem policyTimeout_within {o : OutletNo} {kind : PolicyKind} {s : State} :
    Within 120367284224 s (policyTimeout o kind s) := by
  unfold policyTimeout
  repeat' first
    | apply Eq.refl | with_reducible (first | apply Within.refl | assumption)
    | fail_if_no_progress ((with_reducible apply within_mk) <;> first
        | with_reducible (first
            | exact .inl rfl | exact (fun x => x) | exact .inl (fun _ x => x) | apply Nat.le_refl
            | exact fun _ => Nat.le_refl _)
        | exact .inr rfl | skip)
    | with_reducible (first | intro _ | apply within_ite | apply within_ite2 | apply Within.go policyFallback_within)
    | split

theorem bringSpare_within {k : CoreNo} {s : State} :
    Within 17251172352 s (bringSpare k s) := by
  unfold bringSpare
  repeat' first
    | apply Eq.refl | with_reducible (first | apply Within.refl | assumption)
    | fail_if_no_progress ((with_reducible apply within_mk) <;> first
        | with_reducible (first
            | exact .inl rfl | exact (fun x => x) | exact .inl (fun _ x => x) | apply Nat.le_refl
            | exact fun _ => Nat.le_refl _)
        | exact .inr rfl | skip)
    | with_reducible (first | intro _ | apply within_ite | apply within_ite2 | apply Within.go raise_within) | split

theorem coreSilent_within {k : CoreNo} {s : State} :
    Within 17254514688 s (coreSilent k s) := by
  unfold coreSilent
  repeat' first
    | apply Eq.refl | with_reducible (first | apply Within.refl | assumption) | unfold x
    | ((try lift_lets); intro x; first
        | (refine (fun hx => ?_ : Within 17254514688 s x → _) ?_; clear_value x) | skip)
    | fail_if_no_progress ((with_reducible apply within_mk) <;> first
        | with_reducible (first
            | exact .inl rfl | exact (fun x => x) | exact .inl (fun _ x => x) | apply Nat.le_refl
            | exact fun _ => Nat.le_refl _)
        | exact .inr rfl | skip)
    | with_reducible (first
        | intro _ | apply within_ite | apply within_ite2 | apply Within.go raise_within
        | apply Within.go holdSession_within | apply Within.go bringSpare_within | apply within_foldl)
    | split

theorem coreTested_within {pass : Bool} {s : State} :
    Within 4194304 s (coreTested pass s) := by
  unfold coreTested
  repeat' first
    | apply Eq.refl | with_reducible (first | apply Within.refl | assumption) | unfold x
    | ((try lift_lets); intro x; first | (refine (fun hx => ?_ : Within 4194304 s x → _) ?_; clear_value x) | skip)
    | fail_if_no_progress ((with_reducible apply within_mk) <;> first
        | with_reducible (first
            | exact .inl rfl | exact (fun x => x) | exact .inl (fun _ x => x) | apply Nat.le_refl
            | exact fun _ => Nat.le_refl _)
        | exact .inr rfl | skip)
    | with_reducible (first | intro _ | apply within_ite | apply within_ite2) | split

theorem dcHoldExpiry_within {o : OutletNo} {s : State} :
    Within 196608 s (dcHoldExpiry o s) := by
  unfold dcHoldExpiry
  repeat' first
    | apply Eq.refl | with_reducible (first | apply Within.refl | assumption) | unfold x
    | ((try lift_lets); intro x; first | (refine (fun hx => ?_ : Within 196608 s x → _) ?_; clear_value x) | skip)
    | with_reducible (first | intro _ | apply within_ite | apply within_ite2 | apply Within.go fescueOpen_within)
    | split

theorem abandonPolls_within {s : State} :
    Within 33554432 s (abandonPolls s) := by
  unfold abandonPolls
  repeat' first
    | apply Eq.refl | with_reducible (first | apply Within.refl | assumption)
    | fail_if_no_progress ((with_reducible apply within_mk) <;> first
        | with_reducible (first
            | exact .inl rfl | exact (fun x => x) | exact .inl (fun _ x => x) | apply Nat.le_refl
            | exact fun _ => Nat.le_refl _)
        | exact .inr rfl | skip)
    | with_reducible (first | intro _ | apply within_ite | apply within_ite2) | split

theorem handleCard_within {a : AerialNo} {used : Bool} {c : Card} {s : State} :
    Within 120367284224 s (handleCard a used c s).2 := by
  unfold handleCard
  repeat' first
    | apply Eq.refl | with_reducible (first | apply Within.refl | assumption) | unfold x
    | ((try lift_lets); intro x; first
        | (refine (fun hx => ?_ : Within 120367284224 s x → _) ?_; clear_value x) | skip)
    | with_reducible (first
        | intro _ | apply within_ite | apply within_ite2 | apply Within.go State.onAerial_within
        | apply Within.go reportCredential_within | apply Within.go present_within)
    | split

theorem handleCards_within {a : AerialNo} {y0 : Bool} {y1 : List Card} {y2 : State} :
    Within 120367284224 y2 (handleCards a y0 y1 y2) := by
  induction y1 generalizing y0 y2 with
  | nil =>
    unfold handleCards
    repeat' first
      | apply Eq.refl | with_reducible (first | apply Within.refl | assumption)
      | with_reducible (first | intro _ | apply Within.go handleCard_within)
      | split <;> try with_reducible cases congrArg Prod.snd ‹_ = (_, _)›
  | cons _ _ ih =>
    unfold handleCards
    repeat' first
      | apply Eq.refl | with_reducible (first | apply Within.refl | assumption)
      | with_reducible (first | intro _ | apply Within.go handleCard_within | apply Within.via (ih ..))
      | split <;> try with_reducible cases congrArg Prod.snd ‹_ = (_, _)›

theorem startPoll_within {a : AerialNo} {amp : Nat} {phase : Int} {cards : List Card} {s : State} :
    Within 120367284224 s (startPoll a amp phase cards s) := by
  unfold startPoll
  repeat' first
    | apply Eq.refl | with_reducible (first | apply Within.refl | assumption) | unfold x
    | ((try lift_lets); intro x; first
        | (refine (fun hx => ?_ : Within 120367284224 s x → _) ?_; clear_value x) | skip)
    | with_reducible (first | intro _ | apply Within.go State.onAerial_within | apply Within.go handleCards_within)
    | split

theorem freePort_within {p : Fin 4} {s : State} :
    Within 33554432 s (freePort p s) := by
  unfold freePort
  repeat' first
    | apply Eq.refl | with_reducible (first | apply Within.refl | assumption)
    | with_reducible (first | intro _ | apply Within.go State.onAerial_within | apply within_foldl) | split

theorem aerialPing_within {a : AerialNo} {amp : Nat} {phase : Int} {cards : List Card} {s : State} :
    Within 120367284224 s (aerialPing a amp phase cards s) := by
  unfold aerialPing
  repeat' first
    | apply Eq.refl | with_reducible (first | apply Within.refl | assumption) | unfold x
    | ((try lift_lets); intro x; first
        | (refine (fun hx => ?_ : Within 120367284224 s x → _) ?_; clear_value x) | skip)
    | with_reducible (first
        | intro _ | apply within_ite | apply within_ite2 | apply Within.go State.onAerial_within
        | apply Within.go present_within | apply Within.go startPoll_within | apply Within.go freePort_within)
    | split <;> try with_reducible cases congrArg Prod.snd ‹_ = (_, _)›

theorem authFallbackNow_within {o : OutletNo} {s : State} :
    Within 120367284224 s (authFallbackNow o s) := by
  unfold authFallbackNow
  repeat' first
    | apply Eq.refl | with_reducible (first | apply Within.refl | assumption)
    | with_reducible (first | intro _ | apply Within.go policyTimeout_within) | split

theorem grantLapse_within {o : OutletNo} {s : State} :
    Within 17254318080 s (grantLapse o s) := by
  unfold grantLapse
  repeat' first
    | apply Eq.refl | with_reducible (first | apply Within.refl | assumption)
    | fail_if_no_progress ((with_reducible apply within_mk) <;> first
        | with_reducible (first
            | exact .inl rfl | exact (fun x => x) | exact .inl (fun _ x => x) | apply Nat.le_refl
            | exact fun _ => Nat.le_refl _)
        | exact .inr rfl | skip)
    | with_reducible (first | intro _ | apply Within.go grant_within) | split

theorem onFescue_within {mm : Nat} (e : 0 ||| mm = mm) {f : List Byte → State → Reply × State} {y0 : List Byte}
    {y1 : State}
    (hf : ∀ z0 z1, Within mm z1 (f z0 z1).2) :
    Within mm y1 (onFescue f y0 y1).2 := by
  unfold onFescue
  repeat' first
    | apply Eq.refl | exact lorTrans (b := 0) rfl e | with_reducible (first | apply Within.refl | assumption)
    | with_reducible (first
        | intro _ | apply within_ite | apply within_ite2 | apply Within.via (acts_within ?_ ?_)
        | apply Within.via (hf ..))
    | split

theorem vehicleLinkStatus_within {c : Cmd} {y0 : State} :
    Within 1221985304576 y0 (vehicleLinkStatus c y0) := by
  unfold vehicleLinkStatus
  repeat' first
    | apply Eq.refl | with_reducible (first | apply Within.refl | assumption)
    | with_reducible (first
        | intro _ | apply Within.via (runCmd_within ?_ ?_) | apply Within.via (onFescue_within ?_ ?_))
    | split

theorem configureLink_within {c : Cmd} {p : List Byte} {s : State} :
    Within 5242880 s (configureLink c p s).2 := by
  unfold configureLink
  repeat' first
    | apply Eq.refl | with_reducible (first | apply Within.refl | assumption)
    | with_reducible (first
        | intro _ | apply Within.go State.onPilot_within | apply Within.via (checked_within ?_ ?_))
    | fail_if_no_progress ((with_reducible apply within_mk) <;> first
        | with_reducible (first
            | exact .inl rfl | exact (fun x => x) | exact .inl (fun _ x => x) | apply Nat.le_refl
            | exact fun _ => Nat.le_refl _)
        | exact .inr rfl | skip)
    | unfold x
    | ((try lift_lets); intro x; first | (refine (fun hx => ?_ : Within 5242880 s x → _) ?_; clear_value x) | skip)
    | split

theorem vehicleLinkConfiguration_within {c : Cmd} {y0 : State} :
    Within 1221990547456 y0 (vehicleLinkConfiguration c y0) := by
  unfold vehicleLinkConfiguration
  repeat' first
    | apply Eq.refl | with_reducible (first | apply Within.refl | assumption)
    | with_reducible (first
        | intro _ | apply within_ite | apply within_ite2 | apply Within.via (runCmd_within ?_ ?_)
        | apply Within.via (acts_within ?_ ?_) | apply Within.via (onFescue_within ?_ ?_)
        | apply Within.go configureLink_within)
    | split

theorem loadLimit_within {c : Cmd} {y0 : State} :
    Within 1221986353152 y0 (loadLimit c y0) := by
  unfold loadLimit
  repeat' first
    | apply Eq.refl | with_reducible (first | apply Within.refl | assumption)
    | with_reducible (first
        | intro _ | apply Within.go State.onPilot_within | apply Within.via (runCmd_within ?_ ?_)
        | apply Within.via (checked_within ?_ ?_) | apply Within.via (onFescue_within ?_ ?_))
    | split

theorem setSessionMode_within {o : OutletNo} {ha : Bool} {s : State} :
    Within 4194304 s (setSessionMode o ha s).2 := by
  unfold setSessionMode
  repeat' first
    | apply Eq.refl | with_reducible (first | apply Within.refl | assumption)
    | fail_if_no_progress ((with_reducible apply within_mk) <;> first
        | with_reducible (first
            | exact .inl rfl | exact (fun x => x) | exact .inl (fun _ x => x) | apply Nat.le_refl
            | exact fun _ => Nat.le_refl _)
        | exact .inr rfl | skip)
    | with_reducible (first | intro _ | apply within_ite | apply within_ite2) | split

theorem sessionMode_within {c : Cmd} {y0 : State} :
    Within 1221989498880 y0 (sessionMode c y0) := by
  unfold sessionMode
  repeat' first
    | apply Eq.refl | with_reducible (first | apply Within.refl | assumption)
    | with_reducible (first
        | intro _ | apply Within.via (runCmd_within ?_ ?_) | apply Within.via (acts_within ?_ ?_)
        | apply Within.via (checked_within ?_ ?_) | apply Within.go setSessionMode_within)
    | split

theorem lateAnswer_within {aerial : Option AerialNo} {s : State} :
    Within 17251172352 s (lateAnswer aerial s).2 := by
  unfold lateAnswer
  repeat' first
    | apply Eq.refl | with_reducible (first | apply Within.refl | assumption)
    | fail_if_no_progress ((with_reducible apply within_mk) <;> first
        | with_reducible (first
            | exact .inl rfl | exact (fun x => x) | exact .inl (fun _ x => x) | apply Nat.le_refl
            | exact fun _ => Nat.le_refl _)
        | exact .inr rfl | skip)
    | with_reducible (first | intro _ | apply Within.go raise_within) | split

theorem answerPolicy_within {c : Cmd} {p : List Byte} {s : State} :
    Within 120367284224 s (answerPolicy c p s).2 := by
  unfold answerPolicy
  repeat' first
    | apply Eq.refl | with_reducible (first | apply Within.refl | assumption) | unfold x
    | ((try lift_lets); intro x; first
        | (refine (fun hx => ?_ : Within 120367284224 s x → _) ?_; clear_value x) | skip)
    | fail_if_no_progress ((with_reducible apply within_mk) <;> first
        | with_reducible (first
            | exact .inl rfl | exact (fun x => x) | exact .inl (fun _ x => x) | apply Nat.le_refl
            | exact fun _ => Nat.le_refl _)
        | exact .inr rfl | skip)
    | with_reducible (first
        | intro _ | apply within_ite | apply within_ite2 | apply Within.go policyAnswered_within
        | apply Within.via (checked_within ?_ ?_) | apply Within.go lateAnswer_within)
    | split

theorem policyAnswer_within {c : Cmd} {y0 : State} :
    Within 1222026395648 y0 (policyAnswer c y0) := by
  unfold policyAnswer
  repeat' first
    | apply Eq.refl | with_reducible (first | apply Within.refl | assumption)
    | with_reducible (first
        | intro _ | apply Within.via (runCmd_within ?_ ?_) | apply Within.via (acts_within ?_ ?_)
        | apply Within.go answerPolicy_within)
    | split

theorem answerCertificate_within {c : Cmd} {p : List Byte} {s : State} :
    Within 120332484608 s (answerCertificate c p s).2 := by
  unfold answerCertificate
  repeat' first
    | apply Eq.refl | with_reducible (first | apply Within.refl | assumption) | unfold x
    | ((try lift_lets); intro x; first
        | (refine (fun hx => ?_ : Within 120332484608 s x → _) ?_; clear_value x) | skip)
    | with_reducible (first
        | intro _ | apply within_ite | apply within_ite2 | apply Within.go State.onSession_within
        | apply Within.go answer_within | apply Within.via (checked_within ?_ ?_) | apply Within.go lateAnswer_within)
    | split <;> try with_reducible cases congrArg Prod.snd ‹_ = (_, _)›

theorem certificateAnswer_within {c : Cmd} {y0 : State} :
    Within 1221991596032 y0 (certificateAnswer c y0) := by
  unfold certificateAnswer
  repeat' first
    | apply Eq.refl | with_reducible (first | apply Within.refl | assumption)
    | with_reducible (first
        | intro _ | apply Within.via (runCmd_within ?_ ?_) | apply Within.via (acts_within ?_ ?_)
        | apply Within.go answerCertificate_within)
    | split

theorem endSession_within {c : Cmd} {y0 : State} :
    Within 1221988646912 y0 (endSession c y0) := by
  unfold endSession
  repeat' first
    | apply Eq.refl | with_reducible (first | apply Within.refl | assumption) | unfold x
    | ((try lift_lets); intro x; first
        | (refine (fun hx => ?_ : Within 1221988646912 y0 x → _) ?_; clear_value x) | skip)
    | with_reducible (first
        | intro _ | apply within_ite | apply within_ite2 | apply Within.via (runCmd_within ?_ ?_)
        | apply Within.go stopSession_within | apply Within.via (checked_within ?_ ?_)
        | apply Within.via (onFescue_within ?_ ?_))
    | split

theorem tagFieldOn_within {s : State} : Within 120326193152 s (tagFieldOn s) := by
  unfold tagFieldOn
  split
  · exact .refl _ _
  · rename_i hk
    have h1 : Within 120326193152 s { s with tag := { s.tag with state := .ready, field := true, answer := none } } := by
      apply within_mk (.refl _ _)
      case hk => exact fun e => by simp [e] at hk
      all_goals first
        | with_reducible (first
            | exact .refl _ _ | exact .inl rfl | exact id | exact .inl (fun _ => id) | exact (fun _ => Nat.le_refl _)
            | exact Nat.le_refl _)
        | exact .inr rfl
    dsimp only
    repeat' first
      | apply Eq.refl | with_reducible (first | apply Within.refl | assumption) | apply h1 | unfold x
      | ((try lift_lets); intro x; first
          | (refine (fun hx => ?_ : Within 120326193152 s x → _) ?_; clear_value x) | skip)
      | fail_if_no_progress ((with_reducible apply within_mk) <;> first
          | with_reducible (first
              | exact .inl rfl | exact (fun x => x) | exact .inl (fun _ x => x) | apply Nat.le_refl
              | exact fun _ => Nat.le_refl _)
          | exact .inr rfl | skip)
      | with_reducible (first
          | intro _ | apply within_ite | apply within_ite2 | apply Within.go raise_within
          | apply Within.go answer_within)
      | split

theorem tagFieldLost_within {s : State} :
    Within 103146323968 s (tagFieldLost s) := by
  unfold tagFieldLost
  repeat' first
    | apply Eq.refl | with_reducible (first | apply Within.refl | assumption)
    | fail_if_no_progress ((with_reducible apply within_mk) <;> first
        | with_reducible (first
            | exact .inl rfl | exact (fun x => x) | exact .inl (fun _ x => x) | apply Nat.le_refl
            | exact fun _ => Nat.le_refl _)
        | exact .inr rfl | skip)
    | with_reducible (first | intro _ | apply within_ite | apply within_ite2 | apply Within.go answer_within) | split

theorem tagSay_within {a : Option (List Byte)} {sectors : List Nat} {s : State} :
    Within 103146323968 s (tagSay a sectors s) := by
  unfold tagSay
  repeat' first
    | apply Eq.refl | with_reducible (first | apply Within.refl | assumption)
    | fail_if_no_progress ((with_reducible apply within_mk) <;> first
        | with_reducible (first
            | exact .inl rfl | exact (fun x => x) | exact .inl (fun _ x => x) | apply Nat.le_refl
            | exact fun _ => Nat.le_refl _)
        | exact .inr rfl | skip)
    | with_reducible (first | intro _ | apply Within.go answer_within) | split

theorem tagRequest_within {mm : Nat} (e : 103146323968 ||| mm = mm) {r : TagReq} {f : State → State} {s : State}
    (hf : ∀ z0, Within mm z0 (f z0)) :
    Within mm s (tagRequest r f s) := by
  unfold tagRequest
  repeat' first
    | apply Eq.refl | exact lorTrans (b := 103146323968) rfl e
    | with_reducible (first | apply Within.refl | assumption)
    | with_reducible (first
        | intro _ | apply within_ite | apply within_ite2 | apply Within.go tagSay_within | apply Within.via (hf ..))
    | split

theorem tagRead_within {first : Nat} {count : Nat} {last : Nat} {s : State} :
    Within 103146389504 s (tagRead first count last s) := by
  unfold tagRead
  repeat' first
    | apply Eq.refl | with_reducible (first | apply Within.refl | assumption)
    | with_reducible (first
        | intro _ | apply within_ite | apply within_ite2 | apply Within.go count_within
        | apply Within.go tagSay_within)
    | split

theorem tagWrite_within {n : Nat} {data : BitVec 32} {s : State} : Within 103146323968 s (tagWrite n data s) := by
  unfold tagWrite
  split
  · repeat' first
      | apply Eq.refl | with_reducible (first | apply Within.refl | assumption)
      | fail_if_no_progress ((with_reducible apply within_mk) <;> first
          | with_reducible (first
              | exact .inl rfl | exact (fun x => x) | exact .inl (fun _ x => x) | apply Nat.le_refl
              | exact fun _ => Nat.le_refl _)
          | exact .inr rfl | skip)
      | with_reducible (first | intro _ | apply within_ite | apply within_ite2 | apply Within.go tagSay_within)
      | split
  · split
    · repeat' first
        | apply Eq.refl | with_reducible (first | apply Within.refl | assumption)
        | fail_if_no_progress ((with_reducible apply within_mk) <;> first
            | with_reducible (first
                | exact .inl rfl | exact (fun x => x) | exact .inl (fun _ x => x) | apply Nat.le_refl
                | exact fun _ => Nat.le_refl _)
            | exact .inr rfl | skip)
        | with_reducible (first | intro _ | apply within_ite | apply within_ite2 | apply Within.go tagSay_within)
        | split
    · apply Within.go tagSay_within (e := rfl)
      apply within_mk (.refl _ _)
      case ht => exact memWf_memWrite _ _
      all_goals first
        | with_reducible (first
            | exact .refl _ _ | exact .inl rfl | exact id | exact .inl (fun _ => id) | exact (fun _ => Nat.le_refl _)
            | exact Nat.le_refl _)
        | exact .inr rfl

theorem tagInventory_within {v : InventoryReq} {s : State} :
    Within 103146323968 s (tagInventory v s) := by
  unfold tagInventory
  repeat' first
    | apply Eq.refl | with_reducible (first | apply Within.refl | assumption) | unfold x
    | ((try lift_lets); intro x; first
        | (refine (fun hx => ?_ : Within 103146323968 s x → _) ?_; clear_value x) | skip)
    | with_reducible (first | intro _ | apply within_ite | apply within_ite2 | apply Within.go tagSay_within) | split

theorem tagStayQuiet_within {r : TagReq} {s : State} : Within 103146323968 s (tagStayQuiet r s) := by
  unfold tagStayQuiet
  split
  · rename_i hk
    have h1 : Within 103146323968 s { s with tag.state := .quiet } := by
      apply within_mk (.refl _ _)
      case hk => exact fun e => by simp [e, tagHears] at hk
      all_goals first
        | with_reducible (first
            | exact .refl _ _ | exact .inl rfl | exact id | exact .inl (fun _ => id) | exact (fun _ => Nat.le_refl _)
            | exact Nat.le_refl _)
        | exact .inr rfl
    repeat' first
      | apply Eq.refl | with_reducible (first | apply Within.refl | assumption) | apply h1
      | fail_if_no_progress ((with_reducible apply within_mk) <;> first
          | with_reducible (first
              | exact .inl rfl | exact (fun x => x) | exact .inl (fun _ x => x) | apply Nat.le_refl
              | exact fun _ => Nat.le_refl _)
          | exact .inr rfl | skip)
      | with_reducible (first | intro _ | apply within_ite | apply within_ite2 | apply Within.go tagSay_within)
      | split
  · repeat' first
      | apply Eq.refl | with_reducible (first | apply Within.refl | assumption)
      | fail_if_no_progress ((with_reducible apply within_mk) <;> first
          | with_reducible (first
              | exact .inl rfl | exact (fun x => x) | exact .inl (fun _ x => x) | apply Nat.le_refl
              | exact fun _ => Nat.le_refl _)
          | exact .inr rfl | skip)
      | with_reducible (first | intro _ | apply within_ite | apply within_ite2 | apply Within.go tagSay_within)
      | split

theorem tagSelect_within {r : TagReq} {s : State} : Within 103146323968 s (tagSelect r s) := by
  unfold tagSelect
  split
  · repeat' first
      | apply Eq.refl | with_reducible (first | apply Within.refl | assumption)
      | fail_if_no_progress ((with_reducible apply within_mk) <;> first
          | with_reducible (first
              | exact .inl rfl | exact (fun x => x) | exact .inl (fun _ x => x) | apply Nat.le_refl
              | exact fun _ => Nat.le_refl _)
          | exact .inr rfl | skip)
      | with_reducible (first | intro _ | apply within_ite | apply within_ite2 | apply Within.go tagSay_within)
      | split
  · rename_i hk
    have h1 : ∀ x, Within 103146323968 s { s with tag.state := x } := by
      intro x
      apply within_mk (.refl _ _)
      case hk => exact fun e => by simp [e] at hk
      all_goals first
        | with_reducible (first
            | exact .refl _ _ | exact .inl rfl | exact id | exact .inl (fun _ => id) | exact (fun _ => Nat.le_refl _)
            | exact Nat.le_refl _)
        | exact .inr rfl
    repeat' first
      | apply Eq.refl | with_reducible (first | apply Within.refl | assumption) | apply h1
      | fail_if_no_progress ((with_reducible apply within_mk) <;> first
          | with_reducible (first
              | exact .inl rfl | exact (fun x => x) | exact .inl (fun _ x => x) | apply Nat.le_refl
              | exact fun _ => Nat.le_refl _)
          | exact .inr rfl | skip)
      | with_reducible (first | intro _ | apply within_ite | apply within_ite2 | apply Within.go tagSay_within)
      | split

theorem blockSecurity_within {first : Nat} {count : Nat} {last : Nat} {s : State} :
    Within 103146389504 s (blockSecurity first count last s) := by
  unfold blockSecurity
  repeat' first
    | apply Eq.refl | with_reducible (first | apply Within.refl | assumption)
    | with_reducible (first
        | intro _ | apply within_ite | apply within_ite2 | apply Within.go count_within
        | apply Within.go tagSay_within)
    | split

theorem notSupported_within {r : TagReq} {s : State} :
    Within 103146323968 s (notSupported r s) := by
  unfold notSupported
  repeat' first
    | apply Eq.refl | with_reducible (first | apply Within.refl | assumption)
    | with_reducible (first | intro _ | apply within_ite | apply within_ite2 | apply Within.go tagSay_within) | split

theorem tagCustom_within {mm : Nat} (e : 103146323968 ||| mm = mm) {r : TagReq} {f : State → State} {y0 : State}
    (hf : ∀ z0, Within mm z0 (f z0)) :
    Within mm y0 (tagCustom r f y0) := by
  unfold tagCustom
  repeat' first
    | apply Eq.refl | exact lorTrans (b := 103146323968) rfl e
    | with_reducible (first | apply Within.refl | assumption)
    | with_reducible (first
        | intro _ | apply within_ite | apply within_ite2 | apply Within.via (tagRequest_within ?_ ?_)
        | apply Within.go notSupported_within | apply Within.via (hf ..))
    | split

theorem tagKill_within {password : BitVec 32} {s : State} :
    Within 103146323968 s (tagKill password s) := by
  unfold tagKill
  repeat' first
    | apply Eq.refl | with_reducible (first | apply Within.refl | assumption)
    | fail_if_no_progress ((with_reducible apply within_mk) <;> first
        | with_reducible (first
            | exact .inl rfl | exact (fun x => x) | exact .inl (fun _ x => x) | apply Nat.le_refl
            | exact fun _ => Nat.le_refl _)
        | exact .inr rfl | skip)
    | with_reducible (first | intro _ | apply within_ite | apply within_ite2 | apply Within.go tagSay_within) | split

theorem answerReads_within {n : SectorNo} {r : State → Reply} {s : State} :
    Within 103146323968 s (answerReads n r s) := by
  unfold answerReads
  repeat' first
    | apply Eq.refl | with_reducible (first | apply Within.refl | assumption) | unfold x
    | ((try lift_lets); intro x; first
        | (refine (fun hx => ?_ : Within 103146323968 s x → _) ?_; clear_value x) | skip)
    | fail_if_no_progress ((with_reducible apply within_mk) <;> first
        | with_reducible (first
            | exact .inl rfl | exact (fun x => x) | exact .inl (fun _ x => x) | apply Nat.le_refl
            | exact fun _ => Nat.le_refl _)
        | exact .inr rfl | skip)
    | with_reducible (first
        | intro _ | apply Within.go answer_within | apply Within.go reads_within | apply within_foldl)
    | split

theorem commitStaged_within {x : SectorNo × List Byte × Option Cmd} {s : State} : Within 103146323968 s
    (commitStaged x s) := by
  have h1 : ∀ a n, Within 103146323968 s { s with tag.mem := memWrite s.tag.mem a n } := by
    intro a n
    apply within_mk (.refl _ _)
    case ht => exact memWf_memWrite _ _
    all_goals first
      | with_reducible (first
          | exact .refl _ _ | exact .inl rfl | exact id | exact .inl (fun _ => id) | exact (fun _ => Nat.le_refl _)
          | exact Nat.le_refl _)
      | exact .inr rfl
  unfold commitStaged
  dsimp only
  repeat' first
    | apply Eq.refl | with_reducible (first | apply Within.refl | assumption) | apply h1 | unfold x
    | ((try lift_lets); intro x; first
        | (refine (fun hx => ?_ : Within 103146323968 s x → _) ?_; clear_value x) | skip)
    | fail_if_no_progress ((with_reducible apply within_mk) <;> first
        | with_reducible (first
            | exact .inl rfl | exact (fun x => x) | exact .inl (fun _ x => x) | apply Nat.le_refl
            | exact fun _ => Nat.le_refl _)
        | exact .inr rfl | skip)
    | with_reducible (first | intro _ | apply Within.go answer_within) | split

theorem sectorCommit_within {n : SectorNo} {s : State} :
    Within 103146323968 s (sectorCommit n s) := by
  unfold sectorCommit
  repeat' first
    | apply Eq.refl | with_reducible (first | apply Within.refl | assumption) | unfold x
    | ((try lift_lets); intro x; first
        | (refine (fun hx => ?_ : Within 103146323968 s x → _) ?_; clear_value x) | skip)
    | fail_if_no_progress ((with_reducible apply within_mk) <;> first
        | with_reducible (first
            | exact .inl rfl | exact (fun x => x) | exact .inl (fun _ x => x) | apply Nat.le_refl
            | exact fun _ => Nat.le_refl _)
        | exact .inr rfl | skip)
    | with_reducible (first
        | intro _ | apply within_ite | apply within_ite2 | apply Within.go mirrorFaults_within
        | apply Within.go answerReads_within | apply Within.go commitStaged_within | apply within_foldl)
    | split

theorem busyRetry_within {n : SectorNo} {last : Bool} {s : State} :
    Within 103146323968 s (busyRetry n last s) := by
  unfold busyRetry
  repeat' first
    | apply Eq.refl | with_reducible (first | apply Within.refl | assumption) | unfold x
    | ((try lift_lets); intro x; first
        | (refine (fun hx => ?_ : Within 103146323968 s x → _) ?_; clear_value x) | skip)
    | fail_if_no_progress ((with_reducible apply within_mk) <;> first
        | with_reducible (first
            | exact .inl rfl | exact (fun x => x) | exact .inl (fun _ x => x) | apply Nat.le_refl
            | exact fun _ => Nat.le_refl _)
        | exact .inr rfl | skip)
    | with_reducible (first
        | intro _ | apply within_ite | apply within_ite2 | apply Within.go answer_within
        | apply Within.go answerReads_within | apply within_foldl)
    | split

theorem contactlessStatus_within {c : Cmd} {y0 : State} :
    Within 1222018859008 y0 (contactlessStatus c y0) := by
  unfold contactlessStatus
  repeat' first
    | apply Eq.refl | with_reducible (first | apply Within.refl | assumption)
    | with_reducible (first
        | intro _ | apply Within.go State.onAerial_within | apply Within.via (runCmd_within ?_ ?_)
        | apply Within.via (onFescue_within ?_ ?_))
    | split

theorem setAuth_within {o : OutletNo} {w : Word} {s : State} :
    Within 33554432 s (setAuth o w s).2 := by
  unfold setAuth
  repeat' first
    | apply Eq.refl | with_reducible (first | apply Within.refl | assumption) | unfold x
    | ((try lift_lets); intro x; first | (refine (fun hx => ?_ : Within 33554432 s x → _) ?_; clear_value x) | skip)
    | fail_if_no_progress ((with_reducible apply within_mk) <;> first
        | with_reducible (first
            | exact .inl rfl | exact (fun x => x) | exact .inl (fun _ x => x) | apply Nat.le_refl
            | exact fun _ => Nat.le_refl _)
        | exact .inr rfl | skip)
    | with_reducible (first | intro _ | apply within_ite | apply within_ite2) | split

theorem configureReader_within {c : Cmd} {p : List Byte} {s : State} :
    Within 33554432 s (configureReader c p s).2 := by
  unfold configureReader
  repeat' first
    | apply Eq.refl | with_reducible (first | apply Within.refl | assumption) | unfold x
    | ((try lift_lets); intro x; first | (refine (fun hx => ?_ : Within 33554432 s x → _) ?_; clear_value x) | skip)
    | fail_if_no_progress ((with_reducible apply within_mk) <;> first
        | with_reducible (first
            | exact .inl rfl | exact (fun x => x) | exact .inl (fun _ x => x) | apply Nat.le_refl
            | exact fun _ => Nat.le_refl _)
        | exact .inr rfl | skip)
    | with_reducible (first
        | intro _ | apply Within.go State.onAerial_within | apply Within.via (checked_within ?_ ?_)
        | apply Within.go setAuth_within)
    | split <;> try with_reducible cases congrArg Prod.snd ‹_ = (_, _)›

theorem contactlessConfiguration_within {c : Cmd} {y0 : State} :
    Within 1222018859008 y0 (contactlessConfiguration c y0) := by
  unfold contactlessConfiguration
  repeat' first
    | apply Eq.refl | with_reducible (first | apply Within.refl | assumption)
    | with_reducible (first
        | intro _ | apply within_ite | apply within_ite2 | apply Within.via (runCmd_within ?_ ?_)
        | apply Within.via (acts_within ?_ ?_) | apply Within.via (onFescue_within ?_ ?_)
        | apply Within.go configureReader_within)
    | split

theorem replaceAllowlist_within {l : List Byte} {s : State} :
    Within 33554432 s (replaceAllowlist l s).2 := by
  unfold replaceAllowlist
  repeat' first
    | apply Eq.refl | with_reducible (first | apply Within.refl | assumption) | unfold x
    | ((try lift_lets); intro x; first | (refine (fun hx => ?_ : Within 33554432 s x → _) ?_; clear_value x) | skip)
    | fail_if_no_progress ((with_reducible apply within_mk) <;> first
        | with_reducible (first
            | exact .inl rfl | exact (fun x => x) | exact .inl (fun _ x => x) | apply Nat.le_refl
            | exact fun _ => Nat.le_refl _)
        | exact .inr rfl | skip)
    | with_reducible (first | intro _ | apply within_ite | apply within_ite2)
    | split <;> try with_reducible cases congrArg Prod.snd ‹_ = (_, _)›

theorem loadAllowlist_within {c : Cmd} {y0 : State} :
    Within 1222018859008 y0 (loadAllowlist c y0) := by
  unfold loadAllowlist
  repeat' first
    | apply Eq.refl | with_reducible (first | apply Within.refl | assumption)
    | with_reducible (first
        | intro _ | apply within_ite | apply within_ite2 | apply Within.via (runCmd_within ?_ ?_)
        | apply Within.via (acts_within ?_ ?_) | apply Within.go replaceAllowlist_within)
    | split

theorem allowlistLookup_within {c : Cmd} {y0 : State} :
    Within 1221985304576 y0 (allowlistLookup c y0) := by
  unfold allowlistLookup
  repeat' first
    | apply Eq.refl | with_reducible (first | apply Within.refl | assumption)
    | with_reducible (first | intro _ | apply Within.via (runCmd_within ?_ ?_) | apply Within.go reads_within) | split

theorem exchange_within {room : Nat} {answer : Option (List Byte)} {s : State} :
    Within 103079215104 s (exchange room answer s).2 := by
  unfold exchange
  repeat' first
    | apply Eq.refl | with_reducible (first | apply Within.refl | assumption)
    | with_reducible (first | intro _ | apply Within.go answer_within)
    | split <;> try with_reducible cases congrArg Prod.snd ‹_ = (_, _)›

theorem cardExchange_within {c : Cmd} {answer : Option (List Byte)} {y0 : State} :
    Within 1221985304576 y0 (cardExchange c answer y0) := by
  unfold cardExchange
  repeat' first
    | apply Eq.refl | with_reducible (first | apply Within.refl | assumption)
    | with_reducible (first
        | intro _ | apply within_ite | apply within_ite2 | apply Within.go answer_within
        | apply Within.via (runCmd_within ?_ ?_) | apply Within.via (onFescue_within ?_ ?_)
        | apply Within.go exchange_within)
    | split

theorem writeSector_within {n : SectorNo} {bytes : List Byte} {c : Cmd} {s : State} :
    Within 67108864 s (writeSector n bytes c s).2 := by
  unfold writeSector
  split
  · exact .refl _ _
  · split
    · apply within_mk (.refl _ _)
      all_goals first
        | with_reducible (first
            | exact .refl _ _ | exact .inl rfl | exact id | exact .inl (fun _ => id) | exact (fun _ => Nat.le_refl _)
            | exact Nat.le_refl _)
        | exact .inr rfl
    · apply within_mk (.refl _ _)
      case ht => exact memWf_memWrite _ _
      all_goals first
        | with_reducible (first
            | exact .refl _ _ | exact .inl rfl | exact id | exact .inl (fun _ => id) | exact (fun _ => Nat.le_refl _)
            | exact Nat.le_refl _)
        | exact .inr rfl

theorem readSector_within {n : SectorNo} {c : Cmd} {s : State} :
    Within 67108864 s (readSector n c s).2 := by
  unfold readSector
  repeat' first
    | apply Eq.refl | with_reducible (first | apply Within.refl | assumption)
    | fail_if_no_progress ((with_reducible apply within_mk) <;> first
        | with_reducible (first
            | exact .inl rfl | exact (fun x => x) | exact .inl (fun _ x => x) | apply Nat.le_refl
            | exact fun _ => Nat.le_refl _)
        | exact .inr rfl | skip)
    | with_reducible (first | intro _ | apply within_ite | apply within_ite2 | apply Within.go reads_within) | split

theorem tagAccess_within {c : Cmd} {y0 : List Byte} {y1 : State} :
    Within 67108864 y1 (tagAccess c y0 y1).2 := by
  unfold tagAccess
  repeat' first
    | apply Eq.refl | with_reducible (first | apply Within.refl | assumption) | unfold x
    | ((try lift_lets); intro x; first | (refine (fun hx => ?_ : Within 67108864 y1 x → _) ?_; clear_value x) | skip)
    | with_reducible (first
        | intro _ | apply within_ite | apply within_ite2 | apply Within.go writeSector_within
        | apply Within.go readSector_within)
    | split

theorem tagMemory_within {c : Cmd} {y0 : State} :
    Within 1221985304576 y0 (tagMemory c y0) := by
  unfold tagMemory
  repeat' first
    | apply Eq.refl | with_reducible (first | apply Within.refl | assumption)
    | with_reducible (first | intro _ | apply Within.via (runCmd_within ?_ ?_) | apply Within.go tagAccess_within)
    | split

theorem tagKillPassword_within {c : Cmd} {y0 : State} :
    Within 1221985304576 y0 (tagKillPassword c y0) := by
  unfold tagKillPassword
  repeat' first
    | apply Eq.refl | with_reducible (first | apply Within.refl | assumption)
    | fail_if_no_progress ((with_reducible apply within_mk) <;> first
        | with_reducible (first
            | exact .inl rfl | exact (fun x => x) | exact .inl (fun _ x => x) | apply Nat.le_refl
            | exact fun _ => Nat.le_refl _)
        | exact .inr rfl | skip)
    | with_reducible (first
        | intro _ | apply Within.via (runCmd_within ?_ ?_) | apply Within.via (onFescue_within ?_ ?_))
    | split

theorem releaseOutcome_within {o : OutletNo} {result : Nat} {s : State} :
    Within 17247043584 s (releaseOutcome o result s) := by
  unfold releaseOutcome
  repeat' first
    | apply Eq.refl | exact (fun _ => rfl) | with_reducible (first | apply Within.refl | assumption)
    | with_reducible (first | intro _ | apply Within.go (State.onGuard_within ?_) | apply Within.go raise_within)
    | split

theorem releaseOutlet_within {o : OutletNo} {s : State} : Within 5514806231040 s (releaseOutlet o s) := by
  have h1 : ∀ f : Guard → Guard, (∀ g, (f g).fault.classP = false) → Within 5514806231040 s (s.onGuard o f) := by
    intro f hf
    unfold State.onGuard
    apply within_mk (.refl _ _)
    case hl =>
      intro h i hi
      refine h i ?_
      dsimp only at hi
      rw [Tab.at_upd] at hi
      split at hi
      · rw [hf] at hi; cases hi
      · exact hi
    case ha => exact .inr rfl
    all_goals first
      | with_reducible (first
          | exact .refl _ _ | exact .inl rfl | exact id | exact .inl (fun _ => id) | exact (fun _ => Nat.le_refl _)
          | exact Nat.le_refl _)
      | exact .inr rfl
  unfold releaseOutlet
  dsimp only
  repeat' first
    | apply Eq.refl | exact (fun _ => rfl) | with_reducible (first | apply Within.refl | assumption)
    | (with_reducible apply h1) | exact (fun _ => rfl) | unfold x
    | ((try lift_lets); intro x; first
        | (refine (fun hx => ?_ : Within 5514806231040 s x → _) ?_; clear_value x) | skip)
    | with_reducible (first
        | intro _ | apply Within.go (State.onGuard_within ?_) | apply Within.go settle_within
        | apply Within.go refreshDrive_within | apply Within.go count_within | apply Within.go releaseOutcome_within)
    | split

theorem reportCheck_within {o : OutletNo} {passed : Bool} {s : State} :
    Within 1118909693952 s (reportCheck o passed s) := by
  unfold reportCheck
  repeat' first
    | apply Eq.refl | with_reducible (first | apply Within.refl | assumption)
    | fail_if_no_progress ((with_reducible apply within_mk) <;> first
        | with_reducible (first
            | exact .inl rfl | exact (fun x => x) | exact .inl (fun _ x => x) | apply Nat.le_refl
            | exact fun _ => Nat.le_refl _)
        | exact .inr rfl | skip)
    | with_reducible (first | intro _ | apply within_ite | apply within_ite2 | apply Within.go releaseCheck_within)
    | split

theorem press_within {o : OutletNo} {s : State} :
    Within 5516956205056 s (press o s) := by
  unfold press
  repeat' first
    | apply Eq.refl | exact (fun _ => rfl) | with_reducible (first | apply Within.refl | assumption) | unfold x
    | ((try lift_lets); intro x; first
        | (refine (fun hx => ?_ : Within 5516956205056 s x → _) ?_; clear_value x) | skip)
    | with_reducible (first
        | intro _ | apply within_ite | apply within_ite2 | apply Within.go (State.onGuard_within ?_)
        | apply Within.go releaseOutcome_within | apply Within.go releaseOutlet_within
        | apply Within.go reportCheck_within)
    | split

theorem resetReleased_within {i : ResetInput} {highMs : Nat} {lowMs : Nat} {s : State} :
    Within 5516956729344 s (resetReleased i highMs lowMs s) := by
  unfold resetReleased
  repeat' first
    | apply Eq.refl | with_reducible (first | apply Within.refl | assumption)
    | fail_if_no_progress ((with_reducible apply within_mk) <;> first
        | with_reducible (first
            | exact .inl rfl | exact (fun x => x) | exact .inl (fun _ x => x) | apply Nat.le_refl
            | exact fun _ => Nat.le_refl _)
        | exact .inr rfl | skip)
    | with_reducible (first
        | intro _ | apply within_ite | apply within_ite2 | apply Within.via (forEach_within ?_)
        | apply Within.go press_within)
    | split

theorem resetHeld_within {i : ResetInput} {s : State} :
    Within 17247502336 s (resetHeld i s) := by
  unfold resetHeld
  repeat' first
    | apply Eq.refl | with_reducible (first | apply Within.refl | assumption)
    | fail_if_no_progress ((with_reducible apply within_mk) <;> first
        | with_reducible (first
            | exact .inl rfl | exact (fun x => x) | exact .inl (fun _ x => x) | apply Nat.le_refl
            | exact fun _ => Nat.le_refl _)
        | exact .inr rfl | skip)
    | with_reducible (first | intro _ | apply within_ite | apply within_ite2 | apply Within.go raise_within) | split

theorem releaseWindow_within {o : OutletNo} {s : State} :
    Within 65536 s (releaseWindow o s) := by
  unfold releaseWindow
  repeat' first
    | apply Eq.refl | exact (fun _ => rfl) | with_reducible (first | apply Within.refl | assumption)
    | with_reducible (first
        | intro _ | apply within_ite | apply within_ite2 | apply Within.go (State.onGuard_within ?_))
    | split

theorem peerResult_within {o : OutletNo} {passed : Bool} {s : State} :
    Within 5514806231040 s (peerResult o passed s) := by
  unfold peerResult
  repeat' first
    | apply Eq.refl | exact (fun _ => rfl) | with_reducible (first | apply Within.refl | assumption)
    | with_reducible (first
        | intro _ | apply within_ite | apply within_ite2 | apply Within.go (State.onGuard_within ?_)
        | apply Within.go releaseOutcome_within | apply Within.go releaseOutlet_within)
    | split

theorem peerTimeout_within {o : OutletNo} {s : State} :
    Within 17247043584 s (peerTimeout o s) := by
  unfold peerTimeout
  repeat' first
    | apply Eq.refl | with_reducible (first | apply Within.refl | assumption)
    | with_reducible (first | intro _ | apply within_ite | apply within_ite2 | apply Within.go releaseOutcome_within)
    | split

end Sys2Proof.Machine
end

