-- ==== Sys2Proof/Laws/WithinCommands.lean ====
section
/-! SUPPORT. What the operations of the mailbox commands, Spelt and the memories may do at most, one lemma each. -/

set_option linter.unusedTactic false
set_option linter.unreachableTactic false
set_option linter.unusedVariables false

namespace Sys2Proof.Machine

theorem onRusset_within {mm : Nat} (e : 0 ||| mm = mm) {f : List Byte → State → Reply × State} {y0 : List Byte}
    {y1 : State}
    (hf : ∀ z0 z1, Within mm z1 (f z0 z1).2) :
    Within mm y1 (onRusset f y0 y1).2 := by
  unfold onRusset
  repeat' first
    | apply Eq.refl | exact lorTrans (b := 0) rfl e | with_reducible (first | apply Within.refl | assumption)
    | with_reducible (first
        | intro _ | apply within_ite | apply within_ite2 | apply Within.via (acts_within ?_ ?_)
        | apply Within.via (hf ..))
    | split

theorem safetyStatus_within {c : Cmd} {y0 : State} :
    Within 1221985304576 y0 (safetyStatus c y0) := by
  unfold safetyStatus
  repeat' first
    | apply Eq.refl | with_reducible (first | apply Within.refl | assumption)
    | with_reducible (first
        | intro _ | apply Within.via (runCmd_within ?_ ?_) | apply Within.via (onRusset_within ?_ ?_))
    | split

theorem unlessHeld_within {mm : Nat} (e : 0 ||| mm = mm) {f : State → State} {s : State}
    (hf : ∀ z0, Within mm z0 (f z0)) :
    Within mm s (unlessHeld f s) := by
  unfold unlessHeld
  repeat' first
    | apply Eq.refl | exact lorTrans (b := 0) rfl e | with_reducible (first | apply Within.refl | assumption)
    | with_reducible (first | intro _ | apply within_ite | apply within_ite2 | apply Within.via (hf ..)) | split

theorem enableOutlet_within {o : OutletNo} {s : State} :
    Within 17248092160 s (enableOutlet o s) := by
  unfold enableOutlet
  repeat' first
    | apply Eq.refl | exact (fun _ => rfl) | with_reducible (first | apply Within.refl | assumption)
    | with_reducible (first
        | intro _ | apply Within.go (State.onGuard_within ?_) | apply Within.go refreshDrive_within
        | apply Within.go tryEndClassE_within)
    | split

theorem setEnable_within {c : Cmd} {y0 : State} :
    Within 1221986418688 y0 (setEnable c y0) := by
  unfold setEnable
  repeat' first
    | apply Eq.refl | with_reducible (first | apply Within.refl | assumption)
    | with_reducible (first
        | intro _ | apply Within.via (runCmd_within ?_ ?_) | apply Within.via (onRusset_within ?_ ?_)
        | apply Within.go enableOutlet_within)
    | split <;> try with_reducible cases congrArg Prod.snd ‹_ = (_, _)›

theorem disableOutlet_within {o : OutletNo} {s : State} :
    Within 1245184 s (disableOutlet o s) := by
  unfold disableOutlet
  repeat' first
    | apply Eq.refl | exact (fun _ => rfl) | with_reducible (first | apply Within.refl | assumption)
    | with_reducible (first
        | intro _ | apply Within.go (State.onGuard_within ?_) | apply Within.go refreshDrive_within
        | apply Within.go openPair_within | apply Within.via (unlessHeld_within ?_ ?_))
    | split

theorem clearEnable_within {c : Cmd} {y0 : State} :
    Within 1221986549760 y0 (clearEnable c y0) := by
  unfold clearEnable
  repeat' first
    | apply Eq.refl | with_reducible (first | apply Within.refl | assumption)
    | with_reducible (first
        | intro _ | apply Within.via (runCmd_within ?_ ?_) | apply Within.via (onRusset_within ?_ ?_)
        | apply Within.go disableOutlet_within)
    | split <;> try with_reducible cases congrArg Prod.snd ‹_ = (_, _)›

theorem openRequest_within {c : Cmd} {y0 : State} :
    Within 1221985501184 y0 (openRequest c y0) := by
  unfold openRequest
  repeat' first
    | apply Eq.refl | with_reducible (first | apply Within.refl | assumption)
    | with_reducible (first
        | intro _ | apply Within.via (runCmd_within ?_ ?_) | apply Within.go openPair_within
        | apply Within.via (onRusset_within ?_ ?_) | apply Within.via (unlessHeld_within ?_ ?_))
    | split

theorem armRelease_within {o : OutletNo} {s : State} :
    Within 65536 s (armRelease o s) := by
  unfold armRelease
  repeat' first
    | apply Eq.refl | exact (fun _ => rfl) | with_reducible (first | apply Within.refl | assumption)
    | with_reducible (first | intro _ | apply Within.go (State.onGuard_within ?_)) | split

theorem lockoutRelease_within {c : Cmd} {y0 : State} :
    Within 1221985370112 y0 (lockoutRelease c y0) := by
  unfold lockoutRelease
  repeat' first
    | apply Eq.refl | with_reducible (first | apply Within.refl | assumption) | unfold x
    | ((try lift_lets); intro x; first
        | (refine (fun hx => ?_ : Within 1221985370112 y0 x → _) ?_; clear_value x) | skip)
    | with_reducible (first
        | intro _ | apply within_ite | apply within_ite2 | apply Within.via (forEach_within ?_)
        | apply Within.via (runCmd_within ?_ ?_) | apply Within.via (onRusset_within ?_ ?_)
        | apply Within.go armRelease_within)
    | split

theorem brakeAction_within {c : Cmd} {p : List Byte} {s : State} :
    Within 17247371264 s (brakeAction c p s).2 := by
  unfold brakeAction
  repeat' first
    | apply Eq.refl | with_reducible (first | apply Within.refl | assumption) | unfold x
    | ((try lift_lets); intro x; first
        | (refine (fun hx => ?_ : Within 17247371264 s x → _) ?_; clear_value x) | skip)
    | with_reducible (first
        | intro _ | apply Within.go engageBrake_within | apply Within.go releaseBrake_within
        | apply Within.go startHolding_within | apply Within.via (checked_within ?_ ?_)
        | apply Within.via (unlessHeld_within ?_ ?_))
    | split <;> try with_reducible cases congrArg Prod.snd ‹_ = (_, _)›

theorem brakeCommand_within {c : Cmd} {y0 : State} :
    Within 1221985697792 y0 (brakeCommand c y0) := by
  unfold brakeCommand
  repeat' first
    | apply Eq.refl | with_reducible (first | apply Within.refl | assumption)
    | with_reducible (first
        | intro _ | apply Within.via (runCmd_within ?_ ?_) | apply Within.via (onRusset_within ?_ ?_)
        | apply Within.go brakeAction_within)
    | split

theorem requestClassE_within {o : OutletNo} {cause : Byte} {set : Bool} {s : State} :
    Within 19395706880 s (requestClassE o cause set s) := by
  unfold requestClassE
  repeat' first
    | apply Eq.refl | exact (fun _ => rfl) | with_reducible (first | apply Within.refl | assumption) | unfold x
    | ((try lift_lets); intro x; first
        | (refine (fun hx => ?_ : Within 19395706880 s x → _) ?_; clear_value x) | skip)
    | with_reducible (first
        | intro _ | apply within_ite | apply within_ite2 | apply Within.go (State.onGuard_within ?_)
        | apply Within.go tripE_within | apply Within.go clearCause_within)
    | split

theorem classERequest_within {c : Cmd} {y0 : State} :
    Within 1221986549760 y0 (classERequest c y0) := by
  unfold classERequest
  repeat' first
    | apply Eq.refl | with_reducible (first | apply Within.refl | assumption)
    | with_reducible (first
        | intro _ | apply Within.go settle_within | apply Within.via (runCmd_within ?_ ?_)
        | apply Within.via (checked_within ?_ ?_) | apply Within.via (onRusset_within ?_ ?_)
        | apply Within.go requestClassE_within)
    | split

theorem writeLimited_within {sel : Nat} {index : Nat} {ws : List Word} {s : State} :
    Within 851968 s (writeLimited sel index ws s) := by
  unfold writeLimited
  repeat' first
    | apply Eq.refl | exact (fun _ => rfl) | with_reducible (first | apply Within.refl | assumption) | unfold x
    | ((try lift_lets); intro x; first | (refine (fun hx => ?_ : Within 851968 s x → _) ?_; clear_value x) | skip)
    | fail_if_no_progress ((with_reducible apply within_mk) <;> first
        | with_reducible (first
            | exact .inl rfl | exact (fun x => x) | exact .inl (fun _ x => x) | apply Nat.le_refl
            | exact fun _ => Nat.le_refl _)
        | exact .inr rfl | skip)
    | with_reducible (first
        | intro _ | apply Within.go (State.onGuard_within ?_) | apply Within.go State.onBrake_within)
    | split

theorem useCeStep_within {s : State} :
    Within 537395200 s (useCeStep s) := by
  unfold useCeStep
  repeat' first
    | apply Eq.refl | with_reducible (first | apply Within.refl | assumption)
    | fail_if_no_progress ((with_reducible apply within_mk) <;> first
        | with_reducible (first
            | exact .inl rfl | exact (fun x => x) | exact .inl (fun _ x => x) | apply Nat.le_refl
            | exact fun _ => Nat.le_refl _)
        | exact .inr rfl | skip)
    | with_reducible (first | intro _ | apply Within.go useStep_within) | split

theorem setLimited_within {c : Cmd} {p : List Byte} {s : State} :
    Within 537722880 s (setLimited c p s).2 := by
  unfold setLimited
  repeat' first
    | apply Eq.refl | with_reducible (first | apply Within.refl | assumption) | unfold x
    | ((try lift_lets); intro x; first | (refine (fun hx => ?_ : Within 537722880 s x → _) ?_; clear_value x) | skip)
    | with_reducible (first
        | intro _ | apply within_ite | apply within_ite2 | apply Within.via (checked_within ?_ ?_)
        | apply Within.go writeLimited_within | apply Within.go useCeStep_within)
    | split

theorem writeLimitedSetting_within {c : Cmd} {y0 : State} :
    Within 1222523027456 y0 (writeLimitedSetting c y0) := by
  unfold writeLimitedSetting
  repeat' first
    | apply Eq.refl | with_reducible (first | apply Within.refl | assumption)
    | with_reducible (first
        | intro _ | apply Within.via (runCmd_within ?_ ?_) | apply Within.via (onRusset_within ?_ ?_)
        | apply Within.go setLimited_within)
    | split

theorem readLimitedSetting_within {c : Cmd} {y0 : State} :
    Within 1221985304576 y0 (readLimitedSetting c y0) := by
  unfold readLimitedSetting
  repeat' first
    | apply Eq.refl | with_reducible (first | apply Within.refl | assumption)
    | with_reducible (first
        | intro _ | apply Within.via (runCmd_within ?_ ?_) | apply Within.via (checked_within ?_ ?_)
        | apply Within.via (onRusset_within ?_ ?_))
    | split

theorem signatureOk_within {h : List Byte} {s : State} :
    Within 17381195776 s (signatureOk h s).2 := by
  unfold signatureOk
  repeat' first
    | apply Eq.refl | with_reducible (first | apply Within.refl | assumption)
    | with_reducible (first | intro _ | apply Within.go useKey_within)
    | split <;> try with_reducible cases congrArg Prod.snd ‹_ = (_, _)›

theorem eraseSlot_within {s : State} :
    Within 2207613190144 s (eraseSlot s) := by
  unfold eraseSlot
  repeat' first
    | apply Eq.refl | with_reducible (first | apply Within.refl | assumption)
    | fail_if_no_progress ((with_reducible apply within_mk) <;> first
        | with_reducible (first
            | exact .inl rfl | exact (fun x => x) | exact .inl (fun _ x => x) | apply Nat.le_refl
            | exact (fun _ => Nat.le_refl _) | apply Nat.le_add_right)
        | exact .inr rfl | skip)
    | with_reducible (first | intro _) | split

theorem openHere_within {peer : Bool} {h : List Byte} {s : State} :
    Within 2230228877314 s (openHere peer h s) := by
  unfold openHere
  repeat' first
    | apply Eq.refl | with_reducible (first | apply Within.refl | assumption) | unfold x
    | ((try lift_lets); intro x; first
        | (refine (fun hx => ?_ : Within 2230228877314 s x → _) ?_; clear_value x) | skip)
    | fail_if_no_progress ((with_reducible apply within_mk) <;> first
        | with_reducible (first
            | exact .inl rfl | exact (fun x => x) | exact .inl (fun _ x => x) | apply Nat.le_refl
            | exact fun _ => Nat.le_refl _)
        | exact .inr rfl | skip)
    | with_reducible (first
        | intro _ | apply Within.go State.onImage_within | apply Within.go raise_within
        | apply Within.go derive_within | apply Within.go eraseSlot_within)
    | split

theorem stageHere_within {peer : Bool} {target : Nat} {h : List Byte} {s : State} :
    Within 2230363095042 s (stageHere peer target h s).2 := by
  unfold stageHere
  repeat' first
    | apply Eq.refl | with_reducible (first | apply Within.refl | assumption)
    | with_reducible (first
        | intro _ | apply within_ite | apply within_ite2 | apply Within.go signatureOk_within
        | apply Within.go openHere_within)
    | split <;> try with_reducible cases congrArg Prod.snd ‹_ = (_, _)›

theorem stageAtPeer_within {h : List Byte} {s : State} :
    Within 2203318222848 s (stageAtPeer h s).2 := by
  unfold stageAtPeer
  repeat' first
    | apply Eq.refl | with_reducible (first | apply Within.refl | assumption) | unfold x
    | ((try lift_lets); intro x; first
        | (refine (fun hx => ?_ : Within 2203318222848 s x → _) ?_; clear_value x) | skip)
    | fail_if_no_progress ((with_reducible apply within_mk) <;> first
        | with_reducible (first
            | exact .inl rfl | exact (fun x => x) | exact .inl (fun _ x => x) | apply Nat.le_refl
            | exact fun _ => Nat.le_refl _)
        | exact .inr rfl | skip)
    | with_reducible (first | intro _ | apply Within.go takeFree_within)
    | split <;> try with_reducible cases congrArg Prod.snd ‹_ = (_, _)›

theorem openStaging_within {c : Cmd} {y0 : State} :
    Within 3435101421570 y0 (openStaging c y0) := by
  unfold openStaging
  repeat' first
    | apply Eq.refl | with_reducible (first | apply Within.refl | assumption) | unfold x
    | ((try lift_lets); intro x; first
        | (refine (fun hx => ?_ : Within 3435101421570 y0 x → _) ?_; clear_value x) | skip)
    | with_reducible (first
        | intro _ | apply within_ite | apply within_ite2 | apply Within.via (runCmd_within ?_ ?_)
        | apply Within.via (acts_within ?_ ?_) | apply Within.via (checked_within ?_ ?_)
        | apply Within.go stageHere_within | apply Within.go stageAtPeer_within)
    | split

theorem takePart_within {c : Cmd} {p : List Byte} {s : State} :
    Within 2205465706496 s (takePart c p s).2 := by
  unfold takePart
  repeat' first
    | apply Eq.refl | with_reducible (first | apply Within.refl | assumption) | unfold x
    | ((try lift_lets); intro x; first
        | (refine (fun hx => ?_ : Within 2205465706496 s x → _) ?_; clear_value x) | skip)
    | fail_if_no_progress ((with_reducible apply within_mk) <;> first
        | with_reducible (first
            | exact .inl rfl | exact (fun x => x) | exact .inl (fun _ x => x) | apply Nat.le_refl
            | exact fun _ => Nat.le_refl _)
        | exact .inr rfl | skip)
    | with_reducible (first | intro _ | apply within_ite | apply within_ite2 | apply Within.go takeFree_within)
    | split <;> try with_reducible cases congrArg Prod.snd ‹_ = (_, _)›

theorem imageBody_within {c : Cmd} {y0 : State} :
    Within 3425303527424 y0 (imageBody c y0) := by
  unfold imageBody
  repeat' first
    | apply Eq.refl | with_reducible (first | apply Within.refl | assumption)
    | with_reducible (first
        | intro _ | apply Within.via (runCmd_within ?_ ?_) | apply Within.via (acts_within ?_ ?_)
        | apply Within.go takePart_within)
    | split

theorem startUse_within {t : ImageNo} {s : State} :
    Within 38663094274 s (startUse t s) := by
  unfold startUse
  repeat' first
    | apply Eq.refl | with_reducible (first | apply Within.refl | assumption) | unfold x
    | ((try lift_lets); intro x; first
        | (refine (fun hx => ?_ : Within 38663094274 s x → _) ?_; clear_value x) | skip)
    | fail_if_no_progress ((with_reducible apply within_mk) <;> first
        | with_reducible (first
            | exact .inl rfl | exact (fun x => x) | exact .inl (fun _ x => x) | apply Nat.le_refl
            | exact fun _ => Nat.le_refl _)
        | exact .inr rfl | skip)
    | with_reducible (first | intro _ | apply within_ite | apply within_ite2 | apply Within.go State.onImage_within)
    | split

theorem commitStaging_within {g : Staging} {s : State} :
    Within 56446943234 s (commitStaging g s) := by
  unfold commitStaging
  repeat' first
    | apply Eq.refl | with_reducible (first | apply Within.refl | assumption) | unfold x
    | ((try lift_lets); intro x; first
        | (refine (fun hx => ?_ : Within 56446943234 s x → _) ?_; clear_value x) | skip)
    | fail_if_no_progress ((with_reducible apply within_mk) <;> first
        | with_reducible (first
            | exact .inl rfl | exact (fun x => x) | exact .inl (fun _ x => x) | apply Nat.le_refl
            | exact fun _ => Nat.le_refl _)
        | exact .inr rfl | skip)
    | with_reducible (first
        | intro _ | apply Within.go State.onImage_within | apply Within.go raise_within
        | apply Within.go burnTo_within | apply Within.go startUse_within)
    | split

theorem takeCommit_within {c : Cmd} {p : List Byte} {s : State} :
    Within 56446943234 s (takeCommit c p s).2 := by
  unfold takeCommit
  repeat' first
    | apply Eq.refl | with_reducible (first | apply Within.refl | assumption) | unfold x
    | ((try lift_lets); intro x; first
        | (refine (fun hx => ?_ : Within 56446943234 s x → _) ?_; clear_value x) | skip)
    | fail_if_no_progress ((with_reducible apply within_mk) <;> first
        | with_reducible (first
            | exact .inl rfl | exact (fun x => x) | exact .inl (fun _ x => x) | apply Nat.le_refl
            | exact fun _ => Nat.le_refl _)
        | exact .inr rfl | skip)
    | with_reducible (first | intro _ | apply within_ite | apply within_ite2 | apply Within.go commitStaging_within)
    | split <;> try with_reducible cases congrArg Prod.snd ‹_ = (_, _)›

theorem imageCommit_within {c : Cmd} {y0 : State} :
    Within 1226825531394 y0 (imageCommit c y0) := by
  unfold imageCommit
  repeat' first
    | apply Eq.refl | with_reducible (first | apply Within.refl | assumption)
    | with_reducible (first
        | intro _ | apply Within.via (runCmd_within ?_ ?_) | apply Within.via (acts_within ?_ ?_)
        | apply Within.go takeCommit_within)
    | split

theorem takeAbort_within {c : Cmd} {p : List Byte} {s : State} :
    Within 1122127314946 s (takeAbort c p s).2 := by
  unfold takeAbort
  repeat' first
    | apply Eq.refl | with_reducible (first | apply Within.refl | assumption) | unfold x
    | ((try lift_lets); intro x; first
        | (refine (fun hx => ?_ : Within 1122127314946 s x → _) ?_; clear_value x) | skip)
    | fail_if_no_progress ((with_reducible apply within_mk) <;> first
        | with_reducible (first
            | exact .inl rfl | exact (fun x => x) | exact .inl (fun _ x => x) | apply Nat.le_refl
            | exact fun _ => Nat.le_refl _)
        | exact .inr rfl | skip)
    | with_reducible (first | intro _ | apply Within.go abortStaging_within)
    | split <;> try with_reducible cases congrArg Prod.snd ‹_ = (_, _)›

theorem stagingAbort_within {c : Cmd} {y0 : State} :
    Within 1227354013698 y0 (stagingAbort c y0) := by
  unfold stagingAbort
  repeat' first
    | apply Eq.refl | with_reducible (first | apply Within.refl | assumption)
    | with_reducible (first
        | intro _ | apply Within.via (runCmd_within ?_ ?_) | apply Within.via (acts_within ?_ ?_)
        | apply Within.go takeAbort_within)
    | split

theorem stagingTimeout_within {s : State} :
    Within 1122127314946 s (stagingTimeout s) := by
  unfold stagingTimeout
  repeat' first
    | apply Eq.refl | with_reducible (first | apply Within.refl | assumption)
    | fail_if_no_progress ((with_reducible apply within_mk) <;> first
        | with_reducible (first
            | exact .inl rfl | exact (fun x => x) | exact .inl (fun _ x => x) | apply Nat.le_refl
            | exact fun _ => Nat.le_refl _)
        | exact .inr rfl | skip)
    | with_reducible (first | intro _ | apply within_ite | apply within_ite2 | apply Within.go abortStaging_within)
    | split

theorem updateStatus_within {c : Cmd} {y0 : State} :
    Within 1221985304576 y0 (updateStatus c y0) := by
  unfold updateStatus
  repeat' first
    | apply Eq.refl | with_reducible (first | apply Within.refl | assumption)
    | with_reducible (first | intro _ | apply Within.via (runCmd_within ?_ ?_) | apply Within.go reads_within) | split

theorem confirmTrial_within {t : ImageNo} {s : State} :
    Within 21541945344 s (confirmTrial t s) := by
  unfold confirmTrial
  repeat' first
    | apply Eq.refl | with_reducible (first | apply Within.refl | assumption) | unfold x
    | ((try lift_lets); intro x; first
        | (refine (fun hx => ?_ : Within 21541945344 s x → _) ?_; clear_value x) | skip)
    | with_reducible (first
        | intro _ | apply within_ite | apply within_ite2 | apply Within.go State.onImage_within
        | apply Within.go raise_within)
    | split

theorem fescueNewImage_within {s : State} :
    Within 22084124680 s (fescueNewImage s) := by
  unfold fescueNewImage
  repeat' first
    | apply Eq.refl | with_reducible (first | apply Within.refl | assumption)
    | fail_if_no_progress ((with_reducible apply within_mk) <;> first
        | with_reducible (first
            | exact .inl rfl | exact (fun x => x) | exact .inl (fun _ x => x) | apply Nat.le_refl
            | exact fun _ => Nat.le_refl _)
        | exact .inr rfl | skip)
    | with_reducible (first
        | intro _ | apply within_ite | apply within_ite2 | apply Within.go bringIn_within
        | apply Within.go fescueBeat_within | apply Within.go ambiguous_within)
    | split

theorem sessionNewImage_within {o : OutletNo} {s : State} :
    Within 4831838208 s (sessionNewImage o s) := by
  unfold sessionNewImage
  repeat' first
    | apply Eq.refl | with_reducible (first | apply Within.refl | assumption) | unfold x
    | ((try lift_lets); intro x; first | (refine (fun hx => ?_ : Within 4831838208 s x → _) ?_; clear_value x) | skip)
    | fail_if_no_progress ((with_reducible apply within_mk) <;> first
        | with_reducible (first
            | exact .inl rfl | exact (fun x => x) | exact .inl (fun _ x => x) | apply Nat.le_refl
            | exact fun _ => Nat.le_refl _)
        | exact .inr rfl | skip)
    | with_reducible (first | intro _ | apply within_ite | apply within_ite2 | apply Within.go bringIn_within) | split

theorem milletHandover_within {s : State} :
    Within 47781511168 s (milletHandover s) := by
  unfold milletHandover
  repeat' first
    | apply Eq.refl | with_reducible (first | apply Within.refl | assumption)
    | fail_if_no_progress ((with_reducible apply within_mk) <;> first
        | with_reducible (first
            | exact .inl rfl | exact (fun x => x) | exact .inl (fun _ x => x) | apply Nat.le_refl
            | exact fun _ => Nat.le_refl _)
        | exact .inr rfl | skip)
    | with_reducible (first | intro _ | apply within_ite | apply within_ite2 | apply Within.go bringIn_within) | split

theorem speltNewImage_within {s : State} :
    Within 4840226824 s (speltNewImage s) := by
  unfold speltNewImage
  repeat' first
    | apply Eq.refl | with_reducible (first | apply Within.refl | assumption)
    | fail_if_no_progress ((with_reducible apply within_mk) <;> first
        | with_reducible (first
            | exact .inl rfl | exact (fun x => x) | exact .inl (fun _ x => x) | apply Nat.le_refl
            | exact fun _ => Nat.le_refl _)
        | exact .inr rfl | skip)
    | with_reducible (first | intro _ | apply within_ite | apply within_ite2 | apply Within.go bringWaiting_within)
    | split

theorem pairDetail_within {c : Cmd} {y0 : State} :
    Within 1221985304576 y0 (pairDetail c y0) := by
  unfold pairDetail
  repeat' first
    | apply Eq.refl | with_reducible (first | apply Within.refl | assumption)
    | with_reducible (first | intro _ | apply Within.via (runCmd_within ?_ ?_) | apply Within.go reads_within) | split

theorem setPeer_within {serial : BitVec 64} {s : State} :
    Within 2751463424 s (setPeer serial s) := by
  unfold setPeer
  repeat' first
    | apply Eq.refl | with_reducible (first | apply Within.refl | assumption) | unfold x
    | ((try lift_lets); intro x; first | (refine (fun hx => ?_ : Within 2751463424 s x → _) ?_; clear_value x) | skip)
    | fail_if_no_progress ((with_reducible apply within_mk) <;> first
        | with_reducible (first
            | exact .inl rfl | exact (fun x => x) | exact .inl (fun _ x => x) | apply Nat.le_refl
            | exact fun _ => Nat.le_refl _)
        | exact .inr rfl | skip)
    | with_reducible (first
        | intro _ | apply within_ite | apply within_ite2 | apply Within.go writeIdentity_within
        | apply Within.go useStep_within)
    | split

theorem takeBinding_within {c : Cmd} {p : List Byte} {s : State} :
    Within 2751463424 s (takeBinding c p s).2 := by
  unfold takeBinding
  repeat' first
    | apply Eq.refl | with_reducible (first | apply Within.refl | assumption) | unfold x
    | ((try lift_lets); intro x; first | (refine (fun hx => ?_ : Within 2751463424 s x → _) ?_; clear_value x) | skip)
    | with_reducible (first
        | intro _ | apply within_ite | apply within_ite2 | apply Within.via (checked_within ?_ ?_)
        | apply Within.go setPeer_within)
    | split <;> try with_reducible cases congrArg Prod.snd ‹_ = (_, _)›

theorem bindPeer_within {c : Cmd} {y0 : State} :
    Within 1222522175488 y0 (bindPeer c y0) := by
  unfold bindPeer
  repeat' first
    | apply Eq.refl | with_reducible (first | apply Within.refl | assumption)
    | with_reducible (first
        | intro _ | apply Within.via (runCmd_within ?_ ?_) | apply Within.via (acts_within ?_ ?_)
        | apply Within.go takeBinding_within)
    | split

theorem unbindPeer_within {c : Cmd} {y0 : State} :
    Within 1222522175488 y0 (unbindPeer c y0) := by
  unfold unbindPeer
  repeat' first
    | apply Eq.refl | with_reducible (first | apply Within.refl | assumption)
    | with_reducible (first
        | intro _ | apply Within.via (runCmd_within ?_ ?_) | apply Within.via (acts_within ?_ ?_)
        | apply Within.go setPeer_within)
    | split <;> try with_reducible cases congrArg Prod.snd ‹_ = (_, _)›

theorem takeHandover_within {c : Cmd} {s : State} :
    Within 19394461698 s (takeHandover c s).2 := by
  unfold takeHandover
  repeat' first
    | apply Eq.refl | with_reducible (first | apply Within.refl | assumption)
    | fail_if_no_progress ((with_reducible apply within_mk) <;> first
        | with_reducible (first
            | exact .inl rfl | exact (fun x => x) | exact .inl (fun _ x => x) | apply Nat.le_refl
            | exact fun _ => Nat.le_refl _)
        | exact .inr rfl | skip)
    | with_reducible (first | intro _ | apply within_ite | apply within_ite2 | apply Within.go raise_within) | split

theorem plannedHandover_within {c : Cmd} {y0 : State} :
    Within 1221985304578 y0 (plannedHandover c y0) := by
  unfold plannedHandover
  repeat' first
    | apply Eq.refl | with_reducible (first | apply Within.refl | assumption)
    | with_reducible (first | intro _ | apply Within.via (runCmd_within ?_ ?_) | apply Within.go takeHandover_within)
    | split

theorem clearSuspect_within {s : State} :
    Within 19394461696 s (clearSuspect s) := by
  unfold clearSuspect
  repeat' first
    | apply Eq.refl | with_reducible (first | apply Within.refl | assumption) | unfold x
    | ((try lift_lets); intro x; first
        | (refine (fun hx => ?_ : Within 19394461696 s x → _) ?_; clear_value x) | skip)
    | fail_if_no_progress ((with_reducible apply within_mk) <;> first
        | with_reducible (first
            | exact .inl rfl | exact (fun x => x) | exact .inl (fun _ x => x) | apply Nat.le_refl
            | exact fun _ => Nat.le_refl _)
        | exact .inr rfl | skip)
    | with_reducible (first | intro _ | apply within_ite | apply within_ite2 | apply Within.go raiseEnd_within)
    | split

theorem clearSuspectCmd_within {c : Cmd} {y0 : State} :
    Within 1221985304576 y0 (clearSuspectCmd c y0) := by
  unfold clearSuspectCmd
  repeat' first
    | apply Eq.refl | with_reducible (first | apply Within.refl | assumption)
    | fail_if_no_progress ((with_reducible apply within_mk) <;> first
        | with_reducible (first
            | exact .inl rfl | exact (fun x => x) | exact .inl (fun _ x => x) | apply Nat.le_refl
            | exact fun _ => Nat.le_refl _)
        | exact .inr rfl | skip)
    | with_reducible (first
        | intro _ | apply within_ite | apply within_ite2 | apply Within.via (runCmd_within ?_ ?_)
        | apply Within.via (acts_within ?_ ?_) | apply Within.go startTransfer_within
        | apply Within.go clearSuspect_within)
    | split

theorem readRegisters_within {c : Cmd} {y0 : State} :
    Within 1221985304576 y0 (readRegisters c y0) := by
  unfold readRegisters
  repeat' first
    | apply Eq.refl | with_reducible (first | apply Within.refl | assumption) | unfold x
    | ((try lift_lets); intro x; first
        | (refine (fun hx => ?_ : Within 1221985304576 y0 x → _) ?_; clear_value x) | skip)
    | with_reducible (first
        | intro _ | apply within_ite | apply within_ite2 | apply Within.via (runCmd_within ?_ ?_)
        | apply Within.via (readOchre_within ?_ ?_) | apply inRange_within)
    | split

theorem readBillingSnapshot_within {c : Cmd} {y0 : State} :
    Within 1221985304576 y0 (readBillingSnapshot c y0) := by
  unfold readBillingSnapshot
  repeat' first
    | apply Eq.refl | with_reducible (first | apply Within.refl | assumption) | unfold x
    | ((try lift_lets); intro x; first
        | (refine (fun hx => ?_ : Within 1221985304576 y0 x → _) ?_; clear_value x) | skip)
    | with_reducible (first
        | intro _ | apply within_ite | apply within_ite2 | apply Within.via (runCmd_within ?_ ?_)
        | apply Within.via (readOchre_within ?_ ?_) | apply inRange_within)
    | split

theorem readLegalLog_within {c : Cmd} {y0 : State} :
    Within 1221985306624 y0 (readLegalLog c y0) := by
  unfold readLegalLog
  repeat' first
    | apply Eq.refl | with_reducible (first | apply Within.refl | assumption) | unfold x
    | ((try lift_lets); intro x; first
        | (refine (fun hx => ?_ : Within 1221985306624 y0 x → _) ?_; clear_value x) | skip)
    | fail_if_no_progress ((with_reducible apply within_mk) <;> first
        | with_reducible (first
            | exact .inl rfl | exact (fun x => x) | exact .inl (fun _ x => x) | apply Nat.le_refl
            | exact fun _ => Nat.le_refl _)
        | exact .inr rfl | skip)
    | with_reducible (first
        | intro _ | apply Within.via (runCmd_within ?_ ?_) | apply Within.via (readOchre_within ?_ ?_)
        | apply inRange_within)
    | split

theorem readSessionRecords_within {c : Cmd} {y0 : State} :
    Within 1221985304576 y0 (readSessionRecords c y0) := by
  unfold readSessionRecords
  repeat' first
    | apply Eq.refl | with_reducible (first | apply Within.refl | assumption) | unfold x
    | ((try lift_lets); intro x; first
        | (refine (fun hx => ?_ : Within 1221985304576 y0 x → _) ?_; clear_value x) | skip)
    | with_reducible (first
        | intro _ | apply Within.via (runCmd_within ?_ ?_) | apply Within.via (readOchre_within ?_ ?_)
        | apply inRange_within)
    | split

theorem readLegalObject_within {c : Cmd} {y0 : State} :
    Within 1221985304576 y0 (readLegalObject c y0) := by
  unfold readLegalObject
  repeat' first
    | apply Eq.refl | with_reducible (first | apply Within.refl | assumption)
    | with_reducible (first
        | intro _ | apply Within.via (runCmd_within ?_ ?_) | apply Within.via (readOchre_within ?_ ?_)
        | apply inRange_within)
    | split

theorem confirmExport_within {c : Cmd} {y0 : State} :
    Within 1221985308672 y0 (confirmExport c y0) := by
  unfold confirmExport
  repeat' first
    | apply Eq.refl | with_reducible (first | apply Within.refl | assumption) | unfold x
    | ((try lift_lets); intro x; first
        | (refine (fun hx => ?_ : Within 1221985308672 y0 x → _) ?_; clear_value x) | skip)
    | fail_if_no_progress ((with_reducible apply within_mk) <;> first
        | with_reducible (first
            | exact .inl rfl | exact (fun x => x) | exact .inl (fun _ x => x) | apply Nat.le_refl
            | exact fun _ => Nat.le_refl _)
        | exact .inr rfl | skip)
    | with_reducible (first
        | intro _ | apply Within.via (runCmd_within ?_ ?_) | apply Within.via (readOchre_within ?_ ?_)
        | apply inRange_within)
    | split

theorem acknowledge_within {p : List Byte} {s : State} :
    Within 17246980096 s (acknowledge p s).2 := by
  unfold acknowledge
  repeat' first
    | apply Eq.refl | with_reducible (first | apply Within.refl | assumption) | unfold x
    | ((try lift_lets); intro x; first
        | (refine (fun hx => ?_ : Within 17246980096 s x → _) ?_; clear_value x) | skip)
    | fail_if_no_progress ((with_reducible apply within_mk) <;> first
        | with_reducible (first
            | exact .inl rfl | exact (fun x => x) | exact .inl (fun _ x => x) | apply Nat.le_refl
            | exact fun _ => Nat.le_refl _)
        | exact .inr rfl | skip)
    | with_reducible (first
        | intro _ | apply within_ite | apply within_ite2 | apply Within.go raiseEnd_within
        | apply Within.go writeSummaries_within)
    | split

theorem acknowledgeLegalLog_within {c : Cmd} {y0 : State} :
    Within 1221985323008 y0 (acknowledgeLegalLog c y0) := by
  unfold acknowledgeLegalLog
  repeat' first
    | apply Eq.refl | with_reducible (first | apply Within.refl | assumption)
    | with_reducible (first
        | intro _ | apply Within.via (runCmd_within ?_ ?_) | apply Within.via (whitelist_within ?_ ?_)
        | apply Within.go acknowledge_within)
    | split

theorem setTariffs_within {p : List Byte} {s : State} :
    Within 17246980160 s (setTariffs p s).2 := by
  unfold setTariffs
  repeat' first
    | apply Eq.refl | with_reducible (first | apply Within.refl | assumption) | unfold x
    | ((try lift_lets); intro x; first
        | (refine (fun hx => ?_ : Within 17246980160 s x → _) ?_; clear_value x) | skip)
    | fail_if_no_progress ((with_reducible apply within_mk) <;> first
        | with_reducible (first
            | exact .inl rfl | exact (fun x => x) | exact .inl (fun _ x => x) | apply Nat.le_refl
            | exact fun _ => Nat.le_refl _)
        | exact .inr rfl | skip)
    | with_reducible (first | intro _ | apply Within.go logWhitelist_within) | split

theorem tariffParameters_within {c : Cmd} {y0 : State} :
    Within 1221985323072 y0 (tariffParameters c y0) := by
  unfold tariffParameters
  repeat' first
    | apply Eq.refl | with_reducible (first | apply Within.refl | assumption)
    | with_reducible (first
        | intro _ | apply Within.via (runCmd_within ?_ ?_) | apply Within.via (whitelist_within ?_ ?_)
        | apply Within.go setTariffs_within)
    | split

theorem loadCalendar_within {cal : List Byte} {s : State} :
    Within 17246988288 s (loadCalendar cal s).2 := by
  unfold loadCalendar
  repeat' first
    | apply Eq.refl | with_reducible (first | apply Within.refl | assumption) | unfold x
    | ((try lift_lets); intro x; first
        | (refine (fun hx => ?_ : Within 17246988288 s x → _) ?_; clear_value x) | skip)
    | fail_if_no_progress ((with_reducible apply within_mk) <;> first
        | with_reducible (first
            | exact .inl rfl | exact (fun x => x) | exact .inl (fun _ x => x) | apply Nat.le_refl
            | exact fun _ => Nat.le_refl _)
        | exact .inr rfl | skip)
    | with_reducible (first | intro _ | apply Within.go logWhitelist_within) | split

theorem loadPassiveCalendar_within {c : Cmd} {y0 : State} :
    Within 1221985331200 y0 (loadPassiveCalendar c y0) := by
  unfold loadPassiveCalendar
  repeat' first
    | apply Eq.refl | with_reducible (first | apply Within.refl | assumption) | unfold x
    | ((try lift_lets); intro x; first
        | (refine (fun hx => ?_ : Within 1221985331200 y0 x → _) ?_; clear_value x) | skip)
    | with_reducible (first
        | intro _ | apply Within.via (runCmd_within ?_ ?_) | apply Within.via (whitelist_within ?_ ?_)
        | apply Within.go loadCalendar_within)
    | split

theorem takeTime_within {us : Nat} {s : State} :
    Within 17246982432 s (takeTime us s) := by
  unfold takeTime
  repeat' first
    | apply Eq.refl | with_reducible (first | apply Within.refl | assumption) | unfold x
    | ((try lift_lets); intro x; first
        | (refine (fun hx => ?_ : Within 17246982432 s x → _) ?_; clear_value x) | skip)
    | fail_if_no_progress ((with_reducible apply within_mk) <;> first
        | with_reducible (first
            | exact .inl rfl | exact (fun x => x) | exact .inl (fun _ x => x) | apply Nat.le_refl
            | exact fun _ => Nat.le_refl _)
        | exact .inr rfl | skip)
    | with_reducible (first
        | intro _ | apply within_ite | apply within_ite2 | apply Within.go raiseEnd_within
        | apply Within.go markAll_within)
    | split

theorem setTime_within {p : List Byte} {s : State} :
    Within 2216270249248 s (setTime p s).2 := by
  unfold setTime
  repeat' first
    | apply Eq.refl | with_reducible (first | apply Within.refl | assumption) | unfold x
    | ((try lift_lets); intro x; first
        | (refine (fun hx => ?_ : Within 2216270249248 s x → _) ?_; clear_value x) | skip)
    | with_reducible (first
        | intro _ | apply within_ite | apply within_ite2 | apply Within.go logWhitelist_within
        | apply Within.go markAll_within | apply Within.go applyTariff_within | apply Within.go crossTo_within
        | apply Within.go takeTime_within)
    | split

theorem setLegalTime_within {c : Cmd} {y0 : State} :
    Within 3421008592160 y0 (setLegalTime c y0) := by
  unfold setLegalTime
  repeat' first
    | apply Eq.refl | with_reducible (first | apply Within.refl | assumption)
    | with_reducible (first
        | intro _ | apply Within.via (runCmd_within ?_ ?_) | apply Within.via (whitelist_within ?_ ?_)
        | apply Within.go setTime_within)
    | split

theorem setLength_within {p : List Byte} {s : State} :
    Within 17246988288 s (setLength p s).2 := by
  unfold setLength
  repeat' first
    | apply Eq.refl | with_reducible (first | apply Within.refl | assumption) | unfold x
    | ((try lift_lets); intro x; first
        | (refine (fun hx => ?_ : Within 17246988288 s x → _) ?_; clear_value x) | skip)
    | fail_if_no_progress ((with_reducible apply within_mk) <;> first
        | with_reducible (first
            | exact .inl rfl | exact (fun x => x) | exact .inl (fun _ x => x) | apply Nat.le_refl
            | exact fun _ => Nat.le_refl _)
        | exact .inr rfl | skip)
    | with_reducible (first | intro _ | apply Within.go logWhitelist_within)
    | split <;> try with_reducible cases congrArg Prod.snd ‹_ = (_, _)›

theorem demandInterval_within {c : Cmd} {y0 : State} :
    Within 1221985331200 y0 (demandInterval c y0) := by
  unfold demandInterval
  repeat' first
    | apply Eq.refl | with_reducible (first | apply Within.refl | assumption)
    | with_reducible (first
        | intro _ | apply Within.via (runCmd_within ?_ ?_) | apply Within.via (whitelist_within ?_ ?_)
        | apply Within.go setLength_within)
    | split

theorem confirmSwitch_within {p : List Byte} {s : State} : Within 8192 s (confirmSwitch p s).2 := by
  unfold confirmSwitch
  dsimp only
  apply within_mk (.refl _ _)
  all_goals first
    | with_reducible (first
        | exact .refl _ _ | exact .inl rfl | exact id | exact .inl (fun _ => id) | exact (fun _ => Nat.le_refl _)
        | exact Nat.le_refl _)
    | exact .inr rfl

theorem confirmTariffSwitch_within {c : Cmd} {y0 : State} :
    Within 1221985329152 y0 (confirmTariffSwitch c y0) := by
  unfold confirmTariffSwitch
  repeat' first
    | apply Eq.refl | with_reducible (first | apply Within.refl | assumption)
    | with_reducible (first
        | intro _ | apply Within.via (runCmd_within ?_ ?_) | apply Within.via (whitelist_within ?_ ?_)
        | apply Within.go confirmSwitch_within)
    | split

theorem selectItem_within {p : List Byte} {s : State} :
    Within 32768 s (selectItem p s).2 := by
  unfold selectItem
  repeat' first
    | apply Eq.refl | with_reducible (first | apply Within.refl | assumption) | unfold x
    | ((try lift_lets); intro x; first | (refine (fun hx => ?_ : Within 32768 s x → _) ?_; clear_value x) | skip)
    | with_reducible (first | intro _ | apply Within.go State.onDisplay_within | apply Within.go compose_within)
    | split

theorem displaySelection_within {c : Cmd} {y0 : State} :
    Within 1221985353728 y0 (displaySelection c y0) := by
  unfold displaySelection
  repeat' first
    | apply Eq.refl | with_reducible (first | apply Within.refl | assumption)
    | with_reducible (first
        | intro _ | apply Within.via (runCmd_within ?_ ?_) | apply Within.via (whitelist_within ?_ ?_)
        | apply Within.go selectItem_within)
    | split

theorem whitelistTimeout_within {c : Cmd} {op : Nat} {s : State} :
    Within 103079215104 s (whitelistTimeout c op s) := by
  unfold whitelistTimeout
  repeat' first
    | apply Eq.refl | with_reducible (first | apply Within.refl | assumption)
    | with_reducible (first | intro _ | apply within_ite | apply within_ite2 | apply Within.go answer_within) | split

theorem refreshOutput_within {c : ChanNo} {s : State} :
    Within 8388608 s (refreshOutput c s) := by
  unfold refreshOutput
  repeat' first
    | apply Eq.refl | with_reducible (first | apply Within.refl | assumption)
    | with_reducible (first | intro _ | apply Within.go State.onChan_within) | split

theorem tickChannel_within {meas : List ChanMeas} {substrate : Int} {late : Bool} {k : ChanNo} {s : State} :
    Within 17255366656 s (tickChannel meas substrate late k s) := by
  unfold tickChannel
  repeat' first
    | apply Eq.refl | with_reducible (first | apply Within.refl | assumption) | unfold x
    | ((try lift_lets); intro x; first
        | (refine (fun hx => ?_ : Within 17255366656 s x → _) ?_; clear_value x) | skip)
    | fail_if_no_progress ((with_reducible apply within_mk) <;> first
        | with_reducible (first
            | exact .inl rfl | exact (fun x => x) | exact .inl (fun _ x => x) | apply Nat.le_refl
            | exact fun _ => Nat.le_refl _)
        | exact .inr rfl | skip)
    | with_reducible (first
        | intro _ | apply within_ite | apply within_ite2 | apply Within.go State.onChan_within
        | apply Within.go raiseEnd_within | apply Within.go refreshOutput_within)
    | split

theorem speltTick_within {meas : List ChanMeas} {substrate : Int} {late : Bool} {s : State} :
    Within 17255366656 s (speltTick meas substrate late s) := by
  unfold speltTick
  repeat' first
    | apply Eq.refl | with_reducible (first | apply Within.refl | assumption) | unfold x
    | ((try lift_lets); intro x; first
        | (refine (fun hx => ?_ : Within 17255366656 s x → _) ?_; clear_value x) | skip)
    | fail_if_no_progress ((with_reducible apply within_mk) <;> first
        | with_reducible (first
            | exact .inl rfl | exact (fun x => x) | exact .inl (fun _ x => x) | apply Nat.le_refl
            | exact fun _ => Nat.le_refl _)
        | exact .inr rfl | skip)
    | with_reducible (first
        | intro _ | apply within_ite | apply within_ite2 | apply Within.via (forEach_within ?_)
        | apply Within.go tickChannel_within)
    | split

theorem thermalEvent_within {k : ChanNo} {kind : Protection} {s : State} :
    Within 17255366656 s (thermalEvent k kind s) := by
  unfold thermalEvent
  repeat' first
    | apply Eq.refl | with_reducible (first | apply Within.refl | assumption) | unfold x
    | ((try lift_lets); intro x; first
        | (refine (fun hx => ?_ : Within 17255366656 s x → _) ?_; clear_value x) | skip)
    | with_reducible (first | intro _ | apply Within.go State.onChan_within | apply Within.go raise_within) | split

theorem thermalShutdown_within {k : ChanNo} {tj : Int} {s : State} :
    Within 17255366656 s (thermalShutdown k tj s) := by
  unfold thermalShutdown
  repeat' first
    | apply Eq.refl | with_reducible (first | apply Within.refl | assumption) | unfold x
    | ((try lift_lets); intro x; first
        | (refine (fun hx => ?_ : Within 17255366656 s x → _) ?_; clear_value x) | skip)
    | with_reducible (first
        | intro _ | apply within_ite | apply within_ite2 | apply Within.go State.onChan_within
        | apply Within.go thermalEvent_within)
    | split

theorem differenceLimit_within {k : ChanNo} {tj : Int} {substrate : Int} {s : State} :
    Within 17255366656 s (differenceLimit k tj substrate s) := by
  unfold differenceLimit
  repeat' first
    | apply Eq.refl | with_reducible (first | apply Within.refl | assumption) | unfold x
    | ((try lift_lets); intro x; first
        | (refine (fun hx => ?_ : Within 17255366656 s x → _) ?_; clear_value x) | skip)
    | with_reducible (first | intro _ | apply within_ite | apply within_ite2 | apply Within.go thermalEvent_within)
    | split

theorem channelRestart_within {k : ChanNo} {tj : Int} {substrate : Int} {s : State} :
    Within 8388608 s (channelRestart k tj substrate s) := by
  unfold channelRestart
  repeat' first
    | apply Eq.refl | with_reducible (first | apply Within.refl | assumption) | unfold x
    | ((try lift_lets); intro x; first | (refine (fun hx => ?_ : Within 8388608 s x → _) ?_; clear_value x) | skip)
    | with_reducible (first
        | intro _ | apply within_ite | apply within_ite2 | apply Within.go State.onChan_within
        | apply Within.go refreshOutput_within)
    | split

theorem pulseEdge_within {p : PulseNo} {high : Bool} {s : State} :
    Within 8388608 s (pulseEdge p high s) := by
  unfold pulseEdge
  repeat' first
    | apply Eq.refl | with_reducible (first | apply Within.refl | assumption) | unfold x
    | ((try lift_lets); intro x; first | (refine (fun hx => ?_ : Within 8388608 s x → _) ?_; clear_value x) | skip)
    | fail_if_no_progress ((with_reducible apply within_mk) <;> first
        | with_reducible (first
            | exact .inl rfl | exact (fun x => x) | exact .inl (fun _ x => x) | apply Nat.le_refl
            | exact fun _ => Nat.le_refl _)
        | exact .inr rfl | skip)
    | with_reducible (first
        | intro _ | apply within_ite | apply within_ite2 | apply Within.via (forEach_within ?_)
        | apply Within.go refreshOutput_within)
    | split

theorem broadcast_within {s : State} :
    Within 17255366656 s (broadcast s) := by
  unfold broadcast
  repeat' first
    | apply Eq.refl | with_reducible (first | apply Within.refl | assumption) | unfold x
    | ((try lift_lets); intro x; first
        | (refine (fun hx => ?_ : Within 17255366656 s x → _) ?_; clear_value x) | skip)
    | fail_if_no_progress ((with_reducible apply within_mk) <;> first
        | with_reducible (first
            | exact .inl rfl | exact (fun x => x) | exact .inl (fun _ x => x) | apply Nat.le_refl
            | exact fun _ => Nat.le_refl _)
        | exact .inr rfl | skip)
    | with_reducible (first | intro _ | apply within_ite | apply within_ite2 | apply Within.go raiseEnd_within)
    | split

theorem broadcastAbsent_within {s : State} :
    Within 17255366656 s (broadcastAbsent s) := by
  unfold broadcastAbsent
  repeat' first
    | apply Eq.refl | with_reducible (first | apply Within.refl | assumption)
    | fail_if_no_progress ((with_reducible apply within_mk) <;> first
        | with_reducible (first
            | exact .inl rfl | exact (fun x => x) | exact .inl (fun _ x => x) | apply Nat.le_refl
            | exact fun _ => Nat.le_refl _)
        | exact .inr rfl | skip)
    | with_reducible (first | intro _ | apply within_ite | apply within_ite2 | apply Within.go raise_within) | split

theorem ruleExpiry_within {k : ChanNo} {s : State} :
    Within 8388608 s (ruleExpiry k s) := by
  unfold ruleExpiry
  repeat' first
    | apply Eq.refl | with_reducible (first | apply Within.refl | assumption) | unfold x
    | ((try lift_lets); intro x; first | (refine (fun hx => ?_ : Within 8388608 s x → _) ?_; clear_value x) | skip)
    | with_reducible (first | intro _ | apply within_ite | apply within_ite2 | apply Within.go State.onChan_within)
    | split

theorem reportDiag_within {k : ChanNo} {d : ChanDiag} {s : State} :
    Within 17246978048 s (reportDiag k d s) := by
  unfold reportDiag
  repeat' first
    | apply Eq.refl | with_reducible (first | apply Within.refl | assumption) | unfold x
    | ((try lift_lets); intro x; first
        | (refine (fun hx => ?_ : Within 17246978048 s x → _) ?_; clear_value x) | skip)
    | with_reducible (first | intro _ | apply within_ite | apply within_ite2 | apply Within.go raise_within) | split

theorem onOpenLoad_within {k : ChanNo} {samples : List Nat} {s : State} :
    Within 17255366656 s (onOpenLoad k samples s) := by
  unfold onOpenLoad
  repeat' first
    | apply Eq.refl | with_reducible (first | apply Within.refl | assumption) | unfold x
    | ((try lift_lets); intro x; first
        | (refine (fun hx => ?_ : Within 17255366656 s x → _) ?_; clear_value x) | skip)
    | with_reducible (first
        | intro _ | apply within_ite | apply within_ite2 | apply Within.go State.onChan_within
        | apply Within.go reportDiag_within)
    | split

theorem offCheck_within {x : OffCheck} {s : State} :
    Within 17255366656 s (offCheck x s) := by
  unfold offCheck
  repeat' first
    | apply Eq.refl | with_reducible (first | apply Within.refl | assumption) | unfold x
    | ((try lift_lets); intro x; first
        | (refine (fun hx => ?_ : Within 17255366656 s x → _) ?_; clear_value x) | skip)
    | with_reducible (first
        | intro _ | apply within_ite | apply within_ite2 | apply Within.go State.onChan_within
        | apply Within.go reportDiag_within)
    | split

theorem offDiagnostic_within {checks : List OffCheck} {s : State} :
    Within 17255366656 s (offDiagnostic checks s) := by
  unfold offDiagnostic
  repeat' first
    | apply Eq.refl | with_reducible (first | apply Within.refl | assumption)
    | with_reducible (first
        | intro _ | apply within_ite | apply within_ite2 | apply Within.go offCheck_within | apply within_foldl)
    | split

theorem shedOne_within {s : State} :
    Within 17255366656 s (shedOne s) := by
  unfold shedOne
  repeat' first
    | apply Eq.refl | with_reducible (first | apply Within.refl | assumption) | unfold x
    | ((try lift_lets); intro x; first
        | (refine (fun hx => ?_ : Within 17255366656 s x → _) ?_; clear_value x) | skip)
    | fail_if_no_progress ((with_reducible apply within_mk) <;> first
        | with_reducible (first
            | exact .inl rfl | exact (fun x => x) | exact .inl (fun _ x => x) | apply Nat.le_refl
            | exact fun _ => Nat.le_refl _)
        | exact .inr rfl | skip)
    | with_reducible (first
        | intro _ | apply within_ite | apply within_ite2 | apply Within.go State.onChan_within
        | apply Within.go raise_within)
    | split

theorem restoreOne_within {s : State} :
    Within 17255366656 s (restoreOne s) := by
  unfold restoreOne
  repeat' first
    | apply Eq.refl | with_reducible (first | apply Within.refl | assumption) | unfold x
    | ((try lift_lets); intro x; first
        | (refine (fun hx => ?_ : Within 17255366656 s x → _) ?_; clear_value x) | skip)
    | fail_if_no_progress ((with_reducible apply within_mk) <;> first
        | with_reducible (first
            | exact .inl rfl | exact (fun x => x) | exact .inl (fun _ x => x) | apply Nat.le_refl
            | exact fun _ => Nat.le_refl _)
        | exact .inr rfl | skip)
    | with_reducible (first
        | intro _ | apply within_ite | apply within_ite2 | apply Within.go State.onChan_within
        | apply Within.go raise_within | apply Within.go refreshOutput_within)
    | split

theorem capUpdate_within {s : State} :
    Within 8388608 s (capUpdate s) := by
  unfold capUpdate
  repeat' first
    | apply Eq.refl | with_reducible (first | apply Within.refl | assumption)
    | fail_if_no_progress ((with_reducible apply within_mk) <;> first
        | with_reducible (first
            | exact .inl rfl | exact (fun x => x) | exact .inl (fun _ x => x) | apply Nat.le_refl
            | exact fun _ => Nat.le_refl _)
        | exact .inr rfl | skip)
    | with_reducible (first | intro _ | apply within_ite | apply within_ite2) | split

theorem clearEvents_within {k : ChanNo} {was : Protection} {s : State} :
    Within 17246978048 s (clearEvents k was s) := by
  unfold clearEvents
  repeat' first
    | apply Eq.refl | with_reducible (first | apply Within.refl | assumption)
    | with_reducible (first | intro _ | apply Within.go raiseEnd_within) | split

theorem onSpelt_within {mm : Nat} (e : 0 ||| mm = mm) {f : List Byte → State → Reply × State} {y0 : List Byte}
    {y1 : State}
    (hf : ∀ z0 z1, Within mm z1 (f z0 z1).2) :
    Within mm y1 (onSpelt f y0 y1).2 := by
  unfold onSpelt
  repeat' first
    | apply Eq.refl | exact lorTrans (b := 0) rfl e | with_reducible (first | apply Within.refl | assumption)
    | with_reducible (first
        | intro _ | apply within_ite | apply within_ite2 | apply Within.via (acts_within ?_ ?_)
        | apply Within.via (hf ..))
    | split

theorem loadSwitchStatus_within {c : Cmd} {y0 : State} :
    Within 1221985304576 y0 (loadSwitchStatus c y0) := by
  unfold loadSwitchStatus
  repeat' first
    | apply Eq.refl | with_reducible (first | apply Within.refl | assumption)
    | with_reducible (first
        | intro _ | apply Within.via (runCmd_within ?_ ?_) | apply Within.via (onSpelt_within ?_ ?_))
    | split

theorem channelConfiguration_within {c : Cmd} {y0 : State} :
    Within 1221993693184 y0 (channelConfiguration c y0) := by
  unfold channelConfiguration
  repeat' first
    | apply Eq.refl | with_reducible (first | apply Within.refl | assumption) | unfold x
    | ((try lift_lets); intro x; first
        | (refine (fun hx => ?_ : Within 1221993693184 y0 x → _) ?_; clear_value x) | skip)
    | with_reducible (first
        | intro _ | apply Within.go State.onChan_within | apply Within.via (runCmd_within ?_ ?_)
        | apply Within.via (checked_within ?_ ?_) | apply Within.via (onSpelt_within ?_ ?_))
    | split

theorem controlChannel_within {k : ChanNo} {w : Word} {s : State} :
    Within 17255366656 s (controlChannel k w s) := by
  unfold controlChannel
  repeat' first
    | apply Eq.refl | with_reducible (first | apply Within.refl | assumption) | unfold x
    | ((try lift_lets); intro x; first
        | (refine (fun hx => ?_ : Within 17255366656 s x → _) ?_; clear_value x) | skip)
    | with_reducible (first
        | intro _ | apply within_ite | apply within_ite2 | apply Within.go State.onChan_within
        | apply Within.go clearEvents_within)
    | split

theorem channelControl_within {c : Cmd} {y0 : State} :
    Within 1221993693184 y0 (channelControl c y0) := by
  unfold channelControl
  repeat' first
    | apply Eq.refl | with_reducible (first | apply Within.refl | assumption) | unfold x
    | ((try lift_lets); intro x; first
        | (refine (fun hx => ?_ : Within 1221993693184 y0 x → _) ?_; clear_value x) | skip)
    | with_reducible (first
        | intro _ | apply Within.via (runCmd_within ?_ ?_) | apply Within.via (checked_within ?_ ?_)
        | apply Within.via (onSpelt_within ?_ ?_) | apply Within.go controlChannel_within)
    | split

theorem channelRule_within {c : Cmd} {y0 : State} :
    Within 1221993693184 y0 (channelRule c y0) := by
  unfold channelRule
  repeat' first
    | apply Eq.refl | with_reducible (first | apply Within.refl | assumption) | unfold x
    | ((try lift_lets); intro x; first
        | (refine (fun hx => ?_ : Within 1221993693184 y0 x → _) ?_; clear_value x) | skip)
    | with_reducible (first
        | intro _ | apply Within.go State.onChan_within | apply Within.via (runCmd_within ?_ ?_)
        | apply Within.via (checked_within ?_ ?_) | apply Within.via (onSpelt_within ?_ ?_))
    | split

theorem hostFlags_within {c : Cmd} {y0 : State} :
    Within 1221993693184 y0 (hostFlags c y0) := by
  unfold hostFlags
  repeat' first
    | apply Eq.refl | with_reducible (first | apply Within.refl | assumption) | unfold x
    | ((try lift_lets); intro x; first
        | (refine (fun hx => ?_ : Within 1221993693184 y0 x → _) ?_; clear_value x) | skip)
    | fail_if_no_progress ((with_reducible apply within_mk) <;> first
        | with_reducible (first
            | exact .inl rfl | exact (fun x => x) | exact .inl (fun _ x => x) | apply Nat.le_refl
            | exact fun _ => Nat.le_refl _)
        | exact .inr rfl | skip)
    | with_reducible (first | intro _ | apply Within.via (runCmd_within ?_ ?_) | apply Within.via (acts_within ?_ ?_))
    | split <;> try with_reducible cases congrArg Prod.snd ‹_ = (_, _)›

theorem aggregateMaximum_within {c : Cmd} {y0 : State} :
    Within 1221993693184 y0 (aggregateMaximum c y0) := by
  unfold aggregateMaximum
  repeat' first
    | apply Eq.refl | with_reducible (first | apply Within.refl | assumption) | unfold x
    | ((try lift_lets); intro x; first
        | (refine (fun hx => ?_ : Within 1221993693184 y0 x → _) ?_; clear_value x) | skip)
    | fail_if_no_progress ((with_reducible apply within_mk) <;> first
        | with_reducible (first
            | exact .inl rfl | exact (fun x => x) | exact .inl (fun _ x => x) | apply Nat.le_refl
            | exact fun _ => Nat.le_refl _)
        | exact .inr rfl | skip)
    | with_reducible (first
        | intro _ | apply Within.via (runCmd_within ?_ ?_) | apply Within.via (checked_within ?_ ?_)
        | apply Within.via (onSpelt_within ?_ ?_))
    | split

theorem readChannelSetup_within {c : Cmd} {y0 : State} :
    Within 1221985304576 y0 (readChannelSetup c y0) := by
  unfold readChannelSetup
  repeat' first
    | apply Eq.refl | with_reducible (first | apply Within.refl | assumption)
    | with_reducible (first
        | intro _ | apply Within.via (runCmd_within ?_ ?_) | apply Within.via (onSpelt_within ?_ ?_))
    | split

theorem giveMaster_within {a : MemAccess} {v : Option (BitVec 64)} {s : State} :
    Within 549755813888 s (giveMaster a v s) := by
  unfold giveMaster
  repeat' first
    | apply Eq.refl | with_reducible (first | apply Within.refl | assumption)
    | fail_if_no_progress ((with_reducible apply within_mk) <;> first
        | with_reducible (first
            | exact .inl rfl | exact (fun x => x) | exact .inl (fun _ x => x) | apply Nat.le_refl
            | exact fun _ => Nat.le_refl _)
        | exact .inr rfl | skip)
    | with_reducible (first | intro _) | split

theorem countPoolAccess_within {a : MemAccess} {s : State} :
    Within 549755813888 s (countPoolAccess a s) := by
  unfold countPoolAccess
  repeat' first
    | apply Eq.refl | with_reducible (first | apply Within.refl | assumption)
    | fail_if_no_progress ((with_reducible apply within_mk) <;> first
        | with_reducible (first
            | exact .inl rfl | exact (fun x => x) | exact .inl (fun _ x => x) | apply Nat.le_refl
            | exact fun _ => Nat.le_refl _)
        | exact .inr rfl | skip)
    | with_reducible (first | intro _) | split

theorem countWait_within {cycles : Nat} {a : MemAccess} {s : State} :
    Within 549755813888 s (countWait cycles a s) := by
  unfold countWait
  repeat' first
    | apply Eq.refl | with_reducible (first | apply Within.refl | assumption)
    | fail_if_no_progress ((with_reducible apply within_mk) <;> first
        | with_reducible (first
            | exact .inl rfl | exact (fun x => x) | exact .inl (fun _ x => x) | apply Nat.le_refl
            | exact fun _ => Nat.le_refl _)
        | exact .inr rfl | skip)
    | with_reducible (first | intro _) | split

theorem poolAccess_within {a : MemAccess} {s : State} :
    Within 618475290624 s (poolAccess a s) := by
  unfold poolAccess
  repeat' first
    | apply Eq.refl | with_reducible (first | apply Within.refl | assumption) | unfold x
    | ((try lift_lets); intro x; first
        | (refine (fun hx => ?_ : Within 618475290624 s x → _) ?_; clear_value x) | skip)
    | with_reducible (first
        | intro _ | apply within_ite | apply within_ite2 | apply Within.go poolWrite_within
        | apply Within.go giveMaster_within | apply Within.go countPoolAccess_within)
    | split

theorem serveBank_within {y0 : Nat} {y1 : List MemAccess} {y2 : State} : Within 618475290624 y2
    (serveBank y0 y1 y2) := by
  have h1 : ∀ (x : State) v, Within 618475290624 x { x with mem.lastServed := v } := by
    intro x v
    apply within_mk (.refl _ _)
    all_goals first
      | with_reducible (first
          | exact .refl _ _ | exact .inl rfl | exact id | exact .inl (fun _ => id) | exact (fun _ => Nat.le_refl _)
          | exact Nat.le_refl _)
      | exact .inr rfl
  induction y0 generalizing y1 y2 with
  | zero => exact .refl _ _
  | succ n ih =>
    unfold serveBank
    split
    · exact .refl _ _
    · exact Within.via ih (within_foldl (fun t b h => countWait_within.go h rfl) _ (poolAccess_within.go (h1 _ _) rfl))

theorem atomicOperation_within {accesses : List MemAccess} {s : State} :
    Within 618475290624 s (atomicOperation accesses s) := by
  unfold atomicOperation
  repeat' first
    | apply Eq.refl | with_reducible (first | apply Within.refl | assumption)
    | fail_if_no_progress ((with_reducible apply within_mk) <;> first
        | with_reducible (first
            | exact .inl rfl | exact (fun x => x) | exact .inl (fun _ x => x) | apply Nat.le_refl
            | exact fun _ => Nat.le_refl _)
        | exact .inr rfl | skip)
    | with_reducible (first | intro _ | apply Within.go serveBank_within) | split

theorem State.onPad_within {s : State} {p : PadNo} {f : Pad → Pad}
    (hf : ∀ x, memWf x.bytes = true → memWf (f x).bytes = true) : Within 137438953472 s (State.onPad s p f) := by
  unfold State.onPad
  apply within_mk (.refl _ _)
  case hd =>
    intro h i
    show memWf ((s.mem.pads.upd p f).at i).bytes = true
    rw [Tab.at_upd]
    split
    · exact hf _ (h _)
    · exact h i
  all_goals first
    | with_reducible (first
        | exact .refl _ _ | exact .inl rfl | exact id | exact .inl (fun _ => id) | exact (fun _ => Nat.le_refl _)
        | exact Nat.le_refl _)
    | exact .inr rfl

theorem denyPad_within {p : PadNo} {s : State} :
    Within 137438953472 s (denyPad p s) := by
  unfold denyPad
  repeat' first
    | apply Eq.refl | exact (fun _ h => h) | with_reducible (first | apply Within.refl | assumption)
    | with_reducible (first | intro _ | apply Within.go (State.onPad_within ?_)) | split

theorem reclaimPad_within {p : PadNo} {m : MasterNo} {s : State} :
    Within 137438953472 s (reclaimPad p m s) := by
  unfold reclaimPad
  repeat' first
    | apply Eq.refl | exact (fun _ h => h) | with_reducible (first | apply Within.refl | assumption) | unfold x
    | ((try lift_lets); intro x; first
        | (refine (fun hx => ?_ : Within 137438953472 s x → _) ?_; clear_value x) | skip)
    | with_reducible (first
        | intro _ | apply within_ite | apply within_ite2 | apply Within.go (State.onPad_within ?_)
        | apply Within.go denyPad_within)
    | split

theorem passOwner_within {p : PadNo} {owner : Nat} {s : State} :
    Within 137438953472 s (passOwner p owner s) := by
  unfold passOwner
  repeat' first
    | apply Eq.refl | exact (fun _ h => h) | with_reducible (first | apply Within.refl | assumption)
    | with_reducible (first
        | intro _ | apply within_ite | apply within_ite2 | apply Within.go (State.onPad_within ?_))
    | split

theorem ownerAccess_within {p : PadNo} {a : MemAccess} {s : State} : Within 687194767360 s (ownerAccess p a s) := by
  unfold ownerAccess
  dsimp only
  refine within_ite (giveMaster_within.mono rfl) (giveMaster_within.go ?_ rfl)
  split
  · exact (State.onPad_within fun x h => memWf_memWrite _ _ h).mono rfl
  · exact .refl _ _

theorem padAccess_within {p : PadNo} {a : MemAccess} {s : State} :
    Within 687194767360 s (padAccess p a s) := by
  unfold padAccess
  repeat' first
    | apply Eq.refl | with_reducible (first | apply Within.refl | assumption)
    | with_reducible (first
        | intro _ | apply within_ite | apply within_ite2 | apply Within.go giveMaster_within
        | apply Within.go denyPad_within | apply Within.go ownerAccess_within)
    | split

theorem writeOwner_within {p : PadNo} {m : MasterNo} {value : Word} {same : List MemAccess} {s : State} :
    Within 687194767360 s (writeOwner p m value same s) := by
  unfold writeOwner
  repeat' first
    | apply Eq.refl | with_reducible (first | apply Within.refl | assumption) | unfold x
    | ((try lift_lets); intro x; first
        | (refine (fun hx => ?_ : Within 687194767360 s x → _) ?_; clear_value x) | skip)
    | fail_if_no_progress ((with_reducible apply within_mk) <;> first
        | with_reducible (first
            | exact .inl rfl | exact (fun x => x) | exact .inl (fun _ x => x) | apply Nat.le_refl
            | exact fun _ => Nat.le_refl _)
        | exact .inr rfl | skip)
    | with_reducible (first
        | intro _ | apply within_ite | apply within_ite2 | apply Within.go denyPad_within
        | apply Within.go reclaimPad_within | apply Within.go passOwner_within | apply Within.go padAccess_within
        | apply within_foldl)
    | split

theorem replaceBank_within {bank : Fin 68} {s : State} :
    Within 549755813888 s (replaceBank bank s) := by
  unfold replaceBank
  repeat' first
    | apply Eq.refl | with_reducible (first | apply Within.refl | assumption)
    | fail_if_no_progress ((with_reducible apply within_mk) <;> first
        | with_reducible (first
            | exact .inl rfl | exact (fun x => x) | exact .inl (fun _ x => x) | apply Nat.le_refl
            | exact (fun _ => Nat.le_refl _) | apply Nat.le_add_right)
        | exact .inr rfl | skip)
    | with_reducible (first | intro _ | apply within_ite | apply within_ite2)
    | split <;> try with_reducible cases congrArg Prod.snd ‹_ = (_, _)›

theorem copyEnds_within {s : State} :
    Within 567002791936 s (copyEnds s) := by
  unfold copyEnds
  repeat' first
    | apply Eq.refl | with_reducible (first | apply Within.refl | assumption)
    | fail_if_no_progress ((with_reducible apply within_mk) <;> first
        | with_reducible (first
            | exact .inl rfl | exact (fun x => x) | exact .inl (fun _ x => x) | apply Nat.le_refl
            | exact fun _ => Nat.le_refl _)
        | exact .inr rfl | skip)
    | with_reducible (first | intro _ | apply Within.go raise_within) | split

theorem bankFixed_within {bank : Fin 68} {s : State} :
    Within 549755813888 s (bankFixed bank s) := by
  unfold bankFixed
  repeat' first
    | apply Eq.refl | with_reducible (first | apply Within.refl | assumption) | unfold x
    | ((try lift_lets); intro x; first
        | (refine (fun hx => ?_ : Within 549755813888 s x → _) ?_; clear_value x) | skip)
    | fail_if_no_progress ((with_reducible apply within_mk) <;> first
        | with_reducible (first
            | exact .inl rfl | exact (fun x => x) | exact .inl (fun _ x => x) | apply Nat.le_refl
            | exact fun _ => Nat.le_refl _)
        | exact .inr rfl | skip)
    | with_reducible (first
        | intro _ | apply within_ite | apply within_ite2 | apply Within.go replaceBank_within | apply within_foldl)
    | split

theorem memEvent_within {code : Nat} {unit : Nat} {data : List Byte} {s : State} :
    Within 17246978048 s (memEvent code unit data s) := by
  unfold memEvent
  repeat' first
    | apply Eq.refl | with_reducible (first | apply Within.refl | assumption)
    | with_reducible (first | intro _ | apply Within.go raise_within) | split

theorem poolError_within {bank : Fin 68} {word : Nat} {s : State} :
    Within 635722268672 s (poolError bank word s) := by
  unfold poolError
  repeat' first
    | apply Eq.refl | with_reducible (first | apply Within.refl | assumption) | unfold x
    | ((try lift_lets); intro x; first
        | (refine (fun hx => ?_ : Within 635722268672 s x → _) ?_; clear_value x) | skip)
    | fail_if_no_progress ((with_reducible apply within_mk) <;> first
        | with_reducible (first
            | exact .inl rfl | exact (fun x => x) | exact .inl (fun _ x => x) | apply Nat.le_refl
            | exact fun _ => Nat.le_refl _)
        | exact .inr rfl | skip)
    | with_reducible (first | intro _ | apply Within.go replaceBank_within | apply Within.go memEvent_within)
    | split <;> try with_reducible cases congrArg Prod.snd ‹_ = (_, _)›

theorem vaultOutletError_within {o : OutletNo} {s : State} : Within 292132421632 s (vaultOutletError o s) := by
  have h1 : ∀ a n, Within 292132421632 s { s with mem.vault := memClear s.mem.vault a n } := by
    intro a n
    apply within_mk (.refl _ _)
    case hv => exact memWf_memClear _ _
    all_goals first
      | with_reducible (first
          | exact .refl _ _ | exact .inl rfl | exact id | exact .inl (fun _ => id) | exact (fun _ => Nat.le_refl _)
          | exact Nat.le_refl _)
      | exact .inr rfl
  unfold vaultOutletError
  dsimp only
  repeat' first
    | apply Eq.refl | with_reducible (first | apply Within.refl | assumption) | apply h1 | unfold x
    | ((try lift_lets); intro x; first
        | (refine (fun hx => ?_ : Within 292132421632 s x → _) ?_; clear_value x) | skip)
    | fail_if_no_progress ((with_reducible apply within_mk) <;> first
        | with_reducible (first
            | exact .inl rfl | exact (fun x => x) | exact .inl (fun _ x => x) | apply Nat.le_refl
            | exact fun _ => Nat.le_refl _)
        | exact .inr rfl | skip)
    | with_reducible (first | intro _ | apply Within.go sessionLosesTls_within | apply Within.go memEvent_within)
    | split

theorem vaultHostError_within {s : State} : Within 1431364960258 s (vaultHostError s) := by
  have h1 : ∀ a n, Within 1431364960258 s { s with mem.vault := memClear s.mem.vault a n } := by
    intro a n
    apply within_mk (.refl _ _)
    case hv => exact memWf_memClear _ _
    all_goals first
      | with_reducible (first
          | exact .refl _ _ | exact .inl rfl | exact id | exact .inl (fun _ => id) | exact (fun _ => Nat.le_refl _)
          | exact Nat.le_refl _)
      | exact .inr rfl
  unfold vaultHostError
  dsimp only
  repeat' first
    | apply Eq.refl | with_reducible (first | apply Within.refl | assumption) | apply h1 | unfold x
    | ((try lift_lets); intro x; first
        | (refine (fun hx => ?_ : Within 1431364960258 s x → _) ?_; clear_value x) | skip)
    | fail_if_no_progress ((with_reducible apply within_mk) <;> first
        | with_reducible (first
            | exact .inl rfl | exact (fun x => x) | exact .inl (fun _ x => x) | apply Nat.le_refl
            | exact fun _ => Nat.le_refl _)
        | exact .inr rfl | skip)
    | with_reducible (first
        | intro _ | apply Within.go closeConnections_within | apply Within.go abortStaging_within
        | apply Within.go memEvent_within)
    | split

theorem takeSpare_within {mm : Nat} (e : 17246978048 ||| mm = mm) {n : Nat} {put : Nat → State → State} {s : State}
    (hput : ∀ z0 z1, Within mm z1 (put z0 z1)) :
    Within mm s (takeSpare n put s) := by
  unfold takeSpare
  repeat' first
    | apply Eq.refl | exact lorTrans (b := 17246978048) rfl e
    | with_reducible (first | apply Within.refl | assumption)
    | with_reducible (first
        | intro _ | apply within_ite | apply within_ite2 | apply Within.go raise_within | apply Within.via (hput ..))
    | split

theorem loseSave_within {o : OutletNo} {newer : Bool} {s : State} :
    Within 25836912896 s (loseSave o newer s) := by
  unfold loseSave
  repeat' first
    | apply Eq.refl | with_reducible (first | apply Within.refl | assumption) | unfold x
    | ((try lift_lets); intro x; first
        | (refine (fun hx => ?_ : Within 25836912896 s x → _) ?_; clear_value x) | skip)
    | fail_if_no_progress ((with_reducible apply within_mk) <;> first
        | with_reducible (first
            | exact .inl rfl | exact (fun x => x) | exact .inl (fun _ x => x) | apply Nat.le_refl
            | exact fun _ => Nat.le_refl _)
        | exact .inr rfl | skip)
    | with_reducible (first
        | intro _ | apply within_ite | apply within_ite2 | apply Within.go State.onMeter_within
        | apply Within.go raise_within | apply Within.go memEvent_within | apply Within.via (takeSpare_within ?_ ?_))
    | split <;> try with_reducible cases congrArg Prod.snd ‹_ = (_, _)›

theorem loseSaves_within {o : OutletNo} {s : State} :
    Within 17246978304 s (loseSaves o s) := by
  unfold loseSaves
  repeat' first
    | apply Eq.refl | with_reducible (first | apply Within.refl | assumption) | unfold x
    | ((try lift_lets); intro x; first
        | (refine (fun hx => ?_ : Within 17246978304 s x → _) ?_; clear_value x) | skip)
    | with_reducible (first
        | intro _ | apply Within.go State.onMeter_within | apply Within.go raise_within
        | apply Within.go memEvent_within)
    | split <;> try with_reducible cases congrArg Prod.snd ‹_ = (_, _)›

theorem tagMemoryError_within {w : Fin 256} {s : State} :
    Within 25836912640 s (tagMemoryError w s) := by
  unfold tagMemoryError
  repeat' first
    | apply Eq.refl | with_reducible (first | apply Within.refl | assumption) | unfold x
    | ((try lift_lets); intro x; first
        | (refine (fun hx => ?_ : Within 25836912640 s x → _) ?_; clear_value x) | skip)
    | fail_if_no_progress ((with_reducible apply within_mk) <;> first
        | with_reducible (first
            | exact .inl rfl | exact (fun x => x) | exact .inl (fun _ x => x) | apply Nat.le_refl
            | exact fun _ => Nat.le_refl _)
        | exact .inr rfl | skip)
    | with_reducible (first | intro _ | apply Within.go memEvent_within | apply Within.via (takeSpare_within ?_ ?_))
    | split

theorem storeError_within {page : Word} {image : Option (ImageNo × Fin 2)} {s : State} :
    Within 30131879936 s (storeError page image s) := by
  unfold storeError
  repeat' first
    | apply Eq.refl | with_reducible (first | apply Within.refl | assumption) | unfold x
    | ((try lift_lets); intro x; first
        | (refine (fun hx => ?_ : Within 30131879936 s x → _) ?_; clear_value x) | skip)
    | fail_if_no_progress ((with_reducible apply within_mk) <;> first
        | with_reducible (first
            | exact .inl rfl | exact (fun x => x) | exact .inl (fun _ x => x) | apply Nat.le_refl
            | exact fun _ => Nat.le_refl _)
        | exact .inr rfl | skip)
    | with_reducible (first
        | intro _ | apply Within.go State.onImage_within | apply Within.go memEvent_within
        | apply Within.via (takeSpare_within ?_ ?_))
    | split <;> try with_reducible cases congrArg Prod.snd ‹_ = (_, _)›

theorem linkError_within {lane : LaneHas} {seq : Option Nat} {s : State} :
    Within 19394461696 s (linkError lane seq s) := by
  unfold linkError
  repeat' first
    | apply Eq.refl | with_reducible (first | apply Within.refl | assumption) | unfold x
    | ((try lift_lets); intro x; first
        | (refine (fun hx => ?_ : Within 19394461696 s x → _) ?_; clear_value x) | skip)
    | fail_if_no_progress ((with_reducible apply within_mk) <;> first
        | with_reducible (first
            | exact .inl rfl | exact (fun x => x) | exact .inl (fun _ x => x) | apply Nat.le_refl
            | exact fun _ => Nat.le_refl _)
        | exact .inr rfl | skip)
    | with_reducible (first | intro _ | apply Within.go memEvent_within)
    | split <;> try with_reducible cases congrArg Prod.snd ‹_ = (_, _)›

theorem uncorrectable_within {place : MemPlace} {s : State} :
    Within 2198024159490 s (uncorrectable place s) := by
  unfold uncorrectable
  repeat' first
    | apply Eq.refl | exact (fun _ h => h) | with_reducible (first | apply Within.refl | assumption)
    | with_reducible (first
        | intro _ | apply Within.go (State.onPad_within ?_) | apply Within.go memEvent_within
        | apply Within.go poolError_within | apply Within.go vaultOutletError_within
        | apply Within.go vaultHostError_within | apply Within.go loseSave_within | apply Within.go loseSaves_within
        | apply Within.go tagMemoryError_within | apply Within.go storeError_within | apply Within.go linkError_within)
    | split

theorem sectorFixed_within {unit : Nat} {s : State} :
    Within 25836912640 s (sectorFixed unit s) := by
  unfold sectorFixed
  repeat' first
    | apply Eq.refl | with_reducible (first | apply Within.refl | assumption)
    | fail_if_no_progress ((with_reducible apply within_mk) <;> first
        | with_reducible (first
            | exact .inl rfl | exact (fun x => x) | exact .inl (fun _ x => x) | apply Nat.le_refl
            | exact fun _ => Nat.le_refl _)
        | exact .inr rfl | skip)
    | with_reducible (first
        | intro _ | apply within_ite | apply within_ite2 | apply Within.via (takeSpare_within ?_ ?_))
    | split

theorem unitCorrected_within {unit : Nat} {s : State} :
    Within 575592726528 s (unitCorrected unit s) := by
  unfold unitCorrected
  repeat' first
    | apply Eq.refl | with_reducible (first | apply Within.refl | assumption) | unfold x
    | ((try lift_lets); intro x; first
        | (refine (fun hx => ?_ : Within 575592726528 s x → _) ?_; clear_value x) | skip)
    | fail_if_no_progress ((with_reducible apply within_mk) <;> first
        | with_reducible (first
            | exact .inl rfl | exact (fun x => x) | exact .inl (fun _ x => x) | apply Nat.le_refl
            | exact fun _ => Nat.le_refl _)
        | exact .inr rfl | skip)
    | with_reducible (first | intro _ | apply within_ite | apply within_ite2 | apply Within.go sectorFixed_within)
    | split

theorem correctedAt_within {place : MemPlace} {s : State} :
    Within 575592726528 s (correctedAt place s) := by
  unfold correctedAt
  repeat' first
    | apply Eq.refl | with_reducible (first | apply Within.refl | assumption)
    | with_reducible (first | intro _ | apply Within.go bankFixed_within | apply Within.go unitCorrected_within)
    | split

theorem foundError_within {e : FoundError} {s : State} :
    Within 2198024159490 s (foundError e s) := by
  unfold foundError
  repeat' first
    | apply Eq.refl | with_reducible (first | apply Within.refl | assumption)
    | with_reducible (first | intro _ | apply Within.go uncorrectable_within | apply Within.go correctedAt_within)
    | split

theorem scrubPass_within {found : List FoundError} {s : State} :
    Within 2198024159490 s (scrubPass found s) := by
  unfold scrubPass
  repeat' first
    | apply Eq.refl | with_reducible (first | apply Within.refl | assumption)
    | with_reducible (first | intro _ | apply Within.go foundError_within | apply within_foldl) | split

theorem vaultAccess_within {a : MemAccess} {s : State} : Within 841880698880 s (vaultAccess a s) := by
  unfold vaultAccess
  dsimp only
  refine within_ite (giveMaster_within.mono rfl) (within_ite (raise_within.go (giveMaster_within.mono rfl) rfl)
    (giveMaster_within.go ?_ rfl))
  split
  · apply within_mk (.refl _ _)
    case hv => exact memWf_memWrite _ _
    all_goals first
      | with_reducible (first
          | exact .refl _ _ | exact .inl rfl | exact id | exact .inl (fun _ => id) | exact (fun _ => Nat.le_refl _)
          | exact Nat.le_refl _)
      | exact .inr rfl
  · exact .refl _ _

theorem wipeEnds_within {waiting : List MemAccess} {s : State} :
    Within 841880698880 s (wipeEnds waiting s) := by
  unfold wipeEnds
  repeat' first
    | apply Eq.refl | with_reducible (first | apply Within.refl | assumption)
    | fail_if_no_progress ((with_reducible apply within_mk) <;> first
        | with_reducible (first
            | exact .inl rfl | exact (fun x => x) | exact .inl (fun _ x => x) | apply Nat.le_refl
            | exact fun _ => Nat.le_refl _)
        | exact .inr rfl | skip)
    | with_reducible (first | intro _ | apply Within.go vaultAccess_within | apply within_foldl) | split

theorem readFaultLog_within {c : Cmd} {y0 : State} :
    Within 1221985304576 y0 (readFaultLog c y0) := by
  unfold readFaultLog
  repeat' first
    | apply Eq.refl | with_reducible (first | apply Within.refl | assumption) | unfold x
    | ((try lift_lets); intro x; first
        | (refine (fun hx => ?_ : Within 1221985304576 y0 x → _) ?_; clear_value x) | skip)
    | with_reducible (first
        | intro _ | apply Within.via (runCmd_within ?_ ?_) | apply Within.via (acts_within ?_ ?_)
        | apply Within.via (checked_within ?_ ?_))
    | split

theorem eventRouting_within {c : Cmd} {y0 : State} :
    Within 1221985304576 y0 (eventRouting c y0) := by
  unfold eventRouting
  repeat' first
    | apply Eq.refl | with_reducible (first | apply Within.refl | assumption)
    | with_reducible (first
        | intro _ | apply Within.go State.onSource_within | apply Within.via (runCmd_within ?_ ?_)
        | apply Within.via (acts_within ?_ ?_) | apply Within.via (checked_within ?_ ?_))
    | split

theorem eventSourceState_within {c : Cmd} {y0 : State} :
    Within 1221985304576 y0 (eventSourceState c y0) := by
  unfold eventSourceState
  repeat' first
    | apply Eq.refl | with_reducible (first | apply Within.refl | assumption)
    | with_reducible (first | intro _ | apply Within.via (runCmd_within ?_ ?_) | apply Within.go reads_within) | split

theorem clearPending_within {c : Cmd} {y0 : State} :
    Within 1221985304576 y0 (clearPending c y0) := by
  unfold clearPending
  repeat' first
    | apply Eq.refl | with_reducible (first | apply Within.refl | assumption)
    | fail_if_no_progress ((with_reducible apply within_mk) <;> first
        | with_reducible (first
            | exact .inl rfl | exact (fun x => x) | exact .inl (fun _ x => x) | apply Nat.le_refl
            | exact fun _ => Nat.le_refl _)
        | exact .inr rfl | skip)
    | with_reducible (first | intro _ | apply Within.via (runCmd_within ?_ ?_) | apply Within.via (acts_within ?_ ?_))
    | split

theorem wearAndSpares_within {c : Cmd} {y0 : State} :
    Within 1221985304576 y0 (wearAndSpares c y0) := by
  unfold wearAndSpares
  repeat' first
    | apply Eq.refl | with_reducible (first | apply Within.refl | assumption)
    | with_reducible (first | intro _ | apply Within.via (runCmd_within ?_ ?_) | apply Within.go reads_within) | split

theorem siteLineNoise_within {c : Cmd} {y0 : State} :
    Within 1221985304576 y0 (siteLineNoise c y0) := by
  unfold siteLineNoise
  repeat' first
    | apply Eq.refl | with_reducible (first | apply Within.refl | assumption)
    | with_reducible (first
        | intro _ | apply within_ite | apply within_ite2 | apply Within.via (runCmd_within ?_ ?_)
        | apply Within.go reads_within)
    | split

theorem poolConflictCounters_within {c : Cmd} {y0 : State} :
    Within 3970764374016 y0 (poolConflictCounters c y0) := by
  unfold poolConflictCounters
  repeat' first
    | apply Eq.refl | with_reducible (first | apply Within.refl | assumption)
    | fail_if_no_progress ((with_reducible apply within_mk) <;> first
        | with_reducible (first
            | exact .inl rfl | exact (fun x => x) | exact .inl (fun _ x => x) | apply Nat.le_refl
            | exact (fun _ => Nat.le_refl _) | apply Nat.le_add_right)
        | exact .inr rfl | skip)
    | with_reducible (first | intro _ | apply Within.via (runCmd_within ?_ ?_) | apply Within.via (acts_within ?_ ?_))
    | split

theorem temperatures_within {c : Cmd} {y0 : State} :
    Within 1221985304576 y0 (temperatures c y0) := by
  unfold temperatures
  repeat' first
    | apply Eq.refl | with_reducible (first | apply Within.refl | assumption)
    | with_reducible (first | intro _ | apply Within.via (runCmd_within ?_ ?_) | apply Within.go reads_within) | split

theorem startBundle_within {c : Cmd} {p : List Byte} {s : State} :
    Within 2216203124736 s (startBundle c p s).2 := by
  unfold startBundle
  repeat' first
    | apply Eq.refl | with_reducible (first | apply Within.refl | assumption) | unfold x
    | ((try lift_lets); intro x; first
        | (refine (fun hx => ?_ : Within 2216203124736 s x → _) ?_; clear_value x) | skip)
    | fail_if_no_progress ((with_reducible apply within_mk) <;> first
        | with_reducible (first
            | exact .inl rfl | exact (fun x => x) | exact .inl (fun _ x => x) | apply Nat.le_refl
            | exact fun _ => Nat.le_refl _)
        | exact .inr rfl | skip)
    | with_reducible (first | intro _ | apply within_ite | apply within_ite2 | apply Within.go takeFree_within)
    | split <;> try with_reducible cases congrArg Prod.snd ‹_ = (_, _)›

theorem diagnosticBundle_within {c : Cmd} {y0 : State} :
    Within 3421008560128 y0 (diagnosticBundle c y0) := by
  unfold diagnosticBundle
  repeat' first
    | apply Eq.refl | with_reducible (first | apply Within.refl | assumption)
    | with_reducible (first | intro _ | apply Within.via (runCmd_within ?_ ?_) | apply Within.go startBundle_within)
    | split

theorem bundleComplete_within {arrived : Option (List Byte)} {s : State} : Within 2319282339840 s
    (bundleComplete arrived s) := by
  have h1 : Within 2319282339840 s { s with evt.bundle := none, free := s.free + 20736 + 256 } := by
    apply within_mk (.refl _ _)
    case hf => exact Nat.le_trans (Nat.le_add_right _ _) (Nat.le_add_right _ _)
    all_goals first
      | with_reducible (first
          | exact .refl _ _ | exact .inl rfl | exact id | exact .inl (fun _ => id) | exact (fun _ => Nat.le_refl _)
          | exact Nat.le_refl _)
      | exact .inr rfl
  unfold bundleComplete
  split
  · exact .refl _ _
  · split
    · exact .refl _ _
    · exact answer_within.go h1 rfl

theorem moveCell_within {n : Fin 256} {s : State} :
    Within 134217728 s (moveCell n s) := by
  unfold moveCell
  repeat' first
    | apply Eq.refl | with_reducible (first | apply Within.refl | assumption) | unfold x
    | ((try lift_lets); intro x; first | (refine (fun hx => ?_ : Within 134217728 s x → _) ?_; clear_value x) | skip)
    | fail_if_no_progress ((with_reducible apply within_mk) <;> first
        | with_reducible (first
            | exact .inl rfl | exact (fun x => x) | exact .inl (fun _ x => x) | apply Nat.le_refl
            | exact (fun _ => Nat.le_refl _) | apply Nat.le_add_right)
        | exact .inr rfl | skip)
    | with_reducible (first | intro _ | apply within_ite | apply within_ite2 | apply Within.go State.onSlot_within)
    | split

theorem countWrite_within {n : Fin 256} {s : State} :
    Within 134217728 s (countWrite n s) := by
  unfold countWrite
  repeat' first
    | apply Eq.refl | with_reducible (first | apply Within.refl | assumption)
    | fail_if_no_progress ((with_reducible apply within_mk) <;> first
        | with_reducible (first
            | exact .inl rfl | exact (fun x => x) | exact .inl (fun _ x => x) | apply Nat.le_refl
            | exact fun _ => Nat.le_refl _)
        | exact .inr rfl | skip)
    | with_reducible (first | intro _) | split

theorem placeKey_within {n : Fin 256} {k : Key} {s : State} :
    Within 134217728 s (placeKey n k s) := by
  unfold placeKey
  repeat' first
    | apply Eq.refl | with_reducible (first | apply Within.refl | assumption)
    | with_reducible (first
        | intro _ | apply Within.go State.onSlot_within | apply Within.go moveCell_within
        | apply Within.go countWrite_within)
    | split

theorem readSlot_within {c : Cmd} {y0 : State} :
    Within 1221985304576 y0 (readSlot c y0) := by
  unfold readSlot
  repeat' first
    | apply Eq.refl | with_reducible (first | apply Within.refl | assumption)
    | with_reducible (first
        | intro _ | apply within_ite | apply within_ite2 | apply Within.via (runCmd_within ?_ ?_)
        | apply Within.go reads_within)
    | split

theorem writeKey_within {c : Cmd} {y0 : State} :
    Within 1222119522304 y0 (writeKey c y0) := by
  unfold writeKey
  repeat' first
    | apply Eq.refl | with_reducible (first | apply Within.refl | assumption)
    | with_reducible (first
        | intro _ | apply within_ite | apply within_ite2 | apply Within.via (runCmd_within ?_ ?_)
        | apply Within.via (acts_within ?_ ?_) | apply Within.via (checked_within ?_ ?_)
        | apply Within.go placeKey_within)
    | split

theorem loadShadow_within {c : Cmd} {y0 : State} :
    Within 1222119522304 y0 (loadShadow c y0) := by
  unfold loadShadow
  repeat' first
    | apply Eq.refl | with_reducible (first | apply Within.refl | assumption)
    | with_reducible (first
        | intro _ | apply within_ite | apply within_ite2 | apply Within.go State.onSlot_within
        | apply Within.via (runCmd_within ?_ ?_) | apply Within.via (acts_within ?_ ?_)
        | apply Within.via (checked_within ?_ ?_))
    | split

theorem testShadow_within {c : Cmd} {pass : Bool} {y0 : State} :
    Within 1222119522304 y0 (testShadow c pass y0) := by
  unfold testShadow
  repeat' first
    | apply Eq.refl | with_reducible (first | apply Within.refl | assumption)
    | with_reducible (first
        | intro _ | apply within_ite | apply within_ite2 | apply Within.go State.onSlot_within
        | apply Within.via (runCmd_within ?_ ?_) | apply Within.via (acts_within ?_ ?_))
    | split <;> try with_reducible cases congrArg Prod.snd ‹_ = (_, _)›

theorem commitShadow_within {c : Cmd} {tagOk : Bool} {y0 : State} :
    Within 1222119522304 y0 (commitShadow c tagOk y0) := by
  unfold commitShadow
  repeat' first
    | apply Eq.refl | with_reducible (first | apply Within.refl | assumption) | unfold x
    | ((try lift_lets); intro x; first
        | (refine (fun hx => ?_ : Within 1222119522304 y0 x → _) ?_; clear_value x) | skip)
    | with_reducible (first
        | intro _ | apply within_ite | apply within_ite2 | apply Within.via (runCmd_within ?_ ?_)
        | apply Within.via (acts_within ?_ ?_) | apply Within.go placeKey_within)
    | split <;> try with_reducible cases congrArg Prod.snd ‹_ = (_, _)›

theorem readStepCounters_within {c : Cmd} {y0 : State} :
    Within 1221985304576 y0 (readStepCounters c y0) := by
  unfold readStepCounters
  repeat' first
    | apply Eq.refl | with_reducible (first | apply Within.refl | assumption)
    | with_reducible (first | intro _ | apply Within.via (runCmd_within ?_ ?_) | apply Within.go reads_within) | split

theorem tokenValid_within {format : Nat} {no : Nat} {t : List Byte} {s : State} :
    Within 17381195776 s (tokenValid format no t s).2 := by
  unfold tokenValid
  repeat' first
    | apply Eq.refl | with_reducible (first | apply Within.refl | assumption) | unfold x
    | ((try lift_lets); intro x; first
        | (refine (fun hx => ?_ : Within 17381195776 s x → _) ?_; clear_value x) | skip)
    | with_reducible (first | intro _ | apply Within.go useKey_within)
    | split <;> try with_reducible cases congrArg Prod.snd ‹_ = (_, _)›

theorem debugUnlock_within {t : List Byte} {s : State} : Within 1434191069186 s (debugUnlock t s) := by
  have h1 : ∀ x : State, Within 1434191069186 x { x with keys := { x.keys with steps := x.keys.steps.upd 8 (· - 1), debugOpen := true } } := by
    intro x
    apply within_mk (.refl _ _)
    case hs => exact fun i => by dsimp only; rw [Tab.at_upd]; split <;> omega
    all_goals first
      | with_reducible (first
          | exact .refl _ _ | exact .inl rfl | exact id | exact .inl (fun _ => id) | exact (fun _ => Nat.le_refl _)
          | exact Nat.le_refl _)
      | exact .inr rfl
  have h0 : Within 1434191069186 s (tokenValid 2 (debugStep s) t s).2 := tokenValid_within.mono rfl
  unfold debugUnlock
  dsimp only
  split
  · exact .refl _ _
  · split
    · rename_i e
      rw [e] at h0
      exact h0
    · rename_i e
      rw [e] at h0
      exact settle_within.go (raise_within.go (wipeVault_within.go (Within.via (h1 _) h0) rfl) rfl) rfl

theorem makeMove_within {dest : Lifecycle} {s : State} (hd : s.keys.lifecycle = .ended → dest = .ended) :
    Within 1502642126850 s (makeMove dest s) := by
  have h1 : ∀ a b c (d : Nat) e k, Within 1502642126850 s { s with
      keys := { s.keys with lifecycle := dest, slot := a, debugOpen := b, returns := s.keys.returns + d, powerOnDue := c,
                            derived := [], roots := k }, pair.keyed := false,
      evt.src := e } := by
    intro a b c d e k
    apply within_mk (.refl _ _)
    case hr => exact Nat.le_add_right _ _
    case he => exact hd
    all_goals first
      | with_reducible (first
          | exact .refl _ _ | exact .inl rfl | exact id | exact .inl (fun _ => id) | exact (fun _ => Nat.le_refl _)
          | exact Nat.le_refl _)
      | exact .inr rfl
  have h2 : ∀ x : State, Within 1502642126850 x { x with
      och.signing := Tab.all 8 .empty, tag := { x.tag with state := .killed, answer := none } } := by
    intro x
    apply within_mk (.refl _ _)
    case hk => exact fun _ => rfl
    all_goals first
      | with_reducible (first
          | exact .refl _ _ | exact .inl rfl | exact id | exact .inl (fun _ => id) | exact (fun _ => Nat.le_refl _)
          | exact Nat.le_refl _)
      | exact .inr rfl
  have h3 : ∀ x : State, Within 1502642126850 x { x with tag.fcount := 0 } := by
    intro x
    apply within_mk (.refl _ _)
    all_goals first
      | with_reducible (first
          | exact .refl _ _ | exact .inl rfl | exact id | exact .inl (fun _ => id) | exact (fun _ => Nat.le_refl _)
          | exact Nat.le_refl _)
      | exact .inr rfl
  have h4 : ∀ x : State, Within 1502642126850 s x → Within 1502642126850 s (if s.keys.lifecycle = .blank then { x with tag.fcount := 0 } else x) := by
    intro x h
    split
    · exact Within.via (h3 _) h
    · exact h
  have h5 : ∀ x : State, Within 1502642126850 s x → Within 1502642126850 s (if dest = .ended then { x with
      och.signing := Tab.all 8 .empty, tag := { x.tag with state := .killed, answer := none } } else x) := by
    intro x h
    split
    · exact Within.via (h2 _) h
    · exact h
  exact settle_within.go (writeIdentity_within.go (raise_within.go (wipeVault_within.go
    (h5 _ (h4 _ (h1 _ _ _ _ _ _))) rfl) rfl) rfl) rfl

theorem moveRefusal_within {c : Cmd} {p : List Byte} {s : State} :
    Within 17381195776 s (moveRefusal c p s).2 := by
  unfold moveRefusal
  repeat' first
    | apply Eq.refl | with_reducible (first | apply Within.refl | assumption)
    | with_reducible (first | intro _ | apply within_ite | apply within_ite2 | apply Within.go tokenValid_within)
    | split <;> try with_reducible cases congrArg Prod.snd ‹_ = (_, _)›

theorem lifecycleMove_within {c : Cmd} {s : State} : Within 1502642126850 s (lifecycleMove c s) := by
  have h0 : Within 17381195776 s (moveRefusal c (cmdFields 0x0905 c) s).2 := moveRefusal_within
  unfold lifecycleMove
  extract_lets p t
  have ht : Within 1222119522304 s t := by
    refine runCmd_within rfl fun p s => ?_
    have h : Within 1222119522304 s (moveRefusal c p s).2 := moveRefusal_within.mono rfl
    split <;> (rename_i e; rw [e] at h; exact h)
  split
  · rename_i ha
    split
    · rename_i dest hl
      refine (makeMove_within fun he => ?_).go (ht.mono rfl) rfl
      exfalso
      have h1 : (t.keys.lifecycle, t.keys.returns) = (s.keys.lifecycle, s.keys.returns) := by
        rcases ht.lifecycleKept with h | h
        · exact h
        · cases h
      have h2 : s.keys.lifecycle = .ended := (congrArg Prod.fst h1).symm.trans he
      have h3 : moveAllowed s dest = false := by
        unfold moveAllowed
        simp [h2]
      simp [moveRefusal, hl, h3] at ha
      split at ha <;> simp at ha
    · exact ht.mono rfl
  · exact ht.mono rfl

end Sys2Proof.Machine
end

