-- ==== Sys2Proof/Laws/WithinPair.lean ====
section
/-! SUPPORT. What the operations of the site line, forwarded commands, the pair and thermal may do at most, one lemma each. -/

set_option linter.unusedTactic false
set_option linter.unreachableTactic false
set_option linter.unusedVariables false

namespace Sys2Proof.Machine

theorem setJoined_within {l : LinkNo} {b : Bool} {s : State} :
    Within 17263755264 s (setJoined l b s) := by
  unfold setJoined
  repeat' first
    | apply Eq.refl | with_reducible (first | apply Within.refl | assumption)
    | with_reducible (first
        | intro _ | apply within_ite | apply within_ite2 | apply Within.go State.onLink_within
        | apply Within.go raise_within)
    | split

theorem discardFrame_within {l : LinkNo} {s : State} :
    Within 17263755264 s (discardFrame l s) := by
  unfold discardFrame
  repeat' first
    | apply Eq.refl | with_reducible (first | apply Within.refl | assumption)
    | with_reducible (first | intro _ | apply Within.go State.onLink_within | apply Within.go raise_within) | split

theorem onAir_within {bytes : List Byte} {s : State} :
    Within 16777216 s (onAir bytes s) := by
  unfold onAir
  repeat' first
    | apply Eq.refl | with_reducible (first | apply Within.refl | assumption)
    | fail_if_no_progress ((with_reducible apply within_mk) <;> first
        | with_reducible (first
            | exact .inl rfl | exact (fun x => x) | exact .inl (fun _ x => x) | apply Nat.le_refl
            | exact fun _ => Nat.le_refl _)
        | exact .inr rfl | skip)
    | with_reducible (first | intro _ | apply within_ite | apply within_ite2) | split

theorem sendFrameOn_within {f : SlFrame} {y0 : State} :
    Within 16777216 y0 (sendFrameOn f y0) := by
  unfold sendFrameOn
  repeat' first
    | apply Eq.refl | with_reducible (first | apply Within.refl | assumption)
    | with_reducible (first | intro _ | apply Within.go onAir_within) | split

theorem planMaps_within {l : LinkNo} {maps : List Byte} {s : State} :
    Within 16777216 s (planMaps l maps s) := by
  unfold planMaps
  repeat' first
    | apply Eq.refl | with_reducible (first | apply Within.refl | assumption) | unfold x
    | ((try lift_lets); intro x; first | (refine (fun hx => ?_ : Within 16777216 s x → _) ?_; clear_value x) | skip)
    | with_reducible (first | intro _ | apply Within.go State.onLink_within) | split

theorem recomputeLink_within {l : LinkNo} {s : State} :
    Within 16777216 s (recomputeLink l s) := by
  unfold recomputeLink
  repeat' first
    | apply Eq.refl | with_reducible (first | apply Within.refl | assumption) | unfold x
    | ((try lift_lets); intro x; first | (refine (fun hx => ?_ : Within 16777216 s x → _) ?_; clear_value x) | skip)
    | with_reducible (first
        | intro _ | apply within_ite | apply within_ite2 | apply Within.go State.onLink_within
        | apply Within.go planMaps_within)
    | split

theorem mapRecompute_within {snr : List LinkSnr} {noise : List Byte} {s : State} :
    Within 16777216 s (mapRecompute snr noise s) := by
  unfold mapRecompute
  repeat' first
    | apply Eq.refl | with_reducible (first | apply Within.refl | assumption) | unfold x
    | ((try lift_lets); intro x; first | (refine (fun hx => ?_ : Within 16777216 s x → _) ?_; clear_value x) | skip)
    | fail_if_no_progress ((with_reducible apply within_mk) <;> first
        | with_reducible (first
            | exact .inl rfl | exact (fun x => x) | exact .inl (fun _ x => x) | apply Nat.le_refl
            | exact fun _ => Nat.le_refl _)
        | exact .inr rfl | skip)
    | with_reducible (first
        | intro _ | apply within_ite | apply within_ite2 | apply Within.go State.onLink_within
        | apply Within.via (forEach_within ?_) | apply Within.go recomputeLink_within | apply within_foldl)
    | split <;> try with_reducible cases congrArg Prod.snd ‹_ = (_, _)›

theorem mapAckMissing_within {l : LinkNo} {s : State} :
    Within 16777216 s (mapAckMissing l s) := by
  unfold mapAckMissing
  repeat' first
    | apply Eq.refl | with_reducible (first | apply Within.refl | assumption)
    | with_reducible (first | intro _ | apply within_ite | apply within_ite2 | apply Within.go State.onLink_within)
    | split

theorem mapSwitch_within {l : LinkNo} {s : State} :
    Within 16777216 s (mapSwitch l s) := by
  unfold mapSwitch
  repeat' first
    | apply Eq.refl | with_reducible (first | apply Within.refl | assumption) | unfold x
    | ((try lift_lets); intro x; first | (refine (fun hx => ?_ : Within 16777216 s x → _) ?_; clear_value x) | skip)
    | fail_if_no_progress ((with_reducible apply within_mk) <;> first
        | with_reducible (first
            | exact .inl rfl | exact (fun x => x) | exact .inl (fun _ x => x) | apply Nat.le_refl
            | exact fun _ => Nat.le_refl _)
        | exact .inr rfl | skip)
    | with_reducible (first | intro _ | apply within_ite | apply within_ite2 | apply Within.go State.onLink_within)
    | split

theorem commitLinkEntry_within {l : LinkNo} {s : State} :
    Within 16777216 s (commitLinkEntry l s) := by
  unfold commitLinkEntry
  repeat' first
    | apply Eq.refl | with_reducible (first | apply Within.refl | assumption) | unfold x
    | ((try lift_lets); intro x; first | (refine (fun hx => ?_ : Within 16777216 s x → _) ?_; clear_value x) | skip)
    | with_reducible (first
        | intro _ | apply within_ite | apply within_ite2 | apply Within.go State.onLink_within
        | apply Within.go planMaps_within)
    | split

theorem beginFrame_within {l : LinkNo} {f : SlFrame} {rest : List SlFrame} {s : State} :
    Within 16777216 s (beginFrame l f rest s) := by
  unfold beginFrame
  repeat' first
    | apply Eq.refl | with_reducible (first | apply Within.refl | assumption) | unfold x
    | ((try lift_lets); intro x; first | (refine (fun hx => ?_ : Within 16777216 s x → _) ?_; clear_value x) | skip)
    | with_reducible (first
        | intro _ | apply within_ite | apply within_ite2 | apply Within.go State.onLink_within
        | apply Within.go sendFrameOn_within)
    | split

theorem ackOnly_within {l : LinkNo} {s : State} :
    Within 16777216 s (ackOnly l s) := by
  unfold ackOnly
  repeat' first
    | apply Eq.refl | with_reducible (first | apply Within.refl | assumption) | unfold x
    | ((try lift_lets); intro x; first | (refine (fun hx => ?_ : Within 16777216 s x → _) ?_; clear_value x) | skip)
    | with_reducible (first | intro _ | apply Within.go State.onLink_within | apply Within.go sendFrameOn_within)
    | split

theorem linkTurn_within {l : LinkNo} {s : State} :
    Within 16777216 s (linkTurn l s) := by
  unfold linkTurn
  repeat' first
    | apply Eq.refl | with_reducible (first | apply Within.refl | assumption) | unfold x
    | ((try lift_lets); intro x; first | (refine (fun hx => ?_ : Within 16777216 s x → _) ?_; clear_value x) | skip)
    | with_reducible (first
        | intro _ | apply within_ite | apply within_ite2 | apply Within.go State.onLink_within
        | apply Within.go beginFrame_within | apply Within.go ackOnly_within)
    | split <;> try with_reducible cases congrArg Prod.snd ‹_ = (_, _)›

theorem commitSite_within {s : State} :
    Within 16777216 s (commitSite s) := by
  unfold commitSite
  repeat' first
    | apply Eq.refl | with_reducible (first | apply Within.refl | assumption)
    | fail_if_no_progress ((with_reducible apply within_mk) <;> first
        | with_reducible (first
            | exact .inl rfl | exact (fun x => x) | exact .inl (fun _ x => x) | apply Nat.le_refl
            | exact fun _ => Nat.le_refl _)
        | exact .inr rfl | skip)
    | with_reducible (first | intro _ | apply Within.via (forEach_within ?_) | apply Within.go commitLinkEntry_within)
    | split

theorem superframe_within {late : Bool} {s : State} :
    Within 16777216 s (superframe late s) := by
  unfold superframe
  repeat' first
    | apply Eq.refl | with_reducible (first | apply Within.refl | assumption) | unfold x
    | ((try lift_lets); intro x; first | (refine (fun hx => ?_ : Within 16777216 s x → _) ?_; clear_value x) | skip)
    | fail_if_no_progress ((with_reducible apply within_mk) <;> first
        | with_reducible (first
            | exact .inl rfl | exact (fun x => x) | exact .inl (fun _ x => x) | apply Nat.le_refl
            | exact fun _ => Nat.le_refl _)
        | exact .inr rfl | skip)
    | with_reducible (first
        | intro _ | apply within_ite | apply within_ite2 | apply Within.via (forEach_within ?_)
        | apply Within.go onAir_within | apply Within.go linkTurn_within | apply Within.go commitSite_within)
    | split

theorem sendJoin_within {s : State} :
    Within 16777216 s (sendJoin s) := by
  unfold sendJoin
  repeat' first
    | apply Eq.refl | with_reducible (first | apply Within.refl | assumption) | unfold x
    | ((try lift_lets); intro x; first | (refine (fun hx => ?_ : Within 16777216 s x → _) ?_; clear_value x) | skip)
    | with_reducible (first | intro _ | apply Within.go sendFrameOn_within) | split

theorem beaconReceived_within {b : List Byte} {s : State} :
    Within 16777216 s (beaconReceived b s) := by
  unfold beaconReceived
  repeat' first
    | apply Eq.refl | with_reducible (first | apply Within.refl | assumption) | unfold x
    | ((try lift_lets); intro x; first | (refine (fun hx => ?_ : Within 16777216 s x → _) ?_; clear_value x) | skip)
    | fail_if_no_progress ((with_reducible apply within_mk) <;> first
        | with_reducible (first
            | exact .inl rfl | exact (fun x => x) | exact .inl (fun _ x => x) | apply Nat.le_refl
            | exact fun _ => Nat.le_refl _)
        | exact .inr rfl | skip)
    | with_reducible (first | intro _ | apply within_ite | apply within_ite2 | apply Within.go sendJoin_within)
    | split <;> try with_reducible cases congrArg Prod.snd ‹_ = (_, _)›

theorem beaconsMissed_within {s : State} :
    Within 17263755264 s (beaconsMissed s) := by
  unfold beaconsMissed
  repeat' first
    | apply Eq.refl | with_reducible (first | apply Within.refl | assumption)
    | fail_if_no_progress ((with_reducible apply within_mk) <;> first
        | with_reducible (first
            | exact .inl rfl | exact (fun x => x) | exact .inl (fun _ x => x) | apply Nat.le_refl
            | exact fun _ => Nat.le_refl _)
        | exact .inr rfl | skip)
    | with_reducible (first | intro _ | apply within_ite | apply within_ite2 | apply Within.go setJoined_within)
    | split

theorem joinRetry_within {s : State} :
    Within 16777216 s (joinRetry s) := by
  unfold joinRetry
  repeat' first
    | apply Eq.refl | with_reducible (first | apply Within.refl | assumption)
    | with_reducible (first | intro _ | apply within_ite | apply within_ite2 | apply Within.go sendJoin_within)
    | split

theorem deliverFrame_within {l : LinkNo} {f : SlFrame} {s : State} :
    Within 17263755264 s (deliverFrame l f s).2 := by
  unfold deliverFrame
  repeat' first
    | apply Eq.refl | with_reducible (first | apply Within.refl | assumption)
    | with_reducible (first
        | intro _ | apply within_ite | apply within_ite2 | apply Within.go State.onLink_within
        | apply Within.go raise_within | apply Within.go discardFrame_within)
    | split

theorem takeAck_within {l : LinkNo} {f : SlFrame} {s : State} :
    Within 16777216 s (takeAck l f s) := by
  unfold takeAck
  repeat' first
    | apply Eq.refl | with_reducible (first | apply Within.refl | assumption) | unfold x
    | ((try lift_lets); intro x; first | (refine (fun hx => ?_ : Within 16777216 s x → _) ?_; clear_value x) | skip)
    | with_reducible (first | intro _ | apply within_ite | apply within_ite2 | apply Within.go State.onLink_within)
    | split

theorem takeMap_within {l : LinkNo} {p : List Byte} {s : State} :
    Within 16777216 s (takeMap l p s) := by
  unfold takeMap
  repeat' first
    | apply Eq.refl | with_reducible (first | apply Within.refl | assumption)
    | with_reducible (first | intro _ | apply Within.go State.onLink_within) | split

theorem takeJoin_within {p : List Byte} {s : State} :
    Within 17263755264 s (takeJoin p s) := by
  unfold takeJoin
  repeat' first
    | apply Eq.refl | with_reducible (first | apply Within.refl | assumption) | unfold x
    | ((try lift_lets); intro x; first
        | (refine (fun hx => ?_ : Within 17263755264 s x → _) ?_; clear_value x) | skip)
    | fail_if_no_progress ((with_reducible apply within_mk) <;> first
        | with_reducible (first
            | exact .inl rfl | exact (fun x => x) | exact .inl (fun _ x => x) | apply Nat.le_refl
            | exact fun _ => Nat.le_refl _)
        | exact .inr rfl | skip)
    | with_reducible (first
        | intro _ | apply within_ite | apply within_ite2 | apply Within.go State.onLink_within
        | apply Within.go setJoined_within)
    | split

theorem takeFrame_within {l : LinkNo} {f : SlFrame} {s : State} :
    Within 17263755264 s (takeFrame l f s).2 := by
  unfold takeFrame
  repeat' first
    | apply Eq.refl | with_reducible (first | apply Within.refl | assumption) | unfold x
    | ((try lift_lets); intro x; first
        | (refine (fun hx => ?_ : Within 17263755264 s x → _) ?_; clear_value x) | skip)
    | with_reducible (first
        | intro _ | apply within_ite | apply within_ite2 | apply Within.go State.onLink_within
        | apply Within.go deliverFrame_within | apply Within.go takeMap_within | apply Within.go takeJoin_within)
    | split

theorem frameLost_within {l : LinkNo} {s : State} :
    Within 17263755264 s (frameLost l s) := by
  unfold frameLost
  repeat' first
    | apply Eq.refl | with_reducible (first | apply Within.refl | assumption)
    | with_reducible (first
        | intro _ | apply within_ite | apply within_ite2 | apply Within.go State.onLink_within
        | apply Within.go discardFrame_within)
    | split

theorem frameReceived_within {l : LinkNo} {f : SlFrame} {s : State} :
    Within 17263755264 s (frameReceived l f s) := by
  unfold frameReceived
  repeat' first
    | apply Eq.refl | with_reducible (first | apply Within.refl | assumption) | unfold x
    | ((try lift_lets); intro x; first
        | (refine (fun hx => ?_ : Within 17263755264 s x → _) ?_; clear_value x) | skip)
    | with_reducible (first
        | intro _ | apply within_ite | apply within_ite2 | apply Within.go State.onLink_within
        | apply Within.go setJoined_within | apply Within.go discardFrame_within | apply Within.go deliverFrame_within
        | apply Within.go takeAck_within | apply Within.go takeFrame_within)
    | split <;> try with_reducible cases congrArg Prod.snd ‹_ = (_, _)›

theorem burstReceived_within {l : LinkNo} {b : SlBurst} {s : State} :
    Within 17263755264 s (burstReceived l b s) := by
  unfold burstReceived
  repeat' first
    | apply Eq.refl | with_reducible (first | apply Within.refl | assumption)
    | with_reducible (first | intro _ | apply Within.go frameLost_within | apply Within.go frameReceived_within)
    | split

theorem frameRetransmit_within {l : LinkNo} {s : State} :
    Within 17263755264 s (frameRetransmit l s) := by
  unfold frameRetransmit
  repeat' first
    | apply Eq.refl | with_reducible (first | apply Within.refl | assumption) | unfold x
    | ((try lift_lets); intro x; first
        | (refine (fun hx => ?_ : Within 17263755264 s x → _) ?_; clear_value x) | skip)
    | with_reducible (first
        | intro _ | apply within_ite | apply within_ite2 | apply Within.go State.onLink_within
        | apply Within.go setJoined_within | apply Within.go discardFrame_within | apply Within.go sendFrameOn_within)
    | split

theorem joinRequest_within {id : BitVec 64} {s : State} :
    Within 17263755264 s (joinRequest id s) := by
  unfold joinRequest
  repeat' first
    | apply Eq.refl | with_reducible (first | apply Within.refl | assumption) | unfold x
    | ((try lift_lets); intro x; first
        | (refine (fun hx => ?_ : Within 17263755264 s x → _) ?_; clear_value x) | skip)
    | fail_if_no_progress ((with_reducible apply within_mk) <;> first
        | with_reducible (first
            | exact .inl rfl | exact (fun x => x) | exact .inl (fun _ x => x) | apply Nat.le_refl
            | exact fun _ => Nat.le_refl _)
        | exact .inr rfl | skip)
    | with_reducible (first
        | intro _ | apply within_ite | apply within_ite2 | apply Within.go State.onLink_within
        | apply Within.go sendFrameOn_within | apply Within.go deliverFrame_within)
    | split

theorem toneTest_within {u : ToneUnitNo} {pass : Bool} {s : State} :
    Within 17263755264 s (toneTest u pass s) := by
  unfold toneTest
  repeat' first
    | apply Eq.refl | with_reducible (first | apply Within.refl | assumption) | unfold x
    | ((try lift_lets); intro x; first
        | (refine (fun hx => ?_ : Within 17263755264 s x → _) ?_; clear_value x) | skip)
    | fail_if_no_progress ((with_reducible apply within_mk) <;> first
        | with_reducible (first
            | exact .inl rfl | exact (fun x => x) | exact .inl (fun _ x => x) | apply Nat.le_refl
            | exact (fun _ => Nat.le_refl _) | apply Nat.le_add_right)
        | exact .inr rfl | skip)
    | with_reducible (first
        | intro _ | apply within_ite | apply within_ite2 | apply Within.go State.onLink_within
        | apply Within.via (forEach_within ?_) | apply Within.go raise_within)
    | split <;> try with_reducible cases congrArg Prod.snd ‹_ = (_, _)›

theorem timeBaseLost_within {s : State} :
    Within 17263755264 s (timeBaseLost s) := by
  unfold timeBaseLost
  repeat' first
    | apply Eq.refl | with_reducible (first | apply Within.refl | assumption)
    | fail_if_no_progress ((with_reducible apply within_mk) <;> first
        | with_reducible (first
            | exact .inl rfl | exact (fun x => x) | exact .inl (fun _ x => x) | apply Nat.le_refl
            | exact fun _ => Nat.le_refl _)
        | exact .inr rfl | skip)
    | with_reducible (first | intro _ | apply within_ite | apply within_ite2 | apply Within.go raise_within) | split

theorem timeBaseResumed_within {s : State} :
    Within 17263755264 s (timeBaseResumed s) := by
  unfold timeBaseResumed
  repeat' first
    | apply Eq.refl | with_reducible (first | apply Within.refl | assumption) | unfold x
    | ((try lift_lets); intro x; first
        | (refine (fun hx => ?_ : Within 17263755264 s x → _) ?_; clear_value x) | skip)
    | fail_if_no_progress ((with_reducible apply within_mk) <;> first
        | with_reducible (first
            | exact .inl rfl | exact (fun x => x) | exact .inl (fun _ x => x) | apply Nat.le_refl
            | exact fun _ => Nat.le_refl _)
        | exact .inr rfl | skip)
    | with_reducible (first | intro _ | apply within_ite | apply within_ite2 | apply Within.go raiseEnd_within)
    | split

theorem hostSilence_within {s : State} :
    Within 16777216 s (hostSilence s) := by
  unfold hostSilence
  repeat' first
    | apply Eq.refl | with_reducible (first | apply Within.refl | assumption)
    | fail_if_no_progress ((with_reducible apply within_mk) <;> first
        | with_reducible (first
            | exact .inl rfl | exact (fun x => x) | exact .inl (fun _ x => x) | apply Nat.le_refl
            | exact fun _ => Nat.le_refl _)
        | exact .inr rfl | skip)
    | with_reducible (first | intro _ | apply within_ite | apply within_ite2) | split

theorem hostSpoke_within {s : State} :
    Within 16777216 s (hostSpoke s) := by
  unfold hostSpoke
  repeat' first
    | apply Eq.refl | with_reducible (first | apply Within.refl | assumption)
    | fail_if_no_progress ((with_reducible apply within_mk) <;> first
        | with_reducible (first
            | exact .inl rfl | exact (fun x => x) | exact .inl (fun _ x => x) | apply Nat.le_refl
            | exact fun _ => Nat.le_refl _)
        | exact .inr rfl | skip)
    | with_reducible (first | intro _) | split

theorem onSite_within {mm : Nat} (e : 16777216 ||| mm = mm) {f : List Byte → State → Reply × State} {y0 : List Byte}
    {y1 : State}
    (hf : ∀ z0 z1, Within mm z1 (f z0 z1).2) :
    Within mm y1 (onSite f y0 y1).2 := by
  unfold onSite
  repeat' first
    | apply Eq.refl | exact lorTrans (b := 16777216) rfl e | with_reducible (first | apply Within.refl | assumption)
    | with_reducible (first
        | intro _ | apply Within.go hostSpoke_within | apply Within.via (onFescue_within ?_ ?_)
        | apply Within.via (hf ..))
    | split

theorem siteRead_within {index : Nat} {s : State} :
    Within 16777216 s (siteRead index s).2 := by
  unfold siteRead
  repeat' first
    | apply Eq.refl | with_reducible (first | apply Within.refl | assumption) | unfold x
    | ((try lift_lets); intro x; first | (refine (fun hx => ?_ : Within 16777216 s x → _) ?_; clear_value x) | skip)
    | with_reducible (first | intro _ | apply within_ite | apply within_ite2 | apply Within.go State.onLink_within)
    | split

theorem siteLineStatus_within {c : Cmd} {y0 : State} :
    Within 1222002081792 y0 (siteLineStatus c y0) := by
  unfold siteLineStatus
  repeat' first
    | apply Eq.refl | with_reducible (first | apply Within.refl | assumption)
    | with_reducible (first
        | intro _ | apply Within.via (runCmd_within ?_ ?_) | apply Within.via (onSite_within ?_ ?_)
        | apply Within.go siteRead_within)
    | split

theorem siteLineConfiguration_within {c : Cmd} {y0 : State} :
    Within 1222002081792 y0 (siteLineConfiguration c y0) := by
  unfold siteLineConfiguration
  repeat' first
    | apply Eq.refl | with_reducible (first | apply Within.refl | assumption) | unfold x
    | ((try lift_lets); intro x; first
        | (refine (fun hx => ?_ : Within 1222002081792 y0 x → _) ?_; clear_value x) | skip)
    | fail_if_no_progress ((with_reducible apply within_mk) <;> first
        | with_reducible (first
            | exact .inl rfl | exact (fun x => x) | exact .inl (fun _ x => x) | apply Nat.le_refl
            | exact fun _ => Nat.le_refl _)
        | exact .inr rfl | skip)
    | with_reducible (first
        | intro _ | apply Within.via (runCmd_within ?_ ?_) | apply Within.via (checked_within ?_ ?_)
        | apply Within.via (onSite_within ?_ ?_))
    | split

theorem linkEntry_within {c : Cmd} {y0 : State} :
    Within 1222002081792 y0 (linkEntry c y0) := by
  unfold linkEntry
  repeat' first
    | apply Eq.refl | with_reducible (first | apply Within.refl | assumption) | unfold x
    | ((try lift_lets); intro x; first
        | (refine (fun hx => ?_ : Within 1222002081792 y0 x → _) ?_; clear_value x) | skip)
    | with_reducible (first
        | intro _ | apply Within.go State.onLink_within | apply Within.via (runCmd_within ?_ ?_)
        | apply Within.via (checked_within ?_ ?_) | apply Within.via (onSite_within ?_ ?_))
    | split

theorem queueFrame_within {f : SlFrame} {l : LinkNo} {s : State} :
    Within 16777216 s (queueFrame f l s) := by
  unfold queueFrame
  repeat' first
    | apply Eq.refl | with_reducible (first | apply Within.refl | assumption)
    | with_reducible (first | intro _ | apply Within.go State.onLink_within) | split

theorem sendSiteFrame_within {c : Cmd} {p : List Byte} {s : State} :
    Within 16777216 s (sendSiteFrame c p s).2 := by
  unfold sendSiteFrame
  repeat' first
    | apply Eq.refl | with_reducible (first | apply Within.refl | assumption)
    | with_reducible (first
        | intro _ | apply within_ite | apply within_ite2 | apply Within.via (forEach_within ?_)
        | apply Within.via (checked_within ?_ ?_) | apply Within.go queueFrame_within)
    | unfold x
    | ((try lift_lets); intro x; first | (refine (fun hx => ?_ : Within 16777216 s x → _) ?_; clear_value x) | skip)
    | split

theorem sendFrame_within {c : Cmd} {y0 : State} :
    Within 1222002081792 y0 (sendFrame c y0) := by
  unfold sendFrame
  repeat' first
    | apply Eq.refl | with_reducible (first | apply Within.refl | assumption)
    | with_reducible (first
        | intro _ | apply Within.via (runCmd_within ?_ ?_) | apply Within.via (onSite_within ?_ ?_)
        | apply Within.go sendSiteFrame_within)
    | split

theorem takeReceived_within {index : Nat} {s : State} :
    Within 16777216 s (takeReceived index s).2 := by
  unfold takeReceived
  repeat' first
    | apply Eq.refl | with_reducible (first | apply Within.refl | assumption)
    | with_reducible (first | intro _ | apply Within.go State.onLink_within)
    | split <;> try with_reducible cases congrArg Prod.snd ‹_ = (_, _)›

theorem receiveFrame_within {c : Cmd} {y0 : State} :
    Within 1222002081792 y0 (receiveFrame c y0) := by
  unfold receiveFrame
  repeat' first
    | apply Eq.refl | with_reducible (first | apply Within.refl | assumption)
    | with_reducible (first
        | intro _ | apply within_ite | apply within_ite2 | apply Within.via (runCmd_within ?_ ?_)
        | apply Within.via (onSite_within ?_ ?_) | apply Within.go takeReceived_within)
    | split

theorem beaconBytes_within {c : Cmd} {y0 : State} :
    Within 1222002081792 y0 (beaconBytes c y0) := by
  unfold beaconBytes
  repeat' first
    | apply Eq.refl | with_reducible (first | apply Within.refl | assumption)
    | fail_if_no_progress ((with_reducible apply within_mk) <;> first
        | with_reducible (first
            | exact .inl rfl | exact (fun x => x) | exact .inl (fun _ x => x) | apply Nat.le_refl
            | exact fun _ => Nat.le_refl _)
        | exact .inr rfl | skip)
    | with_reducible (first
        | intro _ | apply within_ite | apply within_ite2 | apply Within.via (runCmd_within ?_ ?_)
        | apply Within.via (checked_within ?_ ?_) | apply Within.via (onSite_within ?_ ?_))
    | split

theorem runForwarded1_within {op : Nat} {c : Cmd} {s : State} :
    Within 4397727743983 s (runForwarded1 op c s) := by
  unfold runForwarded1
  repeat' first
    | apply Eq.refl | with_reducible (first | apply Within.refl | assumption)
    | with_reducible (first
        | intro _ | apply Within.go outletRoleAssignment_within | apply Within.go userCalibration_within
        | apply Within.go meteringMode_within | apply Within.go enterCommissioning_within
        | apply Within.go leaveCommissioningCmd_within | apply Within.go dieReset_within
        | apply Within.go networkSettings_within | apply Within.go mailboxKeySlots_within
        | apply Within.go setQspiAuthority_within | apply Within.go confirmExport_within
        | apply Within.go acknowledgeLegalLog_within | apply Within.go tariffParameters_within
        | apply Within.go loadPassiveCalendar_within | apply Within.go setLegalTime_within
        | apply Within.go demandInterval_within | apply Within.go confirmTariffSwitch_within
        | apply Within.go displaySelection_within)
    | split

theorem runForwarded2_within {op : Nat} {c : Cmd} {s : State} :
    Within 1222572441600 s (runForwarded2 op c s) := by
  unfold runForwarded2
  repeat' first
    | apply Eq.refl | with_reducible (first | apply Within.refl | assumption)
    | with_reducible (first
        | intro _ | apply Within.go vehicleLinkConfiguration_within | apply Within.go loadLimit_within
        | apply Within.go sessionMode_within | apply Within.go policyAnswer_within
        | apply Within.go certificateAnswer_within | apply Within.go endSession_within
        | apply Within.go setEnable_within | apply Within.go clearEnable_within | apply Within.go openRequest_within
        | apply Within.go lockoutRelease_within | apply Within.go brakeCommand_within
        | apply Within.go classERequest_within | apply Within.go writeLimitedSetting_within
        | apply Within.go channelConfiguration_within | apply Within.go channelControl_within
        | apply Within.go channelRule_within | apply Within.go hostFlags_within
        | apply Within.go aggregateMaximum_within)
    | split

theorem runForwarded3_within {op : Nat} {c : Cmd} {s : State} :
    Within 3710850908162 s (runForwarded3 op c s) := by
  unfold runForwarded3
  repeat' first
    | apply Eq.refl | with_reducible (first | apply Within.refl | assumption)
    | with_reducible (first
        | intro _ | apply Within.go contactlessConfiguration_within | apply Within.go loadAllowlist_within
        | apply Within.go cardExchange_within | apply Within.go tagMemory_within | apply Within.go openStaging_within
        | apply Within.go imageBody_within | apply Within.go imageCommit_within | apply Within.go stagingAbort_within
        | apply Within.go plannedHandover_within | apply Within.go clearSuspectCmd_within
        | apply Within.go eventRouting_within | apply Within.go clearPending_within | apply Within.go writeKey_within
        | apply Within.go loadShadow_within | apply Within.go testShadow_within | apply Within.go commitShadow_within
        | apply Within.go lifecycleMove_within | apply Within.go siteLineConfiguration_within
        | apply Within.go linkEntry_within | apply Within.go sendFrame_within | apply Within.go beaconBytes_within)
    | split

theorem runForwarded_within {op : Nat} {c : Cmd} {s : State} :
    Within 4398046511087 s (runForwarded op c s) := by
  unfold runForwarded
  repeat' first
    | apply Eq.refl | with_reducible (first | apply Within.refl | assumption) | unfold x
    | ((try lift_lets); intro x; first
        | (refine (fun hx => ?_ : Within 4398046511087 s x → _) ?_; clear_value x) | skip)
    | with_reducible (first
        | intro _ | apply within_ite | apply within_ite2 | apply Within.go runForwarded1_within
        | apply Within.go runForwarded2_within | apply Within.go runForwarded3_within)
    | split

theorem setRole_within {r : Role} {s : State} :
    Within 2 s (setRole r s) := by
  unfold setRole
  repeat' first
    | apply Eq.refl | with_reducible (first | apply Within.refl | assumption)
    | fail_if_no_progress ((with_reducible apply within_mk) <;> first
        | with_reducible (first
            | exact .inl rfl | exact (fun x => x) | exact .inl (fun _ x => x) | apply Nat.le_refl
            | exact fun _ => Nat.le_refl _)
        | exact .inr rfl | skip)
    | with_reducible (first | intro _ | apply within_ite | apply within_ite2) | split

theorem abortForeign_within {s : State} :
    Within 1122127314946 s (abortForeign s) := by
  unfold abortForeign
  repeat' first
    | apply Eq.refl | with_reducible (first | apply Within.refl | assumption)
    | with_reducible (first | intro _ | apply within_ite | apply within_ite2 | apply Within.go abortStaging_within)
    | split

theorem becomeActive_within {s : State} :
    Within 1124313600258 s (becomeActive s) := by
  unfold becomeActive
  repeat' first
    | apply Eq.refl | with_reducible (first | apply Within.refl | assumption) | unfold x
    | ((try lift_lets); intro x; first
        | (refine (fun hx => ?_ : Within 1124313600258 s x → _) ?_; clear_value x) | skip)
    | fail_if_no_progress ((with_reducible apply within_mk) <;> first
        | with_reducible (first
            | exact .inl rfl | exact (fun x => x) | exact .inl (fun _ x => x) | apply Nat.le_refl
            | exact fun _ => Nat.le_refl _)
        | exact .inr rfl | skip)
    | with_reducible (first
        | intro _ | apply Within.go raise_within | apply Within.go settle_within
        | apply Within.go refreshDrives_within | apply Within.go flushWaiting_within
        | apply Within.go abandonPolls_within | apply Within.go setRole_within | apply Within.go abortForeign_within)
    | split

theorem answerHandover_within {s : State} :
    Within 105226698752 s (answerHandover s) := by
  unfold answerHandover
  repeat' first
    | apply Eq.refl | with_reducible (first | apply Within.refl | assumption)
    | fail_if_no_progress ((with_reducible apply within_mk) <;> first
        | with_reducible (first
            | exact .inl rfl | exact (fun x => x) | exact .inl (fun _ x => x) | apply Nat.le_refl
            | exact fun _ => Nat.le_refl _)
        | exact .inr rfl | skip)
    | with_reducible (first | intro _ | apply Within.go answer_within)
    | split <;> try with_reducible cases congrArg Prod.snd ‹_ = (_, _)›

theorem becomeStandby_within {s : State} :
    Within 1226314874882 s (becomeStandby s) := by
  unfold becomeStandby
  repeat' first
    | apply Eq.refl | with_reducible (first | apply Within.refl | assumption) | unfold x
    | ((try lift_lets); intro x; first
        | (refine (fun hx => ?_ : Within 1226314874882 s x → _) ?_; clear_value x) | skip)
    | fail_if_no_progress ((with_reducible apply within_mk) <;> first
        | with_reducible (first
            | exact .inl rfl | exact (fun x => x) | exact .inl (fun _ x => x) | apply Nat.le_refl
            | exact fun _ => Nat.le_refl _)
        | exact .inr rfl | skip)
    | with_reducible (first
        | intro _ | apply Within.go raise_within | apply Within.go settle_within
        | apply Within.go refreshDrives_within | apply Within.go abandonPolls_within | apply Within.go setRole_within
        | apply Within.go answerHandover_within)
    | split

theorem takeLease_within {s : State} :
    Within 1118907662338 s (takeLease s) := by
  unfold takeLease
  repeat' first
    | apply Eq.refl | with_reducible (first | apply Within.refl | assumption)
    | fail_if_no_progress ((with_reducible apply within_mk) <;> first
        | with_reducible (first
            | exact .inl rfl | exact (fun x => x) | exact .inl (fun _ x => x) | apply Nat.le_refl
            | exact fun _ => Nat.le_refl _)
        | exact .inr rfl | skip)
    | with_reducible (first
        | intro _ | apply Within.go raise_within | apply Within.go settle_within
        | apply Within.go refreshDrives_within)
    | split

theorem setLane_within {l : LaneHas} {up : Bool} {s : State} :
    Within 19394461696 s (setLane l up s) := by
  unfold setLane
  repeat' first
    | apply Eq.refl | with_reducible (first | apply Within.refl | assumption)
    | fail_if_no_progress ((with_reducible apply within_mk) <;> first
        | with_reducible (first
            | exact .inl rfl | exact (fun x => x) | exact .inl (fun _ x => x) | apply Nat.le_refl
            | exact fun _ => Nat.le_refl _)
        | exact .inr rfl | skip)
    | with_reducible (first | intro _ | apply within_ite | apply within_ite2 | apply Within.go raise_within) | split

theorem noteYield_within {s : State} :
    Within 2147483648 s (noteYield s) := by
  unfold noteYield
  repeat' first
    | apply Eq.refl | with_reducible (first | apply Within.refl | assumption)
    | fail_if_no_progress ((with_reducible apply within_mk) <;> first
        | with_reducible (first
            | exact .inl rfl | exact (fun x => x) | exact .inl (fun _ x => x) | apply Nat.le_refl
            | exact fun _ => Nat.le_refl _)
        | exact .inr rfl | skip)
    | with_reducible (first | intro _ | apply within_ite | apply within_ite2) | split

theorem seesLease_within {s : State} :
    Within 1226314874882 s (seesLease s) := by
  unfold seesLease
  repeat' first
    | apply Eq.refl | with_reducible (first | apply Within.refl | assumption)
    | fail_if_no_progress ((with_reducible apply within_mk) <;> first
        | with_reducible (first
            | exact .inl rfl | exact (fun x => x) | exact .inl (fun _ x => x) | apply Nat.le_refl
            | exact fun _ => Nat.le_refl _)
        | exact .inr rfl | skip)
    | with_reducible (first
        | intro _ | apply within_ite | apply within_ite2 | apply Within.go refreshDrives_within
        | apply Within.go becomeStandby_within)
    | split

theorem seesCarry_within {s : State} :
    Within 1226314874882 s (seesCarry s) := by
  unfold seesCarry
  repeat' first
    | apply Eq.refl | with_reducible (first | apply Within.refl | assumption)
    | with_reducible (first | intro _ | apply within_ite | apply within_ite2 | apply Within.go seesLease_within)
    | split

theorem heartbeat_within {b : Heartbeat} {s : State} :
    Within 1226314874882 s (heartbeat b s) := by
  unfold heartbeat
  repeat' first
    | apply Eq.refl | with_reducible (first | apply Within.refl | assumption) | unfold x
    | ((try lift_lets); intro x; first
        | (refine (fun hx => ?_ : Within 1226314874882 s x → _) ?_; clear_value x) | skip)
    | fail_if_no_progress ((with_reducible apply within_mk) <;> first
        | with_reducible (first
            | exact .inl rfl | exact (fun x => x) | exact .inl (fun _ x => x) | apply Nat.le_refl
            | exact fun _ => Nat.le_refl _)
        | exact .inr rfl | skip)
    | with_reducible (first
        | intro _ | apply within_ite | apply within_ite2 | apply Within.go setLane_within
        | apply Within.go noteYield_within | apply Within.go seesLease_within | apply Within.go seesCarry_within)
    | split

theorem abandonTransfer_within {s : State} :
    Within 2147483648 s (abandonTransfer s) := by
  unfold abandonTransfer
  repeat' first
    | apply Eq.refl | with_reducible (first | apply Within.refl | assumption)
    | fail_if_no_progress ((with_reducible apply within_mk) <;> first
        | with_reducible (first
            | exact .inl rfl | exact (fun x => x) | exact .inl (fun _ x => x) | apply Nat.le_refl
            | exact fun _ => Nat.le_refl _)
        | exact .inr rfl | skip)
    | with_reducible (first | intro _ | apply within_ite | apply within_ite2) | split

theorem linkLost_within {s : State} :
    Within 19394461696 s (linkLost s) := by
  unfold linkLost
  repeat' first
    | apply Eq.refl | with_reducible (first | apply Within.refl | assumption) | unfold x
    | ((try lift_lets); intro x; first
        | (refine (fun hx => ?_ : Within 19394461696 s x → _) ?_; clear_value x) | skip)
    | fail_if_no_progress ((with_reducible apply within_mk) <;> first
        | with_reducible (first
            | exact .inl rfl | exact (fun x => x) | exact .inl (fun _ x => x) | apply Nat.le_refl
            | exact fun _ => Nat.le_refl _)
        | exact .inr rfl | skip)
    | with_reducible (first
        | intro _ | apply within_ite | apply within_ite2 | apply Within.go raise_within
        | apply Within.go setLane_within | apply Within.go abandonTransfer_within)
    | split

theorem linkKeyed_within {point : BitVec 256} {legalId : Word} {signing : BitVec 8} {headers : List (List Byte)}
    {s : State} :
    Within 20468203520 s (linkKeyed point legalId signing headers s) := by
  unfold linkKeyed
  repeat' first
    | apply Eq.refl | with_reducible (first | apply Within.refl | assumption) | unfold x
    | ((try lift_lets); intro x; first
        | (refine (fun hx => ?_ : Within 20468203520 s x → _) ?_; clear_value x) | skip)
    | fail_if_no_progress ((with_reducible apply within_mk) <;> first
        | with_reducible (first
            | exact .inl rfl | exact (fun x => x) | exact .inl (fun _ x => x) | apply Nat.le_refl
            | exact fun _ => Nat.le_refl _)
        | exact .inr rfl | skip)
    | with_reducible (first
        | intro _ | apply within_ite | apply within_ite2 | apply Within.go raise_within
        | apply Within.go derive_within | apply Within.go startTransfer_within)
    | split

theorem linkKey_within {point : BitVec 256} {legalId : Word} {signing : BitVec 8} {headers : List (List Byte)}
    {s : State} :
    Within 20468203520 s (linkKey point legalId signing headers s) := by
  unfold linkKey
  repeat' first
    | apply Eq.refl | with_reducible (first | apply Within.refl | assumption)
    | fail_if_no_progress ((with_reducible apply within_mk) <;> first
        | with_reducible (first
            | exact .inl rfl | exact (fun x => x) | exact .inl (fun _ x => x) | apply Nat.le_refl
            | exact fun _ => Nat.le_refl _)
        | exact .inr rfl | skip)
    | with_reducible (first
        | intro _ | apply within_ite | apply within_ite2 | apply Within.go raise_within
        | apply Within.go linkKeyed_within)
    | split <;> try with_reducible cases congrArg Prod.snd ‹_ = (_, _)›

theorem takeForwarded_within {f : Forwarded} {s : State} :
    Within 2147483648 s (takeForwarded f s) := by
  unfold takeForwarded
  repeat' first
    | apply Eq.refl | with_reducible (first | apply Within.refl | assumption)
    | fail_if_no_progress ((with_reducible apply within_mk) <;> first
        | with_reducible (first
            | exact .inl rfl | exact (fun x => x) | exact .inl (fun _ x => x) | apply Nat.le_refl
            | exact fun _ => Nat.le_refl _)
        | exact .inr rfl | skip)
    | with_reducible (first | intro _ | apply within_ite | apply within_ite2) | split

theorem runDue_within {s : State} :
    Within 4398046511087 s (runDue s) := by
  unfold runDue
  repeat' first
    | apply Eq.refl | with_reducible (first | apply Within.refl | assumption) | unfold x
    | ((try lift_lets); intro x; first
        | (refine (fun hx => ?_ : Within 4398046511087 s x → _) ?_; clear_value x) | skip)
    | fail_if_no_progress ((with_reducible apply within_mk) <;> first
        | with_reducible (first
            | exact .inl rfl | exact (fun x => x) | exact .inl (fun _ x => x) | apply Nat.le_refl
            | exact fun _ => Nat.le_refl _)
        | exact .inr rfl | skip)
    | with_reducible (first
        | intro _ | apply within_ite | apply within_ite2 | apply Within.go runForwarded_within | apply within_foldl)
    | split

theorem replay_within {s : State} :
    Within 4398046511087 s (replay s) := by
  unfold replay
  repeat' first
    | apply Eq.refl | with_reducible (first | apply Within.refl | assumption)
    | fail_if_no_progress ((with_reducible apply within_mk) <;> first
        | with_reducible (first
            | exact .inl rfl | exact (fun x => x) | exact .inl (fun _ x => x) | apply Nat.le_refl
            | exact fun _ => Nat.le_refl _)
        | exact .inr rfl | skip)
    | with_reducible (first | intro _ | apply Within.go runForwarded_within | apply within_foldl) | split

theorem takeSession_within {x : SessionCopy} {s : State} :
    Within 2097152 s (takeSession x s) := by
  unfold takeSession
  repeat' first
    | apply Eq.refl | with_reducible (first | apply Within.refl | assumption)
    | with_reducible (first | intro _ | apply Within.go State.onSession_within) | split

theorem takeKey_within {x : KeyCopy} {s : State} :
    Within 134217728 s (takeKey x s) := by
  unfold takeKey
  repeat' first
    | apply Eq.refl | with_reducible (first | apply Within.refl | assumption)
    | with_reducible (first | intro _ | apply Within.go State.onSlot_within) | split

theorem takeChannel_within {x : ChannelCopy} {s : State} :
    Within 8388608 s (takeChannel x s) := by
  unfold takeChannel
  repeat' first
    | apply Eq.refl | with_reducible (first | apply Within.refl | assumption)
    | with_reducible (first | intro _ | apply within_ite | apply within_ite2 | apply Within.go State.onChan_within)
    | split

theorem takeTransfer_within {t : TransferContent} {s : State} :
    Within 4398046511087 s (takeTransfer t s) := by
  unfold takeTransfer
  repeat' first
    | apply Eq.refl | with_reducible (first | apply Within.refl | assumption) | unfold x
    | ((try lift_lets); intro x; first
        | (refine (fun hx => ?_ : Within 4398046511087 s x → _) ?_; clear_value x) | skip)
    | with_reducible (first
        | intro _ | apply Within.go runForwarded_within | apply Within.go takeSession_within
        | apply Within.go takeKey_within | apply Within.go takeChannel_within | apply within_foldl)
    | split

theorem resumeHandover_within {s : State} :
    Within 2147483648 s (resumeHandover s) := by
  unfold resumeHandover
  repeat' first
    | apply Eq.refl | with_reducible (first | apply Within.refl | assumption)
    | fail_if_no_progress ((with_reducible apply within_mk) <;> first
        | with_reducible (first
            | exact .inl rfl | exact (fun x => x) | exact .inl (fun _ x => x) | apply Nat.le_refl
            | exact fun _ => Nat.le_refl _)
        | exact .inr rfl | skip)
    | with_reducible (first | intro _) | split <;> try with_reducible cases congrArg Prod.snd ‹_ = (_, _)›

theorem transferEnds_within {full : Bool} {t : TransferContent} {s : State} :
    Within 4398046511087 s (transferEnds full t s) := by
  unfold transferEnds
  repeat' first
    | apply Eq.refl | with_reducible (first | apply Within.refl | assumption) | unfold x
    | ((try lift_lets); intro x; first
        | (refine (fun hx => ?_ : Within 4398046511087 s x → _) ?_; clear_value x) | skip)
    | fail_if_no_progress ((with_reducible apply within_mk) <;> first
        | with_reducible (first
            | exact .inl rfl | exact (fun x => x) | exact .inl (fun _ x => x) | apply Nat.le_refl
            | exact fun _ => Nat.le_refl _)
        | exact .inr rfl | skip)
    | with_reducible (first
        | intro _ | apply within_ite | apply within_ite2 | apply Within.go settle_within
        | apply Within.go refreshDrives_within | apply Within.go replay_within | apply Within.go takeTransfer_within
        | apply Within.go resumeHandover_within)
    | split

theorem openExtra_within {s : State} :
    Within 2199023452160 s (openExtra s) := by
  unfold openExtra
  repeat' first
    | apply Eq.refl | with_reducible (first | apply Within.refl | assumption) | unfold x
    | ((try lift_lets); intro x; first
        | (refine (fun hx => ?_ : Within 2199023452160 s x → _) ?_; clear_value x) | skip)
    | with_reducible (first
        | intro _ | apply within_ite | apply within_ite2 | apply Within.via (forEach_within ?_)
        | apply Within.go takeFree_within | apply Within.go openPair_within)
    | split <;> try with_reducible cases congrArg Prod.snd ‹_ = (_, _)›

theorem standbyMismatch_within {bits : Nat} {s : State} :
    Within 2218417913856 s (standbyMismatch bits s) := by
  unfold standbyMismatch
  repeat' first
    | apply Eq.refl | with_reducible (first | apply Within.refl | assumption) | unfold x
    | ((try lift_lets); intro x; first
        | (refine (fun hx => ?_ : Within 2218417913856 s x → _) ?_; clear_value x) | skip)
    | with_reducible (first
        | intro _ | apply within_ite | apply within_ite2 | apply Within.go mismatch_within
        | apply Within.go startTransfer_within | apply Within.go openExtra_within)
    | split

theorem activeMismatch_within {bits : Nat} {s : State} :
    Within 2147483648 s (activeMismatch bits s) := by
  unfold activeMismatch
  repeat' first
    | apply Eq.refl | with_reducible (first | apply Within.refl | assumption) | unfold x
    | ((try lift_lets); intro x; first | (refine (fun hx => ?_ : Within 2147483648 s x → _) ?_; clear_value x) | skip)
    | fail_if_no_progress ((with_reducible apply within_mk) <;> first
        | with_reducible (first
            | exact .inl rfl | exact (fun x => x) | exact .inl (fun _ x => x) | apply Nat.le_refl
            | exact fun _ => Nat.le_refl _)
        | exact .inr rfl | skip)
    | with_reducible (first | intro _ | apply within_ite | apply within_ite2 | apply Within.go startTransfer_within)
    | split

theorem keepDigest_within {s : State} :
    Within 2147483648 s (keepDigest s) := by
  unfold keepDigest
  repeat' first
    | apply Eq.refl | with_reducible (first | apply Within.refl | assumption)
    | fail_if_no_progress ((with_reducible apply within_mk) <;> first
        | with_reducible (first
            | exact .inl rfl | exact (fun x => x) | exact .inl (fun _ x => x) | apply Nat.le_refl
            | exact fun _ => Nat.le_refl _)
        | exact .inr rfl | skip)
    | with_reducible (first | intro _) | split

theorem compareDigests_within {peer : Option (Nat × Digest)} {s : State} :
    Within 2218417913856 s (compareDigests peer s) := by
  unfold compareDigests
  repeat' first
    | apply Eq.refl | with_reducible (first | apply Within.refl | assumption) | unfold x
    | ((try lift_lets); intro x; first
        | (refine (fun hx => ?_ : Within 2218417913856 s x → _) ?_; clear_value x) | skip)
    | with_reducible (first
        | intro _ | apply within_ite | apply within_ite2 | apply Within.go standbyMismatch_within
        | apply Within.go activeMismatch_within)
    | split

theorem sendSealed_within {s : State} :
    Within 2147483648 s (sendSealed s) := by
  unfold sendSealed
  repeat' first
    | apply Eq.refl | with_reducible (first | apply Within.refl | assumption) | unfold x
    | ((try lift_lets); intro x; first | (refine (fun hx => ?_ : Within 2147483648 s x → _) ?_; clear_value x) | skip)
    | fail_if_no_progress ((with_reducible apply within_mk) <;> first
        | with_reducible (first
            | exact .inl rfl | exact (fun x => x) | exact .inl (fun _ x => x) | apply Nat.le_refl
            | exact fun _ => Nat.le_refl _)
        | exact .inr rfl | skip)
    | with_reducible (first | intro _ | apply within_ite | apply within_ite2) | split

theorem renewLease_within {s : State} :
    Within 17254842368 s (renewLease s) := by
  unfold renewLease
  repeat' first
    | apply Eq.refl | with_reducible (first | apply Within.refl | assumption)
    | fail_if_no_progress ((with_reducible apply within_mk) <;> first
        | with_reducible (first
            | exact .inl rfl | exact (fun x => x) | exact .inl (fun _ x => x) | apply Nat.le_refl
            | exact fun _ => Nat.le_refl _)
        | exact .inr rfl | skip)
    | with_reducible (first
        | intro _ | apply within_ite | apply within_ite2 | apply Within.via (forEach_within ?_)
        | apply Within.go useHeld_within)
    | split

theorem checkAck_within {acked : Bool} {s : State} :
    Within 2147483648 s (checkAck acked s) := by
  unfold checkAck
  repeat' first
    | apply Eq.refl | with_reducible (first | apply Within.refl | assumption)
    | fail_if_no_progress ((with_reducible apply within_mk) <;> first
        | with_reducible (first
            | exact .inl rfl | exact (fun x => x) | exact .inl (fun _ x => x) | apply Nat.le_refl
            | exact fun _ => Nat.le_refl _)
        | exact .inr rfl | skip)
    | with_reducible (first | intro _ | apply within_ite | apply within_ite2 | apply Within.go startTransfer_within)
    | split

theorem handoverDue_within {s : State} :
    Within 19395510274 s (handoverDue s) := by
  unfold handoverDue
  repeat' first
    | apply Eq.refl | with_reducible (first | apply Within.refl | assumption)
    | fail_if_no_progress ((with_reducible apply within_mk) <;> first
        | with_reducible (first
            | exact .inl rfl | exact (fun x => x) | exact .inl (fun _ x => x) | apply Nat.le_refl
            | exact fun _ => Nat.le_refl _)
        | exact .inr rfl | skip)
    | with_reducible (first
        | intro _ | apply within_ite | apply within_ite2 | apply Within.go raise_within
        | apply Within.go refreshDrives_within)
    | split

theorem epochStart_within {peer : Option (Nat × Digest)} {acked : Bool} {s : State} :
    Within 4398046511087 s (epochStart peer acked s) := by
  unfold epochStart
  repeat' first
    | apply Eq.refl | with_reducible (first | apply Within.refl | assumption) | unfold x
    | ((try lift_lets); intro x; first
        | (refine (fun hx => ?_ : Within 4398046511087 s x → _) ?_; clear_value x) | skip)
    | fail_if_no_progress ((with_reducible apply within_mk) <;> first
        | with_reducible (first
            | exact .inl rfl | exact (fun x => x) | exact .inl (fun _ x => x) | apply Nat.le_refl
            | exact fun _ => Nat.le_refl _)
        | exact .inr rfl | skip)
    | with_reducible (first
        | intro _ | apply within_ite | apply within_ite2 | apply Within.go settle_within
        | apply Within.go refreshDrives_within | apply Within.go becomeActive_within | apply Within.go runDue_within
        | apply Within.go keepDigest_within | apply Within.go compareDigests_within
        | apply Within.go sendSealed_within | apply Within.go renewLease_within | apply Within.go checkAck_within
        | apply Within.go handoverDue_within)
    | split

theorem adoptOutlet_within {o : OutletNo} {x : LegalOutlet} {s : State} :
    Within 4352 s (adoptOutlet o x s) := by
  unfold adoptOutlet
  repeat' first
    | apply Eq.refl | with_reducible (first | apply Within.refl | assumption) | unfold x
    | ((try lift_lets); intro x; first | (refine (fun hx => ?_ : Within 4352 s x → _) ?_; clear_value x) | skip)
    | fail_if_no_progress ((with_reducible apply within_mk) <;> first
        | with_reducible (first
            | exact .inl rfl | exact (fun x => x) | exact .inl (fun _ x => x) | apply Nat.le_refl
            | exact fun _ => Nat.le_refl _)
        | exact .inr rfl | skip)
    | with_reducible (first | intro _ | apply Within.go State.onMeter_within) | split

theorem adoptLegal_within {c : LegalCopy} {s : State} :
    Within 19394466048 s (adoptLegal c s) := by
  unfold adoptLegal
  repeat' first
    | apply Eq.refl | with_reducible (first | apply Within.refl | assumption) | unfold x
    | ((try lift_lets); intro x; first
        | (refine (fun hx => ?_ : Within 19394466048 s x → _) ?_; clear_value x) | skip)
    | fail_if_no_progress ((with_reducible apply within_mk) <;> first
        | with_reducible (first
            | exact .inl rfl | exact (fun x => x) | exact .inl (fun _ x => x) | apply Nat.le_refl
            | exact fun _ => Nat.le_refl _)
        | exact .inr rfl | skip)
    | with_reducible (first
        | intro _ | apply within_ite | apply within_ite2 | apply Within.go raise_within
        | apply Within.go adoptOutlet_within | apply within_foldl)
    | split

theorem refuseSealed_within {s : State} :
    Within 19394461696 s (refuseSealed s) := by
  unfold refuseSealed
  repeat' first
    | apply Eq.refl | with_reducible (first | apply Within.refl | assumption)
    | fail_if_no_progress ((with_reducible apply within_mk) <;> first
        | with_reducible (first
            | exact .inl rfl | exact (fun x => x) | exact .inl (fun _ x => x) | apply Nat.le_refl
            | exact fun _ => Nat.le_refl _)
        | exact .inr rfl | skip)
    | with_reducible (first | intro _ | apply Within.go raise_within) | split

theorem takeSealed_within {f : SealedFrame} {s : State} :
    Within 19394466048 s (takeSealed f s) := by
  unfold takeSealed
  repeat' first
    | apply Eq.refl | with_reducible (first | apply Within.refl | assumption) | unfold x
    | ((try lift_lets); intro x; first
        | (refine (fun hx => ?_ : Within 19394466048 s x → _) ?_; clear_value x) | skip)
    | fail_if_no_progress ((with_reducible apply within_mk) <;> first
        | with_reducible (first
            | exact .inl rfl | exact (fun x => x) | exact .inl (fun _ x => x) | apply Nat.le_refl
            | exact fun _ => Nat.le_refl _)
        | exact .inr rfl | skip)
    | with_reducible (first
        | intro _ | apply within_ite | apply within_ite2 | apply Within.go takeEntry_within
        | apply Within.go takeFlags_within | apply Within.go adoptLegal_within | apply within_foldl)
    | split

theorem sealedFrame_within {f : SealedFrame} {s : State} :
    Within 19394466048 s (sealedFrame f s) := by
  unfold sealedFrame
  repeat' first
    | apply Eq.refl | with_reducible (first | apply Within.refl | assumption)
    | with_reducible (first
        | intro _ | apply within_ite | apply within_ite2 | apply Within.go refuseSealed_within
        | apply Within.go takeSealed_within)
    | split

theorem sealedTimeout_within {o : OutletNo} {s : State} :
    Within 2147488000 s (sealedTimeout o s) := by
  unfold sealedTimeout
  repeat' first
    | apply Eq.refl | with_reducible (first | apply Within.refl | assumption) | unfold x
    | ((try lift_lets); intro x; first | (refine (fun hx => ?_ : Within 2147488000 s x → _) ?_; clear_value x) | skip)
    | fail_if_no_progress ((with_reducible apply within_mk) <;> first
        | with_reducible (first
            | exact .inl rfl | exact (fun x => x) | exact .inl (fun _ x => x) | apply Nat.le_refl
            | exact fun _ => Nat.le_refl _)
        | exact .inr rfl | skip)
    | with_reducible (first | intro _ | apply Within.go enterOwn_within) | split

theorem signContent_within {o : OutletNo} {content : List Byte} {r : SessionRecord} {s : State} :
    Within 19394465792 s (signContent o content r s) := by
  unfold signContent
  repeat' first
    | apply Eq.refl | with_reducible (first | apply Within.refl | assumption) | unfold x
    | ((try lift_lets); intro x; first
        | (refine (fun hx => ?_ : Within 19394465792 s x → _) ?_; clear_value x) | skip)
    | with_reducible (first
        | intro _ | apply within_ite | apply within_ite2 | apply Within.go legalMismatch_within
        | apply Within.go storeRecord_within)
    | split

theorem recordArrives_within {o : OutletNo} {content : List Byte} {s : State} :
    Within 19394465792 s (recordArrives o content s) := by
  unfold recordArrives
  repeat' first
    | apply Eq.refl | with_reducible (first | apply Within.refl | assumption)
    | with_reducible (first
        | intro _ | apply within_ite | apply within_ite2 | apply Within.go legalMismatch_within
        | apply Within.go signContent_within)
    | split

theorem leaseTaken_within {s : State} :
    Within 1118907662338 s (leaseTaken s) := by
  unfold leaseTaken
  repeat' first
    | apply Eq.refl | with_reducible (first | apply Within.refl | assumption)
    | with_reducible (first | intro _ | apply within_ite | apply within_ite2 | apply Within.go takeLease_within)
    | split

theorem dropOutOfStep_within {s : State} :
    Within 19401998336 s (dropOutOfStep s) := by
  unfold dropOutOfStep
  repeat' first
    | apply Eq.refl | with_reducible (first | apply Within.refl | assumption)
    | fail_if_no_progress ((with_reducible apply within_mk) <;> first
        | with_reducible (first
            | exact .inl rfl | exact (fun x => x) | exact .inl (fun _ x => x) | apply Nat.le_refl
            | exact fun _ => Nat.le_refl _)
        | exact .inr rfl | skip)
    | with_reducible (first
        | intro _ | apply within_ite | apply within_ite2 | apply Within.via (forEach_within ?_)
        | apply Within.go holdSession_within)
    | split

theorem takeover_within {s : State} :
    Within 1118914150402 s (takeover s) := by
  unfold takeover
  repeat' first
    | apply Eq.refl | with_reducible (first | apply Within.refl | assumption)
    | with_reducible (first
        | intro _ | apply within_ite | apply within_ite2 | apply Within.go takeLease_within
        | apply Within.go dropOutOfStep_within)
    | split

theorem carryOver_within {o : OutletNo} {s : State} :
    Within 2148532224 s (carryOver o s) := by
  unfold carryOver
  repeat' first
    | apply Eq.refl | with_reducible (first | apply Within.refl | assumption) | unfold x
    | ((try lift_lets); intro x; first | (refine (fun hx => ?_ : Within 2148532224 s x → _) ?_; clear_value x) | skip)
    | fail_if_no_progress ((with_reducible apply within_mk) <;> first
        | with_reducible (first
            | exact .inl rfl | exact (fun x => x) | exact .inl (fun _ x => x) | apply Nat.le_refl
            | exact fun _ => Nat.le_refl _)
        | exact .inr rfl | skip)
    | with_reducible (first | intro _ | apply within_ite | apply within_ite2 | apply Within.go State.onPilot_within)
    | split

theorem sensorFails_within {k : SensorNo} {s : State} :
    Within 25836912640 s (sensorFails k s) := by
  unfold sensorFails
  repeat' first
    | apply Eq.refl | with_reducible (first | apply Within.refl | assumption) | unfold x
    | ((try lift_lets); intro x; first
        | (refine (fun hx => ?_ : Within 25836912640 s x → _) ?_; clear_value x) | skip)
    | fail_if_no_progress ((with_reducible apply within_mk) <;> first
        | with_reducible (first
            | exact .inl rfl | exact (fun x => x) | exact .inl (fun _ x => x) | apply Nat.le_refl
            | exact fun _ => Nat.le_refl _)
        | exact .inr rfl | skip)
    | with_reducible (first | intro _ | apply within_ite | apply within_ite2 | apply Within.go raise_within) | split

theorem setSensor_within {k : SensorNo} {raw : Int} {s : State} :
    Within 25836912640 s (setSensor k raw s) := by
  unfold setSensor
  repeat' first
    | apply Eq.refl | with_reducible (first | apply Within.refl | assumption) | unfold x
    | ((try lift_lets); intro x; first
        | (refine (fun hx => ?_ : Within 25836912640 s x → _) ?_; clear_value x) | skip)
    | fail_if_no_progress ((with_reducible apply within_mk) <;> first
        | with_reducible (first
            | exact .inl rfl | exact (fun x => x) | exact .inl (fun _ x => x) | apply Nat.le_refl
            | exact fun _ => Nat.le_refl _)
        | exact .inr rfl | skip)
    | with_reducible (first | intro _ | apply within_ite | apply within_ite2 | apply Within.go sensorFails_within)
    | split

theorem stepDown_within {s : State} :
    Within 8589934592 s (stepDown s) := by
  unfold stepDown
  repeat' first
    | apply Eq.refl | with_reducible (first | apply Within.refl | assumption)
    | fail_if_no_progress ((with_reducible apply within_mk) <;> first
        | with_reducible (first
            | exact .inl rfl | exact (fun x => x) | exact .inl (fun _ x => x) | apply Nat.le_refl
            | exact fun _ => Nat.le_refl _)
        | exact .inr rfl | skip)
    | with_reducible (first | intro _ | apply within_ite | apply within_ite2) | split

theorem updateStages_within {s : State} :
    Within 25836912640 s (updateStages s) := by
  unfold updateStages
  repeat' first
    | apply Eq.refl | with_reducible (first | apply Within.refl | assumption) | unfold x
    | ((try lift_lets); intro x; first
        | (refine (fun hx => ?_ : Within 25836912640 s x → _) ?_; clear_value x) | skip)
    | fail_if_no_progress ((with_reducible apply within_mk) <;> first
        | with_reducible (first
            | exact .inl rfl | exact (fun x => x) | exact .inl (fun _ x => x) | apply Nat.le_refl
            | exact fun _ => Nat.le_refl _)
        | exact .inr rfl | skip)
    | with_reducible (first
        | intro _ | apply within_ite | apply within_ite2 | apply Within.go State.onJob_within
        | apply Within.go raise_within | apply Within.go stepDown_within)
    | split

theorem wearSecond_within {s : State} :
    Within 8589934592 s (wearSecond s) := by
  unfold wearSecond
  repeat' first
    | apply Eq.refl | with_reducible (first | apply Within.refl | assumption) | unfold x
    | ((try lift_lets); intro x; first | (refine (fun hx => ?_ : Within 8589934592 s x → _) ?_; clear_value x) | skip)
    | fail_if_no_progress ((with_reducible apply within_mk) <;> first
        | with_reducible (first
            | exact .inl rfl | exact (fun x => x) | exact .inl (fun _ x => x) | apply Nat.le_refl
            | exact fun _ => Nat.le_refl _)
        | exact .inr rfl | skip)
    | with_reducible (first | intro _ | apply within_ite | apply within_ite2) | split

theorem takeDies_within {ks : List SensorNo} {rs : List Int} {s : State} : Within 25836912640 s (takeDies ks rs s) := by
  induction ks generalizing rs s with
  | nil => unfold takeDies; exact .refl _ _
  | cons k ks ih =>
    cases rs with
    | nil => unfold takeDies; exact .refl _ _
    | cons r rs => unfold takeDies; exact Within.via ih (setSensor_within.mono rfl)

theorem thermalSecond_within {substrate : List Int} {dies : List Int} {s : State} :
    Within 25836912640 s (thermalSecond substrate dies s) := by
  unfold thermalSecond
  repeat' first
    | apply Eq.refl | with_reducible (first | apply Within.refl | assumption) | unfold x
    | ((try lift_lets); intro x; first
        | (refine (fun hx => ?_ : Within 25836912640 s x → _) ?_; clear_value x) | skip)
    | fail_if_no_progress ((with_reducible apply within_mk) <;> first
        | with_reducible (first
            | exact .inl rfl | exact (fun x => x) | exact .inl (fun _ x => x) | apply Nat.le_refl
            | exact fun _ => Nat.le_refl _)
        | exact .inr rfl | skip)
    | with_reducible (first
        | intro _ | apply within_ite | apply within_ite2 | apply Within.go setSensor_within
        | apply Within.go updateStages_within | apply Within.go wearSecond_within | apply Within.go takeDies_within)
    | split

theorem tjReading_within {reading : Int} {s : State} :
    Within 25836912640 s (tjReading reading s) := by
  unfold tjReading
  repeat' first
    | apply Eq.refl | with_reducible (first | apply Within.refl | assumption)
    | with_reducible (first
        | intro _ | apply within_ite | apply within_ite2 | apply Within.go setSensor_within
        | apply Within.go updateStages_within)
    | split

theorem stepUp_within {s : State} :
    Within 8589934592 s (stepUp s) := by
  unfold stepUp
  repeat' first
    | apply Eq.refl | with_reducible (first | apply Within.refl | assumption)
    | fail_if_no_progress ((with_reducible apply within_mk) <;> first
        | with_reducible (first
            | exact .inl rfl | exact (fun x => x) | exact .inl (fun _ x => x) | apply Nat.le_refl
            | exact fun _ => Nat.le_refl _)
        | exact .inr rfl | skip)
    | with_reducible (first | intro _ | apply within_ite | apply within_ite2) | split

theorem sensorDeviates_within {k : SensorNo} {s : State} :
    Within 25836912640 s (sensorDeviates k s) := by
  unfold sensorDeviates
  repeat' first
    | apply Eq.refl | with_reducible (first | apply Within.refl | assumption)
    | with_reducible (first | intro _ | apply within_ite | apply within_ite2 | apply Within.go sensorFails_within)
    | split

theorem sensorRecovers_within {k : SensorNo} {s : State} :
    Within 25836912640 s (sensorRecovers k s) := by
  unfold sensorRecovers
  repeat' first
    | apply Eq.refl | with_reducible (first | apply Within.refl | assumption)
    | fail_if_no_progress ((with_reducible apply within_mk) <;> first
        | with_reducible (first
            | exact .inl rfl | exact (fun x => x) | exact .inl (fun _ x => x) | apply Nat.le_refl
            | exact fun _ => Nat.le_refl _)
        | exact .inr rfl | skip)
    | with_reducible (first | intro _ | apply within_ite | apply within_ite2 | apply Within.go raiseEnd_within)
    | split

theorem storeReading_within {reading : Int} {s : State} :
    Within 25836912640 s (storeReading reading s) := by
  unfold storeReading
  repeat' first
    | apply Eq.refl | with_reducible (first | apply Within.refl | assumption) | unfold x
    | ((try lift_lets); intro x; first
        | (refine (fun hx => ?_ : Within 25836912640 s x → _) ?_; clear_value x) | skip)
    | fail_if_no_progress ((with_reducible apply within_mk) <;> first
        | with_reducible (first
            | exact .inl rfl | exact (fun x => x) | exact .inl (fun _ x => x) | apply Nat.le_refl
            | exact fun _ => Nat.le_refl _)
        | exact .inr rfl | skip)
    | with_reducible (first | intro _ | apply within_ite | apply within_ite2 | apply Within.go setSensor_within)
    | split

theorem overRangeReport_within {s : State} :
    Within 17246978048 s (overRangeReport s) := by
  unfold overRangeReport
  repeat' first
    | apply Eq.refl | with_reducible (first | apply Within.refl | assumption)
    | with_reducible (first | intro _ | apply within_ite | apply within_ite2 | apply Within.go raise_within) | split

theorem collectWindows_within {s : State} :
    Within 512 s (collectWindows s) := by
  unfold collectWindows
  repeat' first
    | apply Eq.refl | with_reducible (first | apply Within.refl | assumption)
    | fail_if_no_progress ((with_reducible apply within_mk) <;> first
        | with_reducible (first
            | exact .inl rfl | exact (fun x => x) | exact .inl (fun _ x => x) | apply Nat.le_refl
            | exact fun _ => Nat.le_refl _)
        | exact .inr rfl | skip)
    | with_reducible (first | intro _) | split

theorem harmonicJob_within {s : State} :
    Within 8589935104 s (harmonicJob s) := by
  unfold harmonicJob
  repeat' first
    | apply Eq.refl | with_reducible (first | apply Within.refl | assumption) | unfold x
    | ((try lift_lets); intro x; first | (refine (fun hx => ?_ : Within 8589935104 s x → _) ?_; clear_value x) | skip)
    | with_reducible (first
        | intro _ | apply within_ite | apply within_ite2 | apply Within.go State.onJob_within
        | apply Within.go collectWindows_within)
    | split

theorem jobWork_within {j : JobNo} {s : State} :
    Within 25769804288 s (jobWork j s) := by
  unfold jobWork
  repeat' first
    | apply Eq.refl | with_reducible (first | apply Within.refl | assumption)
    | with_reducible (first | intro _ | apply Within.go flushFaults_within | apply Within.go harmonicJob_within)
    | split

theorem jobRelease_within {j : JobNo} {s : State} :
    Within 25769804288 s (jobRelease j s) := by
  unfold jobRelease
  repeat' first
    | apply Eq.refl | with_reducible (first | apply Within.refl | assumption)
    | with_reducible (first
        | intro _ | apply within_ite | apply within_ite2 | apply Within.go State.onJob_within
        | apply Within.go jobWork_within)
    | split <;> try with_reducible cases congrArg Prod.snd ‹_ = (_, _)›

theorem jobEnd_within {j : JobNo} {ranMs : Nat} {s : State} :
    Within 25836913152 s (jobEnd j ranMs s) := by
  unfold jobEnd
  repeat' first
    | apply Eq.refl | with_reducible (first | apply Within.refl | assumption) | unfold x
    | ((try lift_lets); intro x; first
        | (refine (fun hx => ?_ : Within 25836913152 s x → _) ?_; clear_value x) | skip)
    | with_reducible (first
        | intro _ | apply within_ite | apply within_ite2 | apply Within.go State.onJob_within
        | apply Within.go raise_within | apply Within.go jobWork_within)
    | split

theorem vbatLost_within {s : State} :
    Within 51606716433 s (vbatLost s) := by
  unfold vbatLost
  repeat' first
    | apply Eq.refl | with_reducible (first | apply Within.refl | assumption)
    | fail_if_no_progress ((with_reducible apply within_mk) <;> first
        | with_reducible (first
            | exact .inl rfl | exact (fun x => x) | exact .inl (fun _ x => x) | apply Nat.le_refl
            | exact fun _ => Nat.le_refl _)
        | exact .inr rfl | skip)
    | with_reducible (first | intro _ | apply within_ite | apply within_ite2 | apply Within.go ring_within) | split

end Sys2Proof.Machine
end

