-- ==== Sys2Proof/Laws/WithinExec.lean ====
section
/-! SUPPORT. What each command may do at most, and which parts of the state it may change. -/

set_option linter.unusedTactic false
set_option linter.unreachableTactic false
set_option linter.unusedVariables false

namespace Sys2Proof.Machine

theorem execRegisterWrite_within {port : PortNo} {addr : BitVec 32} {value : Word} {s : State} {t : State}
    (h : execRegisterWrite port addr value s = .next t) :
    Within 120326717440 s t := by
  cases h
  exact hostWrite_within

theorem execBusyMsWrite_within {port : PortNo} {value : Word} {s : State} {t : State}
    (h : execBusyMsWrite port value s = .next t) :
    Within 120326717440 s t := by
  cases h
  exact hostWrite_within

theorem execResetCauseClear_within {port : PortNo} {value : Word} {s : State} {t : State}
    (h : execResetCauseClear port value s = .next t) :
    Within 120326717440 s t := by
  cases h
  exact hostWrite_within

theorem execRingEnable_within {port : PortNo} {value : Word} {s : State} {t : State}
    (h : execRingEnable port value s = .next t) :
    Within 120326717440 s t := by
  cases h
  exact hostWrite_within

theorem execRingDisable_within {port : PortNo} {value : Word} {s : State} {t : State}
    (h : execRingDisable port value s = .next t) :
    Within 120326717440 s t := by
  cases h
  exact hostWrite_within

theorem execUrgentDoorbell_within {port : PortNo} {value : BitVec 16} {s : State} {t : State}
    (h : execUrgentDoorbell port value s = .next t) :
    Within 120326717440 s t := by
  cases h
  exact hostWrite_within

theorem execNormalDoorbell_within {port : PortNo} {value : BitVec 16} {s : State} {t : State}
    (h : execNormalDoorbell port value s = .next t) :
    Within 120326717440 s t := by
  cases h
  exact hostWrite_within

theorem execResponseConsumerWrite_within {port : PortNo} {value : BitVec 16} {s : State} {t : State}
    (h : execResponseConsumerWrite port value s = .next t) :
    Within 120326717440 s t := by
  cases h
  exact hostWrite_within

theorem execEventConsumerWrite_within {port : PortNo} {value : BitVec 16} {s : State} {t : State}
    (h : execEventConsumerWrite port value s = .next t) :
    Within 120326717440 s t := by
  cases h
  exact hostWrite_within

theorem execHostHeartbeatWrite_within {port : PortNo} {value : Word} {s : State} {t : State}
    (h : execHostHeartbeatWrite port value s = .next t) :
    Within 120326717440 s t := by
  cases h
  exact hostWrite_within

theorem execTlsConnectionOpen_within {port : EthPort} {root : ClientRoot} {s : State} {t : State}
    (h : execTlsConnectionOpen port root s = .next t) :
    Within 121534152704 s t := by
  cases h
  exact openConnection_within

theorem execTlsConnectionClose_within {port : EthPort} {s : State} {t : State}
    (h : execTlsConnectionClose port s = .next t) :
    Within 51606716416 s t := by
  cases h
  exact closeConnection_within

theorem execPortSilence_within {port : PortNo} {s : State} {t : State} (h : execPortSilence port s = .next t) :
    Within 51606716416 s t := by
  cases h
  exact portSilence_within

theorem execRecordRingEntry_within {port : EthPort} {urgent : Bool} {entry : List Byte} {s : State} {t : State}
    (h : execRecordRingEntry port urgent entry s = .next t) :
    Within 120326193152 s t := by
  cases h
  repeat' first
    | apply Eq.refl | with_reducible (first | apply Within.refl | assumption)
    | with_reducible (first | intro _ | apply Within.via (onRecord_within ?_ ?_) | apply Within.go recordEntry_within)
    | split

theorem execRecordConsumerIndex_within {port : EthPort} {event : Bool} {index : BitVec 16} {s : State} {t : State}
    (h : execRecordConsumerIndex port event index s = .next t) :
    Within 51606716416 s t := by
  cases h
  repeat' first
    | apply Eq.refl | with_reducible (first | apply Within.refl | assumption)
    | with_reducible (first | intro _ | apply Within.go consume_within | apply Within.via (onRecord_within ?_ ?_))
    | split

theorem execRecordWindowRead_within {port : EthPort} {tag : BitVec 16} {addr : BitVec 32} {count : Nat} {s : State}
    {t : State} (h : execRecordWindowRead port tag addr count s = .next t) :
    Within 51606781952 s t := by
  cases h
  repeat' first
    | apply Eq.refl | with_reducible (first | apply Within.refl | assumption)
    | with_reducible (first
        | intro _ | apply Within.via (onRecord_within ?_ ?_) | apply Within.go recordRead_within
        | apply Within.go count_within)
    | split

theorem execRecordWindowWrite_within {port : EthPort} {addr : BitVec 32} {words : List Word} {s : State} {t : State}
    (h : execRecordWindowWrite port addr words s = .next t) :
    Within 120326717440 s t := by
  cases h
  repeat' first
    | apply Eq.refl | with_reducible (first | apply Within.refl | assumption)
    | with_reducible (first | intro _ | apply Within.via (onRecord_within ?_ ?_) | apply Within.go writeWords_within)
    | split

theorem execRecordBulkWrite_within {port : EthPort} {offset : Nat} {bytes : List Byte} {s : State} {t : State}
    (h : execRecordBulkWrite port offset bytes s = .next t) :
    Within 120326193152 s t := by
  cases h
  repeat' first
    | apply Eq.refl | with_reducible (first | apply Within.refl | assumption)
    | with_reducible (first
        | intro _ | apply Within.via (onRecord_within ?_ ?_) | apply Within.go recordBulkIn_within)
    | split

theorem execRecordBulkRead_within {port : EthPort} {tag : BitVec 16} {offset : Nat} {len : Nat} {s : State}
    {t : State} (h : execRecordBulkRead port tag offset len s = .next t) :
    Within 51606716416 s t := by
  cases h
  repeat' first
    | apply Eq.refl | with_reducible (first | apply Within.refl | assumption)
    | with_reducible (first
        | intro _ | apply Within.via (onRecord_within ?_ ?_) | apply Within.go recordBulkOut_within)
    | split

theorem execMalformedRecord_within {port : EthPort} {s : State} {t : State} (h : execMalformedRecord port s = .next t) :
    Within 51606716416 s t := by
  cases h
  repeat' first
    | apply Eq.refl | with_reducible (first | apply Within.refl | assumption)
    | with_reducible (first
        | intro _ | apply Within.go closeConnection_within | apply Within.via (onRecord_within ?_ ?_))
    | split

theorem execQspiReadPortStatus_within {s : State} {t : State} (h : execQspiReadPortStatus s = .next t) :
    Within 34359738368 s t := by
  cases h
  repeat' first
    | apply Eq.refl | with_reducible (first | apply Within.refl | assumption)
    | with_reducible (first | intro _ | apply Within.go qspiAnswer_within) | split

theorem execQspiPoolAccess_within {addr : BitVec 32} {write : Option Word} {s : State} {t : State}
    (h : execQspiPoolAccess addr write s = .next t) :
    Within 670082531328 s t := by
  cases h
  exact qspiAccess_within

theorem execCommandFetch_within {estimateMs : Nat} {s : State} {t : State}
    (h : execCommandFetch estimateMs s = .next t) :
    Within 2321496932352 s t := by
  cases h
  exact fetchNext_within

theorem execEventRingWrite_within {s : State} {t : State} (h : execEventRingWrite s = .next t) :
    Within 2319282339840 s t := by
  cases h
  exact writeEvent_within

theorem execEventOccurrence_within {source : SourceNo} {index : BitVec 16} {cause : Byte} {ended : Bool}
    {data : List Byte} {s : State} {t : State} (h : execEventOccurrence source index cause ended data s = .next t) :
    Within 17246978048 s t := by
  cases h
  exact raiseOcc_within

theorem execDelayedEventDelivery_within {s : State} {t : State} (h : execDelayedEventDelivery s = .next t) :
    Within 17246978048 s t := by
  cases h
  exact deliverQueues_within

theorem execDemandIntervalFinal_within {outlet : OutletNo} {s : State} {t : State}
    (h : execDemandIntervalFinal outlet s = .next t) :
    Within 2199023256832 s t := by
  cases h
  exact finalInterval_within

theorem execLegalTick_within {quietTicks : Nat} {s : State} {t : State} (h : execLegalTick quietTicks s = .next t) :
    Within 2216270249248 s t := by
  cases h
  exact legalTick_within

theorem execTariffSwitchAnnounce_within {s : State} {t : State} (h : execTariffSwitchAnnounce s = .next t) :
    Within 17246986240 s t := by
  cases h
  exact announceTariff_within

theorem execTamperRecordCopy_within {s : State} {t : State} (h : execTamperRecordCopy s = .next t) :
    Within 51606722832 s t := by
  cases h
  exact copyTealRecords_within

theorem execGroupClockInvalid_within {group : GroupNo} {s : State} {t : State}
    (h : execGroupClockInvalid group s = .next t) :
    Within 17246978432 s t := by
  cases h
  exact clockInvalid_within

theorem execManchesterLockAcquired_within {input : InputNo} {s : State} {t : State}
    (h : execManchesterLockAcquired input s = .next t) :
    Within 17247502720 s t := by
  cases h
  exact lockAcquired_within

theorem execManchesterLockLost_within {input : InputNo} {s : State} {t : State}
    (h : execManchesterLockLost input s = .next t) :
    Within 17247502720 s t := by
  cases h
  exact lockLost_within

theorem execStuckInputDetect_within {input : InputNo} {s : State} {t : State}
    (h : execStuckInputDetect input s = .next t) :
    Within 17246978432 s t := by
  cases h
  exact stuckInput_within

theorem execInputValidAgain_within {input : InputNo} {s : State} {t : State}
    (h : execInputValidAgain input s = .next t) :
    Within 17246978432 s t := by
  cases h
  exact validAgain_within

theorem execLaneSelfTest_within {lane : LaneNo} {pass : Bool} {s : State} {t : State}
    (h : execLaneSelfTest lane pass s = .next t) :
    Within 17246978176 s t := by
  cases h
  exact selfTest_within

theorem execLaneComparisonEnd_within {input : InputNo} {pairs : List (Int × Int)} {s : State} {t : State}
    (h : execLaneComparisonEnd input pairs s = .next t) :
    Within 128 s t := by
  cases h
  exact comparisonEnd_within

theorem execMeteringBoundary_within {outlet : OutletNo} {cycle : Cycle} {s : State} {t : State}
    (h : execMeteringBoundary outlet cycle s = .next t) :
    Within 19411803072 s t := by
  cases h
  exact boundary_within

theorem execSyntheticBoundaryStart_within {outlet : OutletNo} {s : State} {t : State}
    (h : execSyntheticBoundaryStart outlet s = .next t) :
    Within 17246978304 s t := by
  cases h
  exact syntheticStart_within

theorem execDcPeriodEnd_within {outlet : OutletNo} {period : DcPeriod} {s : State} {t : State}
    (h : execDcPeriodEnd outlet period s = .next t) :
    Within 19394466048 s t := by
  cases h
  exact dcPeriod_within

theorem execSaveBoundary_within {opens : List Tail} {late : Bool} {s : State} {t : State}
    (h : execSaveBoundary opens late s = .next t) :
    Within 8545 s t := by
  cases h
  exact saveBoundary_within

theorem execHarmonicWindowEnd_within {outlet : OutletNo} {window : HarmonicInput} {s : State} {t : State}
    (h : execHarmonicWindowEnd outlet window s = .next t) :
    Within 512 s t := by
  cases h
  exact harmonicEnd_within

theorem execSupraharmonicStep_within {results : List SupraInput} {s : State} {t : State}
    (h : execSupraharmonicStep results s = .next t) :
    Within 640 s t := by
  cases h
  exact supraStep_within

theorem execRawBlockComplete_within {outlet : OutletNo} {block : RawInput} {s : State} {t : State}
    (h : execRawBlockComplete outlet block s = .next t) :
    Within 512 s t := by
  cases h
  exact rawComplete_within

theorem execSessionStart_within {outlet : OutletNo} {sid : BitVec 64} {auth : BitVec 64} {s : State} {t : State}
    (h : execSessionStart outlet sid auth s = .next t) :
    Within 17254535424 s t := by
  cases h
  exact sessionStart_within

theorem execSessionStop_within {outlet : OutletNo} {sid : BitVec 64} {s : State} {t : State}
    (h : execSessionStop outlet sid s = .next t) :
    Within 17246998528 s t := by
  cases h
  exact sessionStop_within

theorem execSessionStopResend_within {outlet : OutletNo} {s : State} {t : State}
    (h : execSessionStopResend outlet s = .next t) :
    Within 17246998528 s t := by
  cases h
  exact resendStop_within

theorem execSessionRecordSign_within {outlet : OutletNo} {s : State} {t : State}
    (h : execSessionRecordSign outlet s = .next t) :
    Within 19394465792 s t := by
  cases h
  exact recordSign_within

theorem execWaitingRecordMove_within {s : State} {t : State} (h : execWaitingRecordMove s = .next t) :
    Within 4096 s t := by
  cases h
  exact moveWaiting_within

theorem execDisplayFrameEnd_within {late : Bool} {s : State} {t : State} (h : execDisplayFrameEnd late s = .next t) :
    Within 32768 s t := by
  cases h
  exact frameEnd_within

theorem execBistableUpdateStart_within {s : State} {t : State} (h : execBistableUpdateStart s = .next t) :
    Within 32768 s t := by
  cases h
  exact updateStart_within

theorem execFullCommonWriteEnd_within {s : State} {t : State} (h : execFullCommonWriteEnd s = .next t) :
    Within 32768 s t := by
  cases h
  exact writeEnd_within

theorem execBistableUpdateCommit_within {late : Bool} {s : State} {t : State}
    (h : execBistableUpdateCommit late s = .next t) :
    Within 32768 s t := by
  cases h
  exact updateCommit_within

theorem execIdentityDisplayTimeout_within {s : State} {t : State} (h : execIdentityDisplayTimeout s = .next t) :
    Within 32768 s t := by
  cases h
  exact identityTimeout_within

theorem execLegalSecond_within {s : State} {t : State} (h : execLegalSecond s = .next t) :
    Within 103079313664 s t := by
  cases h
  exact legalSecond_within

theorem execHostrstPulse_within {widthNs : Nat} {s : State} {t : State} (h : execHostrstPulse widthNs s = .next t) :
    Within 2198690332750 s t := by
  unfold execHostrstPulse hostrst at h
  split at h
  · cases h
    exact .refl _ _
  · split at h
    · cases h
    · cases h
      exact within_ite (.refl _ _) controlReset_within

theorem execControlWatchdogExpiry_within {s : State} {t : State} (h : execControlWatchdogExpiry s = .next t) :
    Within 2198690332750 s t := by
  cases h
  exact controlWatchdog_within

theorem execControlStartLimitExpiry_within {s : State} {t : State} (h : execControlStartLimitExpiry s = .next t) :
    Within 2198695772238 s t := by
  cases h
  exact startLimit_within

theorem execControlResetAfterResponse_within {s : State} {t : State} (h : execControlResetAfterResponse s = .next t) :
    Within 2198690332750 s t := by
  cases h
  exact resetAfterResponse_within

theorem execFescueHeartbeat_within {s : State} {t : State} (h : execFescueHeartbeat s = .next t) :
    Within 17248026632 s t := by
  cases h
  exact fescueBeat_within

theorem execFescueHeartbeatMissing_within {s : State} {t : State} (h : execFescueHeartbeatMissing s = .next t) :
    Within 17248026632 s t := by
  cases h
  exact fescueMissing_within

theorem execFescueHeartbeatLoss_within {s : State} {t : State} (h : execFescueHeartbeatLoss s = .next t) :
    Within 22084780040 s t := by
  cases h
  exact fescueLoss_within

theorem execSpeltReady_within {s : State} {t : State} (h : execSpeltReady s = .next t) :
    Within 8 s t := by
  cases h
  exact speltReady_within

theorem execSpeltHeartbeat_within {s : State} {t : State} (h : execSpeltHeartbeat s = .next t) :
    Within 0 s t := by
  cases h
  repeat' first
    | apply Eq.refl | with_reducible (first | apply Within.refl | assumption) | with_reducible (first | intro _)
    | split

theorem execSpeltWatchdogExpiry_within {s : State} {t : State} (h : execSpeltWatchdogExpiry s = .next t) :
    Within 22087729160 s t := by
  cases h
  exact speltWatchdog_within

theorem execLockstepMismatch_within {s : State} {t : State} (h : execLockstepMismatch s = .next t) :
    Within 4832821256 s t := by
  cases h
  exact lockstepMismatch_within

theorem execRussetWatchdogExpiry_within {s : State} {t : State} (h : execRussetWatchdogExpiry s = .next t) :
    Within 4832821256 s t := by
  cases h
  exact russetWatchdog_within

theorem execRussetRestartComplete_within {s : State} {t : State} (h : execRussetRestartComplete s = .next t) :
    Within 1121055211528 s t := by
  cases h
  exact russetRestart_within

theorem execOchreWatchdogExpiry_within {tails : List Tail} {s : State} {t : State}
    (h : execOchreWatchdogExpiry tails s = .next t) :
    Within 2218418280361 s t := by
  cases h
  exact ochreWatchdog_within

theorem execOchreStreamRestart_within {gap : Nat} {s : State} {t : State} (h : execOchreStreamRestart gap s = .next t) :
    Within 2216270282152 s t := by
  cases h
  exact ochreRestart_within

theorem execQuantityFrame_within {frame : Frame} {s : State} {t : State} (h : execQuantityFrame frame s = .next t) :
    Within 3317933473792 s t := by
  cases h
  exact quantityFrame_within

theorem execQuantityStreamTimeout_within {s : State} {t : State} (h : execQuantityStreamTimeout s = .next t) :
    Within 19396231168 s t := by
  cases h
  exact streamTimeout_within

theorem execQuantityStreamFresh_within {staleUnits : Nat} {s : State} {t : State}
    (h : execQuantityStreamFresh staleUnits s = .next t) :
    Within 17247502336 s t := by
  cases h
  exact streamFresh_within

theorem execStreamStaleLockout_within {s : State} {t : State} (h : execStreamStaleLockout s = .next t) :
    Within 1118909431808 s t := by
  cases h
  exact streamLockout_within

theorem execStreamClassEEnd_within {s : State} {t : State} (h : execStreamClassEEnd s = .next t) :
    Within 17248092160 s t := by
  cases h
  exact streamClassEEnd_within

theorem execFastPathOverRange_within {input : InputNo} {bits : Bits} {s : State} {t : State}
    (h : execFastPathOverRange input bits s = .next t) :
    Within 1118909431808 s t := by
  cases h
  exact fastPath_within

theorem execRcdHoldExpiry_within {outlet : OutletNo} {dc : Bool} {point : PointNo} {s : State} {t : State}
    (h : execRcdHoldExpiry outlet dc point s = .next t) :
    Within 1118909431808 s t := by
  cases h
  exact holdExpiry_within

theorem execInjectorFailure_within {outlet : OutletNo} {s : State} {t : State}
    (h : execInjectorFailure outlet s = .next t) :
    Within 19395706880 s t := by
  cases h
  exact injectorFailure_within

theorem execWeldCheck_within {outlet : OutletNo} {frames : List (List Rat)} {s : State} {t : State}
    (h : execWeldCheck outlet frames s = .next t) :
    Within 1118909431808 s t := by
  cases h
  exact weldCheck_within

theorem execPeLossDc_within {outlet : OutletNo} {s : State} {t : State} (h : execPeLossDc outlet s = .next t) :
    Within 1118909431808 s t := by
  cases h
  exact peLossDc_within

theorem execRedundantCurrentDisagreement_within {outlet : OutletNo} {s : State} {t : State}
    (h : execRedundantCurrentDisagreement outlet s = .next t) :
    Within 19395706880 s t := by
  cases h
  exact redundantDisagreement_within

theorem execRedundantDisagreementEnd_within {outlet : OutletNo} {s : State} {t : State}
    (h : execRedundantDisagreementEnd outlet s = .next t) :
    Within 17248092160 s t := by
  cases h
  exact redundantEnd_within

theorem execInputInvalidTimeout_within {outlet : OutletNo} {s : State} {t : State}
    (h : execInputInvalidTimeout outlet s = .next t) :
    Within 1118909431808 s t := by
  cases h
  exact inputInvalidTimeout_within

theorem execClassESupervisionStart_within {outlet : OutletNo} {s : State} {t : State}
    (h : execClassESupervisionStart outlet s = .next t) :
    Within 65536 s t := by
  cases h
  exact supervisionStart_within

theorem execClassEOvercurrent_within {outlet : OutletNo} {s : State} {t : State}
    (h : execClassEOvercurrent outlet s = .next t) :
    Within 19395706880 s t := by
  cases h
  exact classEOvercurrent_within

theorem execClassETimerExpiry_within {outlet : OutletNo} {s : State} {t : State}
    (h : execClassETimerExpiry outlet s = .next t) :
    Within 19395706880 s t := by
  cases h
  exact classEExpiry_within

theorem execEstopLevelAccepted_within {channel : EstopNo} {inputB : Bool} {stop : Bool} {samples : Nat} {s : State}
    {t : State} (h : execEstopLevelAccepted channel inputB stop samples s = .next t) :
    Within 1118910218240 s t := by
  cases h
  exact estopLevel_within

theorem execEstopDiscrepancy_within {channel : EstopNo} {s : State} {t : State}
    (h : execEstopDiscrepancy channel s = .next t) :
    Within 1118910218240 s t := by
  cases h
  exact estopDiscrepancy_within

theorem execTripRelay_within {outlet : OutletNo} {cause : Byte} {classP : Bool} {s : State} {t : State}
    (h : execTripRelay outlet cause classP s = .next t) :
    Within 1118909431808 s t := by
  cases h
  repeat' first
    | apply Eq.refl | with_reducible (first | apply Within.refl | assumption)
    | with_reducible (first | intro _ | apply within_ite | apply within_ite2 | apply Within.go relayedTrip_within)
    | split

theorem execCloseRequest_within {outlet : OutletNo} {openSameCycle : Bool} {s : State} {t : State}
    (h : execCloseRequest outlet openSameCycle s = .next t) :
    Within 19396755456 s t := by
  cases h
  exact closeRequest_within

theorem execMirrorGrant_within {outlet : OutletNo} {s : State} {t : State} (h : execMirrorGrant outlet s = .next t) :
    Within 19396755456 s t := by
  cases h
  exact mirrorGrant_within

theorem execCoilPairSwitchOn_within {outlet : OutletNo} {s : State} {t : State}
    (h : execCoilPairSwitchOn outlet s = .next t) :
    Within 17247174656 s t := by
  cases h
  exact switchOn_within

theorem execCoilHighSideOn_within {outlet : OutletNo} {s : State} {t : State}
    (h : execCoilHighSideOn outlet s = .next t) :
    Within 19395706880 s t := by
  cases h
  exact highSideOn_within

theorem execCoilTurnOnCheck_within {outlet : OutletNo} {rb : Readback} {s : State} {t : State}
    (h : execCoilTurnOnCheck outlet rb s = .next t) :
    Within 1118909693952 s t := by
  cases h
  exact turnOnCheck_within

theorem execFescueOpenRequest_within {outlet : OutletNo} {s : State} {t : State}
    (h : execFescueOpenRequest outlet s = .next t) :
    Within 196608 s t := by
  cases h
  repeat' first
    | apply Eq.refl | with_reducible (first | apply Within.refl | assumption)
    | with_reducible (first | intro _ | apply within_ite | apply within_ite2 | apply Within.go openPair_within)
    | split

theorem execLeaseTimerExpiry_within {s : State} {t : State} (h : execLeaseTimerExpiry s = .next t) :
    Within 5767168 s t := by
  cases h
  exact leaseExpiry_within

theorem execPendingModeApply_within {outlet : OutletNo} {s : State} {t : State}
    (h : execPendingModeApply outlet s = .next t) :
    Within 37749248 s t := by
  cases h
  exact pendingModes_within

theorem execSwitchOverCurrent_within {pair : PairNo} {s : State} {t : State}
    (h : execSwitchOverCurrent pair s = .next t) :
    Within 1118909693952 s t := by
  cases h
  exact overCurrent_within

theorem execReadbackDeparture_within {pair : PairNo} {rb : Readback} {us : Nat} {s : State} {t : State}
    (h : execReadbackDeparture pair rb us s = .next t) :
    Within 1118909693952 s t := by
  cases h
  exact readbackDeparture_within

theorem execPulseTestStart_within {pair : PairNo} {s : State} {t : State} (h : execPulseTestStart pair s = .next t) :
    Within 131072 s t := by
  cases h
  exact startTest_within

theorem execOffPulseCheck_within {pair : PairNo} {rb : Readback} {others : List PairNo} {s : State} {t : State}
    (h : execOffPulseCheck pair rb others s = .next t) :
    Within 1118909693952 s t := by
  cases h
  exact offPulseCheck_within

theorem execOffPulseEnd_within {pair : PairNo} {s : State} {t : State} (h : execOffPulseEnd pair s = .next t) :
    Within 131072 s t := by
  cases h
  exact offPulseEnd_within

theorem execOffPulseRestoreCheck_within {pair : PairNo} {rb : Readback} {s : State} {t : State}
    (h : execOffPulseRestoreCheck pair rb s = .next t) :
    Within 1118909693952 s t := by
  cases h
  exact offPulseRestore_within

theorem execOnPulseCheck_within {pair : PairNo} {rb : Readback} {others : List PairNo} {s : State} {t : State}
    (h : execOnPulseCheck pair rb others s = .next t) :
    Within 1118909693952 s t := by
  cases h
  exact onPulseCheck_within

theorem execOnPulseEnd_within {pair : PairNo} {s : State} {t : State} (h : execOnPulseEnd pair s = .next t) :
    Within 131072 s t := by
  cases h
  exact onPulseEnd_within

theorem execMirrorTimeout_within {outlet : OutletNo} {level : Bool} {s : State} {t : State}
    (h : execMirrorTimeout outlet level s = .next t) :
    Within 1118909431808 s t := by
  cases h
  exact mirrorTimeout_within

theorem execMirrorUncommandedChange_within {outlet : OutletNo} {level : Bool} {s : State} {t : State}
    (h : execMirrorUncommandedChange outlet level s = .next t) :
    Within 1118909431808 s t := by
  cases h
  exact mirrorUncommanded_within

theorem execBrakeReleaseCheck_within {brake : BrakeNo} {released : Bool} {rise : List Nat} {s : State} {t : State}
    (h : execBrakeReleaseCheck brake released rise s = .next t) :
    Within 1118909693952 s t := by
  cases h
  exact releaseCheck_within

theorem execBrakeEngageCheck_within {brake : BrakeNo} {engaged : Bool} {s : State} {t : State}
    (h : execBrakeEngageCheck brake engaged s = .next t) :
    Within 1118909693952 s t := by
  cases h
  exact engageCheck_within

theorem execBrakeCurrentFault_within {brake : BrakeNo} {currents : List Nat} {s : State} {t : State}
    (h : execBrakeCurrentFault brake currents s = .next t) :
    Within 1118909693952 s t := by
  cases h
  exact currentFault_within

theorem execHoldingTestMovement_within {brake : BrakeNo} {samples : List (Bool × Bool)} {s : State} {t : State}
    (h : execHoldingTestMovement brake samples s = .next t) :
    Within 1118909693952 s t := by
  cases h
  exact holdingMovement_within

theorem execHoldingTestTorqueEnd_within {brake : BrakeNo} {s : State} {t : State}
    (h : execHoldingTestTorqueEnd brake s = .next t) :
    Within 262144 s t := by
  cases h
  exact torqueEnd_within

theorem execHoldingTestEnd_within {brake : BrakeNo} {samples : List (Bool × Bool)} {s : State} {t : State}
    (h : execHoldingTestEnd brake samples s = .next t) :
    Within 1118909693952 s t := by
  cases h
  exact holdingEnd_within

theorem execHoldingTestOverdue_within {brake : BrakeNo} {s : State} {t : State}
    (h : execHoldingTestOverdue brake s = .next t) :
    Within 262144 s t := by
  cases h
  exact holdingOverdue_within

theorem execPfwAssert_within {us : Nat} {tails : List Tail} {saved : Bool} {s : State} {t : State}
    (h : execPfwAssert us tails saved s = .next t) :
    Within 3357658879275 s t := by
  cases h
  exact pfwAssert_within

theorem execPfwOutputOpen_within {s : State} {t : State} (h : execPfwOutputOpen s = .next t) :
    Within 17247436801 s t := by
  cases h
  exact pfwOpen_within

theorem execPfwDeassert_within {durationUs : Nat} {s : State} {t : State} (h : execPfwDeassert durationUs s = .next t) :
    Within 2216273624353 s t := by
  cases h
  exact pfwDeassert_within

theorem execMainSupplyOutOfRange_within {s : State} {t : State} (h : execMainSupplyOutOfRange s = .next t) :
    Within 2198699933775 s t := by
  cases h
  exact supplyLost_within

theorem execTealPowerOn_within {s : State} {t : State} (h : execTealPowerOn s = .next t) :
    Within 51606716433 s t := by
  cases h
  exact tealPowerOn_within

theorem execTamperChange_within {input : TamperNo} {opened : Bool} {s : State} {t : State}
    (h : execTamperChange input opened s = .next t) :
    Within 1433519984914 s t := by
  cases h
  exact tamperChange_within

theorem execMainSuppliesInRange_within {pfwLow : Bool} {absenceMs : Nat} {pfwAt : Option Nat} {romCrc : BitVec 32}
    {s : State} {t : State} (h : execMainSuppliesInRange pfwLow absenceMs pfwAt romCrc s = .next t) :
    Within 4398046511103 s t := by
  cases h
  exact supplyReturns_within

theorem execMeasuredStartComplete_within {checks : StartChecks} {peer : PeerAtStart} {s : State} {t : State}
    (h : execMeasuredStartComplete checks peer s = .next t) :
    Within 1434065764366 s t := by
  cases h
  exact startEnds_within

theorem execPeerSilentAtStart_within {s : State} {t : State} (h : execPeerSilentAtStart s = .next t) :
    Within 1151119917058 s t := by
  cases h
  exact peerSilent_within

theorem execMilletHeartbeat_within {s : State} {t : State} (h : execMilletHeartbeat s = .next t) :
    Within 1151125880842 s t := by
  cases h
  exact milletBeat_within

theorem execMilletHeartbeatLoss_within {s : State} {t : State} (h : execMilletHeartbeatLoss s = .next t) :
    Within 1116766142466 s t := by
  cases h
  exact beatLost_within

theorem execHeldSessionsConfirmed_within {s : State} {t : State} (h : execHeldSessionsConfirmed s = .next t) :
    Within 1116762800130 s t := by
  cases h
  exact sessionsConfirmed_within

theorem execCommissioningTimeout_within {s : State} {t : State} (h : execCommissioningTimeout s = .next t) :
    Within 1116759654470 s t := by
  cases h
  exact commissioningTimeout_within

theorem execReferenceLoss_within {s : State} {t : State} (h : execReferenceLoss s = .next t) :
    Within 1116759136518 s t := by
  cases h
  exact refLost_within

theorem execFallbackCorrection_within {s : State} {t : State} (h : execFallbackCorrection s = .next t) :
    Within 4 s t := by
  cases h
  exact fallbackCorrected_within

theorem execXrefReturn_within {s : State} {t : State} (h : execXrefReturn s = .next t) :
    Within 4 s t := by
  cases h
  exact xrefBack_within

theorem execXrefSlewComplete_within {s : State} {t : State} (h : execXrefSlewComplete s = .next t) :
    Within 1116758607878 s t := by
  cases h
  exact slewDone_within

theorem execClockStepChange_within {s : State} {t : State} (h : execClockStepChange s = .next t) :
    Within 8589934596 s t := by
  cases h
  exact clockStep_within

theorem execPilotBoundary_within {outlet : OutletNo} {samples : List Int} {late : Bool} {s : State} {t : State}
    (h : execPilotBoundary outlet samples late s = .next t) :
    Within 5308416 s t := by
  cases h
  exact pilotBoundary_within

theorem execFilteredStateChange_within {outlet : OutletNo} {cls : PilotClass} {s : State} {t : State}
    (h : execFilteredStateChange outlet cls s = .next t) :
    Within 1118913626112 s t := by
  cases h
  exact filteredChange_within

theorem execProxCodeChange_within {outlet : OutletNo} {reads : List ProxRead} {s : State} {t : State}
    (h : execProxCodeChange outlet reads s = .next t) :
    Within 17254514688 s t := by
  cases h
  exact proxChange_within

theorem execOfferWithdrawalTimeout_within {outlet : OutletNo} {s : State} {t : State}
    (h : execOfferWithdrawalTimeout outlet s = .next t) :
    Within 1245184 s t := by
  cases h
  exact offerTimeout_within

theorem execSlacMessage_within {outlet : OutletNo} {msg : SlacMsg} {s : State} {t : State}
    (h : execSlacMessage outlet msg s = .next t) :
    Within 4194304 s t := by
  cases h
  exact slacMessage_within

theorem execSlacSoundingEnd_within {run : BitVec 64} {s : State} {t : State} (h : execSlacSoundingEnd run s = .next t) :
    Within 17251237888 s t := by
  cases h
  exact soundingEnd_within

theorem execSlacMatch_within {outlet : OutletNo} {run : BitVec 64} {nmk : BitVec 128} {s : State} {t : State}
    (h : execSlacMatch outlet run nmk s = .next t) :
    Within 17254318080 s t := by
  cases h
  exact slacMatch_within

theorem execSlacTimeout_within {outlet : OutletNo} {s : State} {t : State} (h : execSlacTimeout outlet s = .next t) :
    Within 17254318080 s t := by
  cases h
  exact slacTimeout_within

theorem execDcSlacRestart_within {outlet : OutletNo} {s : State} {t : State}
    (h : execDcSlacRestart outlet s = .next t) :
    Within 5242880 s t := by
  cases h
  exact slacRestart_within

theorem execV2gSupportedAppProtocol_within {outlet : OutletNo} {ranking : List Proto} {s : State} {t : State}
    (h : execV2gSupportedAppProtocol outlet ranking s = .next t) :
    Within 120333729792 s t := by
  cases h
  exact supportedAppProtocol_within

theorem execV2gSessionSetup_within {outlet : OutletNo} {s : State} {t : State}
    (h : execV2gSessionSetup outlet s = .next t) :
    Within 120333729792 s t := by
  cases h
  exact sessionSetup_within

theorem execV2gServiceDiscovery_within {outlet : OutletNo} {s : State} {t : State}
    (h : execV2gServiceDiscovery outlet s = .next t) :
    Within 120333729792 s t := by
  cases h
  exact serviceDiscovery_within

theorem execV2gServiceDetail_within {outlet : OutletNo} {service : V2gService} {s : State} {t : State}
    (h : execV2gServiceDetail outlet service s = .next t) :
    Within 120333729792 s t := by
  cases h
  exact serviceDetail_within

theorem execV2gServiceSelection_within {outlet : OutletNo} {service : V2gService} {contract : Bool} {s : State}
    {t : State} (h : execV2gServiceSelection outlet service contract s = .next t) :
    Within 120333729792 s t := by
  cases h
  exact serviceSelection_within

theorem execV2gPaymentDetails_within {outlet : OutletNo} {contractId : List Byte} {chainOk : Bool} {s : State}
    {t : State} (h : execV2gPaymentDetails outlet contractId chainOk s = .next t) :
    Within 120467947520 s t := by
  cases h
  exact paymentDetails_within

theorem execV2gAuthorizationSetup_within {outlet : OutletNo} {s : State} {t : State}
    (h : execV2gAuthorizationSetup outlet s = .next t) :
    Within 120333729792 s t := by
  cases h
  exact authorizationSetup_within

theorem execV2gAuthorization_within {outlet : OutletNo} {sigOk : Bool} {chainOk : Bool} {contractId : List Byte}
    {s : State} {t : State} (h : execV2gAuthorization outlet sigOk chainOk contractId s = .next t) :
    Within 120501501952 s t := by
  cases h
  exact authorization_within

theorem execV2gChargeParameterDiscovery_within {outlet : OutletNo} {maxCurrent : Nat} {s : State} {t : State}
    (h : execV2gChargeParameterDiscovery outlet maxCurrent s = .next t) :
    Within 120333729792 s t := by
  cases h
  exact chargeParameterDiscovery_within

theorem execV2gScheduleExchange_within {outlet : OutletNo} {dynamic : Bool} {s : State} {t : State}
    (h : execV2gScheduleExchange outlet dynamic s = .next t) :
    Within 120333729792 s t := by
  cases h
  exact scheduleExchange_within

theorem execV2gCableCheck_within {outlet : OutletNo} {s : State} {t : State}
    (h : execV2gCableCheck outlet s = .next t) :
    Within 120333729792 s t := by
  cases h
  exact cableCheck_within

theorem execV2gPreCharge_within {outlet : OutletNo} {s : State} {t : State} (h : execV2gPreCharge outlet s = .next t) :
    Within 120333729792 s t := by
  cases h
  exact preCharge_within

theorem execV2gPowerDelivery_within {outlet : OutletNo} {kind : PowerKind} {s : State} {t : State}
    (h : execV2gPowerDelivery outlet kind s = .next t) :
    Within 120333729792 s t := by
  cases h
  exact powerDelivery_within

theorem execV2gCurrentDemand_within {outlet : OutletNo} {current : Nat} {s : State} {t : State}
    (h : execV2gCurrentDemand outlet current s = .next t) :
    Within 120333729792 s t := by
  cases h
  exact currentDemand_within

theorem execV2gChargingStatus_within {outlet : OutletNo} {s : State} {t : State}
    (h : execV2gChargingStatus outlet s = .next t) :
    Within 120333729792 s t := by
  cases h
  exact chargingStatus_within

theorem execV2gAcChargeLoop_within {outlet : OutletNo} {current : Nat} {s : State} {t : State}
    (h : execV2gAcChargeLoop outlet current s = .next t) :
    Within 120333729792 s t := by
  cases h
  exact acChargeLoop_within

theorem execV2gDcChargeLoop_within {outlet : OutletNo} {current : Nat} {s : State} {t : State}
    (h : execV2gDcChargeLoop outlet current s = .next t) :
    Within 120333729792 s t := by
  cases h
  exact dcChargeLoop_within

theorem execV2gMeteringReceipt_within {outlet : OutletNo} {s : State} {t : State}
    (h : execV2gMeteringReceipt outlet s = .next t) :
    Within 120333729792 s t := by
  cases h
  exact meteringReceipt_within

theorem execV2gWeldingDetection_within {outlet : OutletNo} {s : State} {t : State}
    (h : execV2gWeldingDetection outlet s = .next t) :
    Within 120333729792 s t := by
  cases h
  exact weldingDetection_within

theorem execV2gSessionStop_within {outlet : OutletNo} {pause : Bool} {s : State} {t : State}
    (h : execV2gSessionStop outlet pause s = .next t) :
    Within 120333729792 s t := by
  cases h
  exact sessionStopMessage_within

theorem execV2gUnsupportedMessage_within {outlet : OutletNo} {s : State} {t : State}
    (h : execV2gUnsupportedMessage outlet s = .next t) :
    Within 120333729792 s t := by
  cases h
  exact unsupported_within

theorem execSequenceTimeout_within {outlet : OutletNo} {s : State} {t : State}
    (h : execSequenceTimeout outlet s = .next t) :
    Within 17254514688 s t := by
  cases h
  exact sequenceTimeout_within

theorem execV2gCertificateInstallation_within {outlet : OutletNo} {checkOk : Bool} {s : State} {t : State}
    (h : execV2gCertificateInstallation outlet checkOk s = .next t) :
    Within 120467947520 s t := by
  cases h
  exact certificateInstallation_within

theorem execV2gCertificateUpdate_within {outlet : OutletNo} {checkOk : Bool} {s : State} {t : State}
    (h : execV2gCertificateUpdate outlet checkOk s = .next t) :
    Within 120467947520 s t := by
  cases h
  exact certificateUpdate_within

theorem execCertificateAnswerTimeout_within {outlet : OutletNo} {s : State} {t : State}
    (h : execCertificateAnswerTimeout outlet s = .next t) :
    Within 103085506560 s t := by
  cases h
  exact certificateTimeout_within

theorem execTlsHandshake_within {outlet : OutletNo} {offer : TlsOffer} {s : State} {t : State}
    (h : execTlsHandshake outlet offer s = .next t) :
    Within 2319491203072 s t := by
  cases h
  exact tlsHandshake_within

theorem execPolicyTimeout_within {outlet : OutletNo} {kind : PolicyKind} {s : State} {t : State}
    (h : execPolicyTimeout outlet kind s = .next t) :
    Within 120367284224 s t := by
  cases h
  exact policyTimeout_within

theorem execSessionCoreSilent_within {core : CoreNo} {s : State} {t : State}
    (h : execSessionCoreSilent core s = .next t) :
    Within 17254514688 s t := by
  cases h
  exact coreSilent_within

theorem execSessionCoreSelfTestEnd_within {pass : Bool} {s : State} {t : State}
    (h : execSessionCoreSelfTestEnd pass s = .next t) :
    Within 4194304 s t := by
  cases h
  exact coreTested_within

theorem execDcHoldExpiry_within {outlet : OutletNo} {s : State} {t : State} (h : execDcHoldExpiry outlet s = .next t) :
    Within 196608 s t := by
  cases h
  exact dcHoldExpiry_within

theorem execAerialPing_within {aerial : AerialNo} {amp : Nat} {phase : Int} {cards : List Card} {s : State}
    {t : State} (h : execAerialPing aerial amp phase cards s = .next t) :
    Within 120367284224 s t := by
  cases h
  exact aerialPing_within

theorem execPollTimeout_within {aerial : AerialNo} {s : State} {t : State} (h : execPollTimeout aerial s = .next t) :
    Within 33554432 s t := by
  cases h
  exact State.onAerial_within

theorem execAuthFallback_within {outlet : OutletNo} {s : State} {t : State} (h : execAuthFallback outlet s = .next t) :
    Within 120367284224 s t := by
  cases h
  exact authFallbackNow_within

theorem execCardHoldExpiry_within {aerial : AerialNo} {s : State} {t : State}
    (h : execCardHoldExpiry aerial s = .next t) :
    Within 33554432 s t := by
  cases h
  repeat' first
    | apply Eq.refl | with_reducible (first | apply Within.refl | assumption)
    | with_reducible (first | intro _ | apply Within.go State.onAerial_within) | split

theorem execAuthHoldExpiry_within {outlet : OutletNo} {s : State} {t : State}
    (h : execAuthHoldExpiry outlet s = .next t) :
    Within 17254318080 s t := by
  cases h
  exact grantLapse_within

theorem execMapRecompute_within {snr : List LinkSnr} {noise : List Byte} {s : State} {t : State}
    (h : execMapRecompute snr noise s = .next t) :
    Within 16777216 s t := by
  cases h
  exact mapRecompute_within

theorem execMapAckMissing_within {link : LinkNo} {s : State} {t : State} (h : execMapAckMissing link s = .next t) :
    Within 16777216 s t := by
  cases h
  exact mapAckMissing_within

theorem execMapSwitch_within {link : LinkNo} {s : State} {t : State} (h : execMapSwitch link s = .next t) :
    Within 16777216 s t := by
  cases h
  exact mapSwitch_within

theorem execSuperframeStart_within {late : Bool} {s : State} {t : State} (h : execSuperframeStart late s = .next t) :
    Within 16777216 s t := by
  cases h
  exact superframe_within

theorem execBeaconReceived_within {beacon : List Byte} {s : State} {t : State}
    (h : execBeaconReceived beacon s = .next t) :
    Within 16777216 s t := by
  cases h
  exact beaconReceived_within

theorem execBeaconsMissed_within {s : State} {t : State} (h : execBeaconsMissed s = .next t) :
    Within 17263755264 s t := by
  cases h
  exact beaconsMissed_within

theorem execJoinRetry_within {s : State} {t : State} (h : execJoinRetry s = .next t) :
    Within 16777216 s t := by
  cases h
  exact joinRetry_within

theorem execSiteFrameReceived_within {link : LinkNo} {burst : SlBurst} {s : State} {t : State}
    (h : execSiteFrameReceived link burst s = .next t) :
    Within 17263755264 s t := by
  cases h
  exact burstReceived_within

theorem execSiteFrameRetransmit_within {link : LinkNo} {s : State} {t : State}
    (h : execSiteFrameRetransmit link s = .next t) :
    Within 17263755264 s t := by
  cases h
  exact frameRetransmit_within

theorem execJoinRequest_within {stationId : BitVec 64} {s : State} {t : State}
    (h : execJoinRequest stationId s = .next t) :
    Within 17263755264 s t := by
  cases h
  exact joinRequest_within

theorem execToneLoopbackTest_within {unit : ToneUnitNo} {pass : Bool} {s : State} {t : State}
    (h : execToneLoopbackTest unit pass s = .next t) :
    Within 17263755264 s t := by
  cases h
  exact toneTest_within

theorem execTimeBaseLost_within {s : State} {t : State} (h : execTimeBaseLost s = .next t) :
    Within 17263755264 s t := by
  cases h
  exact timeBaseLost_within

theorem execTimeBaseResumed_within {s : State} {t : State} (h : execTimeBaseResumed s = .next t) :
    Within 17263755264 s t := by
  cases h
  exact timeBaseResumed_within

theorem execSiteLineHostSilence_within {s : State} {t : State} (h : execSiteLineHostSilence s = .next t) :
    Within 16777216 s t := by
  cases h
  exact hostSilence_within

theorem execRead1sValues_within {cmd : Cmd} {s : State} {t : State} (h : execRead1sValues cmd s = .next t) :
    Within 3421008560128 s t := by
  cases h
  exact read1sValues_within

theorem execReadTotals_within {cmd : Cmd} {s : State} {t : State} (h : execReadTotals cmd s = .next t) :
    Within 1221985304576 s t := by
  cases h
  exact readTotals_within

theorem execReadHarmonicWindow_within {cmd : Cmd} {s : State} {t : State} (h : execReadHarmonicWindow cmd s = .next t) :
    Within 1221985305088 s t := by
  cases h
  exact readHarmonicWindow_within

theorem execReadSupraharmonicResult_within {cmd : Cmd} {s : State} {t : State}
    (h : execReadSupraharmonicResult cmd s = .next t) :
    Within 1221985304576 s t := by
  cases h
  exact readSupraharmonicResult_within

theorem execCollectRawSampleBlock_within {cmd : Cmd} {s : State} {t : State}
    (h : execCollectRawSampleBlock cmd s = .next t) :
    Within 1221985305088 s t := by
  cases h
  exact collectRawSampleBlock_within

theorem execReadMetrologyTable_within {cmd : Cmd} {s : State} {t : State} (h : execReadMetrologyTable cmd s = .next t) :
    Within 1221985304576 s t := by
  cases h
  exact readMetrologyTable_within

theorem execOutletRoleAssignment_within {cmd : Cmd} {s : State} {t : State}
    (h : execOutletRoleAssignment cmd s = .next t) :
    Within 1222522193984 s t := by
  cases h
  exact outletRoleAssignment_within

theorem execUserCalibration_within {cmd : Cmd} {s : State} {t : State} (h : execUserCalibration cmd s = .next t) :
    Within 1221985355840 s t := by
  cases h
  exact userCalibration_within

theorem execMeteringMode_within {cmd : Cmd} {s : State} {t : State} (h : execMeteringMode cmd s = .next t) :
    Within 1221985305088 s t := by
  cases h
  exact meteringMode_within

theorem execEcho_within {cmd : Cmd} {s : State} {t : State} (h : execEcho cmd s = .next t) :
    Within 1221985304576 s t := by
  cases h
  exact echo_within

theorem execReadIdentity_within {cmd : Cmd} {s : State} {t : State} (h : execReadIdentity cmd s = .next t) :
    Within 1221985304576 s t := by
  cases h
  exact readIdentity_within

theorem execEnterCommissioning_within {cmd : Cmd} {s : State} {t : State} (h : execEnterCommissioning cmd s = .next t) :
    Within 1221986353154 s t := by
  cases h
  exact enterCommissioning_within

theorem execLeaveCommissioning_within {cmd : Cmd} {s : State} {t : State} (h : execLeaveCommissioning cmd s = .next t) :
    Within 1221986353222 s t := by
  cases h
  exact leaveCommissioningCmd_within

theorem execDieReset_within {cmd : Cmd} {tails : List Tail} {s : State} {t : State}
    (h : execDieReset cmd tails s = .next t) :
    Within 4397727717359 s t := by
  cases h
  exact dieReset_within

theorem execNetworkSettings_within {cmd : Cmd} {s : State} {t : State} (h : execNetworkSettings cmd s = .next t) :
    Within 1221985304576 s t := by
  cases h
  exact networkSettings_within

theorem execMailboxKeySlots_within {cmd : Cmd} {s : State} {t : State} (h : execMailboxKeySlots cmd s = .next t) :
    Within 1221985304576 s t := by
  cases h
  exact mailboxKeySlots_within

theorem execSetQspiAuthority_within {cmd : Cmd} {s : State} {t : State} (h : execSetQspiAuthority cmd s = .next t) :
    Within 1221985304576 s t := by
  cases h
  exact setQspiAuthority_within

theorem execVehicleLinkStatus_within {cmd : Cmd} {s : State} {t : State} (h : execVehicleLinkStatus cmd s = .next t) :
    Within 1221985304576 s t := by
  cases h
  exact vehicleLinkStatus_within

theorem execVehicleLinkConfiguration_within {cmd : Cmd} {s : State} {t : State}
    (h : execVehicleLinkConfiguration cmd s = .next t) :
    Within 1221990547456 s t := by
  cases h
  exact vehicleLinkConfiguration_within

theorem execLoadLimit_within {cmd : Cmd} {s : State} {t : State} (h : execLoadLimit cmd s = .next t) :
    Within 1221986353152 s t := by
  cases h
  exact loadLimit_within

theorem execSessionMode_within {cmd : Cmd} {s : State} {t : State} (h : execSessionMode cmd s = .next t) :
    Within 1221989498880 s t := by
  cases h
  exact sessionMode_within

theorem execPolicyAnswer_within {cmd : Cmd} {s : State} {t : State} (h : execPolicyAnswer cmd s = .next t) :
    Within 1222026395648 s t := by
  cases h
  exact policyAnswer_within

theorem execCertificateAnswer_within {cmd : Cmd} {s : State} {t : State} (h : execCertificateAnswer cmd s = .next t) :
    Within 1221991596032 s t := by
  cases h
  exact certificateAnswer_within

theorem execEndSession_within {cmd : Cmd} {s : State} {t : State} (h : execEndSession cmd s = .next t) :
    Within 1221988646912 s t := by
  cases h
  exact endSession_within

theorem execTagFieldOn_within {s : State} {t : State} (h : execTagFieldOn s = .next t) :
    Within 120326193152 s t := by
  cases h
  exact tagFieldOn_within

theorem execTagFieldLost_within {s : State} {t : State} (h : execTagFieldLost s = .next t) :
    Within 103146323968 s t := by
  cases h
  exact tagFieldLost_within

theorem execTagInventory_within {inv : InventoryReq} {s : State} {t : State} (h : execTagInventory inv s = .next t) :
    Within 103146323968 s t := by
  cases h
  exact tagInventory_within

theorem execTagStayQuiet_within {req : TagReq} {s : State} {t : State} (h : execTagStayQuiet req s = .next t) :
    Within 103146323968 s t := by
  cases h
  exact tagStayQuiet_within

theorem execTagReadSingleBlock_within {req : TagReq} {block : Byte} {s : State} {t : State}
    (h : execTagReadSingleBlock req block s = .next t) :
    Within 103146389504 s t := by
  cases h
  repeat' first
    | apply Eq.refl | with_reducible (first | apply Within.refl | assumption)
    | with_reducible (first | intro _ | apply Within.via (tagRequest_within ?_ ?_) | apply Within.go tagRead_within)
    | split

theorem execTagWriteSingleBlock_within {req : TagReq} {block : Byte} {data : BitVec 32} {s : State} {t : State}
    (h : execTagWriteSingleBlock req block data s = .next t) :
    Within 103146323968 s t := by
  cases h
  repeat' first
    | apply Eq.refl | with_reducible (first | apply Within.refl | assumption)
    | with_reducible (first | intro _ | apply Within.via (tagRequest_within ?_ ?_) | apply Within.go tagWrite_within)
    | split

theorem execTagReadMultipleBlocks_within {req : TagReq} {first : Byte} {count : Nat} {s : State} {t : State}
    (h : execTagReadMultipleBlocks req first count s = .next t) :
    Within 103146389504 s t := by
  cases h
  repeat' first
    | apply Eq.refl | with_reducible (first | apply Within.refl | assumption)
    | with_reducible (first
        | intro _ | apply Within.go count_within | apply Within.via (tagRequest_within ?_ ?_)
        | apply Within.go tagRead_within)
    | split

theorem execTagSelect_within {req : TagReq} {s : State} {t : State} (h : execTagSelect req s = .next t) :
    Within 103146323968 s t := by
  cases h
  exact tagSelect_within

theorem execTagResetToReady_within {req : TagReq} {s : State} {t : State} (h : execTagResetToReady req s = .next t) :
    Within 103146323968 s t := by
  cases h
  unfold tagRequest
  split
  · rename_i hk
    have h1 : Within 103146323968 s { s with tag.state := .ready } := by
      apply within_mk (.refl _ _)
      case hk => exact fun e => by simp [e, tagHears] at hk
      all_goals first
        | with_reducible (first
            | exact .inl rfl | exact id | exact .inl (fun _ => id) | exact (fun _ => Nat.le_refl _)
            | exact Nat.le_refl _)
        | exact .inr rfl
    exact tagSay_within.go h1 rfl
  · exact tagSay_within

theorem execTagGetSystemInformation_within {req : TagReq} {s : State} {t : State}
    (h : execTagGetSystemInformation req s = .next t) :
    Within 103146323968 s t := by
  cases h
  repeat' first
    | apply Eq.refl | with_reducible (first | apply Within.refl | assumption)
    | with_reducible (first | intro _ | apply Within.go tagSay_within | apply Within.via (tagRequest_within ?_ ?_))
    | split

theorem execTagGetBlockSecurity_within {req : TagReq} {first : Byte} {count : Nat} {s : State} {t : State}
    (h : execTagGetBlockSecurity req first count s = .next t) :
    Within 103146389504 s t := by
  cases h
  repeat' first
    | apply Eq.refl | with_reducible (first | apply Within.refl | assumption)
    | with_reducible (first
        | intro _ | apply Within.go count_within | apply Within.via (tagRequest_within ?_ ?_)
        | apply Within.go blockSecurity_within)
    | split

theorem execTagExtReadSingleBlock_within {req : TagReq} {block : BitVec 16} {s : State} {t : State}
    (h : execTagExtReadSingleBlock req block s = .next t) :
    Within 103146389504 s t := by
  cases h
  repeat' first
    | apply Eq.refl | with_reducible (first | apply Within.refl | assumption)
    | with_reducible (first | intro _ | apply Within.via (tagRequest_within ?_ ?_) | apply Within.go tagRead_within)
    | split

theorem execTagExtWriteSingleBlock_within {req : TagReq} {block : BitVec 16} {data : BitVec 32} {s : State}
    {t : State} (h : execTagExtWriteSingleBlock req block data s = .next t) :
    Within 103146323968 s t := by
  cases h
  repeat' first
    | apply Eq.refl | with_reducible (first | apply Within.refl | assumption)
    | with_reducible (first | intro _ | apply Within.via (tagRequest_within ?_ ?_) | apply Within.go tagWrite_within)
    | split

theorem execTagExtReadMultipleBlocks_within {req : TagReq} {first : BitVec 16} {count : Nat} {s : State} {t : State}
    (h : execTagExtReadMultipleBlocks req first count s = .next t) :
    Within 103146389504 s t := by
  cases h
  repeat' first
    | apply Eq.refl | with_reducible (first | apply Within.refl | assumption)
    | with_reducible (first
        | intro _ | apply Within.go count_within | apply Within.via (tagRequest_within ?_ ?_)
        | apply Within.go tagRead_within)
    | split

theorem execTagExtGetSystemInformation_within {req : TagReq} {s : State} {t : State}
    (h : execTagExtGetSystemInformation req s = .next t) :
    Within 103146323968 s t := by
  cases h
  repeat' first
    | apply Eq.refl | with_reducible (first | apply Within.refl | assumption)
    | with_reducible (first | intro _ | apply Within.go tagSay_within | apply Within.via (tagRequest_within ?_ ?_))
    | split

theorem execTagExtGetBlockSecurity_within {req : TagReq} {first : BitVec 16} {count : Nat} {s : State} {t : State}
    (h : execTagExtGetBlockSecurity req first count s = .next t) :
    Within 103146389504 s t := by
  cases h
  repeat' first
    | apply Eq.refl | with_reducible (first | apply Within.refl | assumption)
    | with_reducible (first
        | intro _ | apply Within.go count_within | apply Within.via (tagRequest_within ?_ ?_)
        | apply Within.go blockSecurity_within)
    | split

theorem execTagReadSignature_within {req : TagReq} {s : State} {t : State} (h : execTagReadSignature req s = .next t) :
    Within 103146323968 s t := by
  cases h
  repeat' first
    | apply Eq.refl | with_reducible (first | apply Within.refl | assumption)
    | with_reducible (first | intro _ | apply Within.go tagSay_within | apply Within.via (tagCustom_within ?_ ?_))
    | split

theorem execTagKill_within {req : TagReq} {password : BitVec 32} {s : State} {t : State}
    (h : execTagKill req password s = .next t) :
    Within 103146323968 s t := by
  cases h
  repeat' first
    | apply Eq.refl | with_reducible (first | apply Within.refl | assumption)
    | with_reducible (first | intro _ | apply Within.via (tagCustom_within ?_ ?_) | apply Within.go tagKill_within)
    | split

theorem execTagReadMirrorIndex_within {req : TagReq} {s : State} {t : State}
    (h : execTagReadMirrorIndex req s = .next t) :
    Within 103146323968 s t := by
  cases h
  repeat' first
    | apply Eq.refl | with_reducible (first | apply Within.refl | assumption)
    | with_reducible (first | intro _ | apply Within.go tagSay_within | apply Within.via (tagCustom_within ?_ ?_))
    | split

theorem execTagUnsupportedCommand_within {req : TagReq} {code : Byte} {s : State} {t : State}
    (h : execTagUnsupportedCommand req code s = .next t) :
    Within 103146323968 s t := by
  cases h
  repeat' first
    | apply Eq.refl | with_reducible (first | apply Within.refl | assumption) | unfold x
    | ((try lift_lets); intro x; first
        | (refine (fun hx => ?_ : Within 103146323968 s x → _) ?_; clear_value x) | skip)
    | with_reducible (first
        | intro _ | apply Within.via (tagRequest_within ?_ ?_) | apply Within.go notSupported_within)
    | split

theorem execTagSectorCommit_within {sector : SectorNo} {s : State} {t : State}
    (h : execTagSectorCommit sector s = .next t) :
    Within 103146323968 s t := by
  cases h
  exact sectorCommit_within

theorem execTagBusyRetry_within {sector : SectorNo} {last : Bool} {s : State} {t : State}
    (h : execTagBusyRetry sector last s = .next t) :
    Within 103146323968 s t := by
  cases h
  exact busyRetry_within

theorem execContactlessStatus_within {cmd : Cmd} {s : State} {t : State} (h : execContactlessStatus cmd s = .next t) :
    Within 1222018859008 s t := by
  cases h
  exact contactlessStatus_within

theorem execContactlessConfiguration_within {cmd : Cmd} {s : State} {t : State}
    (h : execContactlessConfiguration cmd s = .next t) :
    Within 1222018859008 s t := by
  cases h
  exact contactlessConfiguration_within

theorem execLoadAllowlist_within {cmd : Cmd} {s : State} {t : State} (h : execLoadAllowlist cmd s = .next t) :
    Within 1222018859008 s t := by
  cases h
  exact loadAllowlist_within

theorem execAllowlistLookup_within {cmd : Cmd} {s : State} {t : State} (h : execAllowlistLookup cmd s = .next t) :
    Within 1221985304576 s t := by
  cases h
  exact allowlistLookup_within

theorem execCardExchange_within {cmd : Cmd} {answer : Option (List Byte)} {s : State} {t : State}
    (h : execCardExchange cmd answer s = .next t) :
    Within 1221985304576 s t := by
  cases h
  exact cardExchange_within

theorem execTagMemoryRead_within {cmd : Cmd} {s : State} {t : State} (h : execTagMemoryRead cmd s = .next t) :
    Within 1221985304576 s t := by
  cases h
  exact tagMemory_within

theorem execTagMemoryWrite_within {cmd : Cmd} {s : State} {t : State} (h : execTagMemoryWrite cmd s = .next t) :
    Within 1221985304576 s t := by
  cases h
  exact tagMemory_within

theorem execTagKillPassword_within {cmd : Cmd} {s : State} {t : State} (h : execTagKillPassword cmd s = .next t) :
    Within 1221985304576 s t := by
  cases h
  exact tagKillPassword_within

theorem execResetInputRelease_within {input : ResetInput} {highMs : Nat} {lowMs : Nat} {s : State} {t : State}
    (h : execResetInputRelease input highMs lowMs s = .next t) :
    Within 5516956729344 s t := by
  cases h
  exact resetReleased_within

theorem execResetInputHeld_within {input : ResetInput} {s : State} {t : State}
    (h : execResetInputHeld input s = .next t) :
    Within 17247502336 s t := by
  cases h
  exact resetHeld_within

theorem execReleaseWindowExpiry_within {outlet : OutletNo} {s : State} {t : State}
    (h : execReleaseWindowExpiry outlet s = .next t) :
    Within 65536 s t := by
  cases h
  exact releaseWindow_within

theorem execReleasePeerResult_within {outlet : OutletNo} {passed : Bool} {s : State} {t : State}
    (h : execReleasePeerResult outlet passed s = .next t) :
    Within 5514806231040 s t := by
  cases h
  exact peerResult_within

theorem execReleasePeerTimeout_within {outlet : OutletNo} {s : State} {t : State}
    (h : execReleasePeerTimeout outlet s = .next t) :
    Within 17247043584 s t := by
  cases h
  exact peerTimeout_within

theorem execSafetyStatus_within {cmd : Cmd} {s : State} {t : State} (h : execSafetyStatus cmd s = .next t) :
    Within 1221985304576 s t := by
  cases h
  exact safetyStatus_within

theorem execSetEnable_within {cmd : Cmd} {s : State} {t : State} (h : execSetEnable cmd s = .next t) :
    Within 1221986418688 s t := by
  cases h
  exact setEnable_within

theorem execClearEnable_within {cmd : Cmd} {s : State} {t : State} (h : execClearEnable cmd s = .next t) :
    Within 1221986549760 s t := by
  cases h
  exact clearEnable_within

theorem execOpenRequest_within {cmd : Cmd} {s : State} {t : State} (h : execOpenRequest cmd s = .next t) :
    Within 1221985501184 s t := by
  cases h
  exact openRequest_within

theorem execLockoutRelease_within {cmd : Cmd} {s : State} {t : State} (h : execLockoutRelease cmd s = .next t) :
    Within 1221985370112 s t := by
  cases h
  exact lockoutRelease_within

theorem execBrakeEngage_within {cmd : Cmd} {s : State} {t : State} (h : execBrakeEngage cmd s = .next t) :
    Within 1221985697792 s t := by
  cases h
  exact brakeCommand_within

theorem execBrakeRelease_within {cmd : Cmd} {s : State} {t : State} (h : execBrakeRelease cmd s = .next t) :
    Within 1221985697792 s t := by
  cases h
  exact brakeCommand_within

theorem execBrakeHoldingTest_within {cmd : Cmd} {s : State} {t : State} (h : execBrakeHoldingTest cmd s = .next t) :
    Within 1221985697792 s t := by
  cases h
  exact brakeCommand_within

theorem execClassERequest_within {cmd : Cmd} {s : State} {t : State} (h : execClassERequest cmd s = .next t) :
    Within 1221986549760 s t := by
  cases h
  exact classERequest_within

theorem execWriteLimitedSetting_within {cmd : Cmd} {s : State} {t : State}
    (h : execWriteLimitedSetting cmd s = .next t) :
    Within 1222523027456 s t := by
  cases h
  exact writeLimitedSetting_within

theorem execReadLimitedSetting_within {cmd : Cmd} {s : State} {t : State} (h : execReadLimitedSetting cmd s = .next t) :
    Within 1221985304576 s t := by
  cases h
  exact readLimitedSetting_within

theorem execOpenStaging_within {cmd : Cmd} {s : State} {t : State} (h : execOpenStaging cmd s = .next t) :
    Within 3435101421570 s t := by
  cases h
  exact openStaging_within

theorem execImageBody_within {cmd : Cmd} {s : State} {t : State} (h : execImageBody cmd s = .next t) :
    Within 3425303527424 s t := by
  cases h
  exact imageBody_within

theorem execImageCommit_within {cmd : Cmd} {s : State} {t : State} (h : execImageCommit cmd s = .next t) :
    Within 1226825531394 s t := by
  cases h
  exact imageCommit_within

theorem execStagingAbort_within {cmd : Cmd} {s : State} {t : State} (h : execStagingAbort cmd s = .next t) :
    Within 1227354013698 s t := by
  cases h
  exact stagingAbort_within

theorem execStagingTimeout_within {s : State} {t : State} (h : execStagingTimeout s = .next t) :
    Within 1122127314946 s t := by
  cases h
  exact stagingTimeout_within

theorem execUpdateStatus_within {cmd : Cmd} {s : State} {t : State} (h : execUpdateStatus cmd s = .next t) :
    Within 1221985304576 s t := by
  cases h
  exact updateStatus_within

theorem execTrialConfirmation_within {image : ImageNo} {s : State} {t : State}
    (h : execTrialConfirmation image s = .next t) :
    Within 21541945344 s t := by
  cases h
  exact confirmTrial_within

theorem execFescueImageBringIn_within {s : State} {t : State} (h : execFescueImageBringIn s = .next t) :
    Within 22084124680 s t := by
  cases h
  exact fescueNewImage_within

theorem execSessionImageBringIn_within {outlet : OutletNo} {s : State} {t : State}
    (h : execSessionImageBringIn outlet s = .next t) :
    Within 4831838208 s t := by
  cases h
  exact sessionNewImage_within

theorem execMilletStateHandover_within {s : State} {t : State} (h : execMilletStateHandover s = .next t) :
    Within 47781511168 s t := by
  cases h
  exact milletHandover_within

theorem execSpeltImageReset_within {s : State} {t : State} (h : execSpeltImageReset s = .next t) :
    Within 4840226824 s t := by
  cases h
  exact speltNewImage_within

theorem execPairDetail_within {cmd : Cmd} {s : State} {t : State} (h : execPairDetail cmd s = .next t) :
    Within 1221985304576 s t := by
  cases h
  exact pairDetail_within

theorem execBindPeer_within {cmd : Cmd} {s : State} {t : State} (h : execBindPeer cmd s = .next t) :
    Within 1222522175488 s t := by
  cases h
  exact bindPeer_within

theorem execUnbindPeer_within {cmd : Cmd} {s : State} {t : State} (h : execUnbindPeer cmd s = .next t) :
    Within 1222522175488 s t := by
  cases h
  exact unbindPeer_within

theorem execPlannedHandover_within {cmd : Cmd} {s : State} {t : State} (h : execPlannedHandover cmd s = .next t) :
    Within 1221985304578 s t := by
  cases h
  exact plannedHandover_within

theorem execClearSuspectResynchronise_within {cmd : Cmd} {s : State} {t : State}
    (h : execClearSuspectResynchronise cmd s = .next t) :
    Within 1221985304576 s t := by
  cases h
  exact clearSuspectCmd_within

theorem execReadRegisters_within {cmd : Cmd} {s : State} {t : State} (h : execReadRegisters cmd s = .next t) :
    Within 1221985304576 s t := by
  cases h
  exact readRegisters_within

theorem execReadBillingSnapshot_within {cmd : Cmd} {s : State} {t : State}
    (h : execReadBillingSnapshot cmd s = .next t) :
    Within 1221985304576 s t := by
  cases h
  exact readBillingSnapshot_within

theorem execReadLegalLog_within {cmd : Cmd} {s : State} {t : State} (h : execReadLegalLog cmd s = .next t) :
    Within 1221985306624 s t := by
  cases h
  exact readLegalLog_within

theorem execReadSessionRecords_within {cmd : Cmd} {s : State} {t : State} (h : execReadSessionRecords cmd s = .next t) :
    Within 1221985304576 s t := by
  cases h
  exact readSessionRecords_within

theorem execReadLegalObject_within {cmd : Cmd} {s : State} {t : State} (h : execReadLegalObject cmd s = .next t) :
    Within 1221985304576 s t := by
  cases h
  exact readLegalObject_within

theorem execConfirmExport_within {cmd : Cmd} {s : State} {t : State} (h : execConfirmExport cmd s = .next t) :
    Within 1221985308672 s t := by
  cases h
  exact confirmExport_within

theorem execAcknowledgeLegalLog_within {cmd : Cmd} {s : State} {t : State}
    (h : execAcknowledgeLegalLog cmd s = .next t) :
    Within 1221985323008 s t := by
  cases h
  exact acknowledgeLegalLog_within

theorem execTariffParameters_within {cmd : Cmd} {s : State} {t : State} (h : execTariffParameters cmd s = .next t) :
    Within 1221985323072 s t := by
  cases h
  exact tariffParameters_within

theorem execLoadPassiveCalendar_within {cmd : Cmd} {s : State} {t : State}
    (h : execLoadPassiveCalendar cmd s = .next t) :
    Within 1221985331200 s t := by
  cases h
  exact loadPassiveCalendar_within

theorem execSetLegalTime_within {cmd : Cmd} {s : State} {t : State} (h : execSetLegalTime cmd s = .next t) :
    Within 3421008592160 s t := by
  cases h
  exact setLegalTime_within

theorem execDemandInterval_within {cmd : Cmd} {s : State} {t : State} (h : execDemandInterval cmd s = .next t) :
    Within 1221985331200 s t := by
  cases h
  exact demandInterval_within

theorem execConfirmTariffSwitch_within {cmd : Cmd} {s : State} {t : State}
    (h : execConfirmTariffSwitch cmd s = .next t) :
    Within 1221985329152 s t := by
  cases h
  exact confirmTariffSwitch_within

theorem execDisplaySelection_within {cmd : Cmd} {s : State} {t : State} (h : execDisplaySelection cmd s = .next t) :
    Within 1221985353728 s t := by
  cases h
  exact displaySelection_within

theorem execWhitelistTimeout_within {cmd : Cmd} {opcode : BitVec 16} {s : State} {t : State}
    (h : execWhitelistTimeout cmd opcode s = .next t) :
    Within 103079215104 s t := by
  cases h
  exact whitelistTimeout_within

theorem execSpeltControlTick_within {meas : List ChanMeas} {substrate : Int} {late : Bool} {s : State} {t : State}
    (h : execSpeltControlTick meas substrate late s = .next t) :
    Within 17255366656 s t := by
  cases h
  exact speltTick_within

theorem execThermalShutdown_within {channel : ChanNo} {tj : Int} {s : State} {t : State}
    (h : execThermalShutdown channel tj s = .next t) :
    Within 17255366656 s t := by
  cases h
  exact thermalShutdown_within

theorem execDifferenceLimit_within {channel : ChanNo} {tj : Int} {substrate : Int} {s : State} {t : State}
    (h : execDifferenceLimit channel tj substrate s = .next t) :
    Within 17255366656 s t := by
  cases h
  exact differenceLimit_within

theorem execChannelRestart_within {channel : ChanNo} {tj : Int} {substrate : Int} {s : State} {t : State}
    (h : execChannelRestart channel tj substrate s = .next t) :
    Within 8388608 s t := by
  cases h
  exact channelRestart_within

theorem execPulseEdge_within {pulse : PulseNo} {high : Bool} {s : State} {t : State}
    (h : execPulseEdge pulse high s = .next t) :
    Within 8388608 s t := by
  cases h
  exact pulseEdge_within

theorem execConditionBroadcast_within {s : State} {t : State} (h : execConditionBroadcast s = .next t) :
    Within 17255366656 s t := by
  cases h
  exact broadcast_within

theorem execBroadcastAbsent_within {s : State} {t : State} (h : execBroadcastAbsent s = .next t) :
    Within 17255366656 s t := by
  cases h
  exact broadcastAbsent_within

theorem execRuleDelayExpiry_within {channel : ChanNo} {s : State} {t : State}
    (h : execRuleDelayExpiry channel s = .next t) :
    Within 8388608 s t := by
  cases h
  exact ruleExpiry_within

theorem execOnStateOpenLoad_within {channel : ChanNo} {samples : List Nat} {s : State} {t : State}
    (h : execOnStateOpenLoad channel samples s = .next t) :
    Within 17255366656 s t := by
  cases h
  exact onOpenLoad_within

theorem execOffStateDiagnostic_within {checks : List OffCheck} {s : State} {t : State}
    (h : execOffStateDiagnostic checks s = .next t) :
    Within 17255366656 s t := by
  cases h
  exact offDiagnostic_within

theorem execChannelShed_within {s : State} {t : State} (h : execChannelShed s = .next t) :
    Within 17255366656 s t := by
  cases h
  exact shedOne_within

theorem execChannelRestore_within {s : State} {t : State} (h : execChannelRestore s = .next t) :
    Within 17255366656 s t := by
  cases h
  exact restoreOne_within

theorem execAggregateCapUpdate_within {s : State} {t : State} (h : execAggregateCapUpdate s = .next t) :
    Within 8388608 s t := by
  cases h
  exact capUpdate_within

theorem execLoadSwitchStatus_within {cmd : Cmd} {s : State} {t : State} (h : execLoadSwitchStatus cmd s = .next t) :
    Within 1221985304576 s t := by
  cases h
  exact loadSwitchStatus_within

theorem execChannelConfiguration_within {cmd : Cmd} {s : State} {t : State}
    (h : execChannelConfiguration cmd s = .next t) :
    Within 1221993693184 s t := by
  cases h
  exact channelConfiguration_within

theorem execChannelControl_within {cmd : Cmd} {s : State} {t : State} (h : execChannelControl cmd s = .next t) :
    Within 1221993693184 s t := by
  cases h
  exact channelControl_within

theorem execChannelRule_within {cmd : Cmd} {s : State} {t : State} (h : execChannelRule cmd s = .next t) :
    Within 1221993693184 s t := by
  cases h
  exact channelRule_within

theorem execHostFlags_within {cmd : Cmd} {s : State} {t : State} (h : execHostFlags cmd s = .next t) :
    Within 1221993693184 s t := by
  cases h
  exact hostFlags_within

theorem execAggregateMaximum_within {cmd : Cmd} {s : State} {t : State} (h : execAggregateMaximum cmd s = .next t) :
    Within 1221993693184 s t := by
  cases h
  exact aggregateMaximum_within

theorem execReadChannelSetup_within {cmd : Cmd} {s : State} {t : State} (h : execReadChannelSetup cmd s = .next t) :
    Within 1221985304576 s t := by
  cases h
  exact readChannelSetup_within

theorem execAtomicOperation_within {accesses : List MemAccess} {s : State} {t : State}
    (h : execAtomicOperation accesses s = .next t) :
    Within 618475290624 s t := by
  cases h
  repeat' first
    | apply Eq.refl | with_reducible (first | apply Within.refl | assumption)
    | with_reducible (first | intro _ | apply within_ite | apply within_ite2 | apply Within.go atomicOperation_within)
    | split

theorem execScratchpadOwnerWrite_within {pad : PadNo} {master : MasterNo} {value : Word} {same : List MemAccess}
    {s : State} {t : State} (h : execScratchpadOwnerWrite pad master value same s = .next t) :
    Within 687194767360 s t := by
  cases h
  repeat' first
    | apply Eq.refl | with_reducible (first | apply Within.refl | assumption)
    | with_reducible (first | intro _ | apply within_ite | apply within_ite2 | apply Within.go writeOwner_within)
    | split

theorem execScratchpadReclaim_within {pad : PadNo} {master : MasterNo} {s : State} {t : State}
    (h : execScratchpadReclaim pad master s = .next t) :
    Within 137438953472 s t := by
  cases h
  repeat' first
    | apply Eq.refl | with_reducible (first | apply Within.refl | assumption)
    | with_reducible (first | intro _ | apply within_ite | apply within_ite2 | apply Within.go reclaimPad_within)
    | split

theorem execBankSpareCopyEnd_within {s : State} {t : State} (h : execBankSpareCopyEnd s = .next t) :
    Within 567002791936 s t := by
  cases h
  repeat' first
    | apply Eq.refl | with_reducible (first | apply Within.refl | assumption)
    | with_reducible (first | intro _ | apply within_ite | apply within_ite2 | apply Within.go copyEnds_within)
    | split

theorem execScrubPass_within {found : List FoundError} {s : State} {t : State} (h : execScrubPass found s = .next t) :
    Within 2198024159490 s t := by
  cases h
  repeat' first
    | apply Eq.refl | with_reducible (first | apply Within.refl | assumption)
    | with_reducible (first
        | intro _ | apply within_ite | apply within_ite2 | apply Within.go settle_within
        | apply Within.go scrubPass_within)
    | split

theorem execUncorrectableError_within {error : FoundError} {s : State} {t : State}
    (h : execUncorrectableError error s = .next t) :
    Within 2198024159490 s t := by
  cases h
  repeat' first
    | apply Eq.refl | with_reducible (first | apply Within.refl | assumption)
    | with_reducible (first
        | intro _ | apply within_ite | apply within_ite2 | apply Within.go settle_within
        | apply Within.go foundError_within)
    | split

theorem execVaultWipeComplete_within {waiting : List MemAccess} {s : State} {t : State}
    (h : execVaultWipeComplete waiting s = .next t) :
    Within 1941392326656 s t := by
  cases h
  repeat' first
    | apply Eq.refl | with_reducible (first | apply Within.refl | assumption)
    | with_reducible (first
        | intro _ | apply within_ite | apply within_ite2 | apply Within.go settle_within
        | apply Within.go wipeEnds_within)
    | split

theorem execReadFaultLog_within {cmd : Cmd} {s : State} {t : State} (h : execReadFaultLog cmd s = .next t) :
    Within 1221985304576 s t := by
  cases h
  exact readFaultLog_within

theorem execEventRouting_within {cmd : Cmd} {s : State} {t : State} (h : execEventRouting cmd s = .next t) :
    Within 1221985304576 s t := by
  cases h
  exact eventRouting_within

theorem execEventSourceState_within {cmd : Cmd} {s : State} {t : State} (h : execEventSourceState cmd s = .next t) :
    Within 1221985304576 s t := by
  cases h
  exact eventSourceState_within

theorem execClearPending_within {cmd : Cmd} {s : State} {t : State} (h : execClearPending cmd s = .next t) :
    Within 1221985304576 s t := by
  cases h
  exact clearPending_within

theorem execWearAndSpares_within {cmd : Cmd} {s : State} {t : State} (h : execWearAndSpares cmd s = .next t) :
    Within 1221985304576 s t := by
  cases h
  exact wearAndSpares_within

theorem execSiteLineNoise_within {cmd : Cmd} {s : State} {t : State} (h : execSiteLineNoise cmd s = .next t) :
    Within 1221985304576 s t := by
  cases h
  exact siteLineNoise_within

theorem execPoolConflictCounters_within {cmd : Cmd} {s : State} {t : State}
    (h : execPoolConflictCounters cmd s = .next t) :
    Within 3970764374016 s t := by
  cases h
  exact poolConflictCounters_within

theorem execTemperatures_within {cmd : Cmd} {s : State} {t : State} (h : execTemperatures cmd s = .next t) :
    Within 1221985304576 s t := by
  cases h
  exact temperatures_within

theorem execDiagnosticBundle_within {cmd : Cmd} {s : State} {t : State} (h : execDiagnosticBundle cmd s = .next t) :
    Within 3421008560128 s t := by
  cases h
  exact diagnosticBundle_within

theorem execBundleComplete_within {peerSections : Option (List Byte)} {s : State} {t : State}
    (h : execBundleComplete peerSections s = .next t) :
    Within 2319282339840 s t := by
  cases h
  exact bundleComplete_within

theorem execReadSlot_within {cmd : Cmd} {s : State} {t : State} (h : execReadSlot cmd s = .next t) :
    Within 1221985304576 s t := by
  cases h
  exact readSlot_within

theorem execWriteKeyInClear_within {cmd : Cmd} {s : State} {t : State} (h : execWriteKeyInClear cmd s = .next t) :
    Within 1222119522304 s t := by
  cases h
  exact writeKey_within

theorem execLoadShadow_within {cmd : Cmd} {s : State} {t : State} (h : execLoadShadow cmd s = .next t) :
    Within 1222119522304 s t := by
  cases h
  exact loadShadow_within

theorem execTestShadow_within {cmd : Cmd} {pass : Bool} {s : State} {t : State}
    (h : execTestShadow cmd pass s = .next t) :
    Within 1222119522304 s t := by
  cases h
  exact testShadow_within

theorem execCommitShadow_within {cmd : Cmd} {tagOk : Bool} {s : State} {t : State}
    (h : execCommitShadow cmd tagOk s = .next t) :
    Within 1222119522304 s t := by
  cases h
  exact commitShadow_within

theorem execReadStepCounters_within {cmd : Cmd} {s : State} {t : State} (h : execReadStepCounters cmd s = .next t) :
    Within 1221985304576 s t := by
  cases h
  exact readStepCounters_within

theorem execDebugUnlockToken_within {token : List Byte} {s : State} {t : State}
    (h : execDebugUnlockToken token s = .next t) :
    Within 1434191069186 s t := by
  cases h
  exact debugUnlock_within

theorem execLifecycleMove_within {cmd : Cmd} {s : State} {t : State} (h : execLifecycleMove cmd s = .next t) :
    Within 1502642126850 s t := by
  cases h
  exact lifecycleMove_within

theorem execSiteLineStatus_within {cmd : Cmd} {s : State} {t : State} (h : execSiteLineStatus cmd s = .next t) :
    Within 1222002081792 s t := by
  cases h
  exact siteLineStatus_within

theorem execSiteLineConfiguration_within {cmd : Cmd} {s : State} {t : State}
    (h : execSiteLineConfiguration cmd s = .next t) :
    Within 1222002081792 s t := by
  cases h
  exact siteLineConfiguration_within

theorem execLinkEntry_within {cmd : Cmd} {s : State} {t : State} (h : execLinkEntry cmd s = .next t) :
    Within 1222002081792 s t := by
  cases h
  exact linkEntry_within

theorem execSendFrame_within {cmd : Cmd} {s : State} {t : State} (h : execSendFrame cmd s = .next t) :
    Within 1222002081792 s t := by
  cases h
  exact sendFrame_within

theorem execReceiveFrame_within {cmd : Cmd} {s : State} {t : State} (h : execReceiveFrame cmd s = .next t) :
    Within 1222002081792 s t := by
  cases h
  exact receiveFrame_within

theorem execBeaconBytes_within {cmd : Cmd} {s : State} {t : State} (h : execBeaconBytes cmd s = .next t) :
    Within 1222002081792 s t := by
  cases h
  exact beaconBytes_within

theorem execPairHeartbeat_within {beat : Heartbeat} {s : State} {t : State} (h : execPairHeartbeat beat s = .next t) :
    Within 1226314874882 s t := by
  cases h
  exact heartbeat_within

theorem execLaneDown_within {lane : LaneHas} {s : State} {t : State} (h : execLaneDown lane s = .next t) :
    Within 19394461696 s t := by
  cases h
  repeat' first
    | apply Eq.refl | with_reducible (first | apply Within.refl | assumption)
    | with_reducible (first | intro _ | apply within_ite | apply within_ite2 | apply Within.go setLane_within) | split

theorem execPeerHeartbeatLoss_within {s : State} {t : State} (h : execPeerHeartbeatLoss s = .next t) :
    Within 19394461696 s t := by
  cases h
  exact linkLost_within

theorem execLinkKeyAgreement_within {peerPoint : BitVec 256} {legalId : BitVec 32} {signing : BitVec 8}
    {headers : List (List Byte)} {s : State} {t : State} (h : execLinkKeyAgreement peerPoint legalId signing headers s = .next t) :
    Within 20468203520 s t := by
  cases h
  exact linkKey_within

theorem execEpochFrameResend_within {seq : Nat} {s : State} {t : State} (h : execEpochFrameResend seq s = .next t) :
    Within 2147483648 s t := by
  cases h
  repeat' first
    | apply Eq.refl | with_reducible (first | apply Within.refl | assumption)
    | fail_if_no_progress ((with_reducible apply within_mk) <;> first
        | with_reducible (first
            | exact .inl rfl | exact (fun x => x) | exact .inl (fun _ x => x) | apply Nat.le_refl
            | exact fun _ => Nat.le_refl _)
        | exact .inr rfl | skip)
    | with_reducible (first | intro _ | apply within_ite | apply within_ite2) | split

theorem execForwardedCommand_within {fwd : Forwarded} {s : State} {t : State}
    (h : execForwardedCommand fwd s = .next t) :
    Within 2147483648 s t := by
  cases h
  exact takeForwarded_within

theorem execStateTransferComplete_within {full : Bool} {content : TransferContent} {s : State} {t : State}
    (h : execStateTransferComplete full content s = .next t) :
    Within 4398046511087 s t := by
  cases h
  exact transferEnds_within

theorem execEpochStart_within {peerDigest : Option (Nat × Digest)} {acked : Bool} {s : State} {t : State}
    (h : execEpochStart peerDigest acked s = .next t) :
    Within 4398046511087 s t := by
  cases h
  exact epochStart_within

theorem execSealedFrame_within {frame : SealedFrame} {s : State} {t : State} (h : execSealedFrame frame s = .next t) :
    Within 19394466048 s t := by
  cases h
  exact sealedFrame_within

theorem execSealedEntryTimeout_within {outlet : OutletNo} {s : State} {t : State}
    (h : execSealedEntryTimeout outlet s = .next t) :
    Within 2147488000 s t := by
  cases h
  repeat' first
    | apply Eq.refl | with_reducible (first | apply Within.refl | assumption)
    | with_reducible (first | intro _ | apply within_ite | apply within_ite2 | apply Within.go sealedTimeout_within)
    | split

theorem execSessionRecordContent_within {outlet : OutletNo} {content : List Byte} {s : State} {t : State}
    (h : execSessionRecordContent outlet content s = .next t) :
    Within 19394465792 s t := by
  cases h
  exact recordArrives_within

theorem execLeaseYield_within {s : State} {t : State} (h : execLeaseYield s = .next t) :
    Within 2147483648 s t := by
  cases h
  repeat' first
    | apply Eq.refl | with_reducible (first | apply Within.refl | assumption)
    | with_reducible (first | intro _ | apply within_ite | apply within_ite2 | apply Within.go noteYield_within)
    | split

theorem execLeaseTake_within {s : State} {t : State} (h : execLeaseTake s = .next t) :
    Within 1118907662338 s t := by
  cases h
  exact leaseTaken_within

theorem execStandbyTakeover_within {s : State} {t : State} (h : execStandbyTakeover s = .next t) :
    Within 1118914150402 s t := by
  cases h
  exact takeover_within

theorem execPilotCarryOver_within {outlet : OutletNo} {s : State} {t : State}
    (h : execPilotCarryOver outlet s = .next t) :
    Within 2148532224 s t := by
  cases h
  exact carryOver_within

theorem execThermalSecond_within {substrate : List Int} {dies : List Int} {s : State} {t : State}
    (h : execThermalSecond substrate dies s = .next t) :
    Within 25836912640 s t := by
  cases h
  exact thermalSecond_within

theorem execTjCtlReading_within {reading : Int} {s : State} {t : State} (h : execTjCtlReading reading s = .next t) :
    Within 25836912640 s t := by
  cases h
  exact tjReading_within

theorem execClockStepUp_within {s : State} {t : State} (h : execClockStepUp s = .next t) :
    Within 8589934592 s t := by
  cases h
  exact stepUp_within

theorem execSensorFailure_within {sensor : SensorNo} {s : State} {t : State}
    (h : execSensorFailure sensor s = .next t) :
    Within 25836912640 s t := by
  cases h
  exact sensorDeviates_within

theorem execSensorRecovery_within {sensor : SensorNo} {s : State} {t : State}
    (h : execSensorRecovery sensor s = .next t) :
    Within 25836912640 s t := by
  cases h
  exact sensorRecovers_within

theorem execImageStoreHot_within {reading : Int} {s : State} {t : State} (h : execImageStoreHot reading s = .next t) :
    Within 25836912640 s t := by
  cases h
  exact storeReading_within

theorem execOverRangeReport_within {s : State} {t : State} (h : execOverRangeReport s = .next t) :
    Within 17246978048 s t := by
  cases h
  exact overRangeReport_within

theorem execPeriodicJobRelease_within {job : JobNo} {s : State} {t : State}
    (h : execPeriodicJobRelease job s = .next t) :
    Within 25769804288 s t := by
  cases h
  exact jobRelease_within

theorem execPeriodicJobEnd_within {job : JobNo} {ranMs : Nat} {s : State} {t : State}
    (h : execPeriodicJobEnd job ranMs s = .next t) :
    Within 25836913152 s t := by
  cases h
  exact jobEnd_within

theorem execVbatBelowMinimum_within {s : State} {t : State} (h : execVbatBelowMinimum s = .next t) :
    Within 51606716433 s t := by
  cases h
  exact vbatLost_within

theorem execModuleStateAreaRewrite_within {s : State} {t : State} (h : execModuleStateAreaRewrite s = .next t) :
    Within 67108864 s t := by
  cases h
  repeat' first
    | apply Eq.refl | with_reducible (first | apply Within.refl | assumption)
    | with_reducible (first | intro _ | apply within_ite | apply within_ite2 | apply Within.go writeStateArea_within)
    | split

/-- The parts of the state that a command may change at most, as a mask. -/
def footprint : Instr → Nat
  | .mainSuppliesInRange _ _ _ _ => 4398046511103
  | .mainSupplyOutOfRange => 2198699933775
  | .tealPowerOn => 51606716433
  | .pfwAssert _ _ _ => 3357658879275
  | .pfwOutputOpen => 17247436801
  | .pfwDeassert _ => 2216273624353
  | .hostrstPulse _ => 2198690332750
  | .ochreStreamRestart _ => 2216270282152
  | .russetRestartComplete => 1121055211528
  | .speltReady => 8
  | .lockstepMismatch => 4832821256
  | .russetWatchdogExpiry => 4832821256
  | .ochreWatchdogExpiry _ => 2218418280361
  | .speltHeartbeat => 0
  | .speltWatchdogExpiry => 22087729160
  | .fescueHeartbeat => 17248026632
  | .fescueHeartbeatMissing => 17248026632
  | .fescueHeartbeatLoss => 22084780040
  | .milletHeartbeat => 1151125880842
  | .milletHeartbeatLoss => 1116766142466
  | .heldSessionsConfirmed => 1116762800130
  | .controlWatchdogExpiry => 2198690332750
  | .controlStartLimitExpiry => 2198695772238
  | .measuredStartComplete _ _ => 1434065764366
  | .peerSilentAtStart => 1151119917058
  | .commissioningTimeout => 1116759654470
  | .referenceLoss => 1116759136518
  | .fallbackCorrection => 4
  | .xrefReturn => 4
  | .xrefSlewComplete => 1116758607878
  | .clockStepChange => 8589934596
  | .quantityFrame _ => 3317933473792
  | .quantityStreamTimeout => 19396231168
  | .quantityStreamFresh _ => 17247502336
  | .streamStaleLockout => 1118909431808
  | .streamClassEEnd => 17248092160
  | .closeRequest _ _ => 19396755456
  | .coilPairSwitchOn _ => 17247174656
  | .coilHighSideOn _ => 19395706880
  | .coilTurnOnCheck _ _ => 1118909693952
  | .fescueOpenRequest _ => 196608
  | .leaseTimerExpiry => 5767168
  | .pendingModeApply _ => 37749248
  | .sessionStart _ _ _ => 17254535424
  | .sessionStop _ _ => 17246998528
  | .sessionStopResend _ => 17246998528
  | .whitelistTimeout _ _ => 103079215104
  | .groupClockInvalid _ => 17246978432
  | .manchesterLockAcquired _ => 17247502720
  | .manchesterLockLost _ => 17247502720
  | .stuckInputDetect _ => 17246978432
  | .inputValidAgain _ => 17246978432
  | .inputInvalidTimeout _ => 1118909431808
  | .laneSelfTest _ _ => 17246978176
  | .laneComparisonEnd _ _ => 128
  | .meteringBoundary _ _ => 19411803072
  | .syntheticBoundaryStart _ => 17246978304
  | .dcPeriodEnd _ _ => 19394466048
  | .saveBoundary _ _ => 8545
  | .legalSecond => 103079313664
  | .harmonicWindowEnd _ _ => 512
  | .supraharmonicStep _ => 640
  | .rawBlockComplete _ _ => 512
  | .legalTick _ => 2216270249248
  | .demandIntervalFinal _ => 2199023256832
  | .tariffSwitchAnnounce => 17246986240
  | .tamperChange _ _ => 1433519984914
  | .tamperRecordCopy => 51606722832
  | .sessionRecordSign _ => 19394465792
  | .waitingRecordMove => 4096
  | .displayFrameEnd _ => 32768
  | .bistableUpdateStart => 32768
  | .bistableUpdateCommit _ => 32768
  | .identityDisplayTimeout => 32768
  | .pilotBoundary _ _ _ => 5308416
  | .filteredStateChange _ _ => 1118913626112
  | .proxCodeChange _ _ => 17254514688
  | .offerWithdrawalTimeout _ => 1245184
  | .slacMessage _ _ => 4194304
  | .slacSoundingEnd _ => 17251237888
  | .slacMatch _ _ _ => 17254318080
  | .slacTimeout _ => 17254318080
  | .dcSlacRestart _ => 5242880
  | .v2gSupportedAppProtocol _ _ => 120333729792
  | .v2gSessionSetup _ => 120333729792
  | .v2gServiceDiscovery _ => 120333729792
  | .v2gServiceDetail _ _ => 120333729792
  | .v2gServiceSelection _ _ _ => 120333729792
  | .v2gPaymentDetails _ _ _ => 120467947520
  | .v2gAuthorizationSetup _ => 120333729792
  | .v2gAuthorization _ _ _ _ => 120501501952
  | .v2gChargeParameterDiscovery _ _ => 120333729792
  | .v2gScheduleExchange _ _ => 120333729792
  | .v2gCableCheck _ => 120333729792
  | .v2gPreCharge _ => 120333729792
  | .v2gPowerDelivery _ _ => 120333729792
  | .v2gCurrentDemand _ _ => 120333729792
  | .v2gChargingStatus _ => 120333729792
  | .v2gAcChargeLoop _ _ => 120333729792
  | .v2gDcChargeLoop _ _ => 120333729792
  | .v2gMeteringReceipt _ => 120333729792
  | .v2gWeldingDetection _ => 120333729792
  | .v2gCertificateInstallation _ _ => 120467947520
  | .v2gCertificateUpdate _ _ => 120467947520
  | .v2gSessionStop _ _ => 120333729792
  | .v2gUnsupportedMessage _ => 120333729792
  | .tlsHandshake _ _ => 2319491203072
  | .sequenceTimeout _ => 17254514688
  | .certificateAnswerTimeout _ => 103085506560
  | .policyTimeout _ _ => 120367284224
  | .sessionCoreSilent _ => 17254514688
  | .dcHoldExpiry _ => 196608
  | .fastPathOverRange _ _ => 1118909431808
  | .rcdHoldExpiry _ _ _ => 1118909431808
  | .injectorFailure _ => 19395706880
  | .weldCheck _ _ => 1118909431808
  | .peLossDc _ => 1118909431808
  | .redundantCurrentDisagreement _ => 19395706880
  | .redundantDisagreementEnd _ => 17248092160
  | .estopLevelAccepted _ _ _ _ => 1118910218240
  | .estopDiscrepancy _ => 1118910218240
  | .tripRelay _ _ _ => 1118909431808
  | .switchOverCurrent _ => 1118909693952
  | .readbackDeparture _ _ _ => 1118909693952
  | .pulseTestStart _ => 131072
  | .offPulseCheck _ _ _ => 1118909693952
  | .offPulseEnd _ => 131072
  | .offPulseRestoreCheck _ _ => 1118909693952
  | .onPulseCheck _ _ _ => 1118909693952
  | .onPulseEnd _ => 131072
  | .mirrorTimeout _ _ => 1118909431808
  | .mirrorUncommandedChange _ _ => 1118909431808
  | .brakeReleaseCheck _ _ _ => 1118909693952
  | .brakeEngageCheck _ _ => 1118909693952
  | .brakeCurrentFault _ _ => 1118909693952
  | .holdingTestMovement _ _ => 1118909693952
  | .holdingTestTorqueEnd _ => 262144
  | .holdingTestEnd _ _ => 1118909693952
  | .classETimerExpiry _ => 19395706880
  | .classESupervisionStart _ => 65536
  | .classEOvercurrent _ => 19395706880
  | .resetInputRelease _ _ _ => 5516956729344
  | .resetInputHeld _ => 17247502336
  | .releaseWindowExpiry _ => 65536
  | .releasePeerResult _ _ => 5514806231040
  | .releasePeerTimeout _ => 17247043584
  | .mirrorGrant _ => 19396755456
  | .speltControlTick _ _ _ => 17255366656
  | .thermalShutdown _ _ => 17255366656
  | .differenceLimit _ _ _ => 17255366656
  | .channelRestart _ _ _ => 8388608
  | .pulseEdge _ _ => 8388608
  | .conditionBroadcast => 17255366656
  | .broadcastAbsent => 17255366656
  | .ruleDelayExpiry _ => 8388608
  | .onStateOpenLoad _ _ => 17255366656
  | .offStateDiagnostic _ => 17255366656
  | .channelShed => 17255366656
  | .channelRestore => 17255366656
  | .aggregateCapUpdate => 8388608
  | .superframeStart _ => 16777216
  | .beaconReceived _ => 16777216
  | .beaconsMissed => 17263755264
  | .siteFrameReceived _ _ => 17263755264
  | .siteFrameRetransmit _ => 17263755264
  | .mapRecompute _ _ => 16777216
  | .mapAckMissing _ => 16777216
  | .mapSwitch _ => 16777216
  | .toneLoopbackTest _ _ => 17263755264
  | .joinRequest _ => 17263755264
  | .joinRetry => 16777216
  | .timeBaseLost => 17263755264
  | .timeBaseResumed => 17263755264
  | .aerialPing _ _ _ _ => 120367284224
  | .pollTimeout _ => 33554432
  | .authFallback _ => 120367284224
  | .cardHoldExpiry _ => 33554432
  | .authHoldExpiry _ => 17254318080
  | .tagFieldOn => 120326193152
  | .tagFieldLost => 103146323968
  | .tagInventory _ => 103146323968
  | .tagStayQuiet _ => 103146323968
  | .tagReadSingleBlock _ _ => 103146389504
  | .tagWriteSingleBlock _ _ _ => 103146323968
  | .tagReadMultipleBlocks _ _ _ => 103146389504
  | .tagSelect _ => 103146323968
  | .tagResetToReady _ => 103146323968
  | .tagGetSystemInformation _ => 103146323968
  | .tagGetBlockSecurity _ _ _ => 103146389504
  | .tagExtReadSingleBlock _ _ => 103146389504
  | .tagExtWriteSingleBlock _ _ _ => 103146323968
  | .tagExtReadMultipleBlocks _ _ _ => 103146389504
  | .tagExtGetSystemInformation _ => 103146323968
  | .tagExtGetBlockSecurity _ _ _ => 103146389504
  | .tagReadSignature _ => 103146323968
  | .tagKill _ _ => 103146323968
  | .tagReadMirrorIndex _ => 103146323968
  | .tagUnsupportedCommand _ _ => 103146323968
  | .tagSectorCommit _ => 103146323968
  | .tagBusyRetry _ _ => 103146323968
  | .tlsConnectionOpen _ _ => 121534152704
  | .portSilence _ => 51606716416
  | .recordRingEntry _ _ _ => 120326193152
  | .recordConsumerIndex _ _ _ => 51606716416
  | .recordWindowRead _ _ _ _ => 51606781952
  | .recordWindowWrite _ _ _ => 120326717440
  | .recordBulkWrite _ _ _ => 120326193152
  | .recordBulkRead _ _ _ _ => 51606716416
  | .malformedRecord _ => 51606716416
  | .qspiReadPortStatus => 34359738368
  | .registerWrite _ _ _ => 120326717440
  | .busyMsWrite _ _ => 120326717440
  | .resetCauseClear _ _ => 120326717440
  | .ringEnable _ _ => 120326717440
  | .ringDisable _ _ => 120326717440
  | .urgentDoorbell _ _ => 120326717440
  | .normalDoorbell _ _ => 120326717440
  | .responseConsumerWrite _ _ => 120326717440
  | .eventConsumerWrite _ _ => 120326717440
  | .hostHeartbeatWrite _ _ => 120326717440
  | .commandFetch _ => 2321496932352
  | .eventOccurrence _ _ _ _ _ => 17246978048
  | .eventRingWrite => 2319282339840
  | .delayedEventDelivery => 17246978048
  | .echo _ => 1221985304576
  | .readIdentity _ => 1221985304576
  | .enterCommissioning _ => 1221986353154
  | .leaveCommissioning _ => 1221986353222
  | .dieReset _ _ => 4397727717359
  | .controlResetAfterResponse => 2198690332750
  | .networkSettings _ => 1221985304576
  | .mailboxKeySlots _ => 1221985304576
  | .setQspiAuthority _ => 1221985304576
  | .read1sValues _ => 3421008560128
  | .readTotals _ => 1221985304576
  | .readHarmonicWindow _ => 1221985305088
  | .readSupraharmonicResult _ => 1221985304576
  | .collectRawSampleBlock _ => 1221985305088
  | .readMetrologyTable _ => 1221985304576
  | .outletRoleAssignment _ => 1222522193984
  | .userCalibration _ => 1221985355840
  | .meteringMode _ => 1221985305088
  | .readRegisters _ => 1221985304576
  | .readBillingSnapshot _ => 1221985304576
  | .readLegalLog _ => 1221985306624
  | .acknowledgeLegalLog _ => 1221985323008
  | .readLegalObject _ => 1221985304576
  | .readSessionRecords _ => 1221985304576
  | .confirmExport _ => 1221985308672
  | .tariffParameters _ => 1221985323072
  | .loadPassiveCalendar _ => 1221985331200
  | .setLegalTime _ => 3421008592160
  | .demandInterval _ => 1221985331200
  | .confirmTariffSwitch _ => 1221985329152
  | .displaySelection _ => 1221985353728
  | .vehicleLinkStatus _ => 1221985304576
  | .vehicleLinkConfiguration _ => 1221990547456
  | .loadLimit _ => 1221986353152
  | .sessionMode _ => 1221989498880
  | .policyAnswer _ => 1222026395648
  | .certificateAnswer _ => 1221991596032
  | .endSession _ => 1221988646912
  | .safetyStatus _ => 1221985304576
  | .setEnable _ => 1221986418688
  | .clearEnable _ => 1221986549760
  | .openRequest _ => 1221985501184
  | .lockoutRelease _ => 1221985370112
  | .brakeEngage _ => 1221985697792
  | .brakeRelease _ => 1221985697792
  | .brakeHoldingTest _ => 1221985697792
  | .classERequest _ => 1221986549760
  | .writeLimitedSetting _ => 1222523027456
  | .readLimitedSetting _ => 1221985304576
  | .loadSwitchStatus _ => 1221985304576
  | .channelConfiguration _ => 1221993693184
  | .channelControl _ => 1221993693184
  | .channelRule _ => 1221993693184
  | .hostFlags _ => 1221993693184
  | .aggregateMaximum _ => 1221993693184
  | .readChannelSetup _ => 1221985304576
  | .siteLineStatus _ => 1222002081792
  | .siteLineConfiguration _ => 1222002081792
  | .linkEntry _ => 1222002081792
  | .sendFrame _ => 1222002081792
  | .receiveFrame _ => 1222002081792
  | .beaconBytes _ => 1222002081792
  | .contactlessStatus _ => 1222018859008
  | .contactlessConfiguration _ => 1222018859008
  | .loadAllowlist _ => 1222018859008
  | .allowlistLookup _ => 1221985304576
  | .cardExchange _ _ => 1221985304576
  | .tagMemoryRead _ => 1221985304576
  | .tagMemoryWrite _ => 1221985304576
  | .tagKillPassword _ => 1221985304576
  | .readSlot _ => 1221985304576
  | .writeKeyInClear _ => 1222119522304
  | .loadShadow _ => 1222119522304
  | .testShadow _ _ => 1222119522304
  | .commitShadow _ _ => 1222119522304
  | .lifecycleMove _ => 1502642126850
  | .readStepCounters _ => 1221985304576
  | .pairDetail _ => 1221985304576
  | .bindPeer _ => 1222522175488
  | .unbindPeer _ => 1222522175488
  | .plannedHandover _ => 1221985304578
  | .clearSuspectResynchronise _ => 1221985304576
  | .openStaging _ => 3435101421570
  | .imageBody _ => 3425303527424
  | .imageCommit _ => 1226825531394
  | .stagingAbort _ => 1227354013698
  | .updateStatus _ => 1221985304576
  | .readFaultLog _ => 1221985304576
  | .diagnosticBundle _ => 3421008560128
  | .bundleComplete _ => 2319282339840
  | .eventRouting _ => 1221985304576
  | .eventSourceState _ => 1221985304576
  | .clearPending _ => 1221985304576
  | .wearAndSpares _ => 1221985304576
  | .siteLineNoise _ => 1221985304576
  | .poolConflictCounters _ => 3970764374016
  | .temperatures _ => 1221985304576
  | .scratchpadOwnerWrite _ _ _ _ => 687194767360
  | .scratchpadReclaim _ _ => 137438953472
  | .atomicOperation _ => 618475290624
  | .scrubPass _ => 2198024159490
  | .uncorrectableError _ => 2198024159490
  | .bankSpareCopyEnd => 567002791936
  | .vaultWipeComplete _ => 1941392326656
  | .debugUnlockToken _ => 1434191069186
  | .pairHeartbeat _ => 1226314874882
  | .laneDown _ => 19394461696
  | .peerHeartbeatLoss => 19394461696
  | .linkKeyAgreement _ _ _ _ => 20468203520
  | .epochStart _ _ => 4398046511087
  | .forwardedCommand _ => 2147483648
  | .epochFrameResend _ => 2147483648
  | .sealedFrame _ => 19394466048
  | .sealedEntryTimeout _ => 2147488000
  | .sessionRecordContent _ _ => 19394465792
  | .stateTransferComplete _ _ => 4398046511087
  | .leaseYield => 2147483648
  | .leaseTake => 1118907662338
  | .standbyTakeover => 1118914150402
  | .pilotCarryOver _ => 2148532224
  | .stagingTimeout => 1122127314946
  | .trialConfirmation _ => 21541945344
  | .fescueImageBringIn => 22084124680
  | .sessionImageBringIn _ => 4831838208
  | .milletStateHandover => 47781511168
  | .speltImageReset => 4840226824
  | .thermalSecond _ _ => 25836912640
  | .clockStepUp => 8589934592
  | .sensorFailure _ => 25836912640
  | .sensorRecovery _ => 25836912640
  | .imageStoreHot _ => 25836912640
  | .overRangeReport => 17246978048
  | .periodicJobRelease _ => 25769804288
  | .periodicJobEnd _ _ => 25836913152
  | .vbatBelowMinimum => 51606716433
  | .siteLineHostSilence => 16777216
  | .tlsConnectionClose _ => 51606716416
  | .qspiPoolAccess _ _ => 670082531328
  | .holdingTestOverdue _ => 262144
  | .sessionCoreSelfTestEnd _ => 4194304
  | .moduleStateAreaRewrite => 67108864
  | .fullCommonWriteEnd => 32768
  | .tjCtlReading _ => 25836912640

theorem exec_within {s t : State} : ∀ (i : Instr), exec i s = .next t → Within (footprint i) s t
  | .mainSuppliesInRange _ _ _ _, h => execMainSuppliesInRange_within h
  | .mainSupplyOutOfRange, h => execMainSupplyOutOfRange_within h
  | .tealPowerOn, h => execTealPowerOn_within h
  | .pfwAssert _ _ _, h => execPfwAssert_within h
  | .pfwOutputOpen, h => execPfwOutputOpen_within h
  | .pfwDeassert _, h => execPfwDeassert_within h
  | .hostrstPulse _, h => execHostrstPulse_within h
  | .ochreStreamRestart _, h => execOchreStreamRestart_within h
  | .russetRestartComplete, h => execRussetRestartComplete_within h
  | .speltReady, h => execSpeltReady_within h
  | .lockstepMismatch, h => execLockstepMismatch_within h
  | .russetWatchdogExpiry, h => execRussetWatchdogExpiry_within h
  | .ochreWatchdogExpiry _, h => execOchreWatchdogExpiry_within h
  | .speltHeartbeat, h => execSpeltHeartbeat_within h
  | .speltWatchdogExpiry, h => execSpeltWatchdogExpiry_within h
  | .fescueHeartbeat, h => execFescueHeartbeat_within h
  | .fescueHeartbeatMissing, h => execFescueHeartbeatMissing_within h
  | .fescueHeartbeatLoss, h => execFescueHeartbeatLoss_within h
  | .milletHeartbeat, h => execMilletHeartbeat_within h
  | .milletHeartbeatLoss, h => execMilletHeartbeatLoss_within h
  | .heldSessionsConfirmed, h => execHeldSessionsConfirmed_within h
  | .controlWatchdogExpiry, h => execControlWatchdogExpiry_within h
  | .controlStartLimitExpiry, h => execControlStartLimitExpiry_within h
  | .measuredStartComplete _ _, h => execMeasuredStartComplete_within h
  | .peerSilentAtStart, h => execPeerSilentAtStart_within h
  | .commissioningTimeout, h => execCommissioningTimeout_within h
  | .referenceLoss, h => execReferenceLoss_within h
  | .fallbackCorrection, h => execFallbackCorrection_within h
  | .xrefReturn, h => execXrefReturn_within h
  | .xrefSlewComplete, h => execXrefSlewComplete_within h
  | .clockStepChange, h => execClockStepChange_within h
  | .quantityFrame _, h => execQuantityFrame_within h
  | .quantityStreamTimeout, h => execQuantityStreamTimeout_within h
  | .quantityStreamFresh _, h => execQuantityStreamFresh_within h
  | .streamStaleLockout, h => execStreamStaleLockout_within h
  | .streamClassEEnd, h => execStreamClassEEnd_within h
  | .closeRequest _ _, h => execCloseRequest_within h
  | .coilPairSwitchOn _, h => execCoilPairSwitchOn_within h
  | .coilHighSideOn _, h => execCoilHighSideOn_within h
  | .coilTurnOnCheck _ _, h => execCoilTurnOnCheck_within h
  | .fescueOpenRequest _, h => execFescueOpenRequest_within h
  | .leaseTimerExpiry, h => execLeaseTimerExpiry_within h
  | .pendingModeApply _, h => execPendingModeApply_within h
  | .sessionStart _ _ _, h => execSessionStart_within h
  | .sessionStop _ _, h => execSessionStop_within h
  | .sessionStopResend _, h => execSessionStopResend_within h
  | .whitelistTimeout _ _, h => execWhitelistTimeout_within h
  | .groupClockInvalid _, h => execGroupClockInvalid_within h
  | .manchesterLockAcquired _, h => execManchesterLockAcquired_within h
  | .manchesterLockLost _, h => execManchesterLockLost_within h
  | .stuckInputDetect _, h => execStuckInputDetect_within h
  | .inputValidAgain _, h => execInputValidAgain_within h
  | .inputInvalidTimeout _, h => execInputInvalidTimeout_within h
  | .laneSelfTest _ _, h => execLaneSelfTest_within h
  | .laneComparisonEnd _ _, h => execLaneComparisonEnd_within h
  | .meteringBoundary _ _, h => execMeteringBoundary_within h
  | .syntheticBoundaryStart _, h => execSyntheticBoundaryStart_within h
  | .dcPeriodEnd _ _, h => execDcPeriodEnd_within h
  | .saveBoundary _ _, h => execSaveBoundary_within h
  | .legalSecond, h => execLegalSecond_within h
  | .harmonicWindowEnd _ _, h => execHarmonicWindowEnd_within h
  | .supraharmonicStep _, h => execSupraharmonicStep_within h
  | .rawBlockComplete _ _, h => execRawBlockComplete_within h
  | .legalTick _, h => execLegalTick_within h
  | .demandIntervalFinal _, h => execDemandIntervalFinal_within h
  | .tariffSwitchAnnounce, h => execTariffSwitchAnnounce_within h
  | .tamperChange _ _, h => execTamperChange_within h
  | .tamperRecordCopy, h => execTamperRecordCopy_within h
  | .sessionRecordSign _, h => execSessionRecordSign_within h
  | .waitingRecordMove, h => execWaitingRecordMove_within h
  | .displayFrameEnd _, h => execDisplayFrameEnd_within h
  | .bistableUpdateStart, h => execBistableUpdateStart_within h
  | .bistableUpdateCommit _, h => execBistableUpdateCommit_within h
  | .identityDisplayTimeout, h => execIdentityDisplayTimeout_within h
  | .pilotBoundary _ _ _, h => execPilotBoundary_within h
  | .filteredStateChange _ _, h => execFilteredStateChange_within h
  | .proxCodeChange _ _, h => execProxCodeChange_within h
  | .offerWithdrawalTimeout _, h => execOfferWithdrawalTimeout_within h
  | .slacMessage _ _, h => execSlacMessage_within h
  | .slacSoundingEnd _, h => execSlacSoundingEnd_within h
  | .slacMatch _ _ _, h => execSlacMatch_within h
  | .slacTimeout _, h => execSlacTimeout_within h
  | .dcSlacRestart _, h => execDcSlacRestart_within h
  | .v2gSupportedAppProtocol _ _, h => execV2gSupportedAppProtocol_within h
  | .v2gSessionSetup _, h => execV2gSessionSetup_within h
  | .v2gServiceDiscovery _, h => execV2gServiceDiscovery_within h
  | .v2gServiceDetail _ _, h => execV2gServiceDetail_within h
  | .v2gServiceSelection _ _ _, h => execV2gServiceSelection_within h
  | .v2gPaymentDetails _ _ _, h => execV2gPaymentDetails_within h
  | .v2gAuthorizationSetup _, h => execV2gAuthorizationSetup_within h
  | .v2gAuthorization _ _ _ _, h => execV2gAuthorization_within h
  | .v2gChargeParameterDiscovery _ _, h => execV2gChargeParameterDiscovery_within h
  | .v2gScheduleExchange _ _, h => execV2gScheduleExchange_within h
  | .v2gCableCheck _, h => execV2gCableCheck_within h
  | .v2gPreCharge _, h => execV2gPreCharge_within h
  | .v2gPowerDelivery _ _, h => execV2gPowerDelivery_within h
  | .v2gCurrentDemand _ _, h => execV2gCurrentDemand_within h
  | .v2gChargingStatus _, h => execV2gChargingStatus_within h
  | .v2gAcChargeLoop _ _, h => execV2gAcChargeLoop_within h
  | .v2gDcChargeLoop _ _, h => execV2gDcChargeLoop_within h
  | .v2gMeteringReceipt _, h => execV2gMeteringReceipt_within h
  | .v2gWeldingDetection _, h => execV2gWeldingDetection_within h
  | .v2gCertificateInstallation _ _, h => execV2gCertificateInstallation_within h
  | .v2gCertificateUpdate _ _, h => execV2gCertificateUpdate_within h
  | .v2gSessionStop _ _, h => execV2gSessionStop_within h
  | .v2gUnsupportedMessage _, h => execV2gUnsupportedMessage_within h
  | .tlsHandshake _ _, h => execTlsHandshake_within h
  | .sequenceTimeout _, h => execSequenceTimeout_within h
  | .certificateAnswerTimeout _, h => execCertificateAnswerTimeout_within h
  | .policyTimeout _ _, h => execPolicyTimeout_within h
  | .sessionCoreSilent _, h => execSessionCoreSilent_within h
  | .dcHoldExpiry _, h => execDcHoldExpiry_within h
  | .fastPathOverRange _ _, h => execFastPathOverRange_within h
  | .rcdHoldExpiry _ _ _, h => execRcdHoldExpiry_within h
  | .injectorFailure _, h => execInjectorFailure_within h
  | .weldCheck _ _, h => execWeldCheck_within h
  | .peLossDc _, h => execPeLossDc_within h
  | .redundantCurrentDisagreement _, h => execRedundantCurrentDisagreement_within h
  | .redundantDisagreementEnd _, h => execRedundantDisagreementEnd_within h
  | .estopLevelAccepted _ _ _ _, h => execEstopLevelAccepted_within h
  | .estopDiscrepancy _, h => execEstopDiscrepancy_within h
  | .tripRelay _ _ _, h => execTripRelay_within h
  | .switchOverCurrent _, h => execSwitchOverCurrent_within h
  | .readbackDeparture _ _ _, h => execReadbackDeparture_within h
  | .pulseTestStart _, h => execPulseTestStart_within h
  | .offPulseCheck _ _ _, h => execOffPulseCheck_within h
  | .offPulseEnd _, h => execOffPulseEnd_within h
  | .offPulseRestoreCheck _ _, h => execOffPulseRestoreCheck_within h
  | .onPulseCheck _ _ _, h => execOnPulseCheck_within h
  | .onPulseEnd _, h => execOnPulseEnd_within h
  | .mirrorTimeout _ _, h => execMirrorTimeout_within h
  | .mirrorUncommandedChange _ _, h => execMirrorUncommandedChange_within h
  | .brakeReleaseCheck _ _ _, h => execBrakeReleaseCheck_within h
  | .brakeEngageCheck _ _, h => execBrakeEngageCheck_within h
  | .brakeCurrentFault _ _, h => execBrakeCurrentFault_within h
  | .holdingTestMovement _ _, h => execHoldingTestMovement_within h
  | .holdingTestTorqueEnd _, h => execHoldingTestTorqueEnd_within h
  | .holdingTestEnd _ _, h => execHoldingTestEnd_within h
  | .classETimerExpiry _, h => execClassETimerExpiry_within h
  | .classESupervisionStart _, h => execClassESupervisionStart_within h
  | .classEOvercurrent _, h => execClassEOvercurrent_within h
  | .resetInputRelease _ _ _, h => execResetInputRelease_within h
  | .resetInputHeld _, h => execResetInputHeld_within h
  | .releaseWindowExpiry _, h => execReleaseWindowExpiry_within h
  | .releasePeerResult _ _, h => execReleasePeerResult_within h
  | .releasePeerTimeout _, h => execReleasePeerTimeout_within h
  | .mirrorGrant _, h => execMirrorGrant_within h
  | .speltControlTick _ _ _, h => execSpeltControlTick_within h
  | .thermalShutdown _ _, h => execThermalShutdown_within h
  | .differenceLimit _ _ _, h => execDifferenceLimit_within h
  | .channelRestart _ _ _, h => execChannelRestart_within h
  | .pulseEdge _ _, h => execPulseEdge_within h
  | .conditionBroadcast, h => execConditionBroadcast_within h
  | .broadcastAbsent, h => execBroadcastAbsent_within h
  | .ruleDelayExpiry _, h => execRuleDelayExpiry_within h
  | .onStateOpenLoad _ _, h => execOnStateOpenLoad_within h
  | .offStateDiagnostic _, h => execOffStateDiagnostic_within h
  | .channelShed, h => execChannelShed_within h
  | .channelRestore, h => execChannelRestore_within h
  | .aggregateCapUpdate, h => execAggregateCapUpdate_within h
  | .superframeStart _, h => execSuperframeStart_within h
  | .beaconReceived _, h => execBeaconReceived_within h
  | .beaconsMissed, h => execBeaconsMissed_within h
  | .siteFrameReceived _ _, h => execSiteFrameReceived_within h
  | .siteFrameRetransmit _, h => execSiteFrameRetransmit_within h
  | .mapRecompute _ _, h => execMapRecompute_within h
  | .mapAckMissing _, h => execMapAckMissing_within h
  | .mapSwitch _, h => execMapSwitch_within h
  | .toneLoopbackTest _ _, h => execToneLoopbackTest_within h
  | .joinRequest _, h => execJoinRequest_within h
  | .joinRetry, h => execJoinRetry_within h
  | .timeBaseLost, h => execTimeBaseLost_within h
  | .timeBaseResumed, h => execTimeBaseResumed_within h
  | .aerialPing _ _ _ _, h => execAerialPing_within h
  | .pollTimeout _, h => execPollTimeout_within h
  | .authFallback _, h => execAuthFallback_within h
  | .cardHoldExpiry _, h => execCardHoldExpiry_within h
  | .authHoldExpiry _, h => execAuthHoldExpiry_within h
  | .tagFieldOn, h => execTagFieldOn_within h
  | .tagFieldLost, h => execTagFieldLost_within h
  | .tagInventory _, h => execTagInventory_within h
  | .tagStayQuiet _, h => execTagStayQuiet_within h
  | .tagReadSingleBlock _ _, h => execTagReadSingleBlock_within h
  | .tagWriteSingleBlock _ _ _, h => execTagWriteSingleBlock_within h
  | .tagReadMultipleBlocks _ _ _, h => execTagReadMultipleBlocks_within h
  | .tagSelect _, h => execTagSelect_within h
  | .tagResetToReady _, h => execTagResetToReady_within h
  | .tagGetSystemInformation _, h => execTagGetSystemInformation_within h
  | .tagGetBlockSecurity _ _ _, h => execTagGetBlockSecurity_within h
  | .tagExtReadSingleBlock _ _, h => execTagExtReadSingleBlock_within h
  | .tagExtWriteSingleBlock _ _ _, h => execTagExtWriteSingleBlock_within h
  | .tagExtReadMultipleBlocks _ _ _, h => execTagExtReadMultipleBlocks_within h
  | .tagExtGetSystemInformation _, h => execTagExtGetSystemInformation_within h
  | .tagExtGetBlockSecurity _ _ _, h => execTagExtGetBlockSecurity_within h
  | .tagReadSignature _, h => execTagReadSignature_within h
  | .tagKill _ _, h => execTagKill_within h
  | .tagReadMirrorIndex _, h => execTagReadMirrorIndex_within h
  | .tagUnsupportedCommand _ code, h => execTagUnsupportedCommand_within (code := code) h
  | .tagSectorCommit _, h => execTagSectorCommit_within h
  | .tagBusyRetry _ _, h => execTagBusyRetry_within h
  | .tlsConnectionOpen _ _, h => execTlsConnectionOpen_within h
  | .portSilence _, h => execPortSilence_within h
  | .recordRingEntry _ _ _, h => execRecordRingEntry_within h
  | .recordConsumerIndex _ _ _, h => execRecordConsumerIndex_within h
  | .recordWindowRead _ _ _ _, h => execRecordWindowRead_within h
  | .recordWindowWrite _ _ _, h => execRecordWindowWrite_within h
  | .recordBulkWrite _ _ _, h => execRecordBulkWrite_within h
  | .recordBulkRead _ _ _ _, h => execRecordBulkRead_within h
  | .malformedRecord _, h => execMalformedRecord_within h
  | .qspiReadPortStatus, h => execQspiReadPortStatus_within h
  | .registerWrite _ _ _, h => execRegisterWrite_within h
  | .busyMsWrite _ _, h => execBusyMsWrite_within h
  | .resetCauseClear _ _, h => execResetCauseClear_within h
  | .ringEnable _ _, h => execRingEnable_within h
  | .ringDisable _ _, h => execRingDisable_within h
  | .urgentDoorbell _ _, h => execUrgentDoorbell_within h
  | .normalDoorbell _ _, h => execNormalDoorbell_within h
  | .responseConsumerWrite _ _, h => execResponseConsumerWrite_within h
  | .eventConsumerWrite _ _, h => execEventConsumerWrite_within h
  | .hostHeartbeatWrite _ _, h => execHostHeartbeatWrite_within h
  | .commandFetch _, h => execCommandFetch_within h
  | .eventOccurrence _ _ _ _ _, h => execEventOccurrence_within h
  | .eventRingWrite, h => execEventRingWrite_within h
  | .delayedEventDelivery, h => execDelayedEventDelivery_within h
  | .echo _, h => execEcho_within h
  | .readIdentity _, h => execReadIdentity_within h
  | .enterCommissioning _, h => execEnterCommissioning_within h
  | .leaveCommissioning _, h => execLeaveCommissioning_within h
  | .dieReset _ _, h => execDieReset_within h
  | .controlResetAfterResponse, h => execControlResetAfterResponse_within h
  | .networkSettings _, h => execNetworkSettings_within h
  | .mailboxKeySlots _, h => execMailboxKeySlots_within h
  | .setQspiAuthority _, h => execSetQspiAuthority_within h
  | .read1sValues _, h => execRead1sValues_within h
  | .readTotals _, h => execReadTotals_within h
  | .readHarmonicWindow _, h => execReadHarmonicWindow_within h
  | .readSupraharmonicResult _, h => execReadSupraharmonicResult_within h
  | .collectRawSampleBlock _, h => execCollectRawSampleBlock_within h
  | .readMetrologyTable _, h => execReadMetrologyTable_within h
  | .outletRoleAssignment _, h => execOutletRoleAssignment_within h
  | .userCalibration _, h => execUserCalibration_within h
  | .meteringMode _, h => execMeteringMode_within h
  | .readRegisters _, h => execReadRegisters_within h
  | .readBillingSnapshot _, h => execReadBillingSnapshot_within h
  | .readLegalLog _, h => execReadLegalLog_within h
  | .acknowledgeLegalLog _, h => execAcknowledgeLegalLog_within h
  | .readLegalObject _, h => execReadLegalObject_within h
  | .readSessionRecords _, h => execReadSessionRecords_within h
  | .confirmExport _, h => execConfirmExport_within h
  | .tariffParameters _, h => execTariffParameters_within h
  | .loadPassiveCalendar _, h => execLoadPassiveCalendar_within h
  | .setLegalTime _, h => execSetLegalTime_within h
  | .demandInterval _, h => execDemandInterval_within h
  | .confirmTariffSwitch _, h => execConfirmTariffSwitch_within h
  | .displaySelection _, h => execDisplaySelection_within h
  | .vehicleLinkStatus _, h => execVehicleLinkStatus_within h
  | .vehicleLinkConfiguration _, h => execVehicleLinkConfiguration_within h
  | .loadLimit _, h => execLoadLimit_within h
  | .sessionMode _, h => execSessionMode_within h
  | .policyAnswer _, h => execPolicyAnswer_within h
  | .certificateAnswer _, h => execCertificateAnswer_within h
  | .endSession _, h => execEndSession_within h
  | .safetyStatus _, h => execSafetyStatus_within h
  | .setEnable _, h => execSetEnable_within h
  | .clearEnable _, h => execClearEnable_within h
  | .openRequest _, h => execOpenRequest_within h
  | .lockoutRelease _, h => execLockoutRelease_within h
  | .brakeEngage _, h => execBrakeEngage_within h
  | .brakeRelease _, h => execBrakeRelease_within h
  | .brakeHoldingTest _, h => execBrakeHoldingTest_within h
  | .classERequest _, h => execClassERequest_within h
  | .writeLimitedSetting _, h => execWriteLimitedSetting_within h
  | .readLimitedSetting _, h => execReadLimitedSetting_within h
  | .loadSwitchStatus _, h => execLoadSwitchStatus_within h
  | .channelConfiguration _, h => execChannelConfiguration_within h
  | .channelControl _, h => execChannelControl_within h
  | .channelRule _, h => execChannelRule_within h
  | .hostFlags _, h => execHostFlags_within h
  | .aggregateMaximum _, h => execAggregateMaximum_within h
  | .readChannelSetup _, h => execReadChannelSetup_within h
  | .siteLineStatus _, h => execSiteLineStatus_within h
  | .siteLineConfiguration _, h => execSiteLineConfiguration_within h
  | .linkEntry _, h => execLinkEntry_within h
  | .sendFrame _, h => execSendFrame_within h
  | .receiveFrame _, h => execReceiveFrame_within h
  | .beaconBytes _, h => execBeaconBytes_within h
  | .contactlessStatus _, h => execContactlessStatus_within h
  | .contactlessConfiguration _, h => execContactlessConfiguration_within h
  | .loadAllowlist _, h => execLoadAllowlist_within h
  | .allowlistLookup _, h => execAllowlistLookup_within h
  | .cardExchange _ _, h => execCardExchange_within h
  | .tagMemoryRead _, h => execTagMemoryRead_within h
  | .tagMemoryWrite _, h => execTagMemoryWrite_within h
  | .tagKillPassword _, h => execTagKillPassword_within h
  | .readSlot _, h => execReadSlot_within h
  | .writeKeyInClear _, h => execWriteKeyInClear_within h
  | .loadShadow _, h => execLoadShadow_within h
  | .testShadow _ _, h => execTestShadow_within h
  | .commitShadow _ _, h => execCommitShadow_within h
  | .lifecycleMove _, h => execLifecycleMove_within h
  | .readStepCounters _, h => execReadStepCounters_within h
  | .pairDetail _, h => execPairDetail_within h
  | .bindPeer _, h => execBindPeer_within h
  | .unbindPeer _, h => execUnbindPeer_within h
  | .plannedHandover _, h => execPlannedHandover_within h
  | .clearSuspectResynchronise _, h => execClearSuspectResynchronise_within h
  | .openStaging _, h => execOpenStaging_within h
  | .imageBody _, h => execImageBody_within h
  | .imageCommit _, h => execImageCommit_within h
  | .stagingAbort _, h => execStagingAbort_within h
  | .updateStatus _, h => execUpdateStatus_within h
  | .readFaultLog _, h => execReadFaultLog_within h
  | .diagnosticBundle _, h => execDiagnosticBundle_within h
  | .bundleComplete _, h => execBundleComplete_within h
  | .eventRouting _, h => execEventRouting_within h
  | .eventSourceState _, h => execEventSourceState_within h
  | .clearPending _, h => execClearPending_within h
  | .wearAndSpares _, h => execWearAndSpares_within h
  | .siteLineNoise _, h => execSiteLineNoise_within h
  | .poolConflictCounters _, h => execPoolConflictCounters_within h
  | .temperatures _, h => execTemperatures_within h
  | .scratchpadOwnerWrite _ _ _ _, h => execScratchpadOwnerWrite_within h
  | .scratchpadReclaim _ _, h => execScratchpadReclaim_within h
  | .atomicOperation _, h => execAtomicOperation_within h
  | .scrubPass _, h => execScrubPass_within h
  | .uncorrectableError _, h => execUncorrectableError_within h
  | .bankSpareCopyEnd, h => execBankSpareCopyEnd_within h
  | .vaultWipeComplete _, h => execVaultWipeComplete_within h
  | .debugUnlockToken _, h => execDebugUnlockToken_within h
  | .pairHeartbeat _, h => execPairHeartbeat_within h
  | .laneDown _, h => execLaneDown_within h
  | .peerHeartbeatLoss, h => execPeerHeartbeatLoss_within h
  | .linkKeyAgreement _ _ _ _, h => execLinkKeyAgreement_within h
  | .epochStart _ _, h => execEpochStart_within h
  | .forwardedCommand _, h => execForwardedCommand_within h
  | .epochFrameResend _, h => execEpochFrameResend_within h
  | .sealedFrame _, h => execSealedFrame_within h
  | .sealedEntryTimeout _, h => execSealedEntryTimeout_within h
  | .sessionRecordContent _ _, h => execSessionRecordContent_within h
  | .stateTransferComplete _ _, h => execStateTransferComplete_within h
  | .leaseYield, h => execLeaseYield_within h
  | .leaseTake, h => execLeaseTake_within h
  | .standbyTakeover, h => execStandbyTakeover_within h
  | .pilotCarryOver _, h => execPilotCarryOver_within h
  | .stagingTimeout, h => execStagingTimeout_within h
  | .trialConfirmation _, h => execTrialConfirmation_within h
  | .fescueImageBringIn, h => execFescueImageBringIn_within h
  | .sessionImageBringIn _, h => execSessionImageBringIn_within h
  | .milletStateHandover, h => execMilletStateHandover_within h
  | .speltImageReset, h => execSpeltImageReset_within h
  | .thermalSecond _ _, h => execThermalSecond_within h
  | .clockStepUp, h => execClockStepUp_within h
  | .sensorFailure _, h => execSensorFailure_within h
  | .sensorRecovery _, h => execSensorRecovery_within h
  | .imageStoreHot _, h => execImageStoreHot_within h
  | .overRangeReport, h => execOverRangeReport_within h
  | .periodicJobRelease _, h => execPeriodicJobRelease_within h
  | .periodicJobEnd _ _, h => execPeriodicJobEnd_within h
  | .vbatBelowMinimum, h => execVbatBelowMinimum_within h
  | .siteLineHostSilence, h => execSiteLineHostSilence_within h
  | .tlsConnectionClose _, h => execTlsConnectionClose_within h
  | .qspiPoolAccess _ _, h => execQspiPoolAccess_within h
  | .holdingTestOverdue _, h => execHoldingTestOverdue_within h
  | .sessionCoreSelfTestEnd _, h => execSessionCoreSelfTestEnd_within h
  | .moduleStateAreaRewrite, h => execModuleStateAreaRewrite_within h
  | .fullCommonWriteEnd, h => execFullCommonWriteEnd_within h
  | .tjCtlReading _, h => execTjCtlReading_within h

end Sys2Proof.Machine
end

