-- ==== Sys2Proof/Machine/Balls.lean ====
section
/-! DEFINITION. The balls: where each signal and supply sits in the grid, and what the module drives on its outputs in a state
(R559 to R562, R572). -/

namespace Sys2Proof.Machine

/-! ### Positions (R559 to R561) -/

/-- Signals by group, with their number in it. -/
inductive Ball where
  | mdat (i : Nat) | mclk (g : Nat) | pilot (n : Nat) | prox (n : Nat) | outrst (n : Nat) | asel (n : Nat) | coilfb (n : Nat)
  | foff (n : Nat) | coilH (n : Nat) | coilL (n : Nat) | brkH (b : Nat) | brkL (b : Nat) | brkfb (b : Nat) | tqreq (b : Nat)
  | qencA (b : Nat) | qencB (b : Nat) | estopA (c : Nat) | estopB (c : Nat) | hubrst | lsw (k : Nat) | pulse (k : Nat)
  | slTx (x : Nat) | slRx (x : Nat) | rdrTx (p : Nat) | rdrRx (p : Nat) | tagAntA | tagAntB | fdet | com (k : Nat) | seg (k : Nat)
  | tmp (k : Nat) | tmpBias | pfw | hostIrq (k : Nat) | hostrst | xref | dbgClk | dbgIo | sgmii (port lead : Nat) | qspiClk
  | qspiCsn | qspiIo (k : Nat) | hasTx (l lead : Nat) | hasRx (l lead : Nat) | supply (name : String)
deriving DecidableEq, Repr

/-- The ball of a position index within an outlet's 8, and within a modulator group's 17 (R560). -/
def outletBall (n j : Nat) : Ball :=
  match j with
  | 0 => .pilot n
  | 1 => .prox n
  | 2 => .outrst n
  | 3 => .asel n
  | 4 => .coilfb n
  | 5 => .foff n
  | 6 => .coilH n
  | _ => .coilL n

def groupBall (g j : Nat) : Ball :=
  if j < 8 then .mdat (16 * g + j) else if j = 8 then .mclk g else .mdat (16 * g + j - 1)

/-- Brakes and stops, from k = 1,076. -/
def brakeBalls : List Ball :=
  (List.range 4).map .brkH ++ (List.range 4).map .brkL ++ (List.range 4).map .brkfb ++ (List.range 4).map .tqreq
    ++ (List.range 4).map .qencA ++ (List.range 4).map .qencB ++ [.estopA 0, .estopB 0, .estopA 1, .estopB 1, .hubrst]

/-- Coupling, from k = 1,161. -/
def couplingBalls : List Ball :=
  (List.range 3).flatMap (fun x => [.slTx (x + 1), .slRx (x + 1)]) ++ (List.range 4).flatMap (fun p => [.rdrTx p, .rdrRx p])
    ++ [.tagAntA, .tagAntB, .fdet]

/-- Miscellaneous and serial ports, from k = 1,266. -/
def serialBalls : List Ball :=
  (List.range 4).map .tmp ++ [.tmpBias, .pfw, .hostIrq 0, .hostIrq 1, .hostrst, .xref, .dbgClk, .dbgIo]
    ++ (List.range 2).flatMap (fun p => (List.range 4).map (.sgmii p)) ++ [.qspiClk, .qspiCsn] ++ (List.range 4).map .qspiIo
    ++ (List.range 2).flatMap (fun l => (List.range 2).map (.hasTx l)) ++ (List.range 2).flatMap (fun l => (List.range 2).map (.hasRx l))

/-- Supplies of R561 with the first supply index after each. -/
def supplyEnds : List (Nat × String) :=
  [(64, "VIN_SW"), (72, "VPIL_P"), (80, "VPIL_N"), (84, "PE_REF"), (86, "VBAT"), (94, "VIO1"), (98, "VIO2"), (102, "VIO3"),
   (106, "VIO4"), (110, "VIO5"), (150, "VANA"), (174, "VDD_RUS"), (234, "VDD_OCH"), (314, "VDD_FES"), (434, "VDD_CTL"),
   (456, "GND")]

/-- The supply of a supply index. -/
def supplyName (m : Nat) : String :=
  match supplyEnds.find? fun e => m < e.1 with
  | some e => e.2
  | none => "GND"

/-- The supply area: every even column is GND, and the odd columns are taken in order. -/
def supplyBall (k : Nat) : Ball :=
  let col := k % 47
  if col % 2 = 1 then .supply "GND" else .supply (supplyName (24 * (k / 47 - 28) + col / 2))

/-- The ball of a position index (R560, R561). -/
def ballAt (k : Nat) : Ball :=
  if k < 544 then groupBall (k / 17) (k % 17)
  else if k < 564 then .supply "GND"
  else if k < 1076 then outletBall ((k - 564) / 8) ((k - 564) % 8)
  else if k < 1105 then brakeBalls.getD (k - 1076) (.supply "GND")
  else if k < 1153 then .lsw (k - 1105)
  else if k < 1161 then .pulse (k - 1153)
  else if k < 1178 then couplingBalls.getD (k - 1161) (.supply "GND")
  else if k < 1186 then .com (k - 1178)
  else if k < 1266 then .seg (k - 1186)
  else if k < 1300 then serialBalls.getD (k - 1266) (.supply "GND")
  else if k < 1316 then .supply "GND"
  else supplyBall k

/-- Row and column of a position index (R13, R559). -/
def ballPlace (k : Nat) : Nat × Nat := (1 + k / 47, 1 + k % 47)

/-! ### What the module drives (R562) -/

/-- The state of a digital output. -/
inductive Level where
  | low | high | highZ
deriving DecidableEq, Repr

def ballLevel (b : Bool) : Level := if b then .high else .low

/-- An output that its die drives: high impedance without main supplies, low while the die is in reset. -/
def drivenBall (s : State) (die : DieRun) (b : Bool) : Level :=
  if !s.sup.mainOk then .highZ else ballLevel (die == .running && b)

/-- FOFFn: low is asserted. -/
def foffBall (s : State) (o : OutletNo) : Level := drivenBall s s.dies.russet (!(s.rus.outlet.at o).fault.foff)

/-- The enable node of a breaker, over both modules' diodes (R572): high while either FOFFn is. -/
def enableNode (own peer : Level) : Bool := own == .high || peer == .high

/-- The high-side and the low-side switch of a pair conduct. -/
def highSwitch (s : State) (p : PairNo) : Bool :=
  let x := s.rus.pair.at p
  s.sup.mainOk && s.dies.russet == .running && ((x.cmd && x.turn != .lowOn && x.test != .offHigh) || x.test == .on)

def lowSwitch (s : State) (p : PairNo) : Bool :=
  let x := s.rus.pair.at p
  s.sup.mainOk && s.dies.russet == .running && x.cmd && x.test != .offLow

/-- TQREQb pulls low while torque is requested, and is released otherwise. -/
def tqreqBall (s : State) (b : BrakeNo) : Level :=
  if s.sup.mainOk && s.dies.russet == .running && (s.rus.brake.at b).tqreq then .low else .highZ

/-- LSWk is switched on. -/
def lswBall (s : State) (k : ChanNo) : Bool := s.sup.mainOk && (s.spe.chan.at k).output

/-- ASELa. -/
def aselBall (s : State) (a : AerialNo) : Level := drivenBall s s.dies.fescue (energisedAerial s (aerialPort a) == some a)

/-- HOST_IRQ0 and HOST_IRQ1. -/
def hostIrqBall (s : State) (line : Nat) : Level := drivenBall s s.dies.control (irqLevel s line)

/-- FDET, from field energy alone: low in a field, unless the tag is killed (R370, R377). -/
def fdetBall (s : State) : Level := if s.tag.field && s.tag.state != .killed then .low else .highZ

/-- The site line and the readers transmit, and are at high impedance otherwise. -/
def slTxDriven (s : State) : Bool := s.sup.mainOk && slRuns s && slDrives s

def rdrTxDriven (s : State) (p : Fin 4) : Bool := s.sup.mainOk && (energisedAerial s p).isSome

end Sys2Proof.Machine
end

