-- ==== Sys2Proof/WellFormed.lean ====
section
/-! DEFINITION. Which commands are well formed: the operands have the sizes and ranges that the hardware gives them. A meaning
is defined on every term; the checks say which terms stand for something that can reach the module. -/

namespace Sys2Proof

/-- No two entries of a list agree in a key. -/
def noRepeats {α β : Type} [DecidableEq β] (key : α → β) : List α → Bool
  | [] => true
  | a :: as => as.all (fun b => key b ≠ key a) && noRepeats key as

/-- LEN is a 16-bit field (R400), and a forwarded buffer lies in a bulk region of 2 MiB (R396, R485). -/
def Cmd.wf (c : Cmd) : Bool :=
  decide (c.payload.length < 2 ^ 16) && (match c.fwd with
    | none => true
    | some bytes => decide (bytes.length ≤ 0x200000))

/-- Bits of slots 0 to 7 (R4). -/
def slotsWf (l : List Bits) : Bool := l.length == 8

/-- A cycle or block has a length, bits of each slot and the last 16 temperature readings (R103, R115). -/
def Cycle.wf (c : Cycle) : Bool := decide (0 < c.len) && slotsWf c.bits && c.temps.length == 16

/-- A period has bits of each slot (R126). -/
def DcPeriod.wf (p : DcPeriod) : Bool := slotsWf p.bits

/-- A save sees each outlet once, with bits of each slot (R131, R132). -/
def tailsWf (l : List Tail) : Bool := l.all (fun t => slotsWf t.bits && slotsWf t.tail) && noRepeats (fun t => t.outlet) l

/-- A frame carries a code for each of the eight slots of an outlet, each outlet once (R18). -/
def Frame.wf (f : Frame) : Bool := f.codes.all (fun x => x.2.length == 8) && noRepeats (fun x => x.1) f.codes

/-- A window has bits of slots 0 to 6 (R135). -/
def HarmonicInput.wf (h : HarmonicInput) : Bool := h.bits.length == 7

/-- A step of the rotation covers eight channels (R140). -/
def supraWf (l : List SupraInput) : Bool := decide (l.length ≤ 8) && noRepeats (fun x => x.channel) l

/-- A raw block has bits of each slot (R142). -/
def RawInput.wf (b : RawInput) : Bool := slotsWf b.bits

/-- A profile has 58 groups (R217). -/
def SlacMsg.wf : SlacMsg → Bool
  | .profile _ groups => groups.length == 58
  | _ => true

/-- A frame has a value for each of the eight slots (R18). -/
def framesWf (l : List (List Rat)) : Bool := l.all fun x => x.length == 8

/-- Each channel is measured once in a tick, with its 100 samples of 10 µs (R299, R300). -/
def measWf (l : List ChanMeas) : Bool := l.all (fun m => m.loads.length == 100) && noRepeats (fun m => m.chan) l

/-- Each channel is checked once (R316). -/
def checksWf (l : List OffCheck) : Bool := noRepeats (fun c => c.chan) l

/-- A symbol lies in one window or in two (R329). -/
def SlSymbol.wf (x : SlSymbol) : Bool := x.windows.length == 1 || x.windows.length == 2

/-- A link's SNR covers eight segments of eight tones (R341). -/
def LinkSnr.wf (x : LinkSnr) : Bool := x.up.length == 64

/-- An identifier is of 4, 7, 8 or 10 bytes (R358 to R360). -/
def Card.wf (c : Card) : Bool := [4, 7, 8, 10].contains c.uid.length

/-- A mask fits an identifier of 64 bits, and a slot is one of 16 (R375). -/
def InventoryReq.wf (r : InventoryReq) : Bool :=
  decide (r.maskLen ≤ 64) && decide (r.mask < 2 ^ r.maskLen) && decide (r.slot < 16)

/-- A master has one access waiting at a time (R434). -/
def accessesWf (l : List MemAccess) : Bool := noRepeats (fun a => a.master) l

/-- A stored bit flips once (R446). -/
def FoundError.wf (e : FoundError) : Bool := noRepeats id e.flips

/-- A scrub pass reads a code word once (R451). -/
def scrubWf (l : List FoundError) : Bool := l.all FoundError.wf && noRepeats (fun e => e.place) l

/-- Lists of a legal copy have the lengths of R148 and R179. -/
def LegalOutlet.wf (l : LegalOutlet) : Bool :=
  l.totals.length == 8 && l.tarImp.length == 8 && l.tarExp.length == 8 && l.sessTar.length == 8 && l.maxima.length == 16

/-- A legal copy has every outlet (R490). -/
def LegalCopy.wf (l : LegalCopy) : Bool := l.outlets.length == 64 && l.outlets.all LegalOutlet.wf

/-- A sealed frame's legal copy is whole (R490). -/
def SealedFrame.wf (f : SealedFrame) : Bool :=
  match f.adopt with
  | none => true
  | some l => l.wf

/-- A setting travels as a well-formed command (R494). -/
def Forwarded.wf (f : Forwarded) : Bool := f.cmd.wf

/-- A state transfer carries each session, key and channel once (R494). -/
def TransferContent.wf (t : TransferContent) : Bool :=
  noRepeats (fun x => x.outlet) t.sessions && noRepeats (fun x => x.slot) t.keys && noRepeats (fun x => x.chan) t.channels
    && t.settings.all Forwarded.wf

/-- The operands of a command have the sizes and ranges that the hardware gives them. -/
def Instr.wf : Instr → Bool
  | .mainSuppliesInRange _ _ _ _ => true
  | .mainSupplyOutOfRange => true
  | .tealPowerOn => true
  | .pfwAssert us tails _ => decide (us < 1000) && tailsWf tails
  | .pfwOutputOpen => true
  | .pfwDeassert _ => true
  | .hostrstPulse _ => true
  | .ochreStreamRestart _ => true
  | .russetRestartComplete => true
  | .speltReady => true
  | .lockstepMismatch => true
  | .russetWatchdogExpiry => true
  | .ochreWatchdogExpiry tails => tailsWf tails
  | .speltHeartbeat => true
  | .speltWatchdogExpiry => true
  | .fescueHeartbeat => true
  | .fescueHeartbeatMissing => true
  | .fescueHeartbeatLoss => true
  | .milletHeartbeat => true
  | .milletHeartbeatLoss => true
  | .heldSessionsConfirmed => true
  | .controlWatchdogExpiry => true
  | .controlStartLimitExpiry => true
  | .measuredStartComplete _ _ => true
  | .peerSilentAtStart => true
  | .commissioningTimeout => true
  | .referenceLoss => true
  | .fallbackCorrection => true
  | .xrefReturn => true
  | .xrefSlewComplete => true
  | .clockStepChange => true
  | .quantityFrame frame => frame.wf
  | .quantityStreamTimeout => true
  | .quantityStreamFresh _ => true
  | .streamStaleLockout => true
  | .streamClassEEnd => true
  | .closeRequest _ _ => true
  | .coilPairSwitchOn _ => true
  | .coilHighSideOn _ => true
  | .coilTurnOnCheck _ _ => true
  | .fescueOpenRequest _ => true
  | .leaseTimerExpiry => true
  | .pendingModeApply _ => true
  | .sessionStart _ _ _ => true
  | .sessionStop _ _ => true
  | .sessionStopResend _ => true
  | .whitelistTimeout cmd _ => cmd.wf
  | .groupClockInvalid _ => true
  | .manchesterLockAcquired _ => true
  | .manchesterLockLost _ => true
  | .stuckInputDetect _ => true
  | .inputValidAgain _ => true
  | .inputInvalidTimeout _ => true
  | .laneSelfTest _ _ => true
  | .laneComparisonEnd _ _ => true
  | .meteringBoundary _ cycle => cycle.wf
  | .syntheticBoundaryStart _ => true
  | .dcPeriodEnd _ period => period.wf
  | .saveBoundary opens _ => tailsWf opens
  | .legalSecond => true
  | .harmonicWindowEnd _ window => window.wf
  | .supraharmonicStep results => supraWf results
  | .rawBlockComplete _ block => block.wf
  | .legalTick _ => true
  | .demandIntervalFinal _ => true
  | .tariffSwitchAnnounce => true
  | .tamperChange _ _ => true
  | .tamperRecordCopy => true
  | .sessionRecordSign _ => true
  | .waitingRecordMove => true
  | .displayFrameEnd _ => true
  | .bistableUpdateStart => true
  | .bistableUpdateCommit _ => true
  | .identityDisplayTimeout => true
  | .pilotBoundary _ _ _ => true
  | .filteredStateChange _ _ => true
  | .proxCodeChange _ _ => true
  | .offerWithdrawalTimeout _ => true
  | .slacMessage _ msg => msg.wf
  | .slacSoundingEnd _ => true
  | .slacMatch _ _ _ => true
  | .slacTimeout _ => true
  | .dcSlacRestart _ => true
  | .v2gSupportedAppProtocol _ _ => true
  | .v2gSessionSetup _ => true
  | .v2gServiceDiscovery _ => true
  | .v2gServiceDetail _ _ => true
  | .v2gServiceSelection _ _ _ => true
  | .v2gPaymentDetails _ _ _ => true
  | .v2gAuthorizationSetup _ => true
  | .v2gAuthorization _ _ _ _ => true
  | .v2gChargeParameterDiscovery _ _ => true
  | .v2gScheduleExchange _ _ => true
  | .v2gCableCheck _ => true
  | .v2gPreCharge _ => true
  | .v2gPowerDelivery _ _ => true
  | .v2gCurrentDemand _ _ => true
  | .v2gChargingStatus _ => true
  | .v2gAcChargeLoop _ _ => true
  | .v2gDcChargeLoop _ _ => true
  | .v2gMeteringReceipt _ => true
  | .v2gWeldingDetection _ => true
  | .v2gCertificateInstallation _ _ => true
  | .v2gCertificateUpdate _ _ => true
  | .v2gSessionStop _ _ => true
  | .v2gUnsupportedMessage _ => true
  | .tlsHandshake _ _ => true
  | .sequenceTimeout _ => true
  | .certificateAnswerTimeout _ => true
  | .policyTimeout _ _ => true
  | .sessionCoreSilent _ => true
  | .dcHoldExpiry _ => true
  | .fastPathOverRange _ _ => true
  | .rcdHoldExpiry _ _ _ => true
  | .injectorFailure _ => true
  | .weldCheck _ frames => framesWf frames
  | .peLossDc _ => true
  | .redundantCurrentDisagreement _ => true
  | .redundantDisagreementEnd _ => true
  | .estopLevelAccepted _ _ _ _ => true
  | .estopDiscrepancy _ => true
  | .tripRelay _ _ _ => true
  | .switchOverCurrent _ => true
  | .readbackDeparture _ _ _ => true
  | .pulseTestStart _ => true
  | .offPulseCheck _ _ others => noRepeats id others
  | .offPulseEnd _ => true
  | .offPulseRestoreCheck _ _ => true
  | .onPulseCheck _ _ others => noRepeats id others
  | .onPulseEnd _ => true
  | .mirrorTimeout _ _ => true
  | .mirrorUncommandedChange _ _ => true
  | .brakeReleaseCheck _ _ _ => true
  | .brakeEngageCheck _ _ => true
  | .brakeCurrentFault _ _ => true
  | .holdingTestMovement _ _ => true
  | .holdingTestTorqueEnd _ => true
  | .holdingTestEnd _ _ => true
  | .classETimerExpiry _ => true
  | .classESupervisionStart _ => true
  | .classEOvercurrent _ => true
  | .resetInputRelease _ _ _ => true
  | .resetInputHeld _ => true
  | .releaseWindowExpiry _ => true
  | .releasePeerResult _ _ => true
  | .releasePeerTimeout _ => true
  | .mirrorGrant _ => true
  | .speltControlTick meas _ _ => measWf meas
  | .thermalShutdown _ _ => true
  | .differenceLimit _ _ _ => true
  | .channelRestart _ _ _ => true
  | .pulseEdge _ _ => true
  | .conditionBroadcast => true
  | .broadcastAbsent => true
  | .ruleDelayExpiry _ => true
  | .onStateOpenLoad _ _ => true
  | .offStateDiagnostic checks => checksWf checks
  | .channelShed => true
  | .channelRestore => true
  | .aggregateCapUpdate => true
  | .superframeStart _ => true
  | .beaconReceived _ => true
  | .beaconsMissed => true
  | .siteFrameReceived _ burst => burst.symbols.all SlSymbol.wf
  | .siteFrameRetransmit _ => true
  | .mapRecompute snr _ => snr.all LinkSnr.wf && noRepeats (fun x => x.link) snr
  | .mapAckMissing _ => true
  | .mapSwitch _ => true
  | .toneLoopbackTest _ _ => true
  | .joinRequest _ => true
  | .joinRetry => true
  | .timeBaseLost => true
  | .timeBaseResumed => true
  | .aerialPing _ _ _ cards => cards.all Card.wf
  | .pollTimeout _ => true
  | .authFallback _ => true
  | .cardHoldExpiry _ => true
  | .authHoldExpiry _ => true
  | .tagFieldOn => true
  | .tagFieldLost => true
  | .tagInventory inv => inv.wf
  | .tagStayQuiet _ => true
  | .tagReadSingleBlock _ _ => true
  | .tagWriteSingleBlock _ _ _ => true
  | .tagReadMultipleBlocks _ _ _ => true
  | .tagSelect _ => true
  | .tagResetToReady _ => true
  | .tagGetSystemInformation _ => true
  | .tagGetBlockSecurity _ _ _ => true
  | .tagExtReadSingleBlock _ _ => true
  | .tagExtWriteSingleBlock _ _ _ => true
  | .tagExtReadMultipleBlocks _ _ _ => true
  | .tagExtGetSystemInformation _ => true
  | .tagExtGetBlockSecurity _ _ _ => true
  | .tagReadSignature _ => true
  | .tagKill _ _ => true
  | .tagReadMirrorIndex _ => true
  | .tagUnsupportedCommand _ _ => true
  | .tagSectorCommit _ => true
  | .tagBusyRetry _ _ => true
  | .tlsConnectionOpen _ _ => true
  | .portSilence _ => true
  | .recordRingEntry _ _ entry => decide (entry.length < 2 ^ 16)
  | .recordConsumerIndex _ _ _ => true
  | .recordWindowRead _ _ _ _ => true
  | .recordWindowWrite _ _ words => decide (4 + 4 * words.length < 2 ^ 16)
  | .recordBulkWrite _ _ bytes => decide (4 + bytes.length < 2 ^ 16)
  | .recordBulkRead _ _ _ _ => true
  | .malformedRecord _ => true
  | .qspiReadPortStatus => true
  | .registerWrite _ _ _ => true
  | .busyMsWrite _ _ => true
  | .resetCauseClear _ _ => true
  | .ringEnable _ _ => true
  | .ringDisable _ _ => true
  | .urgentDoorbell _ _ => true
  | .normalDoorbell _ _ => true
  | .responseConsumerWrite _ _ => true
  | .eventConsumerWrite _ _ => true
  | .hostHeartbeatWrite _ _ => true
  | .commandFetch _ => true
  | .eventOccurrence _ _ _ _ data => decide (data.length ≤ 16)
  | .eventRingWrite => true
  | .delayedEventDelivery => true
  | .echo cmd => cmd.wf
  | .readIdentity cmd => cmd.wf
  | .enterCommissioning cmd => cmd.wf
  | .leaveCommissioning cmd => cmd.wf
  | .dieReset cmd tails => cmd.wf && tailsWf tails
  | .controlResetAfterResponse => true
  | .networkSettings cmd => cmd.wf
  | .mailboxKeySlots cmd => cmd.wf
  | .setQspiAuthority cmd => cmd.wf
  | .read1sValues cmd => cmd.wf
  | .readTotals cmd => cmd.wf
  | .readHarmonicWindow cmd => cmd.wf
  | .readSupraharmonicResult cmd => cmd.wf
  | .collectRawSampleBlock cmd => cmd.wf
  | .readMetrologyTable cmd => cmd.wf
  | .outletRoleAssignment cmd => cmd.wf
  | .userCalibration cmd => cmd.wf
  | .meteringMode cmd => cmd.wf
  | .readRegisters cmd => cmd.wf
  | .readBillingSnapshot cmd => cmd.wf
  | .readLegalLog cmd => cmd.wf
  | .acknowledgeLegalLog cmd => cmd.wf
  | .readLegalObject cmd => cmd.wf
  | .readSessionRecords cmd => cmd.wf
  | .confirmExport cmd => cmd.wf
  | .tariffParameters cmd => cmd.wf
  | .loadPassiveCalendar cmd => cmd.wf
  | .setLegalTime cmd => cmd.wf
  | .demandInterval cmd => cmd.wf
  | .confirmTariffSwitch cmd => cmd.wf
  | .displaySelection cmd => cmd.wf
  | .vehicleLinkStatus cmd => cmd.wf
  | .vehicleLinkConfiguration cmd => cmd.wf
  | .loadLimit cmd => cmd.wf
  | .sessionMode cmd => cmd.wf
  | .policyAnswer cmd => cmd.wf
  | .certificateAnswer cmd => cmd.wf
  | .endSession cmd => cmd.wf
  | .safetyStatus cmd => cmd.wf
  | .setEnable cmd => cmd.wf
  | .clearEnable cmd => cmd.wf
  | .openRequest cmd => cmd.wf
  | .lockoutRelease cmd => cmd.wf
  | .brakeEngage cmd => cmd.wf
  | .brakeRelease cmd => cmd.wf
  | .brakeHoldingTest cmd => cmd.wf
  | .classERequest cmd => cmd.wf
  | .writeLimitedSetting cmd => cmd.wf
  | .readLimitedSetting cmd => cmd.wf
  | .loadSwitchStatus cmd => cmd.wf
  | .channelConfiguration cmd => cmd.wf
  | .channelControl cmd => cmd.wf
  | .channelRule cmd => cmd.wf
  | .hostFlags cmd => cmd.wf
  | .aggregateMaximum cmd => cmd.wf
  | .readChannelSetup cmd => cmd.wf
  | .siteLineStatus cmd => cmd.wf
  | .siteLineConfiguration cmd => cmd.wf
  | .linkEntry cmd => cmd.wf
  | .sendFrame cmd => cmd.wf
  | .receiveFrame cmd => cmd.wf
  | .beaconBytes cmd => cmd.wf
  | .contactlessStatus cmd => cmd.wf
  | .contactlessConfiguration cmd => cmd.wf
  | .loadAllowlist cmd => cmd.wf
  | .allowlistLookup cmd => cmd.wf
  | .cardExchange cmd _ => cmd.wf
  | .tagMemoryRead cmd => cmd.wf
  | .tagMemoryWrite cmd => cmd.wf
  | .tagKillPassword cmd => cmd.wf
  | .readSlot cmd => cmd.wf
  | .writeKeyInClear cmd => cmd.wf
  | .loadShadow cmd => cmd.wf
  | .testShadow cmd _ => cmd.wf
  | .commitShadow cmd _ => cmd.wf
  | .lifecycleMove cmd => cmd.wf
  | .readStepCounters cmd => cmd.wf
  | .pairDetail cmd => cmd.wf
  | .bindPeer cmd => cmd.wf
  | .unbindPeer cmd => cmd.wf
  | .plannedHandover cmd => cmd.wf
  | .clearSuspectResynchronise cmd => cmd.wf
  | .openStaging cmd => cmd.wf
  | .imageBody cmd => cmd.wf
  | .imageCommit cmd => cmd.wf
  | .stagingAbort cmd => cmd.wf
  | .updateStatus cmd => cmd.wf
  | .readFaultLog cmd => cmd.wf
  | .diagnosticBundle cmd => cmd.wf
  | .bundleComplete _ => true
  | .eventRouting cmd => cmd.wf
  | .eventSourceState cmd => cmd.wf
  | .clearPending cmd => cmd.wf
  | .wearAndSpares cmd => cmd.wf
  | .siteLineNoise cmd => cmd.wf
  | .poolConflictCounters cmd => cmd.wf
  | .temperatures cmd => cmd.wf
  | .scratchpadOwnerWrite _ _ _ same => accessesWf same
  | .scratchpadReclaim _ _ => true
  | .atomicOperation accesses => accessesWf accesses
  | .scrubPass found => scrubWf found
  | .uncorrectableError error => error.wf
  | .bankSpareCopyEnd => true
  | .vaultWipeComplete waiting => accessesWf waiting
  | .debugUnlockToken _ => true
  | .pairHeartbeat _ => true
  | .laneDown _ => true
  | .peerHeartbeatLoss => true
  | .linkKeyAgreement _ _ _ _ => true
  | .epochStart _ _ => true
  | .forwardedCommand fwd => fwd.wf
  | .epochFrameResend _ => true
  | .sealedFrame frame => frame.wf
  | .sealedEntryTimeout _ => true
  | .sessionRecordContent _ _ => true
  | .stateTransferComplete _ content => content.wf
  | .leaseYield => true
  | .leaseTake => true
  | .standbyTakeover => true
  | .pilotCarryOver _ => true
  | .stagingTimeout => true
  | .trialConfirmation _ => true
  | .fescueImageBringIn => true
  | .sessionImageBringIn _ => true
  | .milletStateHandover => true
  | .speltImageReset => true
  | .thermalSecond substrate dies => !substrate.isEmpty && dies.length == 6
  | .clockStepUp => true
  | .sensorFailure _ => true
  | .sensorRecovery _ => true
  | .imageStoreHot _ => true
  | .overRangeReport => true
  | .periodicJobRelease _ => true
  | .periodicJobEnd _ _ => true
  | .vbatBelowMinimum => true
  | .siteLineHostSilence => true
  | .tlsConnectionClose _ => true
  | .qspiPoolAccess _ _ => true
  | .holdingTestOverdue _ => true
  | .sessionCoreSelfTestEnd _ => true
  | .moduleStateAreaRewrite => true
  | .fullCommonWriteEnd => true
  | .tjCtlReading _ => true

end Sys2Proof
end

