-- ==== Sys2Proof/Tests/Slice0.lean ====
section
/-! SUPPORT. Tests: an ill-formed command for each check of WellFormed, worked examples of the spec, and for each statement
states and operands that meet its hypotheses, clause by clause. -/

namespace Sys2Proof
open Machine
set_option Elab.async false
set_option maxRecDepth 1000000

/-- A command in a port's ring, from port 2. -/
def cmd (index : Nat) (payload : List Byte) : Cmd :=
  { port := 2, urgent := false, flags := 0, tag := 0, index := BitVec.ofNat 16 index, payload := payload, fwd := none }

/-- A module in Solo with its control die running, and every port in use with its rings enabled. -/
def up : State :=
  { State.reset with
    modes.base := .service, modes.role := .solo, modes.checked := true, dies.control := .running, mbx.ready := true,
    mbx.port := Tab.all 3 { Port.reset with ringEn := true, connected := true, level := 3 } }

/-- A bulk descriptor of port 2's region. -/
def desc (off len dir crc : Nat) : List Byte :=
  leBytes 4 (poolBase + bulkBase 2 + off) ++ leBytes 4 len ++ leBytes 4 dir ++ leBytes 4 crc

/-- A command with a buffer to the host. -/
def outCmd (index len : Nat) (fields : List Byte) : Cmd := { cmd index (desc 0 len 1 0 ++ fields) with flags := 2 }

/-- A command with a buffer from the host that holds these bytes. -/
def inCmd (index : Nat) (bytes fields : List Byte) : Cmd :=
  { cmd index (desc 0 bytes.length 0 (crc32 bytes) ++ fields) with flags := 2 }

/-- A command with a buffer each way. -/
def bothCmd (index : Nat) (bytes : List Byte) (len : Nat) : Cmd :=
  { cmd index (desc 0 bytes.length 0 (crc32 bytes) ++ desc 4096 len 1 0) with flags := 2 }

/-- A session record of type 0 on outlet 0. -/
def record : SessionRecord :=
  { slot := 0, type := 0, outlet := 0, recNo := 1, sid := 7, auth := 0, tStart := 0, tStop := 0, impStart := 0, expStart := 0,
    impSess := 0, expSess := 0, dcvSess := 0, tar := [], flags := 0, legalFw := 0, calId := 0, logSeq := 0, sig := [] }

/-- Requests to host software about outlet 0. -/
def policy : PolicyRequest := { id := 1, outlet := 0, kind := 1, auth := 0, aerial := none, tech := 0 }
def policy0 : PolicyRequest := { policy with kind := 0 }

/-- A public key slot of the session cores that verifies, without a use limit. -/
def rootKey : Slot := { Slot.cleared 0 with key := { w0 := w32 [(1, 31), (1, 30), (1, 24)], w1 := 0, ktype := 4, bytes := [1] } }

/-- A session under TLS of outlet 0, an AC outlet, in a protocol and a phase, with every protocol and contract payment
offered and a root in each entry of the key map. -/
def v2g (proto phase : Nat) : State :=
  { up with
    veh.session := up.veh.session.upd 0 fun n =>
      { n with
        phase := phase, proto := BitVec.ofNat 2 proto, link0 := w32 [(0x1F, 10)],
        tls := if proto = 3 then some .aes128Gcm else if proto = 1 then none else some .ecdheAes128Cbc },
    veh.keyMap := Tab.all 8 16, keys.slot := up.keys.slot.put 16 rootKey, och.set.roleNow.outlets := Tab.all 64 1 }

/-- Such a session of a DC outlet. -/
def v2gDc (proto phase : Nat) : State := { v2g proto phase with och.set.roleNow.outlets := Tab.all 64 3 }

/-- A SITE-LINE data frame without payload. -/
def frame : SlFrame := List.replicate 8 0

/-- A request addressed to the tag. -/
def tagReq : TagReq := { uid := some Config.tagUid, select := false, twoSub := false, mfr := 0 }

/-- A request to every tag. -/
def tagAny : TagReq := { uid := none, select := false, twoSub := false, mfr := 0 }

/-- A server key and a root of the host ports. -/
def hostKey : Slot := { Slot.cleared 0 with key := { w0 := w32 [(1, 31), (2, 24)], w1 := 0, ktype := 1, bytes := [1] } }
def hostRoot : Slot := { Slot.cleared 0 with key := { w0 := w32 [(1, 30), (2, 24)], w1 := 0, ktype := 2, bytes := [1] } }

def supra : SupraResult := { step := 0, start := 0, bands := [], flags := 0 }

def logEntry : LogEntry :=
  { seq := 1, time := 0, type := 1, src := 0, tinv := false, oos := false, outlet := 0, data := [], read := true }

def occ : Occ :=
  { source := 0, index := 0xFFFF, cause := 0, ended := false, peer := false, delayed := false, mode := 0, time := 0, seq := 0,
    data := [] }

def faultEntry : FaultEntry := { fseq := 1, occ := occ, outlet := 0, modeStatus := 0, pairStatus := 0, sched := 0 }

/-- A map that uses every segment once, and a calibration record with it. -/
def segMap : List Byte := ((List.range 404).flatMap fun k => leBytes 2 (0x8000 + k)) ++ List.replicate 472 0
def tableBytes : List Byte :=
  List.replicate 8192 0 ++ (List.replicate 64 [0, 0, 0xE6, 0]).flatten ++ [0, 0, 0, 0] ++ wordBytes displayShipped ++ segMap

/-- The default calendar under another number, active from one minute on. -/
def calendarBody : List Byte := defaultCalendarBody.take 8 ++ leBytes 4 7 ++ leBytes 4 60 ++ defaultCalendarBody.drop 16
def calendar : List Byte := calendarBody ++ leBytes 4 (crc32 calendarBody)

/-- A symmetric key of 32 bytes for owner 0, as 0x0901 carries it. -/
def keyFields : List Byte := leBytes 4 0x28000000 ++ leBytes 4 0 ++ [0x11, 0, 32, 0] ++ List.replicate 32 1

/-- An image header that names a body of four bytes with this hash, and such a body of 0 staged. -/
def headerOf (hash : List Byte) : List Byte :=
  leBytes 4 0x4D49475A ++ [1, 0, 0, 0] ++ leBytes 4 0x5A476451 ++ [0, 0, 0xFF, 0xFF] ++ List.replicate 4 0 ++ leBytes 4 4
    ++ List.replicate 8 0 ++ hash ++ List.replicate 432 0
def imageHeader : List Byte := headerOf (sha384 [0, 0, 0, 0])
def plainHeader : List Byte := headerOf (List.replicate 48 0)
def staged : Staging := { handle := 1, type := 0, header := imageHeader, body := [0, 0, 0, 0], touched := 0 }

/-- An echo as a ring entry. -/
def echoEntry : List Byte := [0, 1, 0, 1, 0, 0, 0, 0, 0, 0, 0, 0, 0xFF, 0xFF, 0, 0] ++ List.replicate 240 0

/-- The two modules of a pair. -/
def act : State := { up with modes.role := .active, pair.peer := 5, pair.peerSeen := true, rus.lease := true }
def stby : State := { act with modes.role := .standby, rus.lease := false }
def stopped : State := { stby with och.recs.slots := stby.och.recs.slots.put 0 (.stopped record 0 0) }

def wait0 : SealedWait :=
  { outlet := 0, start := 0, legal := 0, export_ := false, ep := 0, eq := none, es := 0, veh := 0, flags := 0, reg := 0, label := 0 }
def entry0 : SealedEntry :=
  { outlet := 0, start := 0, export_ := false, reg := 0, label := 0, sid := 0, ep := 0, eq := 0, es := 0, flags := 0 }

/-- A module whose images have headers of 0, with an image header in the bulk region. -/
def ready : State :=
  { up with
    mem.pool := memWrite up.mem.pool (bulkBase 2) plainHeader,
    upd.image := up.upd.image.each fun x => { x with slot := x.slot.each fun y => { y with header := List.replicate 512 0 } } }

theorem up_memOk : up.memOk := ⟨by decide +kernel, by decide +kernel, by decide +kernel, by decide +kernel⟩
theorem up_lockSafe : up.lockSafe := by unfold State.lockSafe; decide +kernel
theorem keyFields_ok (h : Config.keyOk 0x11 (List.replicate 32 1) = true) : firstBad (keyChecks 16 keyFields) = none := by
  have e : keyChecks 16 keyFields = [(0, true), (1, true), (2, true), (3, Config.keyOk 0x11 (List.replicate 32 1))] := rfl
  rw [e, h]
  rfl
def logged : State := { up with modes.base := .commissioning, modes.prior := .solo, och.log.entries := [logEntry] }
theorem logged_ack (h : crc32 (logBytes logEntry) = 7) :
    ackRefusal 0x0303 (cmd 0xFFFF [1, 0, 0, 0, 7, 0, 0, 0]) [1, 0, 0, 0, 7, 0, 0, 0] logged = none := by
  have e : ackRange logged (leAt [1, 0, 0, 0, 7, 0, 0, 0] 0 4) = [logEntry] := by decide +kernel
  unfold ackRefusal
  simp only [e]
  rw [if_neg (by decide +kernel), if_neg]
  simp only [List.flatMap_cons, List.flatMap_nil, List.append_nil, h]
  decide +kernel
theorem plainHeader_fits : headerFits plainHeader = true := by
  have h1 : leAt plainHeader 0xC 2 = 0 := by decide +kernel
  have h2 : leAt plainHeader 0xE 2 = 65535 := by decide +kernel
  have h3 : within 0 65535 Config.siRev.toNat = true := by
    have := Config.siRev.isLt
    simp only [within, Nat.zero_le, decide_true, Bool.true_and, decide_eq_true_eq]
    omega
  have h4 : (plainHeader.length == 512 && leAt plainHeader 0 4 == 0x4D49475A && byteAt plainHeader 4 == 1
      && decide (headerType plainHeader ≤ 4) && headerZeros plainHeader && leAt plainHeader 8 4 == 0x5A476451) = true := by
    decide +kernel
  have h5 : headerBody plainHeader % 4 = 0 := by decide +kernel
  have h6 : within 4 (bodyLimit (headerType plainHeader)) (headerBody plainHeader) = true := by decide +kernel
  unfold headerFits
  rw [h4, h1, h2, h3, h5, h6]
  rfl
theorem plainHeader_serves : headerRefusal ready plainHeader 0 = none := by
  unfold headerRefusal
  rw [plainHeader_fits]
  decide +kernel
theorem ready_acting : ready = acting 0x0B00 (inCmd 0xFFFF plainHeader [0, 0, 0, 0]) ready := by
  rw [acting, if_neg (by decide +kernel), forwardOut, if_neg (by decide +kernel)]
theorem keyFields_named {x : Bool} (hx : x = true) (h : Config.keyOk 0x11 (List.replicate 32 1) = true) :
    firstBad (keyChecks 16 keyFields ++ [(0, x)]) = none := by
  have e : keyChecks 16 keyFields = [(0, true), (1, true), (2, true), (3, Config.keyOk 0x11 (List.replicate 32 1))] := rfl
  rw [e, h, hx]
  rfl
def fullStore : List Retained := { record := record, exported := true } :: List.replicate 8191 { record := record, exported := false }
def full : State := { up with och.recs.retained := fullStore }
theorem fullStore_length : 8192 ≤ fullStore.length := by
  unfold fullStore
  rw [List.length_cons, List.length_replicate] <;> omega
theorem fullStore_exported : ∀ y ∈ [] ++ List.replicate 8191 ({ record := record, exported := false } : Retained), y.exported = true →
    record.recNo.toNat < y.record.recNo.toNat := by
  intro y hy h
  rw [(List.mem_replicate.1 hy).2] at h
  cases h

/-- A burst whose symbols carry these bytes and their CRC32, every half tone clear. -/
def burst (bytes : List Byte) : SlBurst :=
  { wide := [0],
    symbols := (blocksOf (bytes ++ leBytes 4 (crc32 bytes))).flatMap fun l => l.map fun x =>
      { aEarly := if x = (false, false) then 1000 else 0, aLate := if x = (false, true) then 1000 else 0,
        bEarly := if x = (true, false) then 1000 else 0, bLate := if x = (true, true) then 1000 else 0, windows := [0] } }

/-- A read of the pool's first word. -/
def readWord : MemAccess := { master := 0, addr := 0, wide := true, op := .read, behalf := none }

/-- The first interval of outlet 0 still waits for its last cycle. -/
def closingInterval : Machine.Interval := (up.och.meter.at 0).acc.cur
def closing1 : State := { up with och.meter := up.och.meter.upd 0 fun m => { m with acc := { m.acc with closing := [closingInterval] } } }

theorem acting_pool (op : Nat) (c : Cmd) (s : State) : (acting op c s).mem.pool = s.mem.pool := by
  unfold acting forwardOut
  dsimp only
  repeat' split
  all_goals rfl
theorem acting_solo (op : Nat) (c : Cmd) (s : State) (h : roleNow s.modes ≠ .active) : acting op c s = s := by
  unfold acting forwardOut
  dsimp only
  rw [show (roleNow s.modes == Role.active) = false by simpa using h]
  simp

/-- The descriptor of bytes placed at the start of port 2's region. -/
def placed (bytes : List Byte) : Desc := { addr := poolBase + bulkBase 2, len := bytes.length, dir := 0, crc := crc32 bytes }
theorem placed_off (bytes : List Byte) : (placed bytes).off = bulkBase 2 := by simp [placed, Desc.off]
theorem placed_read {bytes : List Byte} {s : State} (hp : s.mem.pool = memWrite up.mem.pool (bulkBase 2) bytes) :
    bulkIn s (placed bytes) = bytes := by
  unfold bulkIn
  rw [hp, placed_off]
  exact memRead_memWrite bytes _ (by decide +kernel)
theorem bulk_placed {op : Nat} {c : Cmd} {bytes : List Byte} {s : State} (hf : c.fwd = none) (hd : cmdDescs op c = [placed bytes])
    (hp : s.mem.pool = memWrite up.mem.pool (bulkBase 2) bytes) : bulkOf op c s = bytes := by
  unfold bulkOf
  rw [hf, hd]
  exact placed_read hp
theorem accepted_bulk {op : Nat} {c : Cmd} {s : State} {r : Row} {bytes : List Byte} (ha : Arrives op c s) (hh : headChecks op c s = none)
    (ho : s.mbx.handover = false) (hr : catalogue op c.payload = some r) (hb : r.bulk = [false])
    (hm : (!r.modes.permits s || (s.modes.base == .recovery && !recoveryServes op r)
      || (s.modes.base == .measuredStart && 1 < r.level)) = false) (hf : c.flags.toNat / 2 % 2 = 1)
    (hd : cmdDescs op c = [placed bytes]) (hq : openDescs op c s = []) (hw : s.mem.badWords = [])
    (hp : s.mem.pool = memWrite up.mem.pool (bulkBase 2) bytes)
    (hl : 4 ≤ bytes.length ∧ bytes.length ≤ bulkSize ∧ bytes.length % 4 = 0) (hc : c.port = 2) : Accepted op c s := by
  have hdesc : descOk s 2 false [] (placed bytes) = true := by
    have hread : poolRead s (placed bytes).off (placed bytes).len = some bytes := by
      have := placed_read hp
      unfold bulkIn at this
      unfold poolRead poolBad
      rw [hw, this]
      rfl
    unfold descOk
    dsimp only
    rw [hread]
    have h4 : (poolBase + bulkBase 2) % 4 = 0 := by decide
    simp [placed, hl.1, hl.2.1, hl.2.2, h4]
  refine ⟨ha, ?_⟩
  unfold checks
  rw [hh]
  dsimp only
  rw [if_neg (by simp [ho])]
  unfold tailChecks
  rw [hr]
  dsimp only
  rw [hm, hb, hd, hq, hc, if_neg (by simp), if_neg (by simp [hf])]
  simp [badDesc, hdesc]

/-- Commands that load the calendar and the calibration record, each with its bytes in the bulk region. -/
def calCmd : Cmd := inCmd 0xFFFF calendar []
def calState : State := { up with dies.ochre := .running, mem.pool := memWrite up.mem.pool (bulkBase 2) calendar }
def tabCmd : Cmd := inCmd 0xFFFF tableBytes []
def tabState : State :=
  { up with
    dies.ochre := .running, modes.base := .commissioning, modes.prior := .solo,
    mem.pool := memWrite up.mem.pool (bulkBase 2) tableBytes }
theorem calState_pool : calState.mem.pool = memWrite up.mem.pool (bulkBase 2) calendar := by unfold calState; dsimp only
theorem tabState_pool : tabState.mem.pool = memWrite up.mem.pool (bulkBase 2) tableBytes := by unfold tabState; dsimp only
theorem calCmd_desc : cmdDescs 0x0311 calCmd = [placed calendar] := by decide +kernel
theorem tabCmd_desc : cmdDescs 0x0211 tabCmd = [placed tableBytes] := by decide +kernel
theorem calendar_loads : calendarRefusal (bulkOf 0x0311 calCmd (acting 0x0311 calCmd calState)) (acting 0x0311 calCmd calState) = none := by
  have h : calendarRefusal calendar calState = none := by decide +kernel
  rw [bulk_placed rfl calCmd_desc ((acting_pool _ _ _).trans calState_pool), acting_solo _ _ _ (by decide +kernel)]
  exact h
theorem table_loads : calibrationRefusal (wordsOf ((bulkOf 0x0211 tabCmd (acting 0x0211 tabCmd tabState)).length / 4)
    (bulkOf 0x0211 tabCmd (acting 0x0211 tabCmd tabState))) (acting 0x0211 tabCmd tabState) = none := by
  have h : calibrationRefusal (wordsOf (tableBytes.length / 4) tableBytes) tabState = none := by decide +kernel
  rw [bulk_placed rfl tabCmd_desc ((acting_pool _ _ _).trans tabState_pool), acting_solo _ _ _ (by decide +kernel)]
  exact h
theorem calendar_accepted : Accepted 0x0311 calCmd calState :=
  accepted_bulk (by unfold Arrives; decide +kernel) (by decide +kernel) rfl rfl rfl (by decide +kernel) (by decide +kernel) calCmd_desc
    (by decide +kernel) (by decide +kernel) calState_pool (by decide +kernel) rfl
theorem table_accepted : Accepted 0x0211 tabCmd tabState :=
  accepted_bulk (by unfold Arrives; decide +kernel) (by decide +kernel) rfl rfl rfl (by decide +kernel) (by decide +kernel) tabCmd_desc
    (by decide +kernel) (by decide +kernel) tabState_pool (by decide +kernel) rfl
def laneUp : State := { up with dies.ochre := .running }
theorem laneSpare : laneServes laneUp 519 = none := by
  unfold laneServes
  rw [List.find?_eq_none]
  intro i hi
  simp [laneUp, up, State.reset, Ochre.reset, Input.reset, Fin.ext_iff, Fin.ofNat]
  omega
def headerCmd : Cmd := inCmd 0xFFFF plainHeader [0, 0, 0, 0]
theorem ready_pool : ready.mem.pool = memWrite up.mem.pool (bulkBase 2) plainHeader := by unfold ready; dsimp only
theorem headerCmd_desc : cmdDescs 0x0B00 headerCmd = [placed plainHeader] := by decide +kernel
theorem header_accepted : Accepted 0x0B00 headerCmd ready :=
  accepted_bulk (by unfold Arrives; decide +kernel) (by decide +kernel) rfl rfl rfl (by decide +kernel) (by decide +kernel)
    headerCmd_desc (by decide +kernel) (by decide +kernel) ready_pool (by decide +kernel) rfl
theorem header_bulk : bulkOf 0x0B00 headerCmd ready = plainHeader := bulk_placed rfl headerCmd_desc ready_pool

/-! ### Ill-formed commands -/

/-- More bytes than a length field of 16 bits can say, more words than a record holds, and more than a bulk region holds. -/
def longBytes : List Byte := List.replicate 65536 0
def longWords : List Word := List.replicate 16383 0
def longBulk : List Byte := List.replicate 0x200001 0
theorem longBytes_length : longBytes.length = 65536 := List.length_replicate
theorem longWords_length : longWords.length = 16383 := List.length_replicate
theorem longBulk_length : longBulk.length = 0x200001 := List.length_replicate

/-- Commands whose payload, or whose forwarded buffer, is too long. -/
def longCmd : Cmd := { cmd 0xFFFF [] with payload := longBytes }
def longFwd : Cmd := { cmd 0xFFFF [] with fwd := some longBulk }
theorem payload_wf (c : Cmd) (l : List Byte) (h : l.length = 65536) : Cmd.wf { c with payload := l } = false := by simp [Cmd.wf, h]
theorem fwd_wf (c : Cmd) (l : List Byte) (h : l.length = 0x200001) : Cmd.wf { c with fwd := some l } = false := by simp [Cmd.wf, h]
theorem longCmd_wf : longCmd.wf = false := payload_wf (cmd 0xFFFF []) longBytes longBytes_length
theorem longFwd_wf : longFwd.wf = false := fwd_wf (cmd 0xFFFF []) longBulk longBulk_length

/-- Well-formed operands, for the checks to vary. -/
def bits8 : List Bits := List.replicate 8 []
def tail0 : Tail := { outlet := 0, out := 0, bits := bits8, tail := bits8, len := 0 }
def cycle0 : Cycle :=
  { out := 0, len := 20000000, bits := bits8, fundamental := 0, temps := List.replicate 16 25, synthetic := false, late := false }
def frame0 : Frame := { seq := 0, checkOk := true, codes := [(0, List.replicate 8 0)], late := false }
def meas0 : ChanMeas := { chan := 0, loads := List.replicate 100 none, tj := 25 }
def off0 : OffCheck := { chan := 0, out := 0, vin := 0, sourced := 0 }
def rb0 : Readback := { vh := 0, vl := 0, vin := 0 }
def flip0 : FoundError := { place := .vaultHost, flips := [0] }
def legal0 : LegalOutlet :=
  { totals := List.replicate 8 0, tarImp := List.replicate 8 0, tarExp := List.replicate 8 0, dcVeh := 0, sessImp := 0, sessExp := 0,
    sessTar := List.replicate 8 0, sessVeh := 0, maxima := List.replicate 16 (0, 0), record := none }
def adopting (l : List LegalOutlet) : SealedFrame :=
  { authentic := true, seq := 1, entries := [], adopt := some { outlets := l, recNo := 0 } }
def content0 : TransferContent := { sessions := [], keys := [], settings := [], channels := [] }
def key0 : KeyCopy := { slot := 0, w0 := 0, w1 := 0, ktype := 0, bytes := [] }
def chan0 : ChannelCopy := { chan := 0, demand := false, latched := false, retries := 0 }
def sess0 : SessionCopy :=
  { outlet := 0, phase := 1, proto := 0, sid := 0, auth := 0, agreed := 0, granted := false, accepted := false, contract := false,
    bpt := false, chained := false, dynamic := false, tls := none }

/-- A happening that carries an ill-formed command is ill formed. -/
theorem carriers_wf (c : Cmd) (h : c.wf = false) : (Instr.echo c).wf = false ∧ (Instr.whitelistTimeout c 0x0303).wf = false ∧
    (Instr.dieReset c []).wf = false ∧ (Instr.forwardedCommand { op := 0x0502, cmd := c, epoch := 0 }).wf = false ∧
    (Instr.stateTransferComplete true { content0 with settings := [{ op := 0x0502, cmd := c, epoch := 0 }] }).wf = false := by
  refine ⟨h, h, ?_, h, ?_⟩
  · show (c.wf && tailsWf []) = false
    rw [h]
    rfl
  · show TransferContent.wf _ = false
    simp [TransferContent.wf, Forwarded.wf, h]
theorem records_wf (l : List Byte) (w : List Word) (h : l.length = 65536) (k : w.length = 16383) :
    (Instr.recordRingEntry 0 true l).wf = false ∧ (Instr.recordWindowWrite 0 0 w).wf = false ∧
    (Instr.recordBulkWrite 0 0 l).wf = false := by
  refine ⟨?_, ?_, ?_⟩
  · show decide (l.length < 2 ^ 16) = false
    simp [h]
  · show decide (4 + 4 * w.length < 2 ^ 16) = false
    simp [k]
  · show decide (4 + l.length < 2 ^ 16) = false
    simp [h]
theorem test_illFormed_payload : (Instr.echo longCmd).wf = false ∧ (Instr.dieReset longCmd []).wf = false :=
  ⟨(carriers_wf longCmd longCmd_wf).1, (carriers_wf longCmd longCmd_wf).2.2.1⟩
theorem test_illFormed_forwarded : (Instr.forwardedCommand { op := 0x0502, cmd := longFwd, epoch := 0 }).wf = false :=
  (carriers_wf longFwd longFwd_wf).2.2.2.1
theorem test_illFormed_record : (Instr.recordRingEntry 0 true longBytes).wf = false ∧ (Instr.recordWindowWrite 0 0 longWords).wf = false ∧
    (Instr.recordBulkWrite 0 0 longBytes).wf = false := records_wf longBytes longWords longBytes_length longWords_length
theorem test_illFormed_samples :
    [Instr.pfwAssert 1000 [] false, .pfwAssert 0 [tail0, tail0] false, .pfwAssert 0 [{ tail0 with bits := [] }] false,
     .saveBoundary [{ tail0 with tail := [] }] false, .ochreWatchdogExpiry [tail0, tail0], .dieReset (cmd 1 []) [tail0, tail0],
     .quantityFrame { frame0 with codes := [(0, [])] }, .quantityFrame { frame0 with codes := frame0.codes ++ frame0.codes },
     .meteringBoundary 0 { cycle0 with len := 0 }, .meteringBoundary 0 { cycle0 with bits := [] },
     .meteringBoundary 0 { cycle0 with temps := [] }, .dcPeriodEnd 0 { out := 0, bits := [] },
     .harmonicWindowEnd 0 { bits := [], ref := [] }, .supraharmonicStep [{ channel := 0, bits := [] }, { channel := 0, bits := [] }],
     .supraharmonicStep ((List.range 9).map fun k => { channel := Fin.ofNat 448 k, bits := [] }),
     .rawBlockComplete 0 { out := 0, bits := [] }, .weldCheck 0 [[0]]].all (fun i => !i.wf) = true := by decide +kernel
theorem test_illFormed_lines :
    [Instr.slacMessage 0 (.profile 0 []), .offPulseCheck 0 rb0 [1, 1], .onPulseCheck 0 rb0 [1, 1], .speltControlTick [meas0, meas0] 25 false,
     .speltControlTick [{ meas0 with loads := [] }] 25 false, .offStateDiagnostic [off0, off0],
     .siteFrameReceived 0 { wide := [], symbols := [{ aEarly := 0, aLate := 0, bEarly := 0, bLate := 0, windows := [] }] },
     .mapRecompute [{ link := 0, up := [] }] [], .mapRecompute (List.replicate 2 { link := 0, up := List.replicate 64 0 }) [],
     .aerialPing 0 0 0 [{ tech := 0, uid := [] }],
     .tagInventory { slots16 := false, maskLen := 65, mask := 0, slot := 0, twoSub := false },
     .tagInventory { slots16 := false, maskLen := 1, mask := 2, slot := 0, twoSub := false },
     .tagInventory { slots16 := true, maskLen := 0, mask := 0, slot := 16, twoSub := false },
     .eventOccurrence 0 0 0 false (List.replicate 17 0), .thermalSecond [] (List.replicate 6 25), .thermalSecond [25] []].all
      (fun i => !i.wf) = true := by decide +kernel
theorem test_illFormed_memory :
    [Instr.scratchpadOwnerWrite 0 0 0 [readWord, readWord], .atomicOperation [readWord, readWord], .vaultWipeComplete [readWord, readWord],
     .uncorrectableError { flip0 with flips := [0, 0] }, .scrubPass [flip0, flip0], .scrubPass [{ flip0 with flips := [0, 0] }]].all
      (fun i => !i.wf) = true := by decide +kernel
theorem test_illFormed_pair :
    [Instr.sealedFrame (adopting []), .sealedFrame (adopting (List.replicate 64 { legal0 with totals := [] })), .sealedFrame (adopting (List.replicate 64 { legal0 with tarImp := [] })),
     .sealedFrame (adopting (List.replicate 64 { legal0 with tarExp := [] })), .sealedFrame (adopting (List.replicate 64 { legal0 with sessTar := [] })),
     .sealedFrame (adopting (List.replicate 64 { legal0 with maxima := [] })), .stateTransferComplete true { content0 with sessions := [sess0, sess0] },
     .stateTransferComplete true { content0 with keys := [key0, key0] },
     .stateTransferComplete true { content0 with channels := [chan0, chan0] }].all (fun i => !i.wf) = true := by decide +kernel
/-- The operands that the checks above vary are well formed. -/
theorem test_wellFormed :
    [Instr.pfwAssert 0 [tail0] false, .quantityFrame frame0, .meteringBoundary 0 cycle0, .speltControlTick [meas0] 25 false,
     .offStateDiagnostic [off0], .scrubPass [flip0], .atomicOperation [readWord], .sealedFrame (adopting (List.replicate 64 legal0)),
     .stateTransferComplete true { content0 with sessions := [sess0], keys := [key0], channels := [chan0] }, .echo (cmd 0xFFFF [])].all
      (fun i => i.wf) = true := by decide +kernel

/-! ### Worked examples of the spec -/

/-- The example after R560: MDAT302 at 7.40, MCLK18, FOFF37. -/
theorem test_balls : ballAt 321 = .mdat 302 ∧ ballPlace 321 = (7, 40) ∧ ballAt 314 = .mclk 18 ∧ ballPlace 314 = (7, 33) ∧
    ballAt 865 = .foff 37 := by decide +kernel
/-- The example after R446: 20 adjacent bits are uncorrectable, 16 are corrected. -/
theorem test_burst : codeResult ((List.range 20).map fun k => Fin.ofNat 352 (100 + k)) = .uncorrectable ∧
    codeResult ((List.range 16).map fun k => Fin.ofNat 352 (100 + k)) = .corrected := by decide +kernel
/-- The example of the outlet status word, 0x0400. -/
theorem test_pilotStatus : pilotStatus { Pilot.reset with
    state := .C, drive := 2, diodeOk := true, inval := false, prox := 3, vpos := 5600, duty := 666 } = 0x5464629A := by decide +kernel
/-- The example after R64: Paired active, Lockout on outlet 14, no reference. -/
theorem test_modeStatus : modeStatus (
    let s := act
    let s := { s with modes.refLoss := true }
    { s with rus.outlet := s.rus.outlet.upd 14 fun g => { g with fault := { g.fault with classP := true } } }) = 0x0002310A := by
  decide +kernel
/-- The example after R110: T_ACT and BAND_LO at 46.6 °C, and the interpolation at 45.9 °C. -/
theorem test_bands : bandOf (466 / 10) = 4 ∧
    interpolate (459 / 10) (fun k => if k = 4 then 150 else if k = 3 then 120 else 190) = 120 + (459 / 10 - 95 / 4) / (45 / 2) * 30 := by
  decide +kernel
/-- The first header word of the echo example after R412 is answered as it was sent. -/
theorem test_echo : (match exec (.echo { cmd 0xFFFF [1, 2, 3, 4, 5, 6, 7, 8] with tag := 1 }) up with
    | .next t => some (memRead t.mem.pool (rspBase 2) 24)
    | _ => none) = some [0, 1, 0, 1, 1, 0, 8, 0, 0, 0, 0, 0, 0xFF, 0xFF, 0, 0, 1, 2, 3, 4, 5, 6, 7, 8] := by decide +kernel
/-- The date of the example after R430. -/
theorem test_date : 978307200 = 11323 * 86400 ∧ dateOf 11323 = { year := 31, month := 1, day := 1, weekday := 2 } := by decide +kernel

/-! ### Single steps -/

/-- An empty queue idles; the front command runs on the rest. -/
theorem test_idle : step State.reset = .next State.reset := rfl
theorem test_front : step { up with pending := [.hostrstPulse 50, .referenceLoss] } = .next { up with pending := [.referenceLoss] } := rfl

/-! ### Witnesses: one theorem per statement, one clause per case that has hypotheses -/

theorem test_witness_StepRunsTheFrontCommand :
  (∃ (s : State) (i : Instr) (rest : List Instr), s.pending = i :: rest) ∧
  (∃ (s : State), s.pending = []) :=
  ⟨⟨(let s := up; let s := { s with pending := [.speltHeartbeat, .referenceLoss] }; s), .speltHeartbeat, [.referenceLoss], by decide +kernel⟩,
   ⟨(let s := up; let s := { s with pending := [] }; s), by decide +kernel⟩⟩

theorem test_witness_PowerCommandsComplete :
  (∃ (s : State), s.modes.base ≠ .backupWatch) ∧
  (∃ (s : State), s.modes.base = .backupWatch) ∧
  (∃ (s : State), s.sup.mainOk = false) ∧
  (∃ (s : State), s.modes.base ≠ .backupWatch ∧ s.sup.pfw = false ∧ s.sup.pfwArmed = true) ∧
  (∃ (s : State), s.sup.pfw = true ∧ s.sup.pfwArmed = false ∧ s.dies.russet = .running) ∧
  (∃ (s : State), s.modes.base ≠ .backupWatch ∧ s.sup.pfw = true) ∧
  (∃ (ns : Nat), ns < 100) ∧
  (∃ (s : State) (ns : Nat), 1000 ≤ ns ∧ s.modes.base ≠ .backupWatch) :=
  ⟨⟨up, by decide +kernel⟩,
   ⟨(let s := up; let s := { s with modes.base := .backupWatch }; s), by decide +kernel⟩,
   ⟨(let s := up; let s := { s with sup.mainOk := false }; s), by decide +kernel⟩,
   ⟨(let s := up; let s := { s with sup.pfw := false }; let s := { s with sup.pfwArmed := true }; s), by decide +kernel, by decide +kernel,
    by decide +kernel⟩,
   ⟨(let s := up; let s := { s with sup.pfw := true }; let s := { s with sup.pfwArmed := false }; let s := { s with dies.russet := .running }; s),
    by decide +kernel, by decide +kernel, by decide +kernel⟩,
   ⟨(let s := up; let s := { s with sup.pfw := true }; s), by decide +kernel, by decide +kernel⟩,
   ⟨99, by decide +kernel⟩,
   ⟨up, 1000, by decide +kernel, by decide +kernel⟩⟩

theorem test_witness_DieResetsComplete :
  (∃ (s : State), s.dies.ochre ≠ .held) ∧
  (∃ (s : State), s.dies.ochre = .starting) ∧
  (∃ (s : State), s.dies.russet ≠ .held) ∧
  (∃ (s : State), s.dies.russet = .starting ∧ s.dies.russetCause = some 12) ∧
  (∃ (s : State), s.dies.spelt = .starting) ∧
  (∃ (s : State), s.dies.spelt ≠ .held) ∧
  (∃ (s : State), s.dies.fescue ≠ .held) ∧
  (∃ (s : State), s.dies.russet = .running ∧ holds s 57 moduleIndex = false) ∧
  (∃ (s : State), s.dies.russet = .running ∧ s.dies.fescue ≠ .held) ∧
  (∃ (s : State), controlRuns s = true ∧ s.dies.hbSeen = true) ∧
  (∃ (s : State), s.dies.control = .starting ∧ s.modes.base ≠ .recovery) ∧
  (∃ (s : State), s.dies.resetAfterResponse = true) :=
  ⟨⟨up, by decide +kernel⟩,
   ⟨(let s := up; let s := { s with dies.ochre := .starting }; s), by decide +kernel⟩,
   ⟨up, by decide +kernel⟩,
   ⟨(let s := up; let s := { s with dies.russet := .starting }; let s := { s with dies.russetCause := some (12) }; s), by decide +kernel,
    by decide +kernel⟩,
   ⟨(let s := up; let s := { s with dies.spelt := .starting }; s), by decide +kernel⟩,
   ⟨up, by decide +kernel⟩,
   ⟨up, by decide +kernel⟩,
   ⟨(let s := up; let s := { s with dies.russet := .running }; s), by decide +kernel, by decide +kernel⟩,
   ⟨(let s := up; let s := { s with dies.russet := .running }; s), by decide +kernel, by decide +kernel⟩,
   ⟨(let s := up; let s := { s with dies.hbSeen := true }; s), by decide +kernel, by decide +kernel⟩,
   ⟨(let s := up; let s := { s with dies.control := .starting }; s), by decide +kernel, by decide +kernel⟩,
   ⟨(let s := up; let s := { s with dies.resetAfterResponse := true }; s), by decide +kernel⟩⟩

theorem test_witness_ModesAndClocksComplete :
  (∃ (s : State), s.dies.control = .running) ∧
  (∃ (s : State), s.dies.control = .starting) ∧
  (∃ (s : State), s.modes.base = .service ∧ s.dies.russet = .running) ∧
  (∃ (s : State), controlRuns s = true ∧ s.modes.hbLoss = true) ∧
  (∃ (s : State), s.modes.base = .measuredStart ∧ noSlot s = false ∧ s.pair.peer = 0 ∧ s.keys.lifecycle = .provisioned) ∧
  (∃ (s : State), s.modes.base = .measuredStart ∧ s.modes.failedStarts = 0) ∧
  (∃ (s : State), s.modes.base = .measuredStart ∧ s.modes.checked = true ∧ s.pair.peer ≠ 0) ∧
  (∃ (s : State), s.modes.base = .commissioning) ∧
  (∃ (s : State), s.modes.base ≠ .backupWatch) ∧
  (∃ (s : State), s.clocks.fallback = true) ∧
  (∃ (s : State), s.clocks.slew = true) :=
  ⟨⟨(let s := up; let s := { s with dies.control := .running }; s), by decide +kernel⟩,
   ⟨(let s := up; let s := { s with dies.control := .starting }; s), by decide +kernel⟩,
   ⟨(let s := up; let s := { s with modes.base := .service }; let s := { s with dies.russet := .running }; s), by decide +kernel, by decide +kernel⟩,
   ⟨(let s := up; let s := { s with modes.hbLoss := true }; s), by decide +kernel, by decide +kernel⟩,
   ⟨(let s := up; let s := { s with modes.base := .measuredStart }; let s := { s with pair.peer := 0 };
    let s := { s with keys.lifecycle := .provisioned }; let s := { s with modes.base := .measuredStart };
    let s := { s with keys.lifecycle := .provisioned };
    let s := { s with upd.image := s.upd.image.each fun x => { x with slot := x.slot.each fun y => { y with header := List.replicate 512 0 } } }; s),
    by decide +kernel, by decide +kernel, by decide +kernel, by decide +kernel⟩,
   ⟨(let s := up; let s := { s with modes.base := .measuredStart }; let s := { s with modes.failedStarts := 0 }; s), by decide +kernel,
    by decide +kernel⟩,
   ⟨(let s := up; let s := { s with modes.base := .measuredStart }; let s := { s with modes.checked := true }; let s := { s with pair.peer := 5 }; s),
    by decide +kernel, by decide +kernel, by decide +kernel⟩,
   ⟨(let s := up; let s := { s with modes.base := .commissioning }; s), by decide +kernel⟩,
   ⟨up, by decide +kernel⟩,
   ⟨(let s := up; let s := { s with clocks.fallback := true }; s), by decide +kernel⟩,
   ⟨(let s := up; let s := { s with clocks.slew := true }; s), by decide +kernel⟩⟩

theorem test_witness_DecisionClassesTakeEffect :
  (∃ (s : State) (o : OutletNo), (s.rus.outlet.at o).fault.classP = false) ∧
  (∃ (s : State) (o : OutletNo), (s.rus.outlet.at o).fault.classP = false) :=
  ⟨⟨(let s := up; let s := { s with rus.outlet := s.rus.outlet.upd 0 fun x3 => { x3 with fault.classP := false } }; s), 0, by decide +kernel⟩,
   ⟨(let s := up; let s := { s with rus.outlet := s.rus.outlet.upd 0 fun x3 => { x3 with fault.classP := false } }; s), 0, by decide +kernel⟩⟩

theorem test_witness_DetectorsComplete :
  (∃ (s : State) (i : InputNo) (bits : Bits) (pos : Bool), s.dies.russet = .running ∧ wBit (s.rus.fast.at i).now 15 = true ∧
   fastDetects (s.rus.fast.at i).now bits = some pos ∧ (s.rus.capture.at i).unlocked = false) ∧
  (∃ (s : State) (o : OutletNo) (k : PointNo), s.dies.russet = .running ∧ s.rus.stream.stale = false ∧ rusType s o ≠ 0 ∧
   pointUsed (s.rus.outlet.at o).residual.dcCurve.now k = true ∧ ((s.rus.outlet.at o).residual.dcHold.at k).decided = false) ∧
  (∃ (s : State) (o : OutletNo) (k : PointNo), s.dies.russet = .running ∧ s.rus.stream.stale = false ∧ rusType s o ≠ 0 ∧
   pointUsed (s.rus.outlet.at o).residual.acCurve.now k = true ∧ ((s.rus.outlet.at o).residual.acHold.at k).decided = false) ∧
  (∃ (s : State) (o : OutletNo), s.dies.russet = .running ∧ rusDc s o = true ∧ (s.rus.outlet.at o).iso.failed = false) ∧
  (∃ (s : State) (o : OutletNo) (fs : List (List Rat)), s.dies.russet = .running ∧ (rusType s o = 1 ∨ rusType s o = 2) ∧
   (s.rus.outlet.at o).weldAt.isSome = true ∧ acWelded s o fs = true) ∧
  (∃ (s : State) (o : OutletNo), s.dies.russet = .running ∧ rusDc s o = true ∧ pairOn s o = true) ∧
  (∃ (s : State) (o : OutletNo), s.dies.russet = .running ∧ rusDc s o = true ∧ (s.rus.outlet.at o).iredBad < 313) ∧
  (∃ (s : State) (o : OutletNo), s.dies.russet = .running ∧ (s.rus.outlet.at o).ce.causes.contains 0x10 = true) ∧
  (∃ (s : State) (o : OutletNo), s.dies.russet = .running ∧ pairOn s o = true) ∧
  (∃ (s : State) (o : OutletNo), s.dies.russet = .running ∧ (s.rus.outlet.at o).fault.classE = true ∧ (s.rus.outlet.at o).ce.expired = false) ∧
  (∃ (s : State) (o : OutletNo), s.dies.russet = .running ∧ (s.rus.outlet.at o).ce.supervised = true ∧ wFld (s.rus.outlet.at o).coilCfg.now 20 12 ≠ 0) ∧
  (∃ (s : State) (o : OutletNo), s.dies.russet = .running ∧ (s.rus.outlet.at o).fault.classE = true ∧ (s.rus.outlet.at o).ce.ends ≠ 0) ∧
  (∃ (s : State), s.dies.russet = .running) :=
  ⟨⟨(let s := up; let s := { s with dies.russet := .running };
    let s := { s with rus.capture := s.rus.capture.upd 0 fun x3 => { x3 with unlocked := false } };
    let s := { s with rus.fast := s.rus.fast.put 0 (.settled (w32 [(1, 15), (1, 13), (28, 6), (32, 0)])) }; s), 0,
    List.replicate 4 false ++ List.replicate 28 true, true, by decide +kernel, by decide +kernel, by decide +kernel, by decide +kernel⟩,
   ⟨(let s := up; let s := { s with dies.russet := .running }; let s := { s with rus.stream.stale := false };
    let s := { s with rus.outlet := s.rus.outlet.upd 0 fun x3 => { x3 with role := 1 } }; s), 0, 0, by decide +kernel, by decide +kernel,
    by decide +kernel, by decide +kernel, by decide +kernel⟩,
   ⟨(let s := up; let s := { s with dies.russet := .running }; let s := { s with rus.stream.stale := false };
    let s := { s with rus.outlet := s.rus.outlet.upd 0 fun x3 => { x3 with role := 1 } }; s), 0, 0, by decide +kernel, by decide +kernel,
    by decide +kernel, by decide +kernel, by decide +kernel⟩,
   ⟨(let s := up; let s := { s with dies.russet := .running };
    let s := { s with rus.outlet := s.rus.outlet.upd 0 fun x3 => { x3 with iso.failed := false } };
    let s := { s with rus.outlet := s.rus.outlet.upd 0 fun x3 => { x3 with role := 3 } }; s), 0, by decide +kernel, by decide +kernel, by decide +kernel⟩,
   ⟨(let s := up; let s := { s with dies.russet := .running };
    let s := { s with rus.outlet := s.rus.outlet.upd 0 fun x3 => { x3 with weldAt := some 0 } };
    let s := { s with rus.outlet := s.rus.outlet.upd 0 fun x3 => { x3 with role := w32 [(1, 0), (1, 11)] } }; s), 0, [[0, 0, 0, 1000000]],
    by decide +kernel, by decide +kernel, by decide +kernel, by decide +kernel⟩,
   ⟨(let s := up; let s := { s with dies.russet := .running };
    let s := { s with rus.pair := s.rus.pair.upd (coilOf 0) fun x3 => { x3 with cmd := true } };
    let s := { s with rus.outlet := s.rus.outlet.upd 0 fun x3 => { x3 with role := 3 } }; s), 0, by decide +kernel, by decide +kernel, by decide +kernel⟩,
   ⟨(let s := up; let s := { s with dies.russet := .running }; let s := { s with rus.outlet := s.rus.outlet.upd 0 fun x3 => { x3 with role := 3 } }; s),
    0, by decide +kernel, by decide +kernel, by decide +kernel⟩,
   ⟨(let s := up; let s := { s with dies.russet := .running };
    let s := { s with rus.outlet := s.rus.outlet.upd 0 fun x3 => { x3 with ce.causes := [0x10] } }; s), 0, by decide +kernel, by decide +kernel⟩,
   ⟨(let s := up; let s := { s with dies.russet := .running };
    let s := { s with rus.pair := s.rus.pair.upd (coilOf 0) fun x3 => { x3 with cmd := true } }; s), 0, by decide +kernel, by decide +kernel⟩,
   ⟨(let s := up; let s := { s with dies.russet := .running };
    let s := { s with rus.outlet := s.rus.outlet.upd 0 fun x3 => { x3 with fault.classE := true } };
    let s := { s with rus.outlet := s.rus.outlet.upd 0 fun x3 => { x3 with ce.expired := false } }; s), 0, by decide +kernel, by decide +kernel,
    by decide +kernel⟩,
   ⟨(let s := up; let s := { s with dies.russet := .running };
    let s := { s with rus.outlet := s.rus.outlet.upd 0 fun x3 => { x3 with ce.supervised := true } };
    let s := { s with rus.outlet := s.rus.outlet.upd 0 fun x3 => { x3 with coilCfg := .settled (w32 [(320, 20), (10, 12), (1, 11), (4, 4)]) } }; s), 0,
    by decide +kernel, by decide +kernel, by decide +kernel⟩,
   ⟨(let s := up; let s := { s with dies.russet := .running };
    let s := { s with rus.outlet := s.rus.outlet.upd 0 fun x3 => { x3 with fault.classE := true } };
    let s := { s with rus.outlet := s.rus.outlet.upd 0 fun x3 => { x3 with ce.ends := 1 } }; s), 0, by decide +kernel, by decide +kernel,
    by decide +kernel⟩,
   ⟨(let s := up; let s := { s with dies.russet := .running }; s), by decide +kernel⟩⟩

theorem test_witness_CoilPairsComplete :
  (∃ (s : State) (o : OutletNo), s.dies.russet = .running ∧ pairIdle s o = true ∧ mayAskClose s o = true ∧ s.modes.hbLoss = false ∧
   roleNow s.modes = .solo ∧ closeRefusal s o = none) ∧
  (∃ (s : State) (o : OutletNo), s.dies.russet = .running ∧ pairIdle s o = true ∧ mayAskClose s o = true ∧ s.modes.hbLoss = false ∧
   roleNow s.modes = .solo) ∧
  (∃ (s : State) (o : OutletNo) (n : Nat), s.dies.russet = .running ∧ pairIdle s o = true ∧ mayAskClose s o = true ∧ s.modes.hbLoss = false ∧
   roleNow s.modes = .solo ∧ closeRefusal s o = some n) ∧
  (∃ (s : State) (o : OutletNo), s.dies.russet = .running ∧ (s.rus.pair.at (coilOf o)).turn = .granted) ∧
  (∃ (s : State) (o : OutletNo), s.dies.russet = .running ∧ (s.rus.pair.at (coilOf o)).turn = .lowOn ∧ s.rus.stream.stale = false) ∧
  (∃ (s : State) (o : OutletNo), s.dies.russet = .running ∧ (s.rus.pair.at (coilOf o)).turn = .bothOn) ∧
  (∃ (s : State), s.dies.russet = .running) ∧
  (∃ (s : State), s.dies.russet = .running) ∧
  (∃ (s : State) (p : PairNo), s.dies.russet = .running ∧ (s.rus.pair.at p).cmd = true) ∧
  (∃ (s : State) (p : PairNo) (rb : Readback) (us : Nat), s.dies.russet = .running ∧ (s.rus.pair.at p).cmd = false ∧ levelAt rb.vh rb.vin = .high ∧
   peerTests s p us = false ∧ (s.rus.pair.at p).test = .none ∧ (s.rus.pair.at p).turn = .idle) ∧
  (∃ (s : State) (p : PairNo), s.dies.russet = .running ∧ testMoved s p = false) ∧
  (∃ (s : State) (p : PairNo) (rb : Readback), s.dies.russet = .running ∧ (s.rus.pair.at p).test = .offHigh ∧ levelAt rb.vh rb.vin = .low) ∧
  (∃ (s : State) (p : PairNo) (rb : Readback), s.dies.russet = .running ∧ (s.rus.pair.at p).test = .offHigh ∧ levelAt rb.vh rb.vin = .high) ∧
  (∃ (s : State) (p : PairNo) (rb : Readback), s.dies.russet = .running ∧ (s.rus.pair.at p).test = .offLow ∧ levelAt rb.vl rb.vin = .low) ∧
  (∃ (s : State) (p : PairNo), s.dies.russet = .running ∧ (s.rus.pair.at p).test = .offHigh) ∧
  (∃ (s : State) (p : PairNo), s.dies.russet = .running ∧ (s.rus.pair.at p).test = .offLow) ∧
  (∃ (s : State) (p : PairNo), s.dies.russet = .running ∧ (s.rus.pair.at p).test = .restoreHigh) ∧
  (∃ (s : State) (p : PairNo) (rb : Readback), s.dies.russet = .running ∧ (s.rus.pair.at p).test = .on ∧ levelAt rb.vl rb.vin = .high) ∧
  (∃ (s : State) (p : PairNo), s.dies.russet = .running ∧ (s.rus.pair.at p).test = .on) ∧
  (∃ (s : State) (o : OutletNo) (level : Bool), s.dies.russet = .running ∧ mirrorFitted s o = true ∧ levelShowsOpen s o level = true ∧ pairOn s o = true) ∧
  (∃ (s : State) (o : OutletNo) (level : Bool), s.dies.russet = .running ∧ mirrorFitted s o = true ∧ levelShowsOpen s o level = true) ∧
  (∃ (s : State) (o : OutletNo) (level : Bool), s.dies.russet = .running ∧ mirrorFitted s o = true ∧ levelShowsOpen s o level = false ∧
   pairOn s o = false) ∧
  (∃ (s : State) (o : OutletNo) (level : Bool), s.dies.russet = .running ∧ mirrorFitted s o = true ∧ levelShowsOpen s o level = false) :=
  ⟨⟨(let s := up; let s := { s with dies.russet := .running }; let s := { s with modes.hbLoss := false };
    let s := { s with rus.outlet := s.rus.outlet.upd 0 fun x3 => { x3 with enable := true } }; let s := { s with rus.stream.stale := false };
    let s := { s with rus.outlet := s.rus.outlet.upd 0 fun x3 => { x3 with pilot := .C } }; let s := { s with dies.fescueBeat := true };
    let s := { s with rus.lease := true }; let s := { s with veh.session := s.veh.session.upd 0 fun x3 => { x3 with accepted := true } };
    let s := { s with veh.session := s.veh.session.upd 0 fun x3 => { x3 with phase := 6 } };
    let s := { s with veh.pilot := s.veh.pilot.upd 0 fun x3 => { x3 with state := .C } }; s), 0, by decide +kernel, by decide +kernel, by decide +kernel,
    by decide +kernel, by decide +kernel, by decide +kernel⟩,
   ⟨(let s := up; let s := { s with dies.russet := .running }; let s := { s with modes.hbLoss := false };
    let s := { s with veh.session := s.veh.session.upd 0 fun x3 => { x3 with accepted := true } };
    let s := { s with veh.session := s.veh.session.upd 0 fun x3 => { x3 with phase := 6 } };
    let s := { s with veh.pilot := s.veh.pilot.upd 0 fun x3 => { x3 with state := .C } }; s), 0, by decide +kernel, by decide +kernel, by decide +kernel,
    by decide +kernel, by decide +kernel⟩,
   ⟨(let s := up; let s := { s with dies.russet := .running }; let s := { s with modes.hbLoss := false };
    let s := { s with veh.session := s.veh.session.upd 0 fun x3 => { x3 with accepted := true } };
    let s := { s with veh.session := s.veh.session.upd 0 fun x3 => { x3 with phase := 6 } };
    let s := { s with veh.pilot := s.veh.pilot.upd 0 fun x3 => { x3 with state := .C } }; s), 0, 1, by decide +kernel, by decide +kernel,
    by decide +kernel, by decide +kernel, by decide +kernel, by decide +kernel⟩,
   ⟨(let s := up; let s := { s with dies.russet := .running };
    let s := { s with rus.pair := s.rus.pair.upd (coilOf 0) fun x3 => { x3 with turn := .granted } }; s), 0, by decide +kernel, by decide +kernel⟩,
   ⟨(let s := up; let s := { s with dies.russet := .running };
    let s := { s with rus.pair := s.rus.pair.upd (coilOf 0) fun x3 => { x3 with turn := .lowOn } }; let s := { s with rus.stream.stale := false }; s), 0,
    by decide +kernel, by decide +kernel, by decide +kernel⟩,
   ⟨(let s := up; let s := { s with dies.russet := .running };
    let s := { s with rus.pair := s.rus.pair.upd (coilOf 0) fun x3 => { x3 with turn := .bothOn } }; s), 0, by decide +kernel, by decide +kernel⟩,
   ⟨(let s := up; let s := { s with dies.russet := .running }; s), by decide +kernel⟩,
   ⟨(let s := up; let s := { s with dies.russet := .running }; s), by decide +kernel⟩,
   ⟨(let s := up; let s := { s with dies.russet := .running }; let s := { s with rus.pair := s.rus.pair.upd 0 fun x3 => { x3 with cmd := true } }; s),
    0, by decide +kernel, by decide +kernel⟩,
   ⟨(let s := up; let s := { s with dies.russet := .running }; let s := { s with rus.pair := s.rus.pair.upd 0 fun x3 => { x3 with cmd := false } };
    let s := { s with rus.pair := s.rus.pair.upd 0 fun x3 => { x3 with test := .none } };
    let s := { s with rus.pair := s.rus.pair.upd 0 fun x3 => { x3 with turn := .idle } }; s), 0, { vh := 12000, vl := 0, vin := 12000 }, 0,
    by decide +kernel, by decide +kernel, by decide +kernel, by decide +kernel, by decide +kernel, by decide +kernel⟩,
   ⟨(let s := up; let s := { s with dies.russet := .running }; s), 0, by decide +kernel, by decide +kernel⟩,
   ⟨(let s := up; let s := { s with dies.russet := .running }; let s := { s with rus.pair := s.rus.pair.upd 0 fun x3 => { x3 with test := .offHigh } };
    s), 0, { vh := 0, vl := 0, vin := 12000 }, by decide +kernel, by decide +kernel, by decide +kernel⟩,
   ⟨(let s := up; let s := { s with dies.russet := .running }; let s := { s with rus.pair := s.rus.pair.upd 0 fun x3 => { x3 with test := .offHigh } };
    s), 0, { vh := 12000, vl := 0, vin := 12000 }, by decide +kernel, by decide +kernel, by decide +kernel⟩,
   ⟨(let s := up; let s := { s with dies.russet := .running }; let s := { s with rus.pair := s.rus.pair.upd 0 fun x3 => { x3 with test := .offLow } };
    s), 0, { vh := 0, vl := 0, vin := 12000 }, by decide +kernel, by decide +kernel, by decide +kernel⟩,
   ⟨(let s := up; let s := { s with dies.russet := .running }; let s := { s with rus.pair := s.rus.pair.upd 0 fun x3 => { x3 with test := .offHigh } };
    s), 0, by decide +kernel, by decide +kernel⟩,
   ⟨(let s := up; let s := { s with dies.russet := .running }; let s := { s with rus.pair := s.rus.pair.upd 0 fun x3 => { x3 with test := .offLow } };
    s), 0, by decide +kernel, by decide +kernel⟩,
   ⟨(let s := up; let s := { s with dies.russet := .running };
    let s := { s with rus.pair := s.rus.pair.upd 0 fun x3 => { x3 with test := .restoreHigh } }; s), 0, by decide +kernel, by decide +kernel⟩,
   ⟨(let s := up; let s := { s with dies.russet := .running }; let s := { s with rus.pair := s.rus.pair.upd 0 fun x3 => { x3 with test := .on } }; s),
    0, { vh := 12000, vl := 12000, vin := 12000 }, by decide +kernel, by decide +kernel, by decide +kernel⟩,
   ⟨(let s := up; let s := { s with dies.russet := .running }; let s := { s with rus.pair := s.rus.pair.upd 0 fun x3 => { x3 with test := .on } }; s),
    0, by decide +kernel, by decide +kernel⟩,
   ⟨(let s := up; let s := { s with dies.russet := .running };
    let s := { s with rus.pair := s.rus.pair.upd (coilOf 0) fun x3 => { x3 with cmd := true } }; s), 0, true, by decide +kernel, by decide +kernel,
    by decide +kernel, by decide +kernel⟩,
   ⟨(let s := up; let s := { s with dies.russet := .running }; s), 0, true, by decide +kernel, by decide +kernel, by decide +kernel⟩,
   ⟨(let s := up; let s := { s with dies.russet := .running }; s), 0, false, by decide +kernel, by decide +kernel, by decide +kernel, by decide +kernel⟩,
   ⟨(let s := up; let s := { s with dies.russet := .running }; s), 0, false, by decide +kernel, by decide +kernel, by decide +kernel⟩⟩

theorem test_witness_BrakesComplete :
  (∃ (s : State) (b : BrakeNo), s.dies.russet = .running ∧ (s.rus.brake.at b).state = .releasing) ∧
  (∃ (s : State) (b : BrakeNo) (rise : List Nat), s.dies.russet = .running ∧ (s.rus.brake.at b).state = .releasing ∧
   profileOk (s.rus.brake.at b) rise = true) ∧
  (∃ (s : State) (b : BrakeNo) (rise : List Nat), s.dies.russet = .running ∧ (s.rus.brake.at b).state = .releasing ∧
   profileOk (s.rus.brake.at b) rise = false) ∧
  (∃ (s : State) (b : BrakeNo), s.dies.russet = .running ∧ (s.rus.brake.at b).state = .engaging) ∧
  (∃ (s : State) (b : BrakeNo) (cs : List Nat), s.dies.russet = .running ∧ (s.rus.brake.at b).state = .released ∧
   outsideLimits (s.rus.brake.at b) cs = true) ∧
  (∃ (s : State) (b : BrakeNo) (xs : List (Bool × Bool)), s.dies.russet = .running ∧ (s.rus.brake.at b).state = .testing ∧
   (movement (s.rus.brake.at b) xs).2 = true) ∧
  (∃ (s : State) (b : BrakeNo), s.dies.russet = .running ∧ (s.rus.brake.at b).state = .testing) ∧
  (∃ (s : State) (b : BrakeNo) (xs : List (Bool × Bool)), s.dies.russet = .running ∧ (s.rus.brake.at b).state = .testing ∧
   (movement (s.rus.brake.at b) xs).2 = false) ∧
  (∃ (s : State) (b : BrakeNo), s.dies.russet = .running ∧ testInDate s (s.rus.brake.at b) = false) ∧
  (∃ (s : State), s.dies.russet = .running) :=
  ⟨⟨(let s := up; let s := { s with dies.russet := .running };
    let s := { s with rus.brake := s.rus.brake.upd 0 fun x3 => { x3 with state := .releasing } }; s), 0, by decide +kernel, by decide +kernel⟩,
   ⟨(let s := up; let s := { s with dies.russet := .running };
    let s := { s with rus.brake := s.rus.brake.upd 0 fun x3 => { x3 with state := .releasing } }; s), 0, [3000, 100], by decide +kernel,
    by decide +kernel, by decide +kernel⟩,
   ⟨(let s := up; let s := { s with dies.russet := .running };
    let s := { s with rus.brake := s.rus.brake.upd 0 fun x3 => { x3 with state := .releasing } }; s), 0, [], by decide +kernel, by decide +kernel,
    by decide +kernel⟩,
   ⟨(let s := up; let s := { s with dies.russet := .running };
    let s := { s with rus.brake := s.rus.brake.upd 0 fun x3 => { x3 with state := .engaging } }; s), 0, by decide +kernel, by decide +kernel⟩,
   ⟨(let s := up; let s := { s with dies.russet := .running };
    let s := { s with rus.brake := s.rus.brake.upd 0 fun x3 => { x3 with state := .released } }; s), 0, [3000, 3000, 3000], by decide +kernel,
    by decide +kernel, by decide +kernel⟩,
   ⟨(let s := up; let s := { s with dies.russet := .running };
    let s := { s with rus.brake := s.rus.brake.upd 0 fun x3 => { x3 with state := .testing } }; s), 0, [(false, false), (true, true)], by decide +kernel,
    by decide +kernel, by decide +kernel⟩,
   ⟨(let s := up; let s := { s with dies.russet := .running };
    let s := { s with rus.brake := s.rus.brake.upd 0 fun x3 => { x3 with state := .testing } }; s), 0, by decide +kernel, by decide +kernel⟩,
   ⟨(let s := up; let s := { s with dies.russet := .running };
    let s := { s with rus.brake := s.rus.brake.upd 0 fun x3 => { x3 with state := .testing } }; s), 0, [], by decide +kernel, by decide +kernel,
    by decide +kernel⟩,
   ⟨(let s := up; let s := { s with dies.russet := .running };
    let s := { s with rus.brake := s.rus.brake.upd 0 fun x3 => { x3 with cfg := .settled [0, 1, 0, 0] } }; s), 0, by decide +kernel, by decide +kernel⟩,
   ⟨(let s := up; let s := { s with dies.russet := .running }; s), by decide +kernel⟩⟩

theorem test_witness_ReleaseComplete :
  (∃ (s : State) (o : OutletNo) (hi : Nat) (lo : Nat), s.dies.russet = .running ∧ (s.rus.outlet.at o).releaseArmed = true ∧
   pressCounts (s.rus.outHeld.at o) hi lo = true ∧ s.pair.peer = 0 ∧ releaseCheckFailing s o = none) ∧
  (∃ (s : State) (o : OutletNo) (hi : Nat) (lo : Nat) (n : Nat), s.dies.russet = .running ∧ (s.rus.outlet.at o).releaseArmed = true ∧
   pressCounts (s.rus.outHeld.at o) hi lo = true ∧ s.pair.peer = 0 ∧ releaseCheckFailing s o = some n) ∧
  (∃ (s : State) (o : OutletNo) (hi : Nat) (lo : Nat), s.dies.russet = .running ∧ pressCounts (s.rus.outHeld.at o) hi lo = false) ∧
  (∃ (s : State), s.dies.russet = .running) ∧
  (∃ (s : State), s.dies.russet = .running) ∧
  (∃ (s : State) (o : OutletNo), s.dies.russet = .running ∧ (s.rus.outlet.at o).awaitsPeer = false) ∧
  (∃ (s : State) (o : OutletNo), s.dies.russet = .running ∧ (s.rus.outlet.at o).awaitsPeer = true) ∧
  (∃ (s : State) (o : OutletNo), s.dies.russet = .running ∧ roleNow s.modes = .standby ∧ (s.rus.outlet.at o).closeReq = false) ∧
  (∃ (s : State) (o : OutletNo), s.dies.russet = .running ∧ (s.veh.pilot.at o).state = .A ∧ pairOn s o = false) :=
  ⟨⟨(let s := up; let s := { s with dies.russet := .running };
    let s := { s with rus.outlet := s.rus.outlet.upd 0 fun x3 => { x3 with releaseArmed := true } }; let s := { s with pair.peer := 0 }; s), 0, 100, 100,
    by decide +kernel, by decide +kernel, by decide +kernel, by decide +kernel, by decide +kernel⟩,
   ⟨(let s := up; let s := { s with dies.russet := .running };
    let s := { s with rus.outlet := s.rus.outlet.upd 0 fun x3 => { x3 with releaseArmed := true } }; let s := { s with pair.peer := 0 };
    let s := { s with rus.estop := s.rus.estop.upd 0 fun x3 => { x3 with stop := true } }; s), 0, 100, 100, 1, by decide +kernel, by decide +kernel,
    by decide +kernel, by decide +kernel, by decide +kernel⟩,
   ⟨(let s := up; let s := { s with dies.russet := .running }; s), 0, 0, 0, by decide +kernel, by decide +kernel⟩,
   ⟨(let s := up; let s := { s with dies.russet := .running }; s), by decide +kernel⟩,
   ⟨(let s := up; let s := { s with dies.russet := .running }; s), by decide +kernel⟩,
   ⟨(let s := up; let s := { s with dies.russet := .running };
    let s := { s with rus.outlet := s.rus.outlet.upd 0 fun x3 => { x3 with awaitsPeer := false } }; s), 0, by decide +kernel, by decide +kernel⟩,
   ⟨(let s := up; let s := { s with dies.russet := .running };
    let s := { s with rus.outlet := s.rus.outlet.upd 0 fun x3 => { x3 with awaitsPeer := true } }; s), 0, by decide +kernel, by decide +kernel⟩,
   ⟨(let s := up; let s := { s with dies.russet := .running };
    let s := { s with rus.outlet := s.rus.outlet.upd 0 fun x3 => { x3 with closeReq := false } }; let s := { s with modes.role := .standby }; s), 0,
    by decide +kernel, by decide +kernel, by decide +kernel⟩,
   ⟨(let s := up; let s := { s with dies.russet := .running }; let s := { s with veh.pilot := s.veh.pilot.upd 0 fun x3 => { x3 with state := .A } }; s),
    0, by decide +kernel, by decide +kernel, by decide +kernel⟩⟩

theorem test_witness_StopsAndStreamComplete :
  (∃ (s : State) (c : EstopNo) (n : Nat), s.dies.russet = .running ∧ (s.rus.estop.at c).stop = false ∧ filterPassed s n = true) ∧
  (∃ (s : State) (c : EstopNo) (n : Nat), s.dies.russet = .running ∧ (s.rus.estop.at c).a = false ∧ (s.rus.estop.at c).stop = true ∧
   filterPassed s n = true) ∧
  (∃ (s : State) (c : EstopNo), s.dies.russet = .running ∧ (s.rus.estop.at c).a ≠ (s.rus.estop.at c).b ∧ (s.rus.estop.at c).disc = false) ∧
  (∃ (s : State) (f : Frame), s.dies.russet = .running ∧ f.checkOk = false) ∧
  (∃ (s : State) (f : Frame), s.dies.russet = .running ∧ f.checkOk = true ∧ ochreSends s = true ∧ s.rus.pend = false ∧ s.rus.stream.stale = false ∧
   s.rus.stream.run ≠ 0 ∧ f.seq = s.rus.stream.seq + 1) ∧
  (∃ (s : State) (f : Frame), s.dies.russet = .running ∧ f.checkOk = true ∧ ochreSends s = true ∧ s.rus.pend = false ∧ s.rus.stream.run ≠ 0 ∧
   f.seq ≠ s.rus.stream.seq + 1) ∧
  (∃ (s : State), s.dies.russet = .running) ∧
  (∃ (s : State), s.dies.russet = .running ∧ s.rus.stream.stale = true ∧ 16 ≤ s.rus.stream.run) ∧
  (∃ (s : State), s.dies.russet = .running ∧ s.rus.stream.stale = true) ∧
  (∃ (s : State), s.dies.russet = .running ∧ s.rus.stream.stale = false) :=
  ⟨⟨(let s := up; let s := { s with dies.russet := .running }; let s := { s with rus.estop := s.rus.estop.upd 0 fun x3 => { x3 with stop := false } };
    s), 0, 150, by decide +kernel, by decide +kernel, by decide +kernel⟩,
   ⟨(let s := up; let s := { s with dies.russet := .running }; let s := { s with rus.estop := s.rus.estop.upd 0 fun x3 => { x3 with a := false } };
    let s := { s with rus.estop := s.rus.estop.upd 0 fun x3 => { x3 with stop := true } }; s), 0, 150, by decide +kernel, by decide +kernel,
    by decide +kernel, by decide +kernel⟩,
   ⟨(let s := up; let s := { s with dies.russet := .running }; let s := { s with rus.estop := s.rus.estop.upd 0 fun x3 => { x3 with disc := false } };
    let s := { s with rus.estop := s.rus.estop.upd 0 fun x3 => { x3 with a := true } }; s), 0, by decide +kernel, by decide +kernel, by decide +kernel⟩,
   ⟨(let s := up; let s := { s with dies.russet := .running }; s), { seq := 0, checkOk := false, codes := [], late := false }, by decide +kernel,
    by decide +kernel⟩,
   ⟨(let s := up; let s := { s with dies.russet := .running }; let s := { s with rus.pend := false }; let s := { s with rus.stream.stale := false };
    let s := { s with rus.stream.run := 1 }; s), { seq := 1, checkOk := true, codes := [], late := false }, by decide +kernel, by decide +kernel,
    by decide +kernel, by decide +kernel, by decide +kernel, by decide +kernel, by decide +kernel⟩,
   ⟨(let s := up; let s := { s with dies.russet := .running }; let s := { s with rus.pend := false }; let s := { s with rus.stream.run := 1 }; s),
    { seq := 3, checkOk := true, codes := [], late := false }, by decide +kernel, by decide +kernel, by decide +kernel, by decide +kernel,
    by decide +kernel, by decide +kernel⟩,
   ⟨(let s := up; let s := { s with dies.russet := .running }; s), by decide +kernel⟩,
   ⟨(let s := up; let s := { s with dies.russet := .running }; let s := { s with rus.stream.stale := true }; let s := { s with rus.stream.run := 16 };
    s), by decide +kernel, by decide +kernel, by decide +kernel⟩,
   ⟨(let s := up; let s := { s with dies.russet := .running }; let s := { s with rus.stream.stale := true }; s), by decide +kernel, by decide +kernel⟩,
   ⟨(let s := up; let s := { s with dies.russet := .running }; let s := { s with rus.stream.stale := false }; s), by decide +kernel, by decide +kernel⟩⟩

theorem test_witness_InputsAndLanesComplete :
  (∃ (s : State) (g : GroupNo), wBit (s.och.set.roleNow.groups.at g) 3 = true) ∧
  (∃ (s : State) (i : InputNo), manchester s i = true ∧ s.dies.ochre ≠ .held) ∧
  (∃ (s : State) (i : InputNo), manchester s i = false) ∧
  (∃ (s : State) (l : LaneNo), s.dies.ochre = .running ∧ factoryOk s l.val = true) ∧
  (∃ (s : State) (l : LaneNo), s.dies.ochre = .running ∧ laneServes s l = none) ∧
  (∃ (s : State) (l : LaneNo) (i : InputNo), s.dies.ochre = .running ∧ laneServes s l = some i ∧ (s.och.input.at i).swap = none ∧
   (s.och.input.at i).laneFailed = false) ∧
  (∃ (s : State) (i : InputNo) (l : LaneNo), (s.och.input.at i).swap = some l) :=
  ⟨⟨(let s := up; let s := { s with och.set.roleNow.groups := s.och.set.roleNow.groups.put 0 (8) }; s), 0, by decide +kernel⟩,
   ⟨(let s := up; let s := { s with och.set.roleNow.groups := s.och.set.roleNow.groups.put 0 (1) }; s), 0, by decide +kernel, by decide +kernel⟩,
   ⟨up, 0, by decide +kernel⟩,
   ⟨(let s := up; let s := { s with dies.ochre := .running }; let s := { s with och.factory := [] }; s), 0, by decide +kernel, by decide +kernel⟩,
   ⟨laneUp, 519, by decide +kernel, laneSpare⟩,
   ⟨(let s := up; let s := { s with dies.ochre := .running }; let s := { s with och.input := s.och.input.upd 0 fun x3 => { x3 with swap := none } };
    let s := { s with och.input := s.och.input.upd 0 fun x3 => { x3 with laneFailed := false } }; s), 0, 0, by decide +kernel, by decide +kernel,
    by decide +kernel, by decide +kernel⟩,
   ⟨(let s := up; let s := { s with och.input := s.och.input.upd 0 fun x3 => { x3 with swap := some (0) } }; s), 0, 0, by decide +kernel⟩⟩

theorem test_witness_MeteringComplete :
  (∃ (s : State) (o : OutletNo) (c : Cycle), s.dies.ochre = .running ∧ metered s o = true ∧ ignored s o c = false ∧ merged s o c = false ∧
   isAc s o = true ∧ servingRole s = .solo) ∧
  (∃ (s : State) (o : OutletNo) (c : Cycle), s.dies.ochre = .running ∧ ignored s o c = true) ∧
  (∃ (s : State) (o : OutletNo) (c : Cycle), s.dies.ochre = .running ∧ ignored s o c = false ∧ merged s o c = true ∧ c.synthetic = true) ∧
  (∃ (s : State) (o : OutletNo), s.dies.ochre = .running ∧ metered s o = true ∧ isAc s o = true) ∧
  (∃ (s : State) (o : OutletNo), s.dies.ochre = .running ∧ metered s o = true ∧ isDc s o = true ∧ servingRole s = .solo) ∧
  (∃ (s : State), s.dies.ochre = .running ∧ s.sup.saveDone = false ∧ s.och.set.tariffPend = false) ∧
  (∃ (s : State), s.dies.ochre = .running) ∧
  (∃ (s : State) (o : OutletNo), s.dies.ochre = .running ∧ metered s o = true ∧ typeOf s o ≠ 0 ∧ windowCycles s o ≤ (s.och.analysis.at o).cycles.length) ∧
  (∃ (s : State), s.dies.ochre = .running ∧ s.och.clock.checkFailed = false) ∧
  (∃ (s : State) (o : OutletNo), s.dies.ochre = .running ∧ metered s o = true ∧ s.och.ha.at o = true) :=
  ⟨⟨(let s := up; let s := { s with dies.ochre := .running }; let s := { s with och.set.roleNow.outlets := s.och.set.roleNow.outlets.put 0 (1) }; s), 0,
    { out := 0, len := 20000000, bits := [], fundamental := 1000000000, temps := [], synthetic := false, late := false }, by decide +kernel,
    by decide +kernel, by decide +kernel, by decide +kernel, by decide +kernel, by decide +kernel⟩,
   ⟨(let s := up; let s := { s with dies.ochre := .running }; let s := { s with och.set.roleNow.outlets := s.och.set.roleNow.outlets.put 0 (1) }; s), 0,
    { out := 0, len := 14489999, bits := [], fundamental := 1000000000, temps := [], synthetic := false, late := false }, by decide +kernel,
    by decide +kernel⟩,
   ⟨(let s := up; let s := { s with dies.ochre := .running }; let s := { s with och.set.roleNow.outlets := s.och.set.roleNow.outlets.put 0 (1) }; s), 0,
    { out := 0, len := 1000000, bits := [], fundamental := 0, temps := [], synthetic := true, late := false }, by decide +kernel, by decide +kernel,
    by decide +kernel, by decide +kernel⟩,
   ⟨(let s := up; let s := { s with dies.ochre := .running }; let s := { s with och.set.roleNow.outlets := s.och.set.roleNow.outlets.put 0 (1) }; s), 0,
    by decide +kernel, by decide +kernel, by decide +kernel⟩,
   ⟨(let s := up; let s := { s with dies.ochre := .running }; let s := { s with och.set.roleNow.outlets := s.och.set.roleNow.outlets.put 0 (1) };
    let s := { s with och.set.roleNow.outlets := s.och.set.roleNow.outlets.put 0 (3) }; s), 0, by decide +kernel, by decide +kernel, by decide +kernel,
    by decide +kernel⟩,
   ⟨(let s := up; let s := { s with dies.ochre := .running }; let s := { s with sup.saveDone := false };
    let s := { s with och.set.tariffPend := false }; s), by decide +kernel, by decide +kernel, by decide +kernel⟩,
   ⟨(let s := up; let s := { s with dies.ochre := .running }; s), by decide +kernel⟩,
   ⟨(let s := up; let s := { s with dies.ochre := .running }; let s := { s with och.set.roleNow.outlets := s.och.set.roleNow.outlets.put 0 (1) };
    let s := { s with och.analysis := s.och.analysis.upd 0 fun x3 => { x3 with cycles := List.replicate 12 (0, 20000000) } }; s), 0, by decide +kernel,
    by decide +kernel, by decide +kernel, by decide +kernel⟩,
   ⟨(let s := up; let s := { s with dies.ochre := .running }; let s := { s with och.clock.checkFailed := false }; s), by decide +kernel,
    by decide +kernel⟩,
   ⟨(let s := up; let s := { s with dies.ochre := .running }; let s := { s with och.set.roleNow.outlets := s.och.set.roleNow.outlets.put 0 (1) };
    let s := { s with och.ha := s.och.ha.put 0 (true) }; s), 0, by decide +kernel, by decide +kernel, by decide +kernel⟩⟩

theorem test_witness_LegalTimeComplete :
  (∃ (s : State) (quiet : Nat), (s.och.clock.failedAt.isSome = true ∨ nextTick s.och.clock.us quiet % minuteUs ≠ 0)) ∧
  (∃ (s : State) (o : OutletNo) (i : Machine.Interval) (l : List Machine.Interval), (s.och.meter.at o).acc.closing = i :: l) ∧
  (∃ (s : State), s.och.tariffs.ha = false) ∧
  (∃ (s : State), s.och.tariffs.ha = true ∧ activationDue s ((s.och.clock.us / minuteUs + 1) * minuteUs) = false ∧
   tariffAt s.och.tariffs.active ((s.och.clock.us / minuteUs + 1) * minuteUs) ≠ s.och.tariffs.tariff.toNat) ∧
  (∃ (s : State) (k : TamperNo) (opened : Bool), s.teal.level.at k ≠ opened ∧ (s.sup.mainOk = true ∨ s.sup.vbatOk = true)) ∧
  (∃ (s : State), s.dies.ochre = .running) :=
  ⟨⟨up, 0, by decide +kernel⟩,
   ⟨closing1, 0, closingInterval, [], rfl⟩,
   ⟨(let s := up; let s := { s with och.tariffs.ha := false }; s), by decide +kernel⟩,
   ⟨(let s := up; let s := { s with och.tariffs.ha := true }; let s := { s with och.tariffs.tariff := 7 }; s), by decide +kernel, by decide +kernel,
    by decide +kernel⟩,
   ⟨up, 0, true, by decide +kernel, by decide +kernel⟩,
   ⟨(let s := up; let s := { s with dies.ochre := .running }; s), by decide +kernel⟩⟩

theorem test_witness_SessionRecordsComplete :
  (∃ (s : State) (o : OutletNo), s.dies.ochre = .running ∧ leaseHeld s = true ∧ startRefusal s o = none) ∧
  (∃ (s : State) (o : OutletNo) (st : Status), s.dies.ochre = .running ∧ leaseHeld s = true ∧ startRefusal s o = some st) ∧
  (∃ (s : State) (o : OutletNo) (r : SessionRecord) (u : Nat), s.dies.ochre = .running ∧ leaseHeld s = true ∧ recordRole s = true ∧
   s.och.recs.slots.at o = .opened r u) ∧
  (∃ (s : State), s.dies.ochre ≠ .running) ∧
  (∃ (s : State) (o : OutletNo) (sid : BitVec 64), s.och.recs.resend.at o = some sid) ∧
  (∃ (s : State) (o : OutletNo), s.och.recs.resend.at o = none) ∧
  (∃ (s : State) (o : OutletNo) (r : SessionRecord) (u : Nat) (v : Nat), s.dies.ochre = .running ∧ roleNow s.modes ≠ .standby ∧
   s.och.recs.slots.at o = .stopped r u v) ∧
  (∃ (s : State) (o : OutletNo) (r : SessionRecord), s.dies.ochre = .running ∧ retainedRoom s = true ∧ firstWaiting s = some (o, r)) ∧
  (∃ (s : State) (c : Cmd) (op : BitVec 16), whitelistOps.contains op.toNat = true ∧ (findFetch op.toNat c s).isSome = true ∧ controlRuns s = true) :=
  ⟨⟨(let s := up; let s := { s with dies.ochre := .running }; let s := { s with och.set.roleNow.outlets := s.och.set.roleNow.outlets.put 0 (0x101) };
    let s := { s with och.set.userNow := s.och.set.userNow.each fun x => { x with fs := 1 } }; s), 0, by decide +kernel, by decide +kernel,
    by decide +kernel⟩,
   ⟨(let s := up; let s := { s with dies.ochre := .running }; s), 0, .outOfRange, by decide +kernel, by decide +kernel, by decide +kernel⟩,
   ⟨(let s := up; let s := { s with dies.ochre := .running }; let s := { s with och.recs.slots := s.och.recs.slots.put 0 (.opened record 0) }; s), 0,
    record, 0, by decide +kernel, by decide +kernel, by decide +kernel, by decide +kernel⟩,
   ⟨(let s := up; let s := { s with dies.ochre := .starting }; s), by decide +kernel⟩,
   ⟨(let s := up; let s := { s with och.recs.resend := s.och.recs.resend.put 0 (some (7)) }; s), 0, 7, by decide +kernel⟩,
   ⟨(let s := up; let s := { s with och.recs.resend := s.och.recs.resend.put 0 (none) }; s), 0, by decide +kernel⟩,
   ⟨(let s := up; let s := { s with dies.ochre := .running }; let s := { s with och.recs.slots := s.och.recs.slots.put 0 (.stopped record 0 0) }; s), 0,
    record, 0, 0, by decide +kernel, by decide +kernel, by decide +kernel⟩,
   ⟨(let s := up; let s := { s with dies.ochre := .running }; let s := { s with och.recs.slots := s.och.recs.slots.put 0 (.waiting record) }; s), 0,
    record, by decide +kernel, by decide +kernel, by decide +kernel⟩,
   ⟨(let s := up; let s := { s with mbx.fetched := [{ op := 0x0210, cmd := cmd 0xFFFF [], dropped := false }] }; s), cmd 0xFFFF [], 0x0210,
    by decide +kernel, by decide +kernel, by decide +kernel⟩⟩

theorem test_witness_DisplayComplete :
  (∃ (s : State), s.och.display.driven = true ∧ twisted s.och.display = true) ∧
  (∃ (s : State) (f : List Byte), s.och.display.driven = true ∧ s.dies.ochre = .running ∧ bistable s.och.display = true ∧ updateAllowed s = true ∧
   s.och.display.rows = none ∧ s.och.display.waiting = some f ∧ f ≠ s.och.display.journal.committed) ∧
  (∃ (s : State) (c : Nat) (l : List Nat), s.och.display.driven = true ∧ s.dies.ochre = .running ∧ s.och.display.rows = some (c :: l) ∧
   s.och.display.journal.state = 1) ∧
  (∃ (s : State) (c : Nat) (l : List Nat), s.och.display.driven = true ∧ s.dies.ochre = .running ∧ s.och.display.rows = some (c :: l) ∧
   s.och.display.journal.state = 3) ∧
  (∃ (s : State), s.och.display.driven = true ∧ s.dies.ochre = .running ∧ s.och.display.rows = some [] ∧ s.och.display.journal.state = 4 ∧
   s.och.display.pend = false) ∧
  (∃ (s : State), s.och.display.driven = true) :=
  ⟨⟨(let s := up; let s := { s with och.display.driven := true }; s), by decide +kernel, by decide +kernel⟩,
   ⟨(let s := up; let s := { s with och.display.driven := true }; let s := { s with dies.ochre := .running };
    let s := { s with och.display.rows := none }; let s := { s with och.display.waiting := some ([1]) };
    let s := { s with och.display.cfgNow := [w32 [(2, 30)], 0, 0] }; let s := { s with och.display.waiting := some [1] }; s), [1], by decide +kernel,
    by decide +kernel, by decide +kernel, by decide +kernel, by decide +kernel, by decide +kernel, by decide +kernel⟩,
   ⟨(let s := up; let s := { s with och.display.driven := true }; let s := { s with dies.ochre := .running };
    let s := { s with och.display.journal.state := 1 }; let s := { s with och.display.rows := some [0, 1] };
    let s := { s with och.display.journal.state := 1 }; s), 0, [1], by decide +kernel, by decide +kernel, by decide +kernel, by decide +kernel⟩,
   ⟨(let s := up; let s := { s with och.display.driven := true }; let s := { s with dies.ochre := .running };
    let s := { s with och.display.journal.state := 3 }; let s := { s with och.display.rows := some [0, 1] };
    let s := { s with och.display.journal.state := 3 }; s), 0, [1], by decide +kernel, by decide +kernel, by decide +kernel, by decide +kernel⟩,
   ⟨(let s := up; let s := { s with och.display.driven := true }; let s := { s with dies.ochre := .running };
    let s := { s with och.display.journal.state := 4 }; let s := { s with och.display.pend := false }; let s := { s with och.display.rows := some [] };
    s), by decide +kernel, by decide +kernel, by decide +kernel, by decide +kernel, by decide +kernel⟩,
   ⟨(let s := up; let s := { s with och.display.driven := true }; s), by decide +kernel⟩⟩

theorem test_witness_PilotAndSlacComplete :
  (∃ (s : State), s.dies.fescue = .running) ∧
  (∃ (s : State) (o : OutletNo) (c : PilotClass), s.dies.fescue = .running ∧ ((s.veh.pilot.at o).drive = 1 ∨ (s.veh.pilot.at o).drive = 2) ∧
   filterDone (s.veh.pilot.at o) c = true ∧ (s.veh.pilot.at o).state ≠ stateOf c) ∧
  (∃ (s : State) (o : OutletNo) (c : PilotClass), s.dies.fescue = .running ∧ ((s.veh.pilot.at o).drive = 1 ∨ (s.veh.pilot.at o).drive = 2) ∧
   filterDone (s.veh.pilot.at o) c = true ∧ (s.veh.pilot.at o).state = stateOf c) ∧
  (∃ (s : State) (o : OutletNo) (reads : List ProxRead) (code : Nat), s.dies.fescue = .running ∧
   proxAgreed (wBit (linkWord s o) 15) (reads.filter fun r => !proxDiscarded s r) = some code ∧ (s.veh.pilot.at o).prox.toNat ≠ code) ∧
  (∃ (s : State) (o : OutletNo), s.dies.fescue = .running ∧ (s.veh.pilot.at o).withdrawn = true ∧ (s.rus.pair.at (coilOf o)).cmd = true) ∧
  (∃ (s : State) (o : OutletNo) (run : BitVec 64), s.dies.fescue = .running ∧ candidate s o = true ∧ slacRun s run = none) ∧
  (∃ (s : State) (o : OutletNo), s.dies.fescue = .running ∧ candidate s o = false) ∧
  (∃ (s : State) (run : BitVec 64) (r : SlacRun), s.dies.fescue = .running ∧ slacRun s run = some r) ∧
  (∃ (s : State) (o : OutletNo) (run : BitVec 64) (nmk : BitVec 128) (mac : BitVec 48), s.dies.fescue = .running ∧
   s.veh.slac.answering.at o = some (run, mac) ∧ keyTaken s o nmk = false ∧ leaseHeld s = true) ∧
  (∃ (s : State) (o : OutletNo), s.dies.fescue = .running ∧ candidate s o = true ∧ (s.veh.pilot.at o).state = .B ∧ isDc s o = true) ∧
  (∃ (s : State) (o : OutletNo), s.dies.fescue = .running ∧ candidate s o = true ∧ (s.veh.pilot.at o).state = .B ∧ isDc s o = false) ∧
  (∃ (s : State) (o : OutletNo), s.dies.fescue = .running ∧ (s.veh.pilot.at o).dcRestart = true) :=
  ⟨⟨(let s := up; let s := { s with dies.fescue := .running }; s), by decide +kernel⟩,
   ⟨(let s := up; let s := { s with dies.fescue := .running }; let s := { s with veh.pilot := s.veh.pilot.upd 0 fun x3 => { x3 with drive := 1 } };
    let s := { s with veh.pilot := s.veh.pilot.upd 0 fun x3 => { x3 with cls := some .B } };
    let s := { s with veh.pilot := s.veh.pilot.upd 0 fun x3 => { x3 with held := 100 } }; s), 0, .B, by decide +kernel, by decide +kernel,
    by decide +kernel, by decide +kernel⟩,
   ⟨(let s := up; let s := { s with dies.fescue := .running }; let s := { s with veh.pilot := s.veh.pilot.upd 0 fun x3 => { x3 with drive := 1 } };
    let s := { s with veh.pilot := s.veh.pilot.upd 0 fun x3 => { x3 with cls := some .A } };
    let s := { s with veh.pilot := s.veh.pilot.upd 0 fun x3 => { x3 with held := 100 } };
    let s := { s with veh.pilot := s.veh.pilot.upd 0 fun x3 => { x3 with state := .A } }; s), 0, .A, by decide +kernel, by decide +kernel,
    by decide +kernel, by decide +kernel⟩,
   ⟨(let s := up; let s := { s with dies.fescue := .running }; let s := { s with veh.pilot := s.veh.pilot.upd 0 fun x3 => { x3 with prox := 1 } }; s),
    0, List.replicate 10 { ohms := some 100, before := 0 }, 4, by decide +kernel, by decide +kernel, by decide +kernel⟩,
   ⟨(let s := up; let s := { s with dies.fescue := .running };
    let s := { s with veh.pilot := s.veh.pilot.upd 0 fun x3 => { x3 with withdrawn := true } };
    let s := { s with rus.pair := s.rus.pair.upd (coilOf 0) fun x3 => { x3 with cmd := true } }; s), 0, by decide +kernel, by decide +kernel,
    by decide +kernel⟩,
   ⟨(let s := up; let s := { s with dies.fescue := .running }; let s := { s with veh.pilot := s.veh.pilot.upd 0 fun x3 => { x3 with drive := 2 } };
    let s := { s with veh.pilot := s.veh.pilot.upd 0 fun x3 => { x3 with duty := 100 } };
    let s := { s with veh.pilot := s.veh.pilot.upd 0 fun x3 => { x3 with state := .B } }; s), 0, 0, by decide +kernel, by decide +kernel,
    by decide +kernel⟩,
   ⟨(let s := up; let s := { s with dies.fescue := .running }; s), 0, by decide +kernel, by decide +kernel⟩,
   ⟨(let s := up; let s := { s with dies.fescue := .running }; let s := { s with veh.slac.runs := [{ run := 9, mac := 1, profiles := [] }] }; s), 9,
    { run := 9, mac := 1, profiles := [] }, by decide +kernel, by decide +kernel⟩,
   ⟨(let s := up; let s := { s with dies.fescue := .running }; let s := { s with veh.slac.answering := s.veh.slac.answering.put 0 (some (9, 7)) }; s),
    0, 9, 0, 7, by decide +kernel, by decide +kernel, by decide +kernel, by decide +kernel⟩,
   ⟨(let s := up; let s := { s with dies.fescue := .running }; let s := { s with veh.pilot := s.veh.pilot.upd 0 fun x3 => { x3 with state := .B } };
    let s := { s with och.set.roleNow.outlets := s.och.set.roleNow.outlets.put 0 (3) };
    let s := { s with veh.pilot := s.veh.pilot.upd 0 fun x3 => { x3 with drive := 2 } };
    let s := { s with veh.pilot := s.veh.pilot.upd 0 fun x3 => { x3 with duty := 100 } }; s), 0, by decide +kernel, by decide +kernel, by decide +kernel,
    by decide +kernel⟩,
   ⟨(let s := up; let s := { s with dies.fescue := .running }; let s := { s with veh.pilot := s.veh.pilot.upd 0 fun x3 => { x3 with state := .B } };
    let s := { s with veh.pilot := s.veh.pilot.upd 0 fun x3 => { x3 with drive := 2 } };
    let s := { s with veh.pilot := s.veh.pilot.upd 0 fun x3 => { x3 with duty := 100 } }; s), 0, by decide +kernel, by decide +kernel, by decide +kernel,
    by decide +kernel⟩,
   ⟨(let s := up; let s := { s with dies.fescue := .running };
    let s := { s with veh.pilot := s.veh.pilot.upd 0 fun x3 => { x3 with dcRestart := true } }; s), 0, by decide +kernel, by decide +kernel⟩⟩

theorem test_witness_V2gSetupComplete :
  (∃ (s : State) (o : OutletNo) (l : List Proto) (p : Proto), V2gServed s o [0] [2] ∧ chosenProto s o l = some p) ∧
  (∃ (s : State) (o : OutletNo), V2gServed s o [1, 2, 3] [2]) ∧
  (∃ (s : State) (o : OutletNo), V2gServed s o [1, 2, 3] [2, 3]) ∧
  (∃ (s : State) (o : OutletNo) (v : V2gService), V2gServed s o [2, 3] [2, 3] ∧ offersService s o v = true) ∧
  (∃ (s : State) (o : OutletNo) (v : V2gService) (c : Bool), V2gServed s o [1, 2, 3] [2, 3] ∧ offersService s o v = true ∧ (c = true →
   offersContract s o = true)) ∧
  (∃ (s : State) (o : OutletNo), V2gServed s o [2] [2] ∧ (s.veh.session.at o).contract = true ∧ offersContract s o = true ∧ (verifyRoot [5,
   6] s).1 = true) ∧
  (∃ (s : State) (o : OutletNo), V2gServed s o [3] [2]) ∧
  (∃ (s : State) (o : OutletNo), V2gServed s o [1, 2, 3] [3] ∧ transferOk s o = true) ∧
  (∃ (s : State) (o : OutletNo), V2gServed s o [1] [2] ∧ transferOk s o = true ∧ s.veh.grant.at o = none) ∧
  (∃ (s : State) (o : OutletNo), V2gServed s o [1, 2, 3] [4, 6] ∧ (s.veh.session.at o).accepted = true ∧ transferOk s o = true ∧ (isDc s o = false ∨
   ratedAmps s o ≠ 0) ∧ s.veh.ha.at o = false) ∧
  (∃ (s : State) (o : OutletNo), V2gServed s o [3] [4, 6] ∧ s.veh.ha.at o = false) ∧
  (∃ (s : State) (o : OutletNo), V2gServed s o [2, 3] [2, 3] ∧ (s.veh.session.at o).cert = none ∧ (verifyRoot [7] s).1 = true) ∧
  (∃ (s : State) (o : OutletNo), V2gServed s o [2] [2, 3] ∧ (s.veh.session.at o).cert = none ∧ (verifyRoot [7] s).1 = true) ∧
  (leafCarries (readChain 1 (v2g 0 2)) 1 = true → ∃ (s : State) (o : OutletNo) (f : TlsOffer) (v : Nat) (x : CipherSuite), v2gRuns s o = true ∧
   sessionPhase s o = 2 ∧ tlsVersion s o f = some v ∧ tlsSuite v f = some x ∧ leafCarries (readChain (tlsKey v) s) (tlsKey v) = true ∧
   (useMapped (s.veh.keyMap.at (Fin.ofNat 8 (tlsKey v).val)) 1 31 (readChain (tlsKey v) s)).1 = true) ∧
  (∃ (s : State) (o : OutletNo) (f : TlsOffer), v2gRuns s o = true ∧ sessionPhase s o = 2 ∧ tlsVersion s o f = none) ∧
  (∃ (s : State) (o : OutletNo), v2gRuns s o = true) ∧
  (∃ (s : State) (o : OutletNo), v2gRuns s o = true ∧ sessionPhase s o ≠ 2) :=
  ⟨⟨v2g 0 2, 0, [.iso20, .din], .iso20, by unfold V2gServed; decide +kernel, by decide +kernel⟩,
   ⟨v2g 3 2, 0, by unfold V2gServed; decide +kernel⟩,
   ⟨v2g 3 3, 0, by unfold V2gServed; decide +kernel⟩,
   ⟨v2g 3 2, 0, .ac, by unfold V2gServed; decide +kernel, by decide +kernel⟩,
   ⟨v2g 3 2, 0, .ac, true, by unfold V2gServed; decide +kernel, by decide +kernel, by decide +kernel⟩,
   ⟨(let s := v2g 2 2; let s := { s with veh.session := s.veh.session.upd 0 fun x3 => { x3 with contract := true } }; s), 0,
    by unfold V2gServed; decide +kernel, by decide +kernel, by decide +kernel, by decide +kernel⟩,
   ⟨v2g 3 2, 0, by unfold V2gServed; decide +kernel⟩,
   ⟨v2g 3 3, 0, by unfold V2gServed; decide +kernel, by decide +kernel⟩,
   ⟨v2gDc 1 2, 0, by unfold V2gServed; decide +kernel, by decide +kernel, by decide +kernel⟩,
   ⟨(let s := v2g 3 4; let s := { s with veh.session := s.veh.session.upd 0 fun x3 => { x3 with accepted := true } }; s), 0,
    by unfold V2gServed; decide +kernel, by decide +kernel, by decide +kernel, by decide +kernel, by decide +kernel⟩,
   ⟨v2g 3 6, 0, by unfold V2gServed; decide +kernel, by decide +kernel⟩,
   ⟨v2g 3 2, 0, by unfold V2gServed; decide +kernel, by decide +kernel, by decide +kernel⟩,
   ⟨v2g 2 3, 0, by unfold V2gServed; decide +kernel, by decide +kernel, by decide +kernel⟩,
   fun h => ⟨v2g 0 2, 0, { tls13 := true, suites := [.aes128Gcm], p256 := true, p384 := false }, 3, .aes128Gcm, by decide +kernel, by decide +kernel,
    by decide +kernel, by decide +kernel, h, by decide +kernel⟩,
   ⟨v2g 1 2, 0, { tls13 := false, suites := [.ecdheAes128Cbc], p256 := true, p384 := false }, by decide +kernel, by decide +kernel, by decide +kernel⟩,
   ⟨v2g 1 2, 0, by decide +kernel⟩,
   ⟨v2g 1 6, 0, by decide +kernel, by decide +kernel⟩⟩

theorem test_witness_V2gRunComplete :
  (∃ (s : State) (o : OutletNo), V2gServed s o [1, 2, 3] [4] ∧ isDc s o = true ∧ vehicleReady s o = true) ∧
  (∃ (s : State) (o : OutletNo), V2gServed s o [1, 2, 3] [5] ∧ isDc s o = true) ∧
  (∃ (s : State) (o : OutletNo), V2gServed s o [1, 2, 3] [5] ∧ isDc s o = true ∧ pairOn s o = true) ∧
  (∃ (s : State) (o : OutletNo), V2gServed s o [1, 2, 3] [if isDc s o then 5 else 4]) ∧
  (∃ (s : State) (o : OutletNo), V2gServed s o [1, 2, 3] [4, 5, 6, 7]) ∧
  (∃ (s : State) (o : OutletNo), V2gServed s o [2, 3] [6] ∧ s.veh.ha.at o = false) ∧
  (∃ (s : State) (o : OutletNo) (i : Instr) (c : Nat), ((i = .v2gCurrentDemand o c ∧ V2gServed s o [1, 2] [6] ∧ isDc s o = true) ∨
   (i = .v2gChargingStatus o ∧ c = (s.veh.session.at o).agreed ∧ V2gServed s o [2] [6] ∧ isDc s o = false) ∨ (i = .v2gAcChargeLoop o c ∧
   V2gServed s o [3] [6] ∧ isDc s o = false) ∨ (i = .v2gDcChargeLoop o c ∧ V2gServed s o [3] [6] ∧ isDc s o = true))) ∧
  (∃ (s : State) (o : OutletNo), V2gServed s o [2, 3] [6, 7]) ∧
  (∃ (s : State) (o : OutletNo), V2gServed s o [1, 2, 3] [7] ∧ isDc s o = true) ∧
  (∃ (s : State) (o : OutletNo), V2gServed s o [2, 3] [2, 3, 4, 5, 6, 7, 8]) ∧
  (∃ (s : State) (o : OutletNo), v2gRuns s o = true) ∧
  (∃ (s : State) (o : OutletNo) (id : Word) (k : Nat), controlRuns s = true ∧ (s.veh.session.at o).cert = some (id, k)) ∧
  (∃ (s : State) (o : OutletNo) (kind : PolicyKind) (r : PolicyRequest), controlRuns s = true ∧
   s.veh.policies.find? (fun r => r.outlet == o && r.kind == policyCode kind) = some r) ∧
  (∃ (s : State) (k : CoreNo), controlRuns s = true ∧ (s.veh.core.at k).silent = false ∧ (s.veh.core.at k).retired = false) ∧
  (∃ (s : State) (k : CoreNo), controlRuns s = true ∧ testedCore s = some k) ∧
  (∃ (s : State) (o : OutletNo), s.dies.fescue = .running ∧ (s.veh.session.at o).held = true ∧ isDc s o = true ∧ (s.veh.session.at o).phase = 6) ∧
  (∃ (s : State) (o : OutletNo), sessionPhase s o ≠ 0 ∧ sessionPhase s o ≠ 9) :=
  ⟨⟨(let s := v2gDc 3 4; let s := { s with veh.pilot := s.veh.pilot.upd 0 fun x3 => { x3 with state := .C } }; s), 0,
    by unfold V2gServed; decide +kernel, by decide +kernel, by decide +kernel⟩,
   ⟨v2gDc 3 5, 0, by unfold V2gServed; decide +kernel, by decide +kernel⟩,
   ⟨(let s := v2gDc 3 5; let s := { s with rus.pair := s.rus.pair.upd 0 fun x3 => { x3 with cmd := true } }; s), 0, by unfold V2gServed; decide +kernel,
    by decide +kernel, by decide +kernel⟩,
   ⟨v2gDc 3 5, 0, by unfold V2gServed; decide +kernel⟩,
   ⟨v2g 3 7, 0, by unfold V2gServed; decide +kernel⟩,
   ⟨v2g 3 6, 0, by unfold V2gServed; decide +kernel, by decide +kernel⟩,
   ⟨v2gDc 3 6, 0, .v2gDcChargeLoop 0 0, 0, by unfold V2gServed; decide +kernel⟩,
   ⟨v2g 2 7, 0, by unfold V2gServed; decide +kernel⟩,
   ⟨v2gDc 1 7, 0, by unfold V2gServed; decide +kernel, by decide +kernel⟩,
   ⟨v2g 3 8, 0, by unfold V2gServed; decide +kernel⟩,
   ⟨v2g 1 8, 0, by decide +kernel⟩,
   ⟨(let s := up; let s := { s with veh.session := s.veh.session.upd 0 fun x3 => { x3 with cert := some (3, 1) } }; s), 0, 3, 1, by decide +kernel,
    by decide +kernel⟩,
   ⟨(let s := up; let s := { s with veh.policies := [policy] }; s), 0, .limits, policy, by decide +kernel, by decide +kernel⟩,
   ⟨(let s := up; let s := { s with veh.core := s.veh.core.upd 0 fun x3 => { x3 with silent := false } };
    let s := { s with veh.core := s.veh.core.upd 0 fun x3 => { x3 with retired := false } }; s), 0, by decide +kernel, by decide +kernel,
    by decide +kernel⟩,
   ⟨(let s := up; let s := { s with veh.core := s.veh.core.upd 0 fun x3 => { x3 with silent := true } }; s), 0, by decide +kernel, by decide +kernel⟩,
   ⟨(let s := up; let s := { s with dies.fescue := .running };
    let s := { s with veh.session := s.veh.session.upd 0 fun x3 => { x3 with held := true } };
    let s := { s with och.set.roleNow.outlets := s.och.set.roleNow.outlets.put 0 (3) };
    let s := { s with veh.session := s.veh.session.upd 0 fun x3 => { x3 with phase := 6 } }; s), 0, by decide +kernel, by decide +kernel,
    by decide +kernel, by decide +kernel⟩,
   ⟨v2g 1 2, 0, by decide +kernel, by decide +kernel⟩⟩

theorem test_witness_SpeltComplete :
  (∃ (s : State), s.dies.spelt = .running) ∧
  (∃ (s : State) (k : ChanNo) (i : Instr) (p : Protection) (tj : Int) (sub : Int), s.dies.spelt = .running ∧ (s.spe.chan.at k).prot = .none ∧
   (s.spe.chan.at k).demand = true ∧ ((i = .thermalShutdown k tj ∧ 175 ≤ tj ∧ p = .thermal) ∨ (i = .differenceLimit k tj sub ∧
   differenceMax (s.spe.chan.at k) < tj - sub ∧ tj < 175 ∧ p = .difference))) ∧
  (∃ (s : State) (k : ChanNo) (tj : Int) (sub : Int), s.dies.spelt = .running ∧ cooled (s.spe.chan.at k) tj sub = true ∧
   (s.spe.chan.at k).demand = true ∧ pulseActive s (s.spe.chan.at k) = true) ∧
  (∃ (s : State), s.dies.spelt = .running) ∧
  (∃ (s : State), s.dies.spelt = .running ∧ controlRuns s = true) ∧
  (∃ (s : State), s.dies.spelt = .running) ∧
  (∃ (s : State) (k : ChanNo), s.dies.spelt = .running ∧ rawDemand s.spe.cond (s.spe.chan.at k).rule.now ≠ (s.spe.chan.at k).ruleOut ∧
   ruleDelay (s.spe.chan.at k).rule.now (rawDemand s.spe.cond (s.spe.chan.at k).rule.now) ≤ (s.spe.chan.at k).against) ∧
  (∃ (s : State) (k : ChanNo) (xs : List Nat), s.dies.spelt = .running ∧ (s.spe.chan.at k).output = true ∧ (s.spe.chan.at k).iLimit = false ∧
   wFld (s.spe.chan.at k).cfg1.now 22 5 ≠ 0 ∧ xs ≠ []) ∧
  (∃ (s : State) (x : OffCheck), s.dies.spelt = .running ∧ (s.spe.chan.at x.chan).demand = false) ∧
  (∃ (s : State) (k : ChanNo), s.dies.spelt = .running ∧ 10 ≤ s.spe.overTicks ∧ shedNext s = some k) ∧
  (∃ (s : State) (k : ChanNo), s.dies.spelt = .running ∧ 1000 ≤ s.spe.restoreTicks ∧ restoreNext s = some k) ∧
  (∃ (s : State), s.dies.spelt = .running ∧ controlRuns s = true ∧ s.spe.absent = false) :=
  ⟨⟨(let s := up; let s := { s with dies.spelt := .running }; s), by decide +kernel⟩,
   ⟨(let s := up; let s := { s with dies.spelt := .running }; let s := { s with spe.chan := s.spe.chan.upd 0 fun x3 => { x3 with prot := .none } };
    let s := { s with spe.chan := s.spe.chan.upd 0 fun x3 => { x3 with demand := true } }; s), 0, .differenceLimit 0 174 (-100), .difference, 174, -100,
    by decide +kernel, by decide +kernel, by decide +kernel, by decide +kernel⟩,
   ⟨(let s := up; let s := { s with dies.spelt := .running }; let s := { s with spe.chan := s.spe.chan.upd 0 fun x3 => { x3 with demand := true } };
    let s := { s with spe.chan := s.spe.chan.upd 0 fun x3 => { x3 with prot := .thermal } }; s), 0, 0, 0, by decide +kernel, by decide +kernel,
    by decide +kernel, by decide +kernel⟩,
   ⟨(let s := up; let s := { s with dies.spelt := .running }; s), by decide +kernel⟩,
   ⟨(let s := up; let s := { s with dies.spelt := .running }; s), by decide +kernel, by decide +kernel⟩,
   ⟨(let s := up; let s := { s with dies.spelt := .running }; s), by decide +kernel⟩,
   ⟨(let s := up; let s := { s with dies.spelt := .running };
    let s := { s with spe.chan := s.spe.chan.upd 0 fun x3 => { x3 with rule := .settled (w32 [(1, 28)]) } }; s), 0, by decide +kernel, by decide +kernel,
    by decide +kernel⟩,
   ⟨(let s := up; let s := { s with dies.spelt := .running }; let s := { s with spe.chan := s.spe.chan.upd 0 fun x3 => { x3 with output := true } };
    let s := { s with spe.chan := s.spe.chan.upd 0 fun x3 => { x3 with iLimit := false } }; s), 0, [1], by decide +kernel, by decide +kernel,
    by decide +kernel, by decide +kernel, by decide +kernel⟩,
   ⟨(let s := up; let s := { s with dies.spelt := .running }; s), { chan := 47, out := 0, vin := 0, sourced := 0 }, by decide +kernel, by decide +kernel⟩,
   ⟨(let s := up; let s := { s with dies.spelt := .running }; let s := { s with spe.overTicks := 10 };
    let s := { s with spe.chan := s.spe.chan.upd 47 fun x3 => { x3 with demand := true } }; s), 47, by decide +kernel, by decide +kernel,
    by decide +kernel⟩,
   ⟨(let s := up; let s := { s with dies.spelt := .running }; let s := { s with spe.restoreTicks := 1000 };
    let s := { s with spe.chan := s.spe.chan.upd 3 fun x3 => { x3 with shed := true } }; s), 3, by decide +kernel, by decide +kernel, by decide +kernel⟩,
   ⟨(let s := up; let s := { s with dies.spelt := .running }; let s := { s with spe.absent := false }; s), by decide +kernel, by decide +kernel,
    by decide +kernel⟩⟩

theorem test_witness_SiteLineComplete :
  (∃ (s : State), s.dies.fescue = .running ∧ slRole s = 1 ∧ (s.site.word.commit).now = s.site.word.now) ∧
  (∃ (s : State) (b : List Byte), s.dies.fescue = .running ∧ slRole s = 2 ∧ b.length = 6 ∧ leAt b 4 2 = crc16 (b.take 4) ∧
   byteAt b 0 = wFld s.site.word.now 8 8) ∧
  (∃ (s : State), s.dies.fescue = .running ∧ slRole s = 2) ∧
  (∃ (s : State), s.dies.fescue = .running ∧ slRole s = 2 ∧ s.site.joined = false) ∧
  (∃ (s : State) (l : LinkNo) (b : SlBurst) (f : SlFrame), s.dies.fescue = .running ∧ readFrame b = some f ∧ slRole s ≠ 0 ∧ macHosted s = false ∧
   frameShape f = true ∧ byteAt f 2 = 0 ∧ byteAt f 0 ≠ 0xFF ∧ (s.site.link.at l).lastSeq ≠ some (f.getD 3 0) ∧ (s.site.link.at l).rxq.length < 8) ∧
  (∃ (s : State) (l : LinkNo) (b : SlBurst) (f : SlFrame), s.dies.fescue = .running ∧ readFrame b = some f ∧ slRole s ≠ 0 ∧ macHosted s = false ∧
   frameShape f = true ∧ byteAt f 0 ≠ 0xFF ∧ (s.site.link.at l).lastSeq = some (f.getD 3 0)) ∧
  (∃ (s : State) (b : SlBurst), s.dies.fescue = .running ∧ readFrame b = none ∧ slRole s ≠ 0) ∧
  (∃ (s : State) (l : LinkNo) (f : SlFrame), s.dies.fescue = .running ∧ slRole s ≠ 0 ∧ macHosted s = false ∧ (s.site.link.at l).unacked = some f ∧
   (s.site.link.at l).left = 0 ∧ ackTo (s.site.link.at l) ≤ (s.site.link.at l).waited) ∧
  (∃ (s : State), s.dies.fescue = .running ∧ slRole s = 1 ∧ macHosted s = true) ∧
  (∃ (s : State) (l : LinkNo), s.dies.fescue = .running ∧ slRole s = 1 ∧ (s.site.link.at l).mapAcked = false) ∧
  (∃ (s : State) (l : LinkNo) (m : List Byte), s.dies.fescue = .running ∧ slRole s ≠ 0 ∧ (s.site.link.at l).newMaps = some m ∧
   (s.site.link.at l).mapAcked = true) ∧
  (∃ (s : State) (id : BitVec 64), s.dies.fescue = .running ∧ slRole s = 1 ∧ linkOf s id = none) ∧
  (∃ (s : State) (id : BitVec 64) (l : LinkNo), s.dies.fescue = .running ∧ slRole s = 1 ∧ linkOf s id = some l ∧ macHosted s = false ∧
   wBit s.site.word.now 7 = true) ∧
  (∃ (s : State) (u : ToneUnitNo), s.dies.fescue = .running ∧ slRole s ≠ 0 ∧ (s.site.unit.at u).failed = false ∧ (s.site.unit.at u).tone = none) ∧
  (∃ (s : State), s.dies.fescue = .running ∧ slRole s ≠ 0 ∧ holds s 83 moduleIndex = false) ∧
  (∃ (s : State), s.dies.fescue = .running ∧ slRole s ≠ 0) ∧
  (∃ (s : State), s.dies.fescue = .running ∧ slRole s ≠ 0 ∧ wBit s.site.word.now 17 = true) :=
  ⟨⟨(let s := up; let s := { s with dies.fescue := .running }; let s := { s with site.word := .settled (w32 [(1, 30), (7, 18), (1, 16), (1, 8)]) }; s),
    by decide +kernel, by decide +kernel, by decide +kernel⟩,
   ⟨(let s := up; let s := { s with dies.fescue := .running }; let s := { s with site.word := .settled (w32 [(2, 30), (7, 18), (1, 16), (1, 8)]) }; s),
    [1, 0, 0, 0] ++ leBytes 2 (crc16 [1, 0, 0, 0]), by decide +kernel, by decide +kernel, by decide +kernel, by decide +kernel, by decide +kernel⟩,
   ⟨(let s := up; let s := { s with dies.fescue := .running }; let s := { s with site.word := .settled (w32 [(2, 30), (7, 18), (1, 16), (1, 8)]) }; s),
    by decide +kernel, by decide +kernel⟩,
   ⟨(let s := up; let s := { s with dies.fescue := .running }; let s := { s with site.word := .settled (w32 [(2, 30), (7, 18), (1, 16), (1, 8)]) };
    let s := { s with site.joined := false }; s), by decide +kernel, by decide +kernel, by decide +kernel⟩,
   ⟨(let s := up; let s := { s with dies.fescue := .running }; let s := { s with site.word := .settled (w32 [(1, 30), (7, 18), (1, 16), (1, 8)]) };
    let s := { s with site.link := s.site.link.upd 0 fun x3 => { x3 with lastSeq := none } }; s), 0, burst frame, frame, by decide +kernel,
    by decide +kernel, by decide +kernel, by decide +kernel, by decide +kernel, by decide +kernel, by decide +kernel, by decide +kernel,
    by decide +kernel⟩,
   ⟨(let s := up; let s := { s with dies.fescue := .running }; let s := { s with site.word := .settled (w32 [(1, 30), (7, 18), (1, 16), (1, 8)]) };
    let s := { s with site.link := s.site.link.upd 0 fun x3 => { x3 with lastSeq := some 0 } }; s), 0, burst frame, frame, by decide +kernel,
    by decide +kernel, by decide +kernel, by decide +kernel, by decide +kernel, by decide +kernel, by decide +kernel⟩,
   ⟨(let s := up; let s := { s with dies.fescue := .running }; let s := { s with site.word := .settled (w32 [(1, 30), (7, 18), (1, 16), (1, 8)]) }; s),
    { wide := [], symbols := [] }, by decide +kernel, by decide +kernel, by decide +kernel⟩,
   ⟨(let s := up; let s := { s with dies.fescue := .running }; let s := { s with site.word := .settled (w32 [(1, 30), (7, 18), (1, 16), (1, 8)]) };
    let s := { s with site.link := s.site.link.upd 0 fun x3 => { x3 with unacked := some (frame) } };
    let s := { s with site.link := s.site.link.upd 0 fun x3 => { x3 with left := 0 } };
    let s := { s with site.link := s.site.link.upd 0 fun x3 => { x3 with waited := 15 } }; s), 0, frame, by decide +kernel, by decide +kernel,
    by decide +kernel, by decide +kernel, by decide +kernel, by decide +kernel⟩,
   ⟨(let s := up; let s := { s with dies.fescue := .running }; let s := { s with site.word := .settled (w32 [(1, 30), (7, 18), (1, 16), (1, 8)]) };
    let s := { s with site.word := .settled (w32 [(1, 30), (1, 17), (7, 18), (1, 8)]) }; s), by decide +kernel, by decide +kernel, by decide +kernel⟩,
   ⟨(let s := up; let s := { s with dies.fescue := .running }; let s := { s with site.word := .settled (w32 [(1, 30), (7, 18), (1, 16), (1, 8)]) };
    let s := { s with site.link := s.site.link.upd 0 fun x3 => { x3 with mapAcked := false } }; s), 0, by decide +kernel, by decide +kernel,
    by decide +kernel⟩,
   ⟨(let s := up; let s := { s with dies.fescue := .running }; let s := { s with site.word := .settled (w32 [(1, 30), (7, 18), (1, 16), (1, 8)]) };
    let s := { s with site.link := s.site.link.upd 0 fun x3 => { x3 with newMaps := some ([]) } };
    let s := { s with site.link := s.site.link.upd 0 fun x3 => { x3 with mapAcked := true } }; s), 0, [], by decide +kernel, by decide +kernel,
    by decide +kernel, by decide +kernel⟩,
   ⟨(let s := up; let s := { s with dies.fescue := .running }; let s := { s with site.word := .settled (w32 [(1, 30), (7, 18), (1, 16), (1, 8)]) }; s),
    9, by decide +kernel, by decide +kernel, by decide +kernel⟩,
   ⟨(let s := up; let s := { s with dies.fescue := .running }; let s := { s with site.word := .settled (w32 [(1, 30), (7, 18), (1, 16), (1, 8)]) };
    let s := { s with site.word := .settled (w32 [(1, 30), (1, 7), (7, 18), (1, 16), (1, 8)]) };
    let s := { s with site.link := s.site.link.upd 0 fun x3 => { x3 with words := .settled [w32 [(1, 31), (2, 4), (4, 0)], 0, 0, 0, 0, 0, 0] } }; s), 0,
    0, by decide +kernel, by decide +kernel, by decide +kernel, by decide +kernel, by decide +kernel⟩,
   ⟨(let s := up; let s := { s with dies.fescue := .running }; let s := { s with site.word := .settled (w32 [(1, 30), (7, 18), (1, 16), (1, 8)]) };
    let s := { s with site.unit := s.site.unit.upd 0 fun x3 => { x3 with failed := false } };
    let s := { s with site.unit := s.site.unit.upd 0 fun x3 => { x3 with tone := none } }; s), 0, by decide +kernel, by decide +kernel,
    by decide +kernel, by decide +kernel⟩,
   ⟨(let s := up; let s := { s with dies.fescue := .running }; let s := { s with site.word := .settled (w32 [(1, 30), (7, 18), (1, 16), (1, 8)]) }; s),
    by decide +kernel, by decide +kernel, by decide +kernel⟩,
   ⟨(let s := up; let s := { s with dies.fescue := .running }; let s := { s with site.word := .settled (w32 [(1, 30), (7, 18), (1, 16), (1, 8)]) }; s),
    by decide +kernel, by decide +kernel⟩,
   ⟨(let s := up; let s := { s with dies.fescue := .running }; let s := { s with site.word := .settled (w32 [(1, 30), (7, 18), (1, 16), (1, 8)]) };
    let s := { s with site.word := .settled (w32 [(1, 30), (1, 17), (7, 18), (1, 16), (1, 8)]) }; s), by decide +kernel, by decide +kernel,
    by decide +kernel⟩⟩

theorem test_witness_ReadersComplete :
  (∃ (s : State) (a : AerialNo), readersRun s = true ∧ wBit (s.rdr.aerial.at a).word 31 = true ∧ (s.rdr.aerial.at a).state ≠ .polling) ∧
  (∃ (s : State) (a : AerialNo), (s.rdr.aerial.at a).state = .polling) ∧
  (∃ (s : State) (o : OutletNo) (r : PolicyRequest), controlRuns s = true ∧ s.veh.policies.find? (fun r => r.outlet == o && r.kind == 0) = some r) :=
  ⟨⟨(let s := up; let s := { s with rdr.aerial := s.rdr.aerial.upd 0 fun x3 => { x3 with word := w32 [(1, 31)] } }; s), 0, by decide +kernel,
    by decide +kernel, by decide +kernel⟩,
   ⟨(let s := up; let s := { s with rdr.aerial := s.rdr.aerial.upd 0 fun x3 => { x3 with state := .polling } }; s), 0, by decide +kernel⟩,
   ⟨(let s := up; let s := { s with veh.policies := [policy0] }; s), 0, policy0, by decide +kernel, by decide +kernel⟩⟩

theorem test_witness_TagComplete :
  (∃ (s : State), s.tag.state ≠ .killed ∧ s.tag.field = false) ∧
  (∃ (s : State) (v : InventoryReq), s.tag.field = true ∧ v.twoSub = false ∧ (s.tag.state = .ready ∨ s.tag.state = .selected) ∧
   Config.tagUid.toNat % 2 ^ v.maskLen = v.mask % 2 ^ v.maskLen ∧ (v.slots16 = true → Config.tagUid.toNat / 2 ^ v.maskLen % 16 = v.slot)) ∧
  (∃ (s : State) (r : TagReq), tagHears s.tag r = true ∧ addressedTo r = true) ∧
  (∃ (s : State) (r : TagReq), tagHears s.tag r = true) ∧
  (∃ (s : State) (r : TagReq), tagHears s.tag r = true) ∧
  (∃ (s : State) (r : TagReq), tagHears s.tag r = true) ∧
  (∃ (s : State) (r : TagReq), tagHears s.tag r = true) ∧
  (∃ (s : State) (r : TagReq) (b : Byte) (n : Nat), tagHears s.tag r = true ∧ b.toNat + n ≤ 256) ∧
  (∃ (s : State) (r : TagReq) (b : BitVec 16) (n : Nat), tagHears s.tag r = true ∧ b.toNat + n ≤ 2048) ∧
  (∃ (s : State) (r : TagReq), tagHears s.tag r = true) ∧
  (∃ (s : State) (r : TagReq) (b : BitVec 16), tagHears s.tag r = true ∧ 800 ≤ b.toNat ∧ b.toNat ≤ 2047) ∧
  (∃ (s : State) (r : TagReq), tagHears s.tag r = true) ∧
  (∃ (s : State) (r : TagReq), tagHears s.tag r = true) ∧
  (∃ (s : State) (r : TagReq), tagHears s.tag r = true ∧ r.mfr.toNat = Config.tagUid.toNat / 2 ^ 48 % 256) ∧
  (∃ (s : State) (r : TagReq), tagHears s.tag r = true ∧ r.mfr.toNat = Config.tagUid.toNat / 2 ^ 48 % 256 ∧ s.tag.failures.toNat < 8) ∧
  (∃ (s : State) (r : TagReq), s.tag.field = true ∧ r.twoSub = false ∧ s.tag.state ≠ .killed ∧ addressedTo r = true) ∧
  (∃ (s : State) (first : Nat) (count : Nat) (last : Nat), 1 ≤ count ∧ count ≤ 32 ∧ first + count - 1 ≤ last ∧ s.tag.bad = []) ∧
  (∃ (s : State) (n : SectorNo) (d : List Byte), s.dies.fescue = .running ∧ s.tag.staged = [(n, d, none)] ∧ s.tag.reads = []) ∧
  (∃ (s : State) (n : SectorNo) (c : Cmd), controlRuns s = true ∧ s.tag.staged = [] ∧ s.tag.reads = [(n, c)]) :=
  ⟨⟨(let s := up; let s := { s with tag.field := false }; let s := { s with tag.field := false }; s), by decide +kernel, by decide +kernel⟩,
   ⟨(let s := up; let s := { s with tag.field := true }; let s := { s with tag.field := true }; s),
    { slots16 := false, maskLen := 0, mask := 0, slot := 0, twoSub := false }, by decide +kernel, by decide +kernel, by decide +kernel,
    by simp [Nat.mod_one], by decide +kernel⟩,
   ⟨(let s := up; let s := { s with tag.field := true }; s), tagReq, by simp [tagHears, addressedTo, tagReq]; rfl, by simp [addressedTo, tagReq]⟩,
   ⟨(let s := up; let s := { s with tag.field := true }; s), tagAny, by decide +kernel⟩,
   ⟨(let s := up; let s := { s with tag.field := true }; s), tagAny, by decide +kernel⟩,
   ⟨(let s := up; let s := { s with tag.field := true }; s), tagAny, by decide +kernel⟩,
   ⟨(let s := up; let s := { s with tag.field := true }; s), tagAny, by decide +kernel⟩,
   ⟨(let s := up; let s := { s with tag.field := true }; s), tagAny, 255, 1, by decide +kernel, by decide +kernel⟩,
   ⟨(let s := up; let s := { s with tag.field := true }; s), tagAny, 2047, 1, by decide +kernel, by decide +kernel⟩,
   ⟨(let s := up; let s := { s with tag.field := true }; s), tagAny, by decide +kernel⟩,
   ⟨(let s := up; let s := { s with tag.field := true }; s), tagAny, 2047, by decide +kernel, by decide +kernel, by decide +kernel⟩,
   ⟨(let s := up; let s := { s with tag.field := true }; s), tagAny, by decide +kernel⟩,
   ⟨(let s := up; let s := { s with tag.field := true }; s), tagAny, by decide +kernel⟩,
   ⟨(let s := up; let s := { s with tag.field := true }; s), { tagAny with mfr := BitVec.ofNat 8 (Config.tagUid.toNat / 2 ^ 48) }, by decide +kernel,
    by simp⟩,
   ⟨(let s := up; let s := { s with tag.field := true }; s), { tagAny with mfr := BitVec.ofNat 8 (Config.tagUid.toNat / 2 ^ 48) }, by decide +kernel,
    by simp, by decide +kernel⟩,
   ⟨(let s := up; let s := { s with tag.field := true }; let s := { s with tag.field := true }; s), tagReq, by decide +kernel, by decide +kernel,
    by decide +kernel, by simp [addressedTo, tagReq]⟩,
   ⟨(let s := up; let s := { s with tag.bad := [] }; let s := { s with tag.field := true }; s), 0, 32, 31, by decide +kernel, by decide +kernel,
    by decide +kernel, by decide +kernel⟩,
   ⟨(let s := up; let s := { s with dies.fescue := .running }; let s := { s with tag.reads := [] }; let s := { s with tag.staged := [(0, [], none)] };
    s), 0, [], by decide +kernel, by decide +kernel, by decide +kernel⟩,
   ⟨(let s := up; let s := { s with tag.staged := [] }; let s := { s with tag.reads := [(0, cmd 0xFFFF [])] }; s), 0, cmd 0xFFFF [], by decide +kernel,
    by decide +kernel, by decide +kernel⟩⟩

theorem test_witness_RefusedCommandsAnswerTheirStatus :
  (∃ (s : State) (i : Instr) (op : Nat) (c : Cmd) (r : Reply), MailRow i op c ∧ Arrives op c s ∧ checks op c s = some r) ∧
  (∃ (s : State) (i : Instr) (op : Nat) (c : Cmd), MailRow i op c ∧ (s.mbx.ready = false ∨ controlRuns s = false)) :=
  ⟨⟨up, .echo (cmd 0 []), 0x0100, cmd 0 [], reply .badIndex 0, by constructor, by unfold Arrives; decide +kernel, by decide +kernel⟩,
   ⟨(let s := up; let s := { s with mbx.ready := false }; s), .echo (cmd 0 []), 0x0100, cmd 0 [], by constructor, by decide +kernel⟩⟩

theorem test_witness_SystemCommandsComplete :
  (∃ (s : State) (b : State) (c : Cmd), Accepted 0x0100 c s ∧ b = acting 0x0100 c s) ∧
  (∃ (s : State) (b : State) (c : Cmd), Accepted 0x0101 c s ∧ b = acting 0x0101 c s) ∧
  (∃ (s : State) (b : State) (c : Cmd), Accepted 0x0102 c s ∧ b = acting 0x0102 c s ∧ barsCommissioning b = false ∧ supervisionWaits b = false ∧
   allCoilsOff b = true) ∧
  (∃ (s : State) (b : State) (c : Cmd), Accepted 0x0103 c s ∧ b = acting 0x0103 c s) ∧
  (∃ (s : State) (b : State) (c : Cmd), Accepted 0x0104 c s ∧ b = acting 0x0104 c s ∧ byteAt (cmdFields 0x0104 c) 0 ≤ 4 ∧
   leAt (cmdFields 0x0104 c) 1 3 = 0) ∧
  (∃ (s : State) (b : State) (c : Cmd) (p : List Byte), Accepted 0x0105 c s ∧ b = acting 0x0105 c s ∧ p = cmdFields 0x0105 c ∧ byteAt p 0 ≤ 1 ∧
   byteAt p 1 < 4 ∧ leAt p 2 2 = 0 ∧ byteAt p 32 ≤ 128 ∧ leAt p 33 3 = 0) ∧
  (∃ (s : State) (b : State) (c : Cmd) (p : List Byte), Accepted 0x0106 c s ∧ b = acting 0x0106 c s ∧ p = cmdFields 0x0106 c ∧ byteAt p 0 ≤ 1 ∧
   byteAt p 1 = 0 ∧ slotFits b (leAt p 2 2) fitsServer = true ∧ slotFits b (leAt p 4 2) fitsRoot = true ∧ slotFits b (leAt p 6 2) fitsRoot = true) ∧
  (∃ (s : State) (b : State) (c : Cmd) (p : List Byte), Accepted 0x0107 c s ∧ b = acting 0x0107 c s ∧ p = cmdFields 0x0107 c ∧ byteAt p 0 ≤ 3 ∧
   leAt p 1 3 = 0 ∧ c.port ≠ 2) :=
  ⟨⟨up, _, cmd 0xFFFF (List.replicate 0 0), by unfold Accepted Arrives; decide +kernel, rfl⟩,
   ⟨up, _, cmd 0xFFFF (List.replicate 0 0), by unfold Accepted Arrives; decide +kernel, rfl⟩,
   ⟨up, _, cmd 0xFFFF (List.replicate 0 0), by unfold Accepted Arrives; decide +kernel, rfl, by decide +kernel, by decide +kernel, by decide +kernel⟩,
   ⟨(let s := up; let s := { s with modes.base := .commissioning }; let s := { s with modes.prior := .solo }; s), _, cmd 0xFFFF (List.replicate 0 0),
    by unfold Accepted Arrives; decide +kernel, rfl⟩,
   ⟨(let s := up; let s := { s with modes.base := .commissioning }; let s := { s with modes.prior := .solo }; s), _, cmd 0xFFFF (List.replicate 4 0),
    by unfold Accepted Arrives; decide +kernel, rfl, by decide +kernel, by decide +kernel⟩,
   ⟨(let s := up; let s := { s with modes.base := .commissioning }; let s := { s with modes.prior := .solo }; s), _, cmd 0xFFFF (List.replicate 36 0),
    _, by unfold Accepted Arrives; decide +kernel, rfl, rfl, by decide +kernel, by decide +kernel, by decide +kernel, by decide +kernel,
    by decide +kernel⟩,
   ⟨(let s := up; let s := { s with modes.base := .commissioning }; let s := { s with modes.prior := .solo };
    let s := { s with keys.slot := (s.keys.slot.put 16 hostRoot).put 20 hostKey }; s), _, cmd 0xFFFF ([0, 0, 20, 0, 16, 0, 16, 0]), _,
    by unfold Accepted Arrives; decide +kernel, rfl, rfl, by decide +kernel, by decide +kernel, by decide +kernel, by decide +kernel, by decide +kernel⟩,
   ⟨(let s := up; let s := { s with modes.base := .commissioning }; let s := { s with modes.prior := .solo }; s), _,
    { cmd 0xFFFF [3, 0, 0, 0] with port := 0 }, _, by unfold Accepted Arrives; decide +kernel, rfl, rfl, by decide +kernel, by decide +kernel,
    by decide +kernel⟩⟩

theorem test_witness_LoadCommandsComplete :
  (∃ (s : State) (b : State) (c : Cmd), Accepted 0x0600 c s ∧ b = acting 0x0600 c s ∧ speltRuns b = true) ∧
  (∃ (s : State) (b : State) (c : Cmd) (p : List Byte), Accepted 0x0601 c s ∧ b = acting 0x0601 c s ∧ p = cmdFields 0x0601 c ∧ speltRuns b = true ∧
   chanWord0Ok (BitVec.ofNat 32 (leAt p 0 4)) = true ∧ chanWord1Ok (BitVec.ofNat 32 (leAt p 4 4)) = true) ∧
  (∃ (s : State) (b : State) (c : Cmd) (p : List Byte), Accepted 0x0602 c s ∧ b = acting 0x0602 c s ∧ p = cmdFields 0x0602 c ∧ speltRuns b = true ∧
   wFld (BitVec.ofNat 32 (leAt p 0 4)) 4 28 = 0) ∧
  (∃ (s : State) (b : State) (c : Cmd) (p : List Byte), Accepted 0x0603 c s ∧ b = acting 0x0603 c s ∧ p = cmdFields 0x0603 c ∧ speltRuns b = true ∧
   ruleWordOk (BitVec.ofNat 32 (leAt p 0 4)) = true) ∧
  (∃ (s : State) (b : State) (c : Cmd) (p : List Byte) (m : BitVec 16) (v : BitVec 16), Accepted 0x0604 c s ∧ b = acting 0x0604 c s ∧
   p = cmdFields 0x0604 c ∧ m = BitVec.ofNat 16 (leAt p 0 2) ∧ v = BitVec.ofNat 16 (leAt p 2 2)) ∧
  (∃ (s : State) (b : State) (c : Cmd) (p : List Byte) (w : Word), Accepted 0x0605 c s ∧ b = acting 0x0605 c s ∧ p = cmdFields 0x0605 c ∧
   speltRuns b = true ∧ w = BitVec.ofNat 32 (leAt p 0 4) ∧ 2 ≤ wFld w 23 9 ∧ wFld w 23 9 ≤ 384 ∧ wFld w 0 23 = 0) ∧
  (∃ (s : State) (b : State) (c : Cmd), Accepted 0x0606 c s ∧ b = acting 0x0606 c s ∧ speltRuns b = true) :=
  ⟨⟨up, _, cmd 0 (List.replicate 0 0), by unfold Accepted Arrives; decide +kernel, rfl, by decide +kernel⟩,
   ⟨up, _, cmd 0 (leBytes 4 (w32 [(20, 26), (60, 19), (3, 15), (3, 11), (60, 3)]).toNat ++ [0, 0, 0, 0]), _, by unfold Accepted Arrives; decide +kernel,
    rfl, rfl, by decide +kernel, by decide +kernel, by decide +kernel⟩,
   ⟨up, _, cmd 0 (List.replicate 4 0), _, by unfold Accepted Arrives; decide +kernel, rfl, rfl, by decide +kernel, by decide +kernel⟩,
   ⟨up, _, cmd 0 (List.replicate 4 0), _, by unfold Accepted Arrives; decide +kernel, rfl, rfl, by decide +kernel, by decide +kernel⟩,
   ⟨up, _, cmd 0xFFFF (List.replicate 4 0), _, _, _, by unfold Accepted Arrives; decide +kernel, rfl, rfl, rfl, rfl⟩,
   ⟨up, _, cmd 0xFFFF (leBytes 4 (w32 [(384, 23)]).toNat), _, _, by unfold Accepted Arrives; decide +kernel, rfl, rfl, by decide +kernel, rfl,
    by decide +kernel, by decide +kernel, by decide +kernel⟩,
   ⟨up, _, cmd 0 (List.replicate 0 0), by unfold Accepted Arrives; decide +kernel, rfl, by decide +kernel⟩⟩

theorem test_witness_SiteCommandsComplete :
  (∃ (s : State) (b : State) (c : Cmd), s.dies.fescue = .running ∧ Accepted 0x0700 c s ∧ b = acting 0x0700 c s) ∧
  (∃ (s : State) (b : State) (c : Cmd) (p : List Byte) (w : Word), s.dies.fescue = .running ∧ Accepted 0x0701 c s ∧ b = acting 0x0701 c s ∧
   p = cmdFields 0x0701 c ∧ w = BitVec.ofNat 32 (leAt p 0 4) ∧ siteWordOk (hostSpoke b) w = true) ∧
  (∃ (s : State) (b : State) (c : Cmd) (p : List Byte) (ws : List Word), s.dies.fescue = .running ∧ Accepted 0x0702 c s ∧ b = acting 0x0702 c s ∧
   p = cmdFields 0x0702 c ∧ ws = wordsOf 7 p ∧ firstBad (linkChecks (hostSpoke b) (linkAt c.index.toNat) ws) = none) ∧
  (∃ (s : State) (b : State) (c : Cmd) (p : List Byte) (l : LinkNo) (u : State), s.dies.fescue = .running ∧ Accepted 0x0703 c s ∧
   b = acting 0x0703 c s ∧ p = cmdFields 0x0703 c ∧ byteAt p 0 ≤ 5 ∧ reserved3 p = true ∧ wBit b.site.word.now 17 = false ∧ c.index.toNat ≠ 0xFF ∧
   l = linkAt c.index.toNat ∧ (b.site.link.at l).txq.length < 8 ∧ u = queueFrame (newFrame (hostSpoke b) l (byteAt p 0) (p.drop 4)) l (hostSpoke b)) ∧
  (∃ (s : State) (b : State) (c : Cmd), s.dies.fescue = .running ∧ Accepted 0x0704 c s ∧ b = acting 0x0704 c s ∧ 256 ≤ outLength 0x0704 c) ∧
  (∃ (s : State) (b : State) (c : Cmd) (p : List Byte), s.dies.fescue = .running ∧ Accepted 0x0705 c s ∧ b = acting 0x0705 c s ∧
   p = cmdFields 0x0705 c ∧ leAt p 2 2 = 0 ∧ wBit b.site.word.now 17 = true) ∧
  (∃ (s : State) (b : State) (c : Cmd) (l : LinkNo) (f : SlFrame) (rest : List SlFrame), s.dies.fescue = .running ∧ c.index.toNat ≠ 0xFFFF ∧
   l = linkAt c.index.toNat ∧ (b.site.link.at l).rxq = f :: rest) :=
  ⟨⟨(let s := up; let s := { s with dies.fescue := .running }; s), _, cmd 1 (List.replicate 0 0), by decide +kernel,
    by unfold Accepted Arrives; decide +kernel, rfl⟩,
   ⟨(let s := up; let s := { s with dies.fescue := .running }; let s := { s with och.set.role.outlets := s.och.set.role.outlets.put 0 (1) }; s), _,
    cmd 0xFFFF (leBytes 4 (w32 [(1, 30), (7, 18), (1, 8)]).toNat), _, _, by decide +kernel, by unfold Accepted Arrives; decide +kernel, rfl, rfl, rfl,
    by decide +kernel⟩,
   ⟨(let s := up; let s := { s with dies.fescue := .running }; s), _, cmd 1 (leBytes 4 (w32 [(1, 31), (1, 4)]).toNat ++ List.replicate 24 0), _, _,
    by decide +kernel, by unfold Accepted Arrives; decide +kernel, rfl, rfl, rfl, by decide +kernel⟩,
   ⟨(let s := up; let s := { s with dies.fescue := .running }; s), _, cmd 1 (List.replicate 4 0), _, _, _, by decide +kernel,
    by unfold Accepted Arrives; decide +kernel, rfl, rfl, by decide +kernel, by decide +kernel, by decide +kernel, by decide +kernel, rfl,
    by decide +kernel, rfl⟩,
   ⟨(let s := up; let s := { s with dies.fescue := .running }; s), _, outCmd 1 4096 (List.replicate 0 0), by decide +kernel,
    by unfold Accepted Arrives; decide +kernel, rfl, by decide +kernel⟩,
   ⟨(let s := up; let s := { s with dies.fescue := .running };
    let s := { s with site.word := .settled (w32 [(1, 30), (1, 17), (7, 18), (1, 16), (1, 8)]) }; s), _, cmd 0xFFFF (List.replicate 4 0), _,
    by decide +kernel, by unfold Accepted Arrives; decide +kernel, rfl, rfl, by decide +kernel, by decide +kernel⟩,
   ⟨(let s := up; let s := { s with dies.fescue := .running }; s),
    (let s := up; { s with site.link := s.site.link.upd 0 fun l => { l with rxq := [frame] } }), cmd 1 [], _, frame, [], by decide +kernel,
    by decide +kernel, rfl, by decide +kernel⟩⟩

theorem test_witness_ContactCommandsComplete :
  (∃ (s : State) (b : State) (c : Cmd), s.dies.fescue = .running ∧ Accepted 0x0800 c s ∧ b = acting 0x0800 c s) ∧
  (∃ (s : State) (b : State) (c : Cmd) (p : List Byte) (w : Word), s.dies.fescue = .running ∧ Accepted 0x0801 c s ∧ b = acting 0x0801 c s ∧
   p = cmdFields 0x0801 c ∧ reserved3 p = true ∧ w = BitVec.ofNat 32 (leAt p 4 4) ∧ byteAt p 0 = 0 ∧ aerialWordOk w = true) ∧
  (∃ (s : State) (b : State) (c : Cmd) (p : List Byte) (w : Word), s.dies.fescue = .running ∧ Accepted 0x0801 c s ∧ b = acting 0x0801 c s ∧
   p = cmdFields 0x0801 c ∧ reserved3 p = true ∧ w = BitVec.ofNat 32 (leAt p 4 4) ∧ byteAt p 0 = 1 ∧ portWordOk w = true) ∧
  (∃ (s : State) (b : State) (c : Cmd) (p : List Byte) (w : Word), s.dies.fescue = .running ∧ Accepted 0x0801 c s ∧ b = acting 0x0801 c s ∧
   p = cmdFields 0x0801 c ∧ reserved3 p = true ∧ w = BitVec.ofNat 32 (leAt p 4 4) ∧ byteAt p 0 = 2 ∧ authWordOk w = true ∧ inSession b (obj 63 c) = false) ∧
  (∃ (s : State) (b : State) (c : Cmd) (l : List Byte) (es : List (Nat × Nat × Nat)), s.dies.fescue = .running ∧ Accepted 0x0802 c s ∧
   b = acting 0x0802 c s ∧ b.thm.nandHot = false ∧ l = bulkOf 0x0802 c b ∧ es = allowEntries (l.length / 16) l ∧ (l.length < 16 ∨ l.length % 16 = 0) ∧
   es.length ≤ 65536 ∧ allowBad 0 none es = none) ∧
  (∃ (s : State) (b : State) (c : Cmd), s.dies.fescue = .running ∧ Accepted 0x0803 c s ∧ b = acting 0x0803 c s) ∧
  (∃ (s : State) (b : State) (c : Cmd), s.dies.fescue = .running ∧ Accepted 0x0804 c s ∧ b = acting 0x0804 c s ∧
   (b.rdr.aerial.at (obj 63 c)).selected = true) ∧
  (∃ (s : State) (b : State) (c : Cmd) (p : List Byte), s.dies.fescue = .running ∧ Accepted 0x0805 c s ∧ b = acting 0x0805 c s ∧
   p = cmdFields 0x0805 c ∧ reserved3 p = true ∧ sectorHeld b (obj 511 c).val = false ∧ byteAt p 0 = 0) ∧
  (∃ (s : State) (b : State) (c : Cmd) (p : List Byte), s.dies.fescue = .running ∧ Accepted 0x0805 c s ∧ b = acting 0x0805 c s ∧
   p = cmdFields 0x0805 c ∧ reserved3 p = true ∧ sectorHeld b (obj 511 c).val = false ∧ byteAt p 0 = 1 ∧ 200 ≤ (obj 511 c).val) ∧
  (∃ (s : State) (b : State) (c : Cmd), s.dies.fescue = .running ∧ Accepted 0x0806 c s ∧ b = acting 0x0806 c s) :=
  ⟨⟨(let s := up; let s := { s with dies.fescue := .running }; s), _, cmd 0 (List.replicate 0 0), by decide +kernel,
    by unfold Accepted Arrives; decide +kernel, rfl⟩,
   ⟨(let s := up; let s := { s with dies.fescue := .running }; s), _, cmd 0 ([0, 0, 0, 0] ++ leBytes 4 (w32 [(1, 31), (1, 5), (20, 16), (30,
    8)]).toNat), _, _, by decide +kernel, by unfold Accepted Arrives; decide +kernel, rfl, rfl, by decide +kernel, rfl, by decide +kernel,
    by decide +kernel⟩,
   ⟨(let s := up; let s := { s with dies.fescue := .running }; s), _, cmd 0 ([1, 0, 0, 0] ++ leBytes 4 (w32 [(4, 23), (5, 18)]).toNat), _, _,
    by decide +kernel, by unfold Accepted Arrives; decide +kernel, rfl, rfl, by decide +kernel, rfl, by decide +kernel, by decide +kernel⟩,
   ⟨(let s := up; let s := { s with dies.fescue := .running }; s), _, cmd 0 ([2, 0, 0, 0] ++ leBytes 4 (w32 [(120, 8), (2, 1)]).toNat), _, _,
    by decide +kernel, by unfold Accepted Arrives; decide +kernel, rfl, rfl, by decide +kernel, rfl, by decide +kernel, by decide +kernel,
    by decide +kernel⟩,
   ⟨(let s := up; let s := { s with dies.fescue := .running }; let s := { s with mem.pool := memWrite s.mem.pool (bulkBase 2) ([0, 0, 0, 0]) }; s), _,
    inCmd 0xFFFF ([0, 0, 0, 0]) (List.replicate 0 0), _, _, by decide +kernel, by unfold Accepted Arrives; decide +kernel, rfl, by decide +kernel, rfl,
    rfl, by decide +kernel, by decide +kernel, by decide +kernel⟩,
   ⟨(let s := up; let s := { s with dies.fescue := .running }; s), _, cmd 0xFFFF (List.replicate 8 0), by decide +kernel,
    by unfold Accepted Arrives; decide +kernel, rfl⟩,
   ⟨(let s := up; let s := { s with dies.fescue := .running };
    let s := { s with rdr.aerial := s.rdr.aerial.upd 0 fun x3 => { x3 with selected := true } }; s), _, bothCmd 0 [0, 0, 0, 0] 256, by decide +kernel,
    by unfold Accepted Arrives; decide +kernel, rfl, by decide +kernel⟩,
   ⟨(let s := up; let s := { s with dies.fescue := .running }; s), _, cmd 511 ([0, 0, 0, 0]), _, by decide +kernel,
    by unfold Accepted Arrives; decide +kernel, rfl, rfl, by decide +kernel, by decide +kernel, by decide +kernel⟩,
   ⟨(let s := up; let s := { s with dies.fescue := .running }; s), _, cmd 200 ([1, 0, 0, 0] ++ List.replicate 16 0), _, by decide +kernel,
    by unfold Accepted Arrives; decide +kernel, rfl, rfl, by decide +kernel, by decide +kernel, by decide +kernel, by decide +kernel⟩,
   ⟨(let s := up; let s := { s with dies.fescue := .running }; let s := { s with modes.base := .commissioning };
    let s := { s with modes.prior := .solo }; s), _, cmd 0xFFFF (List.replicate 4 0), by decide +kernel, by unfold Accepted Arrives; decide +kernel, rfl⟩⟩

theorem test_witness_PairCommandsComplete :
  (∃ (s : State) (b : State) (c : Cmd), Accepted 0x0A00 c s ∧ b = acting 0x0A00 c s) ∧
  (∃ (s : State) (b : State) (c : Cmd) (x : BitVec 64), Accepted 0x0A01 c s ∧ b = acting 0x0A01 c s ∧
   x = BitVec.ofNat 64 (leAt (cmdFields 0x0A01 c) 0 8) ∧ x ≠ 0 ∧ onePosition b = true ∧ (b.pair.peer = x ∨ b.keys.steps.at bindStep ≠ 0)) ∧
  (∃ (s : State) (b : State) (c : Cmd), Accepted 0x0A02 c s ∧ b = acting 0x0A02 c s ∧ (b.pair.peer = 0 ∨ b.keys.steps.at bindStep ≠ 0)) ∧
  (∃ (s : State) (b : State) (c : Cmd), Accepted 0x0A03 c s ∧ b = acting 0x0A03 c s ∧ b.pair.suspect = false ∧ peerStands b = true ∧
   b.upd.peerStaging = none) ∧
  (∃ (s : State) (b : State) (c : Cmd), Accepted 0x0A04 c s ∧ b = acting 0x0A04 c s ∧ peerStands b = true) ∧
  (∃ (b : State) (x : BitVec 64) (u : State), u = setPeer x b) :=
  ⟨⟨up, _, cmd 0xFFFF (List.replicate 0 0), by unfold Accepted Arrives; decide +kernel, rfl⟩,
   ⟨(let s := up; let s := { s with modes.base := .commissioning }; let s := { s with modes.prior := .solo }; s), _, cmd 0xFFFF (leBytes 8 5), _,
    by unfold Accepted Arrives; decide +kernel, rfl, rfl, by decide +kernel, by decide +kernel, by decide +kernel⟩,
   ⟨(let s := up; let s := { s with modes.base := .commissioning }; let s := { s with modes.prior := .solo }; s), _, cmd 0xFFFF (List.replicate 0 0),
    by unfold Accepted Arrives; decide +kernel, rfl, by decide +kernel⟩,
   ⟨(let s := up; let s := { s with modes.role := .active }; let s := { s with pair.peer := 5 }; let s := { s with pair.peerSeen := true };
    let s := { s with rus.lease := true }; let s := { s with pair.peerMode := 6 }; s), _, cmd 0xFFFF (List.replicate 0 0),
    by unfold Accepted Arrives; decide +kernel, rfl, by decide +kernel, by decide +kernel, by decide +kernel⟩,
   ⟨(let s := up; let s := { s with modes.role := .active }; let s := { s with pair.peer := 5 }; let s := { s with pair.peerSeen := true };
    let s := { s with rus.lease := true }; let s := { s with pair.peerMode := 10 }; s), _, cmd 0xFFFF (List.replicate 0 0),
    by unfold Accepted Arrives; decide +kernel, rfl, by decide +kernel⟩,
   ⟨up, 0, _, rfl⟩⟩

theorem test_witness_SafetyCommandsComplete :
  (∃ (s : State) (b : State) (c : Cmd), russetRuns s = true ∧ Accepted 0x0500 c s ∧ b = acting 0x0500 c s) ∧
  (∃ (s : State) (b : State) (c : Cmd), russetRuns s = true ∧ Accepted 0x0501 c s ∧ b = acting 0x0501 c s) ∧
  (∃ (s : State) (b : State) (c : Cmd), russetRuns s = true ∧ Accepted 0x0502 c s ∧ b = acting 0x0502 c s) ∧
  (∃ (s : State) (b : State) (c : Cmd), russetRuns s = true ∧ Accepted 0x0503 c s ∧ b = acting 0x0503 c s) ∧
  (∃ (s : State) (b : State) (c : Cmd), russetRuns s = true ∧ Accepted 0x0504 c s ∧ b = acting 0x0504 c s ∧ releasable b c ≠ []) ∧
  (∃ (s : State) (b : State) (c : Cmd), russetRuns s = true ∧ Accepted 0x0504 c s ∧ b = acting 0x0504 c s ∧ releasable b c = []) ∧
  (∃ (s : State) (b : State) (c : Cmd) (p : List Byte), russetRuns s = true ∧ Accepted 0x0505 c s ∧ b = acting 0x0505 c s ∧ p = cmdFields 0x0505 c ∧
   reserved3 p = true ∧ byteAt p 0 = 0) ∧
  (∃ (s : State) (b : State) (c : Cmd) (p : List Byte), russetRuns s = true ∧ Accepted 0x0505 c s ∧ b = acting 0x0505 c s ∧ p = cmdFields 0x0505 c ∧
   reserved3 p = true ∧ byteAt p 0 = 1 ∧ releaseRefusal b (obj 3 c) = none) ∧
  (∃ (s : State) (b : State) (c : Cmd) (p : List Byte), russetRuns s = true ∧ Accepted 0x0505 c s ∧ b = acting 0x0505 c s ∧ p = cmdFields 0x0505 c ∧
   reserved3 p = true ∧ byteAt p 0 = 2 ∧ testRefusal b (obj 3 c) = none) ∧
  (∃ (s : State) (b : State) (c : Cmd) (p : List Byte), russetRuns s = true ∧ Accepted 0x0506 c s ∧ b = acting 0x0506 c s ∧ p = cmdFields 0x0506 c ∧
   (byteAt p 0 = 0x2E ∨ byteAt p 0 = 0x2F) ∧ byteAt p 1 ≤ 1 ∧ leAt p 2 2 = 0) ∧
  (∃ (s : State) (b : State) (c : Cmd) (p : List Byte) (ws : List Word), russetRuns s = true ∧ Accepted 0x0510 c s ∧ b = acting 0x0510 c s ∧
   p = cmdFields 0x0510 c ∧ byteAt p 0 < 8 ∧ reserved3 p = true ∧ ws = wordsOf (limitedLen (byteAt p 0) / 4) (p.drop 4) ∧
   firstBad (limitedChecks (byteAt p 0) ws) = none ∧ (byteAt p 0 ≠ 5 ∨ ceNeedsStep b (ws.getD 0 0) = false)) ∧
  (∃ (s : State) (b : State) (c : Cmd) (p : List Byte) (ws : List Word), russetRuns s = true ∧ Accepted 0x0510 c s ∧ b = acting 0x0510 c s ∧
   p = cmdFields 0x0510 c ∧ byteAt p 0 = 5 ∧ reserved3 p = true ∧ ws = wordsOf 1 (p.drop 4) ∧ outWordOk (ws.getD 0 0) = true ∧
   ceTimeOk (ws.getD 0 0) = true ∧ ceNeedsStep b (ws.getD 0 0) = true ∧ b.keys.steps.at ceTimeStep ≠ 0) ∧
  (∃ (s : State) (b : State) (c : Cmd) (p : List Byte), russetRuns s = true ∧ Accepted 0x0511 c s ∧ b = acting 0x0511 c s ∧ p = cmdFields 0x0511 c ∧
   byteAt p 0 < 8 ∧ reserved3 p = true) :=
  ⟨⟨up, _, cmd 0 (List.replicate 0 0), by decide +kernel, by unfold Accepted Arrives; decide +kernel, rfl⟩,
   ⟨up, _, cmd 0 (List.replicate 0 0), by decide +kernel, by unfold Accepted Arrives; decide +kernel, rfl⟩,
   ⟨up, _, cmd 0 (List.replicate 0 0), by decide +kernel, by unfold Accepted Arrives; decide +kernel, rfl⟩,
   ⟨up, _, cmd 0 (List.replicate 0 0), by decide +kernel, by unfold Accepted Arrives; decide +kernel, rfl⟩,
   ⟨(let s := up; let s := { s with rus.outlet := s.rus.outlet.upd 63 fun x3 => { x3 with fault.classP := true } }; s), _,
    cmd 0xFFFF (List.replicate 0 0), by decide +kernel, by unfold Accepted Arrives; decide +kernel, rfl, by decide +kernel⟩,
   ⟨up, _, cmd 0 (List.replicate 0 0), by decide +kernel, by unfold Accepted Arrives; decide +kernel, rfl, by decide +kernel⟩,
   ⟨up, _, cmd 0 (List.replicate 4 0), _, by decide +kernel, by unfold Accepted Arrives; decide +kernel, rfl, rfl, by decide +kernel, by decide +kernel⟩,
   ⟨up, _, cmd 3 ([1, 0, 0, 0]), _, by decide +kernel, by unfold Accepted Arrives; decide +kernel, rfl, rfl, by decide +kernel, by decide +kernel,
    by decide +kernel⟩,
   ⟨(let s := up; let s := { s with och.clock.mono := 1000000 }; s), _, cmd 3 ([2, 0, 0, 0]), _, by decide +kernel,
    by unfold Accepted Arrives; decide +kernel, rfl, rfl, by decide +kernel, by decide +kernel, by decide +kernel⟩,
   ⟨up, _, cmd 0 ([0x2E, 1, 0, 0]), _, by decide +kernel, by unfold Accepted Arrives; decide +kernel, rfl, rfl, by decide +kernel, by decide +kernel,
    by decide +kernel⟩,
   ⟨(let s := up; let s := { s with modes.base := .commissioning }; let s := { s with modes.prior := .solo }; s), _, cmd 511 ([0, 0, 0,
    0] ++ leBytes 4 (w32 [(28, 6), (32, 0)]).toNat), _, _, by decide +kernel, by unfold Accepted Arrives; decide +kernel, rfl, rfl, by decide +kernel,
    by decide +kernel, rfl, by decide +kernel, by decide +kernel⟩,
   ⟨(let s := up; let s := { s with modes.base := .commissioning }; let s := { s with modes.prior := .solo }; s), _, cmd 0xFFFF ([5, 0, 0,
    0] ++ leBytes 4 (w32 [(5, 26), (50, 19), (60, 13), (60, 6)]).toNat), _, _, by decide +kernel, by unfold Accepted Arrives; decide +kernel, rfl, rfl,
    by decide +kernel, by decide +kernel, rfl, by decide +kernel, by decide +kernel, by decide +kernel, by decide +kernel⟩,
   ⟨up, _, cmd 0 (List.replicate 4 0), _, by decide +kernel, by unfold Accepted Arrives; decide +kernel, rfl, rfl, by decide +kernel, by decide +kernel⟩⟩

theorem test_witness_VehicleCommandsComplete :
  (∃ (s : State) (b : State) (c : Cmd), s.dies.fescue = .running ∧ Accepted 0x0400 c s ∧ b = acting 0x0400 c s) ∧
  (∃ (s : State) (b : State) (c : Cmd) (p : List Byte) (w0 : Word) (w1 : Word), s.dies.fescue = .running ∧ Accepted 0x0410 c s ∧ b = acting 0x0410 c s ∧
   p = cmdFields 0x0410 c ∧ reserved3 p = true ∧ w0 = BitVec.ofNat 32 (leAt p 4 4) ∧ w1 = BitVec.ofNat 32 (leAt p 8 4) ∧ byteAt p 0 = 0 ∧
   linkWord0Ok b (obj 63 c) w0 = true ∧ linkWord1Ok w1 = true) ∧
  (∃ (s : State) (b : State) (c : Cmd) (p : List Byte) (w : Word), s.dies.fescue = .running ∧ Accepted 0x0410 c s ∧ b = acting 0x0410 c s ∧
   p = cmdFields 0x0410 c ∧ reserved3 p = true ∧ w = BitVec.ofNat 32 (leAt p 4 4) ∧ byteAt p 0 = 1 ∧ moduleLinkOk w = true) ∧
  (∃ (s : State) (b : State) (c : Cmd) (p : List Byte), s.dies.fescue = .running ∧ Accepted 0x0410 c s ∧ b = acting 0x0410 c s ∧
   p = cmdFields 0x0410 c ∧ reserved3 p = true ∧ byteAt p 0 = 2 ∧ firstBad (numbered (fun k n => (1 + k / 2, keyEntryOk b k n)) 0 (mapEntries p)) = none) ∧
  (∃ (s : State) (b : State) (c : Cmd) (p : List Byte), s.dies.fescue = .running ∧ Accepted 0x0411 c s ∧ b = acting 0x0411 c s ∧
   p = cmdFields 0x0411 c ∧ reserved3 p = true ∧ byteAt p 0 ≤ 80) ∧
  (∃ (s : State) (b : State) (c : Cmd) (p : List Byte), s.dies.fescue = .running ∧ Accepted 0x0412 c s ∧ b = acting 0x0412 c s ∧
   p = cmdFields 0x0412 c ∧ reserved3 p = true ∧ byteAt p 0 ≤ 1 ∧ inSession b (obj 63 c) = false) ∧
  (∃ (s : State) (b : State) (c : Cmd) (p : List Byte) (bulk : List Byte) (r : PolicyRequest), s.dies.fescue = .running ∧ Accepted 0x0420 c s ∧
   b = acting 0x0420 c s ∧ p = cmdFields 0x0420 c ∧ byteAt p 4 ≤ 3 ∧ byteAt p 5 ≤ 1 ∧ leAt p 6 2 = 0 ∧ bulk = bulkOf 0x0420 c b ∧
   schedulesOk 72 0 0 bulk = true ∧ b.veh.policies.find? (matchesRequest (obj 63 c) (leAt p 0 4) (byteAt p 4)) = some r) ∧
  (∃ (s : State) (b : State) (c : Cmd) (p : List Byte) (body : List Byte) (n : Word) (k : Nat), s.dies.fescue = .running ∧ Accepted 0x0421 c s ∧
   b = acting 0x0421 c s ∧ p = cmdFields 0x0421 c ∧ byteAt p 4 ≤ 1 ∧ leAt p 5 3 = 0 ∧ body = bulkOf 0x0421 c b ∧ body.length ≤ 8192 ∧
   (b.veh.session.at (obj 63 c)).cert = some (n, k) ∧ n.toNat = leAt p 0 4) ∧
  (∃ (s : State) (b : State) (c : Cmd) (p : List Byte), s.dies.fescue = .running ∧ Accepted 0x0422 c s ∧ b = acting 0x0422 c s ∧
   p = cmdFields 0x0422 c ∧ reserved3 p = true ∧ byteAt p 0 ≤ 2 ∧ (b.veh.session.at (obj 63 c)).phase ≠ 0 ∧ (b.veh.session.at (obj 63 c)).phase ≠ 9) ∧
  (∃ (s : State), s.dies.fescue = .running) :=
  ⟨⟨(let s := up; let s := { s with dies.fescue := .running }; s), _, cmd 0 (List.replicate 0 0), by decide +kernel,
    by unfold Accepted Arrives; decide +kernel, rfl⟩,
   ⟨(let s := up; let s := { s with dies.fescue := .running }; s), _, cmd 0 ([0, 0, 0, 0] ++ leBytes 4 (w32 [(16, 25), (3, 21), (4, 16), (100,
    0)]).toNat ++ leBytes 4 80), _, _, _, by decide +kernel, by unfold Accepted Arrives; decide +kernel, rfl, rfl, by decide +kernel, rfl, rfl,
    by decide +kernel, by decide +kernel, by decide +kernel⟩,
   ⟨(let s := up; let s := { s with dies.fescue := .running }; s), _, cmd 0xFFFF ([1, 0, 0, 0] ++ leBytes 4 (w32 [(12, 0), (50, 8)]).toNat), _, _,
    by decide +kernel, by unfold Accepted Arrives; decide +kernel, rfl, rfl, by decide +kernel, rfl, by decide +kernel, by decide +kernel⟩,
   ⟨(let s := up; let s := { s with dies.fescue := .running }; s), _, cmd 0xFFFF ([2, 0, 0, 0] ++ List.replicate 16 0xFF), _, by decide +kernel,
    by unfold Accepted Arrives; decide +kernel, rfl, rfl, by decide +kernel, by decide +kernel, by decide +kernel⟩,
   ⟨(let s := up; let s := { s with dies.fescue := .running }; s), _, cmd 0 ([80, 0, 0, 0]), _, by decide +kernel,
    by unfold Accepted Arrives; decide +kernel, rfl, rfl, by decide +kernel, by decide +kernel⟩,
   ⟨(let s := up; let s := { s with dies.fescue := .running }; s), _, cmd 0 (List.replicate 4 0), _, by decide +kernel,
    by unfold Accepted Arrives; decide +kernel, rfl, rfl, by decide +kernel, by decide +kernel, by decide +kernel⟩,
   ⟨(let s := up; let s := { s with dies.fescue := .running }; let s := { s with veh.policies := [policy] }; s), _, cmd 0 ([1, 0, 0, 0, 1, 0, 0, 0]), _,
    _, policy, by decide +kernel, by unfold Accepted Arrives; decide +kernel, rfl, rfl, by decide +kernel, by decide +kernel, by decide +kernel, rfl,
    by decide +kernel, by decide +kernel⟩,
   ⟨(let s := up; let s := { s with dies.fescue := .running }; let s := { s with mem.pool := memWrite s.mem.pool (bulkBase 2) ([0, 0, 0, 0]) };
    let s := { s with veh.session := s.veh.session.upd 0 fun x3 => { x3 with cert := some (9, 0) } }; s), _, inCmd 0 ([0, 0, 0, 0]) ([9, 0, 0, 0, 0, 0,
    0, 0]), _, _, 9, 0, by decide +kernel, by unfold Accepted Arrives; decide +kernel, rfl, rfl, by decide +kernel, by decide +kernel, rfl,
    by decide +kernel, by decide +kernel, by decide +kernel⟩,
   ⟨(let s := up; let s := { s with dies.fescue := .running }; let s := { s with veh.session := s.veh.session.upd 0 fun x3 => { x3 with phase := 8 } };
    s), _, cmd 0 ([2, 0, 0, 0]), _, by decide +kernel, by unfold Accepted Arrives; decide +kernel, rfl, rfl, by decide +kernel, by decide +kernel,
    by decide +kernel, by decide +kernel⟩,
   ⟨(let s := up; let s := { s with dies.fescue := .running }; s), by decide +kernel⟩⟩

theorem test_witness_MeterCommandsComplete :
  (∃ (s : State) (b : State) (c : Cmd), s.dies.ochre = .running ∧ Accepted 0x0200 c s ∧ b = acting 0x0200 c s ∧ typeOf b (obj 63 c) ≠ 0) ∧
  (∃ (s : State) (b : State) (c : Cmd) (m : Meter), s.dies.ochre = .running ∧ Accepted 0x0201 c s ∧ b = acting 0x0201 c s ∧ m = b.och.meter.at (obj 63 c)) ∧
  (∃ (s : State) (b : State) (c : Cmd) (p : List Byte) (r : Reply × State), s.dies.ochre = .running ∧ Accepted 0x0202 c s ∧ b = acting 0x0202 c s ∧
   p = cmdFields 0x0202 c ∧ byteAt p 0 ≤ 1 ∧ reserved3 p = true ∧ r = harmonicReply (byteAt p 0) (obj 63 c) b) ∧
  (∃ (s : State) (b : State) (c : Cmd) (x : SupraResult), s.dies.ochre = .running ∧ Accepted 0x0203 c s ∧ b = acting 0x0203 c s ∧
   b.och.supra.at (obj 447 c) = some x) ∧
  (∃ (s : State) (b : State) (c : Cmd) (a : Analysis), s.dies.ochre = .running ∧ Accepted 0x0204 c s ∧ b = acting 0x0204 c s ∧
   a = b.och.analysis.at (obj 63 c)) ∧
  (∃ (s : State) (b : State) (c : Cmd) (p : List Byte), s.dies.ochre = .running ∧ Accepted 0x0205 c s ∧ b = acting 0x0205 c s ∧ p = cmdFields 0x0205 c ∧
   byteAt p 0 ≤ 5 ∧ reserved3 p = true) ∧
  (∃ (s : State) (b : State) (c : Cmd) (l : List Byte) (ws : List Word), s.dies.ochre = .running ∧ Accepted 0x0210 c s ∧ b = acting 0x0210 c s ∧
   l = bulkOf 0x0210 c b ∧ ws = wordsOf (l.length / 4) l ∧ roleRefusal ws b = none) ∧
  (∃ (s : State) (b : State) (c : Cmd) (l : List Byte) (ws : List Word) (r : Reply), s.dies.ochre = .running ∧ Accepted 0x0210 c s ∧
   b = acting 0x0210 c s ∧ l = bulkOf 0x0210 c b ∧ ws = wordsOf (l.length / 4) l ∧ roleRefusal ws b = some r) ∧
  (∃ (s : State) (b : State) (c : Cmd) (l : List Byte) (ws : List Word), s.dies.ochre = .running ∧ Accepted 0x0211 c s ∧ b = acting 0x0211 c s ∧
   l = bulkOf 0x0211 c b ∧ ws = wordsOf (l.length / 4) l ∧ calibrationRefusal ws b = none) ∧
  (∃ (s : State) (b : State) (c : Cmd) (p : List Byte), s.dies.ochre = .running ∧ Accepted 0x0212 c s ∧ b = acting 0x0212 c s ∧ p = cmdFields 0x0212 c ∧
   byteAt p 0 ≤ 1 ∧ reserved3 p = true ∧ inSession b (obj 63 c) = false) :=
  ⟨⟨(let s := up; let s := { s with dies.ochre := .running }; let s := { s with och.set.roleNow.outlets := s.och.set.roleNow.outlets.put 63 (3) }; s),
    _, cmd 63 (List.replicate 0 0), by decide +kernel, by unfold Accepted Arrives; decide +kernel, rfl, by decide +kernel⟩,
   ⟨(let s := up; let s := { s with dies.ochre := .running }; s), _, cmd 0 (List.replicate 0 0), _, by decide +kernel,
    by unfold Accepted Arrives; decide +kernel, rfl, rfl⟩,
   ⟨(let s := up; let s := { s with dies.ochre := .running }; s), _, outCmd 0 4096 (List.replicate 4 0), _, _, by decide +kernel,
    by unfold Accepted Arrives; decide +kernel, rfl, rfl, by decide +kernel, by decide +kernel, rfl⟩,
   ⟨(let s := up; let s := { s with dies.ochre := .running }; let s := { s with och.supra := s.och.supra.put 447 (some supra) }; s), _,
    outCmd 447 4096 (List.replicate 0 0), supra, by decide +kernel, by unfold Accepted Arrives; decide +kernel, rfl, by decide +kernel⟩,
   ⟨(let s := up; let s := { s with dies.ochre := .running }; s), _, outCmd 0 4096 (List.replicate 0 0), _, by decide +kernel,
    by unfold Accepted Arrives; decide +kernel, rfl, rfl⟩,
   ⟨(let s := up; let s := { s with dies.ochre := .running }; s), _, outCmd 0xFFFF 4096 (List.replicate 4 0), _, by decide +kernel,
    by unfold Accepted Arrives; decide +kernel, rfl, rfl, by decide +kernel, by decide +kernel⟩,
   ⟨(let s := up; let s := { s with dies.ochre := .running }; let s := { s with mem.pool := memWrite s.mem.pool (bulkBase 2) (List.replicate 388 0) };
    let s := { s with modes.base := .commissioning }; let s := { s with modes.prior := .solo }; s), _,
    inCmd 0xFFFF (List.replicate 388 0) (List.replicate 0 0), _, _, by decide +kernel, by unfold Accepted Arrives; decide +kernel, rfl, rfl, rfl,
    by decide +kernel⟩,
   ⟨(let s := up; let s := { s with dies.ochre := .running }; let s := { s with mem.pool := memWrite s.mem.pool (bulkBase 2) ([0, 0, 0, 0]) };
    let s := { s with modes.base := .commissioning }; let s := { s with modes.prior := .solo }; s), _, inCmd 0xFFFF ([0, 0, 0, 0]) (List.replicate 0 0),
    _, _, rangeAt 1, by decide +kernel, by unfold Accepted Arrives; decide +kernel, rfl, rfl, rfl, by decide +kernel⟩,
   ⟨tabState, _, tabCmd, _, _, by decide +kernel, table_accepted, rfl, rfl, rfl, table_loads⟩,
   ⟨(let s := up; let s := { s with dies.ochre := .running }; s), _, cmd 0 (List.replicate 4 0), _, by decide +kernel,
    by unfold Accepted Arrives; decide +kernel, rfl, rfl, by decide +kernel, by decide +kernel, by decide +kernel⟩⟩

theorem test_witness_LegalReadoutsComplete :
  (∃ (s : State) (b : State) (c : Cmd) (p : List Byte) (a : Accum), s.dies.ochre = .running ∧ Accepted 0x0300 c s ∧ b = acting 0x0300 c s ∧
   p = cmdFields 0x0300 c ∧ byteAt p 0 ≤ 1 ∧ reserved3 p = true ∧ a = (b.och.meter.at (obj 63 c)).acc) ∧
  (∃ (s : State) (b : State) (c : Cmd) (p : List Byte), s.dies.ochre = .running ∧ Accepted 0x0301 c s ∧ b = acting 0x0301 c s ∧ p = cmdFields 0x0301 c ∧
   byteAt p 0 ≤ 1 ∧ reserved3 p = true ∧ b.och.snapshots.length ≤ byteAt p 0) ∧
  (∃ (s : State) (b : State) (c : Cmd) (p : List Byte) (first : Nat) (n : Nat) (es : List LogEntry), s.dies.ochre = .running ∧ Accepted 0x0302 c s ∧
   b = acting 0x0302 c s ∧ p = cmdFields 0x0302 c ∧ first = leAt p 0 4 ∧ n = leAt p 4 4 ∧ es = logRange b first n ∧
   es.any (fun e => e.seq.toNat == first) = true ∧ 1 ≤ n ∧ n ≤ 4096 ∧ es.length = n) ∧
  (crc32 (logBytes logEntry) = 7 → ∃ (s : State) (b : State) (c : Cmd) (p : List Byte), s.dies.ochre = .running ∧ Accepted 0x0303 c s ∧
   b = acting 0x0303 c s ∧ p = cmdFields 0x0303 c ∧ ackRefusal 0x0303 c p b = none) ∧
  (∃ (s : State) (b : State) (c : Cmd) (p : List Byte), s.dies.ochre = .running ∧ Accepted 0x0304 c s ∧ b = acting 0x0304 c s ∧ p = cmdFields 0x0304 c ∧
   byteAt p 0 ≤ 7 ∧ reserved3 p = true) ∧
  (∃ (s : State) (b : State) (c : Cmd) (p : List Byte) (n : Nat), s.dies.ochre = .running ∧ Accepted 0x0305 c s ∧ b = acting 0x0305 c s ∧
   p = cmdFields 0x0305 c ∧ n = leAt p 4 4 ∧ 1 ≤ n ∧ n ≤ 8192 ∧ leAt p 8 4 ≤ 1) ∧
  (∃ (s : State) (b : State) (c : Cmd) (p : List Byte) (ps : List (Nat × Nat)) (l : List Retained), s.dies.ochre = .running ∧ Accepted 0x0306 c s ∧
   b = acting 0x0306 c s ∧ p = cmdFields 0x0306 c ∧ ps = exportPairs (p.length / 8) p ∧ l = confirmPairs ps b.och.recs.retained ∧
   firstBad (numbered (fun k x => (2 * k, pairMatches b x)) 0 ps) = none) ∧
  (∃ (s : State), s.dies.ochre = .running) :=
  ⟨⟨(let s := up; let s := { s with dies.ochre := .running }; s), _, cmd 0 (List.replicate 4 0), _, _, by decide +kernel,
    by unfold Accepted Arrives; decide +kernel, rfl, rfl, by decide +kernel, by decide +kernel, rfl⟩,
   ⟨(let s := up; let s := { s with dies.ochre := .running }; s), _, outCmd 0xFFFF 4096 (List.replicate 4 0), _, by decide +kernel,
    by unfold Accepted Arrives; decide +kernel, rfl, rfl, by decide +kernel, by decide +kernel, by decide +kernel⟩,
   ⟨(let s := up; let s := { s with dies.ochre := .running }; let s := { s with och.log.entries := [logEntry] }; s), _,
    outCmd 0xFFFF 4096 (leBytes 4 1 ++ leBytes 4 1), _, _, _, _, by decide +kernel, by unfold Accepted Arrives; decide +kernel, rfl, rfl, rfl, rfl, rfl,
    by decide +kernel, by decide +kernel, by decide +kernel, by decide +kernel⟩,
   fun h => ⟨logged, _, cmd 0xFFFF [1, 0, 0, 0, 7, 0, 0, 0], _, by decide +kernel, by unfold Accepted Arrives; decide +kernel, rfl, rfl, logged_ack h⟩,
   ⟨(let s := up; let s := { s with dies.ochre := .running }; s), _, outCmd 0xFFFF 4096 (List.replicate 4 0), _, by decide +kernel,
    by unfold Accepted Arrives; decide +kernel, rfl, rfl, by decide +kernel, by decide +kernel⟩,
   ⟨(let s := up; let s := { s with dies.ochre := .running }; s), _, outCmd 0xFFFF 4096 (leBytes 4 0 ++ leBytes 4 8192 ++ leBytes 4 1), _, _,
    by decide +kernel, by unfold Accepted Arrives; decide +kernel, rfl, rfl, rfl, by decide +kernel, by decide +kernel, by decide +kernel⟩,
   ⟨(let s := up; let s := { s with dies.ochre := .running }; let s := { s with och.recs.retained := [{ record := record, exported := false }] }; s), _,
    cmd 0xFFFF (leBytes 4 1 ++ leBytes 4 0), _, _, _, by decide +kernel, by unfold Accepted Arrives; decide +kernel, rfl, rfl, rfl, rfl,
    by decide +kernel⟩,
   ⟨(let s := up; let s := { s with dies.ochre := .running }; s), by decide +kernel⟩⟩

theorem test_witness_LegalSettingsComplete :
  (∃ (s : State) (b : State) (c : Cmd) (p : List Byte), s.dies.ochre = .running ∧ Accepted 0x0310 c s ∧ b = acting 0x0310 c s ∧ p = cmdFields 0x0310 c ∧
   tariffRefusal 0x0310 c p b = none) ∧
  (∃ (s : State) (b : State) (c : Cmd) (cal : List Byte), s.dies.ochre = .running ∧ Accepted 0x0311 c s ∧ b = acting 0x0311 c s ∧
   cal = bulkOf 0x0311 c b ∧ calendarRefusal cal b = none) ∧
  (∃ (s : State) (b : State) (c : Cmd) (p : List Byte), s.dies.ochre = .running ∧ Accepted 0x0312 c s ∧ b = acting 0x0312 c s ∧ p = cmdFields 0x0312 c ∧
   timeRefusal 0x0312 c p b = none) ∧
  (∃ (s : State) (b : State) (c : Cmd) (p : List Byte), s.dies.ochre = .running ∧ Accepted 0x0313 c s ∧ b = acting 0x0313 c s ∧ p = cmdFields 0x0313 c ∧
   lengthRefusal 0x0313 c p b = none) ∧
  (∃ (s : State) (b : State) (c : Cmd) (p : List Byte), s.dies.ochre = .running ∧ Accepted 0x0314 c s ∧ b = acting 0x0314 c s ∧ p = cmdFields 0x0314 c ∧
   announcedMatch p b = true) ∧
  (∃ (s : State) (b : State) (c : Cmd) (p : List Byte), s.dies.ochre = .running ∧ Accepted 0x0315 c s ∧ b = acting 0x0315 c s ∧ p = cmdFields 0x0315 c ∧
   selectionOk b (selectionOf p) = true ∧ byteAt p 3 = 0) ∧
  (∃ (s : State) (c : Cmd) (op : BitVec 16), op.toNat ∈ whitelistOps ∧ (findFetch op.toNat c s).isSome = true ∧ controlRuns s = true) :=
  ⟨⟨(let s := up; let s := { s with dies.ochre := .running }; s), _, cmd 0xFFFF ([1, 0, 0, 0, 0, 0, 0, 0]), _, by decide +kernel,
    by unfold Accepted Arrives; decide +kernel, rfl, rfl, by decide +kernel⟩,
   ⟨calState, _, calCmd, _, by decide +kernel, calendar_accepted, rfl, rfl, calendar_loads⟩,
   ⟨(let s := up; let s := { s with dies.ochre := .running }; s), _, cmd 0xFFFF (List.replicate 8 0), _, by decide +kernel,
    by unfold Accepted Arrives; decide +kernel, rfl, rfl, by decide +kernel⟩,
   ⟨(let s := up; let s := { s with dies.ochre := .running }; let s := { s with modes.base := .commissioning };
    let s := { s with modes.prior := .solo }; s), _, cmd 0xFFFF ([60, 0, 0, 0]), _, by decide +kernel, by unfold Accepted Arrives; decide +kernel, rfl,
    rfl, by decide +kernel⟩,
   ⟨(let s := up; let s := { s with dies.ochre := .running }; let s := { s with och.tariffs.announced := some (5, 1, 2, true) }; s), _,
    cmd 0xFFFF (leBytes 8 5 ++ [2, 0, 0, 0]), _, by decide +kernel, by unfold Accepted Arrives; decide +kernel, rfl, rfl, by decide +kernel⟩,
   ⟨(let s := up; let s := { s with dies.ochre := .running }; s), _, cmd 0xFFFF (List.replicate 4 0), _, by decide +kernel,
    by unfold Accepted Arrives; decide +kernel, rfl, rfl, by decide +kernel, by decide +kernel⟩,
   ⟨(let s := up; let s := { s with mbx.fetched := [{ op := 0x0315, cmd := cmd 0xFFFF [], dropped := false }] }; s), cmd 0xFFFF [], 0x0315,
    by decide +kernel, by decide +kernel, by decide +kernel⟩⟩

theorem test_witness_KeyCommandsComplete :
  (∃ (s : State) (b : State) (c : Cmd), Accepted 0x0900 c s ∧ b = acting 0x0900 c s ∧ spareSlot c = false) ∧
  (Config.keyOk 0x11 (List.replicate 32 1) = true → ∃ (s : State) (b : State) (c : Cmd) (p : List Byte), Accepted 0x0901 c s ∧ b = acting 0x0901 c s ∧
   p = cmdFields 0x0901 c ∧ spareSlot c = false ∧ vendorLocked b c = false ∧ firstBad (keyChecks c.index.toNat p) = none) ∧
  (Config.keyOk 0x11 (List.replicate 32 1) = true → ∃ (s : State) (b : State) (c : Cmd) (p : List Byte), Accepted 0x0902 c s ∧ b = acting 0x0902 c s ∧
   p = cmdFields 0x0902 c ∧ spareSlot c = false ∧ vendorLocked b c = false ∧ firstBad (keyChecks c.index.toNat p ++ [(0,
   meetsNaming b c.index.toNat (carriedKey b p))]) = none) ∧
  (∃ (s : State) (b : State) (c : Cmd), Accepted 0x0903 c s ∧ b = acting 0x0903 c s ∧ spareSlot c = false ∧
   (b.keys.slot.at (obj 255 c)).shadow.isSome = true) ∧
  (∃ (s : State) (b : State) (c : Cmd) (k : Key), Accepted 0x0904 c s ∧ b = acting 0x0904 c s ∧ spareSlot c = false ∧
   (b.keys.slot.at (obj 255 c)).shadow = some k ∧ (b.keys.slot.at (obj 255 c)).tested = true) ∧
  (∃ (s : State) (b : State) (c : Cmd) (p : List Byte) (d : Lifecycle), Accepted 0x0905 c s ∧ b = acting 0x0905 c s ∧ p = cmdFields 0x0905 c ∧
   lifecycleOf (byteAt p 0) = some d ∧ leAt p 1 3 = 0 ∧ moveAllowed s d = true ∧ moveAllowed b d = true ∧ needsToken s d = false ∧ needsToken b d = false) ∧
  (∃ (s : State) (b : State) (c : Cmd), Accepted 0x0906 c s ∧ b = acting 0x0906 c s) ∧
  (∀ tok : List Byte, (tokenValid 2 (debugStep up) tok up).1 = true → ∃ (s : State) (tok : List Byte), controlRuns s = true ∧
   (s.keys.lifecycle = .provisioned ∨ s.keys.lifecycle = .returned) ∧ s.keys.steps.at 8 ≠ 0 ∧ (tokenValid 2 (debugStep s) tok s).1 = true) :=
  ⟨⟨up, _, cmd 223 (List.replicate 0 0), by unfold Accepted Arrives; decide +kernel, rfl, by decide +kernel⟩,
   fun h => ⟨(let s := up; let s := { s with modes.base := .commissioning }; let s := { s with modes.prior := .solo }; s), _, cmd 16 (keyFields), _,
    by unfold Accepted Arrives; decide +kernel, rfl, rfl, by decide +kernel, by decide +kernel, keyFields_ok h⟩,
   fun h => ⟨up, _, cmd 16 (keyFields), _, by unfold Accepted Arrives; decide +kernel, rfl, rfl, by decide +kernel, by decide +kernel,
    by exact keyFields_named (by decide +kernel) h⟩,
   ⟨(let s := up; let s := { s with keys.slot := s.keys.slot.upd 223 fun x3 => { x3 with shadow := some .cleared } }; s), _,
    cmd 223 (List.replicate 0 0), by unfold Accepted Arrives; decide +kernel, rfl, by decide +kernel, by decide +kernel⟩,
   ⟨(let s := up; let s := { s with keys.slot := s.keys.slot.upd 223 fun x3 => { x3 with shadow := some .cleared } };
    let s := { s with keys.slot := s.keys.slot.upd 223 fun x3 => { x3 with tested := true } }; s), _, cmd 223 (List.replicate 0 0), .cleared,
    by unfold Accepted Arrives; decide +kernel, rfl, by decide +kernel, by decide +kernel, by decide +kernel⟩,
   ⟨(let s := up; let s := { s with modes.base := .commissioning }; let s := { s with modes.prior := .solo }; s), _, cmd 0xFFFF ([5, 0, 0, 0]), _,
    .ended, by unfold Accepted Arrives; decide +kernel, rfl, rfl, by decide +kernel, by decide +kernel, by decide +kernel, by decide +kernel,
    by decide +kernel, by decide +kernel⟩,
   ⟨up, _, cmd 0xFFFF (List.replicate 0 0), by unfold Accepted Arrives; decide +kernel, rfl⟩,
   fun tok h => ⟨up, tok, by decide +kernel, by decide +kernel, by decide +kernel, h⟩⟩

theorem test_witness_UpdateCommandsComplete :
  ((signatureOk plainHeader ready).1 = true → ∃ (s : State) (b : State) (c : Cmd) (p : List Byte) (h : List Byte), Accepted 0x0B00 c s ∧
   b = acting 0x0B00 c s ∧ p = cmdFields 0x0B00 c ∧ byteAt p 0 = 0 ∧ reserved3 p = true ∧ h = bulkOf 0x0B00 c b ∧ b.upd.staging = none ∧
   headerRefusal b h 0 = none ∧ (signatureOk h b).1 = true) ∧
  (∃ (s : State) (b : State) (c : Cmd) (p : List Byte) (g : Staging) (part : List Byte), Accepted 0x0B01 c s ∧ b = acting 0x0B01 c s ∧
   p = cmdFields 0x0B01 c ∧ part = bulkOf 0x0B01 c b ∧ b.upd.staging = some g ∧ g.handle.toNat = leAt p 0 4 ∧ b.thm.nandHot = false ∧
   partFits g (leAt p 4 4) part = true) ∧
  (∃ (s : State) (b : State) (c : Cmd) (p : List Byte) (g : Staging), Accepted 0x0B02 c s ∧ b = acting 0x0B02 c s ∧ p = cmdFields 0x0B02 c ∧
   b.upd.staging = some g ∧ g.handle.toNat = leAt p 0 4 ∧ bodyOk g = true) ∧
  (∃ (s : State) (b : State) (c : Cmd) (p : List Byte) (g : Staging), Accepted 0x0B03 c s ∧ b = acting 0x0B03 c s ∧ p = cmdFields 0x0B03 c ∧
   b.upd.staging = some g ∧ g.handle.toNat = leAt p 0 4) ∧
  (∃ (s : State) (b : State) (c : Cmd), Accepted 0x0B04 c s ∧ b = acting 0x0B04 c s) ∧
  (∃ (s : State), s.upd.staging.isSome = true) ∧
  (∃ (s : State) (i : ImageNo) (x : Image), x = s.upd.image.at i ∧ (x.slot.at x.active).status = .trial) ∧
  (∃ (s : State), (s.upd.image.at 0).waiting = true ∧ fescueQuiet s = true ∧ s.dies.fescue ≠ .held) ∧
  (∃ (s : State) (o : OutletNo), (s.upd.image.at 1).waiting = true ∧ controlRuns s = true ∧ (s.veh.pilot.at o).state = .A ∧
   (s.rus.pair.at (coilOf o)).cmd = false) ∧
  (∃ (s : State), (s.upd.image.at 2).waiting = true ∧ s.mbx.handover = true ∧ controlRuns s = true) ∧
  (∃ (s : State), s.spe.imageWaits = true ∧ s.dies.spelt ≠ .held) :=
  ⟨fun h => ⟨ready, ready, headerCmd, _, plainHeader, header_accepted, ready_acting, rfl, by decide +kernel, by decide +kernel, header_bulk.symm,
    by decide +kernel, plainHeader_serves, h⟩,
   ⟨(let s := up; let s := { s with mem.pool := memWrite s.mem.pool (bulkBase 2) ([0, 0, 0, 0]) };
    let s := { s with upd.staging := some { staged with body := [] } }; s), _, inCmd 0xFFFF ([0, 0, 0, 0]) (leBytes 4 1 ++ leBytes 4 0), _,
    { staged with body := [] }, _, by unfold Accepted Arrives; decide +kernel, rfl, rfl, rfl, by decide +kernel, by decide +kernel, by decide +kernel,
    by decide +kernel⟩,
   ⟨(let s := up; let s := { s with upd.staging := some staged }; s), _, cmd 0xFFFF (leBytes 4 1), _, staged,
    by unfold Accepted Arrives; decide +kernel, rfl, rfl, by decide +kernel, by decide +kernel, by decide +kernel⟩,
   ⟨(let s := up; let s := { s with upd.staging := some staged }; s), _, cmd 0xFFFF (leBytes 4 1), _, staged,
    by unfold Accepted Arrives; decide +kernel, rfl, rfl, by decide +kernel, by decide +kernel⟩,
   ⟨up, _, cmd 0xFFFF (List.replicate 0 0), by unfold Accepted Arrives; decide +kernel, rfl⟩,
   ⟨(let s := up; let s := { s with upd.staging := some staged }; s), by decide +kernel⟩,
   ⟨(let s := up; let s := { s with upd.image := s.upd.image.upd 4 fun x5 => { x5 with slot := x5.slot.upd 0 fun x3 => { x3 with status := .trial } } };
    s), 4, _, rfl, by decide +kernel⟩,
   ⟨(let s := up; let s := { s with upd.image := s.upd.image.upd 0 fun x3 => { x3 with waiting := true } }; s), by decide +kernel, by decide +kernel,
    by decide +kernel⟩,
   ⟨(let s := up; let s := { s with upd.image := s.upd.image.upd 1 fun x3 => { x3 with waiting := true } };
    let s := { s with veh.pilot := s.veh.pilot.upd 0 fun x3 => { x3 with state := .A } };
    let s := { s with rus.pair := s.rus.pair.upd (coilOf 0) fun x3 => { x3 with cmd := false } }; s), 0, by decide +kernel, by decide +kernel,
    by decide +kernel, by decide +kernel⟩,
   ⟨(let s := up; let s := { s with upd.image := s.upd.image.upd 2 fun x3 => { x3 with waiting := true } }; let s := { s with mbx.handover := true };
    s), by decide +kernel, by decide +kernel, by decide +kernel⟩,
   ⟨(let s := up; let s := { s with spe.imageWaits := true }; s), by decide +kernel, by decide +kernel⟩⟩

theorem test_witness_DiagnosticCommandsComplete :
  (∃ (s : State) (b : State) (c : Cmd) (p : List Byte) (first : Nat) (n : Nat) (es : List FaultEntry), Accepted 0x0C00 c s ∧ b = acting 0x0C00 c s ∧
   p = cmdFields 0x0C00 c ∧ first = leAt p 0 4 ∧ n = leAt p 4 4 ∧ es = faultRange b first n ∧ es.any (fun e => e.fseq.toNat == first) = true ∧ 1 ≤ n ∧
   n ≤ faultLogSize ∧ es.length = n) ∧
  (∃ (s : State) (b : State) (c : Cmd), Accepted 0x0C01 c s ∧ b = acting 0x0C01 c s ∧ b.evt.bundle = none ∧ leAt (cmdFields 0x0C01 c) 0 4 < 4) ∧
  (∃ (s : State) (b : State) (c : Cmd) (p : List Byte), Accepted 0x0C02 c s ∧ b = acting 0x0C02 c s ∧ p = cmdFields 0x0C02 c ∧ byteAt p 0 ≤ 1 ∧
   byteAt p 1 ≤ 3 ∧ leAt p 2 2 = 0) ∧
  (∃ (s : State) (b : State) (c : Cmd), Accepted 0x0C03 c s ∧ b = acting 0x0C03 c s) ∧
  (∃ (s : State) (b : State) (c : Cmd), Accepted 0x0C04 c s ∧ b = acting 0x0C04 c s) ∧
  (∃ (s : State) (b : State) (c : Cmd), Accepted 0x0C05 c s ∧ b = acting 0x0C05 c s) ∧
  (∃ (s : State) (b : State) (c : Cmd), Accepted 0x0C06 c s ∧ b = acting 0x0C06 c s) ∧
  (∃ (s : State) (b : State) (c : Cmd), Accepted 0x0C07 c s ∧ b = acting 0x0C07 c s) ∧
  (∃ (s : State) (b : State) (c : Cmd), Accepted 0x0C08 c s ∧ b = acting 0x0C08 c s) ∧
  (∃ (s : State) (c : Cmd) (peer : Option (List Byte)) (u : State) (l : List Byte), s.evt.bundle = some c ∧ controlRuns s = true ∧
   l = bundleBytes (leAt (cmdFields 0x0C01 c) 0 4) (outLength 0x0C01 c) peer s ∧ u = { s with evt.bundle := none, free := s.free + 20736 + 256 }) :=
  ⟨⟨(let s := up; let s := { s with evt.log := [faultEntry] }; s), _, outCmd 0xFFFF 4096 (leBytes 4 1 ++ leBytes 4 1), _, _, _, _,
    by unfold Accepted Arrives; decide +kernel, rfl, rfl, rfl, rfl, rfl, by decide +kernel, by decide +kernel, by decide +kernel, by decide +kernel⟩,
   ⟨up, _, outCmd 0xFFFF 4096 (List.replicate 4 0), by unfold Accepted Arrives; decide +kernel, rfl, by decide +kernel, by decide +kernel⟩,
   ⟨up, _, cmd 0 (List.replicate 4 0), _, by unfold Accepted Arrives; decide +kernel, rfl, rfl, by decide +kernel, by decide +kernel, by decide +kernel⟩,
   ⟨up, _, cmd 0 (List.replicate 0 0), by unfold Accepted Arrives; decide +kernel, rfl⟩,
   ⟨up, _, cmd 0xFFFF (List.replicate 16 0), by unfold Accepted Arrives; decide +kernel, rfl⟩,
   ⟨up, _, outCmd 0xFFFF 4096 (List.replicate 0 0), by unfold Accepted Arrives; decide +kernel, rfl⟩,
   ⟨up, _, cmd 1 (List.replicate 0 0), by unfold Accepted Arrives; decide +kernel, rfl⟩,
   ⟨up, _, outCmd 0 4096 (List.replicate 0 0), by unfold Accepted Arrives; decide +kernel, rfl⟩,
   ⟨up, _, cmd 0xFFFF (List.replicate 0 0), by unfold Accepted Arrives; decide +kernel, rfl⟩,
   ⟨(let s := up; let s := { s with evt.bundle := some (cmd 0xFFFF []) }; let s := { s with evt.bundle := some (cmd 0xFFFF []) }; s), cmd 0xFFFF [],
    none, _, _, by decide +kernel, by decide +kernel, rfl, rfl⟩⟩

theorem test_witness_ConnectionsAndRecordsComplete :
  (∃ (s : State) (b : State) (e : EthPort) (p : PortNo) (root : ClientRoot), p = ethPort e ∧ b = hostTraffic p s ∧ controlRuns s = true ∧
   s.mbx.ready = true ∧ (handshake (s.mbx.port.at p) root s).1 ≠ 0 ∧ ((s.mbx.port.at p).connected = false ∨ (s.mbx.port.at p).silent = true)) ∧
  (∃ (s : State) (b : State) (e : EthPort) (p : PortNo), p = ethPort e ∧ b = hostTraffic p s ∧ (s.mbx.port.at p).connected = true) ∧
  (∃ (s : State) (b : State) (e : EthPort) (p : PortNo) (q : PortNo), p = ethPort e ∧ b = hostTraffic p s ∧ controlRuns s = true ∧
   (s.mbx.port.at q).silent = false) ∧
  (∃ (s : State) (b : State) (e : EthPort) (p : PortNo) (urgent : Bool) (entry : List Byte) (i : Indices), p = ethPort e ∧ b = hostTraffic p s ∧
   controlRuns s = true ∧ (s.mbx.port.at p).connected = true ∧ i = (b.mbx.port.at p).idx ∧ 16 ≤ entry.length ∧ entry.length ≤ 256 ∧
   (b.mbx.port.at p).ringEn = true ∧ b.mbx.ready = true ∧ (if urgent then idxSub i.ucmdPi i.ucmdCi < 64 else idxSub i.ncmdPi i.ncmdCi < 256)) ∧
  (∃ (s : State) (b : State) (e : EthPort) (p : PortNo) (event : Bool) (v : BitVec 16) (i : Indices), p = ethPort e ∧ b = hostTraffic p s ∧
   controlRuns s = true ∧ (s.mbx.port.at p).connected = true ∧ i = (b.mbx.port.at p).idx ∧
   (if event then idxSub v i.evtCi ≤ idxSub i.evtPi i.evtCi else idxSub v i.rspCi ≤ idxSub i.rspPi i.rspCi)) ∧
  (∃ (s : State) (b : State) (e : EthPort) (p : PortNo) (n : Nat), p = ethPort e ∧ b = hostTraffic p s ∧ controlRuns s = true ∧
   (s.mbx.port.at p).connected = true ∧ 1 ≤ n ∧ n ≤ 64) ∧
  (∃ (s : State) (b : State) (e : EthPort) (p : PortNo), p = ethPort e ∧ b = hostTraffic p s ∧ controlRuns s = true ∧ (s.mbx.port.at p).connected = true) ∧
  (∃ (s : State) (b : State) (e : EthPort) (p : PortNo) (off : Nat) (bytes : List Byte), p = ethPort e ∧ b = hostTraffic p s ∧ controlRuns s = true ∧
   (s.mbx.port.at p).connected = true ∧ bytes.length ≤ 4096 ∧ off + bytes.length ≤ bulkSize) ∧
  (∃ (s : State) (b : State) (e : EthPort) (p : PortNo) (off : Nat) (n : Nat) (bytes : List Byte), p = ethPort e ∧ b = hostTraffic p s ∧
   controlRuns s = true ∧ (s.mbx.port.at p).connected = true ∧ n ≤ 4096 ∧ off + n ≤ bulkSize ∧ poolRead b (bulkBase p + off) n = some bytes) ∧
  (∃ (s : State) (b : State) (e : EthPort) (p : PortNo), p = ethPort e ∧ b = hostTraffic p s ∧ controlRuns s = true ∧ (s.mbx.port.at p).connected = true) ∧
  (∃ (s : State) (b : State) (e : EthPort) (p : PortNo), p = ethPort e ∧ b = hostTraffic p s) ∧
  (∃ (s : State) (b : State) (e : EthPort) (p : PortNo) (a : BitVec 32) (off : Nat) (bytes : List Byte), p = ethPort e ∧ b = hostTraffic p s ∧
   served s 2 = true ∧ poolBase ≤ a.toNat ∧ a.toNat < poolBase + poolSize ∧ off = (a.toNat - poolBase) / 4 * 4 ∧ qspiReadable off = true ∧
   poolRead s off 4 = some bytes) ∧
  (∃ (s : State) (b : State) (e : EthPort) (p : PortNo) (a : BitVec 32) (off : Nat), p = ethPort e ∧ b = hostTraffic p s ∧ served s 2 = true ∧
   poolBase ≤ a.toNat ∧ a.toNat < poolBase + poolSize ∧ off = (a.toNat - poolBase) / 4 * 4 ∧ qspiWritable off = true) ∧
  (∃ (s : State) (b : State) (e : EthPort) (p : PortNo) (a : BitVec 32) (off : Nat), p = ethPort e ∧ b = hostTraffic p s ∧ served s 2 = true ∧
   poolBase ≤ a.toNat ∧ a.toNat < poolBase + poolSize ∧ off = (a.toNat - poolBase) / 4 * 4 ∧ qspiWritable off = false) :=
  ⟨⟨(let s := up; let s := { s with mbx.ready := true };
    let s := { s with mbx.port := s.mbx.port.upd 0 fun x3 => { x3 with net := { addressing := none, serverSlot := 1, operateSlot := 2, commissionSlot := 3 } } };
    let s := { s with mbx.port := s.mbx.port.upd 0 fun x3 => { x3 with connected := false } };
    let s := { s with keys.slot := (s.keys.slot.put 3 hostRoot).put 1 hostKey }; s), _, 0, _, .commission, rfl, rfl, by decide +kernel,
    by decide +kernel, by decide +kernel, by decide +kernel⟩,
   ⟨(let s := up; let s := { s with mbx.port := s.mbx.port.upd 0 fun x3 => { x3 with connected := true } }; s), _, 0, _, rfl, rfl, by decide +kernel⟩,
   ⟨(let s := up; let s := { s with mbx.port := s.mbx.port.upd 0 fun x3 => { x3 with silent := false } }; s), _, 0, _, 0, rfl, rfl, by decide +kernel,
    by decide +kernel⟩,
   ⟨(let s := up; let s := { s with mbx.port := s.mbx.port.upd 0 fun x3 => { x3 with connected := true } }; s), _, 0, _, true, List.replicate 256 0, _,
    rfl, rfl, by decide +kernel, by decide +kernel, rfl, by decide +kernel, by decide +kernel, by decide +kernel, by decide +kernel, by decide +kernel⟩,
   ⟨(let s := up; let s := { s with mbx.port := s.mbx.port.upd 0 fun x3 => { x3 with connected := true } }; s), _, 0, _, true, 0, _, rfl, rfl,
    by decide +kernel, by decide +kernel, rfl, by decide +kernel⟩,
   ⟨(let s := up; let s := { s with mbx.port := s.mbx.port.upd 0 fun x3 => { x3 with connected := true } }; s), _, 0, _, 64, rfl, rfl,
    by decide +kernel, by decide +kernel, by decide +kernel, by decide +kernel⟩,
   ⟨(let s := up; let s := { s with mbx.port := s.mbx.port.upd 0 fun x3 => { x3 with connected := true } }; s), _, 0, _, rfl, rfl, by decide +kernel,
    by decide +kernel⟩,
   ⟨(let s := up; let s := { s with mbx.port := s.mbx.port.upd 0 fun x3 => { x3 with connected := true } }; s), _, 0, _, 0x1FFFFF, [1], rfl, rfl,
    by decide +kernel, by decide +kernel, by decide +kernel, by decide +kernel⟩,
   ⟨(let s := up; let s := { s with mbx.port := s.mbx.port.upd 0 fun x3 => { x3 with connected := true } }; s), _, 0, _, 0, 0, [], rfl, rfl,
    by decide +kernel, by decide +kernel, by decide +kernel, by decide +kernel, by decide +kernel⟩,
   ⟨(let s := up; let s := { s with mbx.port := s.mbx.port.upd 0 fun x3 => { x3 with connected := true } }; s), _, 0, _, rfl, rfl, by decide +kernel,
    by decide +kernel⟩,
   ⟨up, _, 0, _, rfl, rfl⟩,
   ⟨up, _, 0, _, 0x10C00000, _, [0, 0, 0, 0], rfl, rfl, by decide +kernel, by decide +kernel, by decide +kernel, rfl, by decide +kernel,
    by decide +kernel⟩,
   ⟨up, _, 0, _, 0x10C00000, _, rfl, rfl, by decide +kernel, by decide +kernel, by decide +kernel, rfl, by decide +kernel⟩,
   ⟨up, _, 0, _, 0x10000000, _, rfl, rfl, by decide +kernel, by decide +kernel, by decide +kernel, rfl, by decide +kernel⟩⟩

theorem test_witness_RegisterWritesComplete :
  (∃ (s : State) (b : State) (p : PortNo) (v : Word), b = hostTraffic p s ∧ served s p = true ∧ wBit v 0 = true ∧ (b.mbx.port.at p).ringEn = false) ∧
  (∃ (s : State) (b : State) (p : PortNo) (v : Word), b = hostTraffic p s ∧ served s p = true ∧ wBit v 0 = false ∧ (b.mbx.port.at p).ringEn = true) ∧
  (∃ (s : State) (b : State) (p : PortNo) (v : BitVec 16) (i : Indices), b = hostTraffic p s ∧ served s p = true ∧ i = (b.mbx.port.at p).idx ∧
   (b.mbx.port.at p).ringEn = true ∧ b.mbx.ready = true ∧ 0 < idxSub v i.ucmdPi ∧ idxSub v i.ucmdPi + idxSub i.ucmdPi i.ucmdCi ≤ 64) ∧
  (∃ (s : State) (b : State) (p : PortNo) (v : BitVec 16) (i : Indices), b = hostTraffic p s ∧ served s p = true ∧ i = (b.mbx.port.at p).idx ∧
   (b.mbx.port.at p).ringEn = true ∧ b.mbx.ready = true ∧ 0 < idxSub v i.ncmdPi ∧ idxSub v i.ncmdPi + idxSub i.ncmdPi i.ncmdCi ≤ 256) ∧
  (∃ (s : State) (b : State) (p : PortNo) (v : BitVec 16) (i : Indices), b = hostTraffic p s ∧ served s p = true ∧ i = (b.mbx.port.at p).idx ∧
   idxSub v i.rspCi ≤ idxSub i.rspPi i.rspCi) ∧
  (∃ (s : State) (b : State) (p : PortNo) (v : BitVec 16) (i : Indices), b = hostTraffic p s ∧ served s p = true ∧ i = (b.mbx.port.at p).idx ∧
   idxSub v i.evtCi ≤ idxSub i.evtPi i.evtCi) ∧
  (∃ (s : State) (b : State) (p : PortNo), b = hostTraffic p s ∧ served s p = true) ∧
  (∃ (s : State) (b : State) (p : PortNo), b = hostTraffic p s ∧ served s p = true ∧ 2 ≤ portLevel b p) ∧
  (∃ (s : State) (b : State) (p : PortNo) (a : BitVec 32), b = hostTraffic p s ∧ served s p = true ∧ (¬ (0x1000 + 0x100 * p.val ≤ a.toNat ∧
   a.toNat < 0x1100 + 0x100 * p.val)) ∧ a.toNat ≠ 0x020 ∧ a.toNat ≠ 0x108) :=
  ⟨⟨(let s := up; let s := { s with mbx.port := s.mbx.port.upd 0 fun x3 => { x3 with ringEn := false } }; s), _, 0, 1, rfl, by decide +kernel,
    by decide +kernel, by decide +kernel⟩,
   ⟨up, _, 0, 0, rfl, by decide +kernel, by decide +kernel, by decide +kernel⟩,
   ⟨up, _, 0, 64, _, rfl, by decide +kernel, rfl, by decide +kernel, by decide +kernel, by decide +kernel, by decide +kernel⟩,
   ⟨up, _, 0, 256, _, rfl, by decide +kernel, rfl, by decide +kernel, by decide +kernel, by decide +kernel, by decide +kernel⟩,
   ⟨up, _, 0, 0, _, rfl, by decide +kernel, rfl, by decide +kernel⟩,
   ⟨up, _, 0, 0, _, rfl, by decide +kernel, rfl, by decide +kernel⟩,
   ⟨up, _, 0, rfl, by decide +kernel⟩,
   ⟨up, _, 0, rfl, by decide +kernel, by decide +kernel⟩,
   ⟨up, _, 0, 0, rfl, by decide +kernel, by decide +kernel, by decide +kernel, by decide +kernel⟩⟩

theorem test_witness_FetchAndEventsComplete :
  (∃ (s : State), urgentWaits s 2 = true) ∧
  (∃ (s : State), urgentWaits s 2 = false ∧ urgentWaits s 0 = true) ∧
  (∃ (s : State) (est : Nat) (a : Nat) (p : PortNo) (urgent : Bool) (e : List Byte) (i : Indices) (op : Nat) (c : Cmd) (t : State) (u : State),
   controlRuns s = true ∧ s.mbx.ready = true ∧ nextRing s = some (p, urgent) ∧ i = (s.mbx.port.at p).idx ∧
   a = (if urgent then ucmdBase p + i.ucmdCi.toNat % 64 * 256 else ncmdBase p + i.ncmdCi.toNat % 256 * 256) ∧ poolRead s a 256 = some e ∧
   byteAt e 3 = 1 ∧ byteAt e 2 < 4 ∧ leAt e 8 4 = 0 ∧ leAt e 14 2 = 0 ∧ leAt e 6 2 ≤ 240 ∧ op = leAt e 0 2 ∧ c = entryCmd p urgent e ∧
   t = consumed p urgent s ∧ headChecks op c t = none ∧ u = (if urgent then t else setBacklog false t) ∧ t.mbx.handover = false ∧ (urgent = true ∨
   est ≤ t.mbx.busyMs.toNat) ∧ tailChecks op c u = none) ∧
  (∃ (s : State) (est : Nat) (a : Nat) (p : PortNo) (urgent : Bool) (e : List Byte) (i : Indices) (op : Nat) (c : Cmd) (t : State),
   controlRuns s = true ∧ s.mbx.ready = true ∧ nextRing s = some (p, urgent) ∧ i = (s.mbx.port.at p).idx ∧
   a = (if urgent then ucmdBase p + i.ucmdCi.toNat % 64 * 256 else ncmdBase p + i.ncmdCi.toNat % 256 * 256) ∧ poolRead s a 256 = some e ∧
   byteAt e 3 = 1 ∧ byteAt e 2 < 4 ∧ leAt e 8 4 = 0 ∧ leAt e 14 2 = 0 ∧ leAt e 6 2 ≤ 240 ∧ op = leAt e 0 2 ∧ c = entryCmd p urgent e ∧
   t = consumed p urgent s ∧ headChecks op c t = none ∧ urgent = false ∧ t.mbx.handover = false ∧ t.mbx.busyMs.toNat < est) ∧
  (∃ (s : State) (k : SourceNo), knownSource k.val = true ∧ controlRuns s = true) ∧
  (∃ (s : State) (k : SourceNo) (index : BitVec 16) (d : Fin 4), knownSource k.val = true ∧ controlRuns s = false ∧
   sourceDie k.val index.toNat = some d ∧ (s.evt.dieQ.at d).queue.length < 64) ∧
  (∃ (s : State) (c : Occ) (rest : List Occ), controlRuns s = true ∧ s.evt.routed = c :: rest) ∧
  (∃ (s : State) (p : PortNo), (s.mbx.port.at p).ringEn = true ∧ (s.mbx.port.at p).evtEn = true ∧ (s.mbx.port.at p).lostNew = 0 ∧ eventFull s p = false) ∧
  (∃ (s : State) (p : PortNo), (s.mbx.port.at p).ringEn = true ∧ (s.mbx.port.at p).evtEn = true ∧ (s.mbx.port.at p).lostNew = 0 ∧ eventFull s p = true) ∧
  (∃ (s : State), controlRuns s = true) :=
  ⟨⟨(let s := up; let s := { s with mbx.port := s.mbx.port.upd 2 fun x3 => { x3 with idx.ucmdPi := 1 } }; s), by decide +kernel⟩,
   ⟨(let s := up; let s := { s with mbx.port := s.mbx.port.upd 0 fun x3 => { x3 with idx.ucmdPi := 1 } }; s), by decide +kernel, by decide +kernel⟩,
   ⟨(let s := up; let s := { s with mbx.ready := true }; let s := { s with mbx.port := s.mbx.port.upd 2 fun x3 => { x3 with idx.ucmdPi := 1 } };
    let s := { s with mem.pool := memWrite s.mem.pool (ucmdBase 2) echoEntry }; s), 0, _, 2, true, echoEntry, _, _, _, _, _, by decide +kernel,
    by decide +kernel, by decide +kernel, rfl, rfl, by decide +kernel, by decide +kernel, by decide +kernel, by decide +kernel, by decide +kernel,
    by decide +kernel, rfl, rfl, rfl, by decide +kernel, rfl, by decide +kernel, by decide +kernel, by decide +kernel⟩,
   ⟨(let s := up; let s := { s with mbx.ready := true }; let s := { s with mbx.port := s.mbx.port.upd 2 fun x3 => { x3 with idx.ncmdPi := 1 } };
    let s := { s with mem.pool := memWrite s.mem.pool (ncmdBase 2) echoEntry }; s), 51, _, 2, false, echoEntry, _, _, _, _, by decide +kernel,
    by decide +kernel, by decide +kernel, rfl, rfl, by decide +kernel, by decide +kernel, by decide +kernel, by decide +kernel, by decide +kernel,
    by decide +kernel, rfl, rfl, rfl, by decide +kernel, by decide +kernel, by decide +kernel, by decide +kernel⟩,
   ⟨up, 0, by decide +kernel, by decide +kernel⟩,
   ⟨(let s := up; let s := { s with dies.control := .starting }; s), 16, 0, 0, by decide +kernel, by decide +kernel, by decide +kernel,
    by decide +kernel⟩,
   ⟨(let s := up; let s := { s with evt.routed := [occ] }; s), occ, [], by decide +kernel, by decide +kernel⟩,
   ⟨(let s := up; let s := { s with mbx.port := s.mbx.port.upd 0 fun x3 => { x3 with ringEn := true } };
    let s := { s with mbx.port := s.mbx.port.upd 0 fun x3 => { x3 with evtEn := true } };
    let s := { s with mbx.port := s.mbx.port.upd 0 fun x3 => { x3 with lostNew := 0 } }; s), 0, by decide +kernel, by decide +kernel, by decide +kernel,
    by decide +kernel⟩,
   ⟨(let s := up; let s := { s with mbx.port := s.mbx.port.upd 0 fun x3 => { x3 with ringEn := true } };
    let s := { s with mbx.port := s.mbx.port.upd 0 fun x3 => { x3 with evtEn := true } };
    let s := { s with mbx.port := s.mbx.port.upd 0 fun x3 => { x3 with lostNew := 0 } };
    let s := { s with mbx.port := s.mbx.port.upd 0 fun x3 => { x3 with idx.evtPi := 512 } }; s), 0, by decide +kernel, by decide +kernel,
    by decide +kernel, by decide +kernel⟩,
   ⟨up, by decide +kernel⟩⟩

theorem test_witness_MemoryCommandsComplete :
  (∃ (s : State) (a : MemAccess) (old : List Byte), controlRuns s = true ∧ accessOk poolSize a = true ∧
   poolRead s a.addr (operandBytes a.wide) = some old) ∧
  (∃ (s : State) (a : MemAccess), controlRuns s = true ∧ accessOk poolSize a = false) ∧
  (∃ (s : State) (a : MemAccess) (b : MemAccess), controlRuns s = true ∧ a.master.val = 15 ∧ b.master.val ≠ 15 ∧
   (codeWordOf a.addr).1 = (codeWordOf b.addr).1) ∧
  (∃ (s : State) (p : PadNo) (m : MasterNo) (v : Word), controlRuns s = true ∧ wBit v 5 = false ∧ (s.mem.pads.at p).owner.toNat = m.val ∧
   (wFld v 0 5 < 16 ∨ wFld v 0 5 = 31)) ∧
  (∃ (s : State) (p : PadNo) (m : MasterNo) (v : Word), controlRuns s = true ∧ wBit v 5 = false ∧ (s.mem.pads.at p).owner.toNat ≠ m.val) ∧
  (∃ (s : State) (p : PadNo) (m : MasterNo), controlRuns s = true ∧ m.val = s.thm.mgmtCore.val ∧ (s.mem.pads.at p).owner = 0x1F) ∧
  (∃ (s : State) (p : PadNo) (m : MasterNo) (k : CoreNo), controlRuns s = true ∧ m.val = s.thm.mgmtCore.val ∧
   (s.mem.pads.at p).owner = BitVec.ofNat 5 (k.val + 2) ∧ (s.veh.core.at k).silent = true) ∧
  (∃ (s : State) (e : FoundError) (bank : Fin 68) (w : Nat), controlRuns s = true ∧ e.place = .pool bank w ∧ codeResult e.flips = .corrected) ∧
  (∃ (s : State) (c : SpareCopy) (rest : List SpareCopy), controlRuns s = true ∧ s.mem.copies = c :: rest) ∧
  (∃ (s : State) (e : FoundError) (bank : Fin 68) (w : Nat) (l : Fin 64), controlRuns s = true ∧ s.modes.base ≠ .backupWatch ∧
   codeResult e.flips = .uncorrectable ∧ e.place = .pool bank w ∧ logicalOf s bank = some l ∧ (l.val, w) ∉ s.mem.badWords) ∧
  (∃ (s : State) (e : FoundError) (p : PadNo) (w : Nat), controlRuns s = true ∧ s.modes.base ≠ .backupWatch ∧ codeResult e.flips = .uncorrectable ∧
   e.place = .pad p w ∧ w ∉ (s.mem.pads.at p).bad) ∧
  (∃ (s : State) (e : FoundError) (o : OutletNo), controlRuns s = true ∧ s.modes.base ≠ .backupWatch ∧ codeResult e.flips = .uncorrectable ∧
   e.place = .vaultOutlet o) ∧
  (∃ (s : State) (e : FoundError), controlRuns s = true ∧ s.modes.base ≠ .backupWatch ∧ codeResult e.flips = .uncorrectable ∧ e.place = .vaultHost) ∧
  (∃ (s : State), controlRuns s = true ∧ s.mem.wiping = true) ∧
  (∃ (s : State), controlRuns s = true ∧ (List.range 4).any (fun k => sectorHeld s (4 + k)) = false) :=
  ⟨⟨up, readWord, List.replicate 8 0, by decide +kernel, by decide +kernel, by decide +kernel⟩,
   ⟨up, { readWord with addr := 4 }, by decide +kernel, by decide +kernel⟩,
   ⟨up, { readWord with master := 15 }, readWord, by decide +kernel, by decide +kernel, by decide +kernel, by decide +kernel⟩,
   ⟨(let s := up; let s := { s with mem.pads := s.mem.pads.upd 0 fun x3 => { x3 with owner := 0 } }; s), 0, 0, 31, by decide +kernel, by decide +kernel,
    by decide +kernel, by decide +kernel⟩,
   ⟨(let s := up; let s := { s with mem.pads := s.mem.pads.upd 0 fun x3 => { x3 with owner := 3 } }; s), 0, 0, 0, by decide +kernel, by decide +kernel,
    by decide +kernel⟩,
   ⟨(let s := up; let s := { s with mem.pads := s.mem.pads.upd 0 fun x3 => { x3 with owner := 0x1F } };
    let s := { s with mem.pads := s.mem.pads.upd 0 fun x3 => { x3 with owner := 31 } }; s), 0, 0, by decide +kernel, by decide +kernel, by decide +kernel⟩,
   ⟨(let s := up; let s := { s with veh.core := s.veh.core.upd 0 fun x3 => { x3 with silent := true } };
    let s := { s with mem.pads := s.mem.pads.upd 0 fun x3 => { x3 with owner := 2 } };
    let s := { s with veh.core := s.veh.core.upd 0 fun x3 => { x3 with silent := true } }; s), 0, 0, 0, by decide +kernel, by decide +kernel,
    by decide +kernel, by decide +kernel⟩,
   ⟨up, { place := .pool 0 0, flips := [0] }, 0, 0, by decide +kernel, by decide +kernel, by decide +kernel⟩,
   ⟨(let s := up; let s := { s with mem.copies := [{ logical := 0, spare := 64 }] }; s), { logical := 0, spare := 64 }, [], by decide +kernel,
    by decide +kernel⟩,
   ⟨up, { place := .pool 0 0, flips := [0, 16] }, 0, 0, 0, by decide +kernel, by decide +kernel, by decide +kernel, by decide +kernel,
    by decide +kernel, by decide +kernel⟩,
   ⟨up, { place := .pad 0 0, flips := [0, 16] }, 0, 0, by decide +kernel, by decide +kernel, by decide +kernel, by decide +kernel, by decide +kernel⟩,
   ⟨up, { place := .vaultOutlet 0, flips := [0, 16] }, 0, by decide +kernel, by decide +kernel, by decide +kernel, by decide +kernel⟩,
   ⟨up, { place := .vaultHost, flips := [0, 16] }, by decide +kernel, by decide +kernel, by decide +kernel, by decide +kernel⟩,
   ⟨(let s := up; let s := { s with mem.wiping := true }; s), by decide +kernel, by decide +kernel⟩,
   ⟨up, by decide +kernel, by decide +kernel⟩⟩

theorem test_witness_ThermalAndJobsComplete :
  (∃ (s : State), controlRuns s = true) ∧
  (∃ (s : State), controlRuns s = true) ∧
  (∃ (k : Nat) (tc : Int) (tj : Int) (e : Int × Int), e = stageEntry k ∧ (16 * e.1 ≤ tc ∨ 16 * e.2 ≤ tj)) ∧
  (∃ (k : Nat) (tc : Int) (tj : Int) (e : Int × Int), e = stageEntry k ∧ tc ≤ 16 * (e.1 - 3) ∧ tj ≤ 16 * (e.2 - 3)) ∧
  (∃ (k : Nat) (tc : Int) (tj : Int) (e : Int × Int), e = stageEntry k ∧ tc < 16 * e.1 ∧ tj < 16 * e.2) ∧
  (∃ (s : State), controlRuns s = true ∧ (wantedStep s.thm).toNat < s.clocks.scStep.toNat) ∧
  (∃ (s : State) (k : SensorNo), controlRuns s = true ∧ (s.thm.sensor.at k).failed = false ∧ deviates s k = true) ∧
  (∃ (s : State) (k : SensorNo), controlRuns s = true ∧ (s.thm.sensor.at k).failed = true ∧ outOfScale (s.thm.sensor.at k).raw = false ∧
   deviates s k = false) ∧
  (∃ (s : State) (x : Int), controlRuns s = true ∧ (s.thm.sensor.at 5).failed = false ∧ outOfScale x = false) ∧
  (∃ (s : State), controlRuns s = true ∧ s.thm.overRange = true) ∧
  (∃ (s : State) (j : JobNo) (b : State), controlRuns s = true ∧ (s.thm.job.at j).suspended = false ∧ (s.thm.job.at j).running = false ∧
   b = (s.onJob j fun x => { x with running := true, debt := x.debt - min (jobPeriod j / 4) x.debt })) ∧
  (∃ (s : State) (j : JobNo) (ms : Nat), controlRuns s = true ∧ (s.thm.job.at j).running = true ∧ (s.thm.job.at j).suspended = false ∧
   (s.thm.job.at j).debt + ms < jobPeriod j) ∧
  (∃ (s : State) (j : JobNo) (ms : Nat) (n : Nat), controlRuns s = true ∧ (s.thm.job.at j).running = true ∧ (s.thm.job.at j).suspended = false ∧
   n = (s.thm.job.at j).debt + ms ∧ jobPeriod j ≤ n) ∧
  (∃ (s : State), s.sup.mainOk = false) :=
  ⟨⟨up, by decide +kernel⟩,
   ⟨up, by decide +kernel⟩,
   ⟨0, 1520, 0, _, rfl, by decide +kernel⟩,
   ⟨0, 0, 0, _, rfl, by decide +kernel, by decide +kernel⟩,
   ⟨0, 0, 0, _, rfl, by decide +kernel, by decide +kernel⟩,
   ⟨(let s := up; let s := { s with clocks.scStep := 1 }; s), by decide +kernel, by decide +kernel⟩,
   ⟨(let s := up; let s := { s with thm.sensor := s.thm.sensor.upd 0 fun x3 => { x3 with failed := false } };
    let s := { s with thm.sensor := s.thm.sensor.upd 0 fun x3 => { x3 with raw := 100000 } }; s), 0, by decide +kernel, by decide +kernel,
    by decide +kernel⟩,
   ⟨(let s := up; let s := { s with thm.sensor := s.thm.sensor.upd 0 fun x3 => { x3 with failed := true } }; s), 0, by decide +kernel,
    by decide +kernel, by decide +kernel, by decide +kernel⟩,
   ⟨(let s := up; let s := { s with thm.sensor := s.thm.sensor.upd 5 fun x3 => { x3 with failed := false } }; s), 0, by decide +kernel,
    by decide +kernel, by decide +kernel⟩,
   ⟨(let s := up; let s := { s with thm.overRange := true }; s), by decide +kernel, by decide +kernel⟩,
   ⟨(let s := up; let s := { s with thm.job := s.thm.job.upd 0 fun x3 => { x3 with suspended := false } };
    let s := { s with thm.job := s.thm.job.upd 0 fun x3 => { x3 with running := false } }; s), 0, _, by decide +kernel, by decide +kernel,
    by decide +kernel, rfl⟩,
   ⟨(let s := up; let s := { s with thm.job := s.thm.job.upd 0 fun x3 => { x3 with running := true } };
    let s := { s with thm.job := s.thm.job.upd 0 fun x3 => { x3 with suspended := false } }; s), 0, 999, by decide +kernel, by decide +kernel,
    by decide +kernel, by decide +kernel⟩,
   ⟨(let s := up; let s := { s with thm.job := s.thm.job.upd 0 fun x3 => { x3 with running := true } };
    let s := { s with thm.job := s.thm.job.upd 0 fun x3 => { x3 with suspended := false } }; s), 0, 1000, _, by decide +kernel, by decide +kernel,
    by decide +kernel, rfl, by decide +kernel⟩,
   ⟨(let s := up; let s := { s with sup.mainOk := false }; s), by decide +kernel⟩⟩

theorem test_witness_PairLinkComplete :
  (∃ (s : State) (b : Heartbeat), controlRuns s = true ∧ s.pair.peer ≠ 0 ∧ s.pair.peerAbsent = false ∧ b.lease = false) ∧
  (∃ (s : State) (b : Heartbeat), controlRuns s = true ∧ s.pair.peer ≠ 0 ∧ s.pair.peerAbsent = false ∧ b.lease = true ∧ b.yield = false ∧
   isActive s = true ∧ s.pair.yielded = false) ∧
  (∃ (s : State), controlRuns s = true) ∧
  (∃ (s : State), controlRuns s = true ∧ s.pair.peerSeen = true) ∧
  (∃ (s : State) (pt : BitVec 256), controlRuns s = true ∧ s.pair.peer ≠ 0 ∧ (rootInForce s).isSome = true ∧ (s.pair.pin = none ∨ s.pair.pin = some pt)) ∧
  (∃ (s : State) (pt : BitVec 256) (q : BitVec 256), controlRuns s = true ∧ s.pair.peer ≠ 0 ∧ (rootInForce s).isSome = true ∧ s.pair.pin = some q ∧
   q ≠ pt) ∧
  (∃ (s : State), paired s = true ∧ takesOver s = false ∧ s.pair.forwarded = [] ∧ s.pair.handoverAt = none) ∧
  (∃ (s : State), paired s = true ∧ takesOver s = true ∧ s.modes.base = .service ∧ s.pair.forwarded = [] ∧ s.pair.handoverAt = none) ∧
  (∃ (s : State), paired s = true ∧ isStandby s = true) ∧
  (∃ (s : State), controlRuns s = true) ∧
  (∃ (s : State), paired s = true) :=
  ⟨⟨act, { lane := 0, epoch := 0, lease := false, yield := false, drives := false, mode := 0 }, by decide +kernel, by decide +kernel, by decide +kernel,
    by decide +kernel⟩,
   ⟨act, { lane := 0, epoch := 0, lease := true, yield := false, drives := false, mode := 0 }, by decide +kernel, by decide +kernel, by decide +kernel,
    by decide +kernel, by decide +kernel, by decide +kernel, by decide +kernel⟩,
   ⟨up, by decide +kernel⟩,
   ⟨(let s := up; let s := { s with pair.peerSeen := true }; s), by decide +kernel, by decide +kernel⟩,
   ⟨act, 0, by decide +kernel, by decide +kernel, by decide +kernel, by decide +kernel⟩,
   ⟨(let s := act; let s := { s with pair.pin := some 3 }; s), 0, 3, by decide +kernel, by decide +kernel, by decide +kernel, by decide +kernel,
    by decide +kernel⟩,
   ⟨act, by decide +kernel, by decide +kernel, by decide +kernel, by decide +kernel⟩,
   ⟨(let s := stby; let s := { s with modes.handover := true }; let s := { s with rus.lease := true }; s), by decide +kernel, by decide +kernel,
    by decide +kernel, by decide +kernel, by decide +kernel⟩,
   ⟨stby, by decide +kernel, by decide +kernel⟩,
   ⟨up, by decide +kernel⟩,
   ⟨act, by decide +kernel⟩⟩

theorem test_witness_PairTakeoverComplete :
  (∃ (s : State) (f : SealedFrame) (x : SealedEntry) (w : SealedWait) (b : State), s.dies.ochre = .running ∧ isStandby s = true ∧ f.authentic = true ∧
   s.pair.sealedSeq < f.seq ∧ f.adopt = none ∧ f.entries = [x] ∧ s.pair.waiting.find? (matchesOwn · x) = some w ∧ agrees w x = true ∧
   b = { s with pair := { s.pair with sealedSeq := f.seq, waiting := s.pair.waiting.erase w } }) ∧
  (∃ (s : State) (f : SealedFrame), s.dies.ochre = .running ∧ (isActive s = true ∨ isStandby s = true) ∧ (f.authentic = false ∨ f.seq ≤ s.pair.sealedSeq)) ∧
  (∃ (s : State) (o : OutletNo) (w : SealedWait), s.dies.ochre = .running ∧ s.pair.waiting.find? (fun w => w.outlet == o) = some w) ∧
  (∃ (s : State) (o : OutletNo) (content : List Byte) (r : SessionRecord) (a : Nat) (z : Nat) (named : SessionRecord), s.dies.ochre = .running ∧
   isStandby s = true ∧ s.och.recs.slots.at o = .stopped r a z ∧ named = { finished s o r with slot := byteAt content 2 } ∧ recordContent named = content) ∧
  (∃ (s : State), controlRuns s = true ∧ isStandby s = true) ∧
  (∃ (s : State), paired s = true ∧ isStandby s = true ∧ s.pair.peerYielded = true ∧ s.sup.pfw = false) ∧
  (∃ (s : State), paired s = true ∧ isStandby s = true ∧ s.pair.peerSeen = false ∧ s.modes.handover = false ∧ s.pair.transfer ≠ 1 ∧ linesLost s = true ∧
   leaseSilent s = true) ∧
  (∃ (s : State) (o : OutletNo) (b : State), isStandby s = true ∧ s.pair.peerSeen = false ∧ s.dies.fescue = .running ∧
   b = { s with pair.carry := s.pair.carry.put o true }) :=
  ⟨⟨(let s := stby; let s := { s with pair.waiting := [wait0] }; s), { authentic := true, seq := 1, entries := [entry0], adopt := none }, entry0, wait0,
    _, by decide +kernel, by decide +kernel, by decide +kernel, by decide +kernel, by decide +kernel, by decide +kernel, by decide +kernel,
    by decide +kernel, rfl⟩,
   ⟨act, { authentic := false, seq := 1, entries := [], adopt := none }, by decide +kernel, by decide +kernel, by decide +kernel⟩,
   ⟨(let s := stby; let s := { s with pair.waiting := [wait0] }; s), 0, wait0, by decide +kernel, by decide +kernel⟩,
   ⟨stopped, 0, recordContent { finished stopped 0 record with slot := 0 }, record, 0, 0, _, by decide +kernel, by decide +kernel, by decide +kernel,
    rfl, by decide +kernel⟩,
   ⟨stby, by decide +kernel, by decide +kernel⟩,
   ⟨(let s := stby; let s := { s with pair.peerYielded := true }; s), by decide +kernel, by decide +kernel, by decide +kernel, by decide +kernel⟩,
   ⟨(let s := stby; let s := { s with pair.peerSeen := false }; let s := { s with och.clock.mono := 4500 }; s), by decide +kernel, by decide +kernel,
    by decide +kernel, by decide +kernel, by decide +kernel, by decide +kernel, by decide +kernel⟩,
   ⟨(let s := stby; let s := { s with pair.peerSeen := false }; s), 0, _, by decide +kernel, by decide +kernel, by decide +kernel, rfl⟩⟩

theorem test_witness_OnlyTheseCommandsChangeTheseParts :
  (∃ (i : Instr) (s : State) (t : State), exec i s = .next t ∧ mayChangeSupplies i = false) ∧
  (∃ (i : Instr) (s : State) (t : State), exec i s = .next t ∧ mayChangeClocks i = false) ∧
  (∃ (i : Instr) (s : State) (t : State), exec i s = .next t ∧ mayChangeTeal i = false) ∧
  (∃ (i : Instr) (s : State) (t : State), exec i s = .next t ∧ mayChangeLegalClock i = false) ∧
  (∃ (i : Instr) (s : State) (t : State), exec i s = .next t ∧ mayChangeInputs i = false) ∧
  (∃ (i : Instr) (s : State) (t : State), exec i s = .next t ∧ mayChangeIntervals i = false) ∧
  (∃ (i : Instr) (s : State) (t : State), exec i s = .next t ∧ mayChangeLegalLog i = false) ∧
  (∃ (i : Instr) (s : State) (t : State), exec i s = .next t ∧ mayChangeRecords i = false) ∧
  (∃ (i : Instr) (s : State) (t : State), exec i s = .next t ∧ mayChangeTariffs i = false) ∧
  (∃ (i : Instr) (s : State) (t : State), exec i s = .next t ∧ mayChangeSiteLine i = false) ∧
  (∃ (i : Instr) (s : State) (t : State), exec i s = .next t ∧ mayChangeReaders i = false) ∧
  (∃ (i : Instr) (s : State) (t : State), exec i s = .next t ∧ mayChangeKeySlots i = false) ∧
  (∃ (i : Instr) (s : State) (t : State), exec i s = .next t ∧ mayChangeLifecycle i = false) ∧
  (∃ (i : Instr) (s : State) (t : State), exec i s = .next t ∧ mayChangeSteps i = false) ∧
  (∃ (i : Instr) (s : State) (t : State), exec i s = .next t ∧ mayChangeThermal i = false) ∧
  (∃ (i : Instr) (s : State) (t : State), exec i s = .next t ∧ mayChangePads i = false) ∧
  (∃ (i : Instr) (s : State) (t : State), exec i s = .next t ∧ mayChangeVault i = false) :=
  ⟨⟨.speltHeartbeat, up, _, rfl, by decide +kernel⟩,
   ⟨.speltHeartbeat, up, _, rfl, by decide +kernel⟩,
   ⟨.speltHeartbeat, up, _, rfl, by decide +kernel⟩,
   ⟨.speltHeartbeat, up, _, rfl, by decide +kernel⟩,
   ⟨.speltHeartbeat, up, _, rfl, by decide +kernel⟩,
   ⟨.speltHeartbeat, up, _, rfl, by decide +kernel⟩,
   ⟨.speltHeartbeat, up, _, rfl, by decide +kernel⟩,
   ⟨.speltHeartbeat, up, _, rfl, by decide +kernel⟩,
   ⟨.speltHeartbeat, up, _, rfl, by decide +kernel⟩,
   ⟨.speltHeartbeat, up, _, rfl, by decide +kernel⟩,
   ⟨.speltHeartbeat, up, _, rfl, by decide +kernel⟩,
   ⟨.speltHeartbeat, up, _, rfl, by decide +kernel⟩,
   ⟨.speltHeartbeat, up, _, rfl, by decide +kernel⟩,
   ⟨.speltHeartbeat, up, _, rfl, by decide +kernel⟩,
   ⟨.speltHeartbeat, up, _, rfl, by decide +kernel⟩,
   ⟨.speltHeartbeat, up, _, rfl, by decide +kernel⟩,
   ⟨.speltHeartbeat, up, _, rfl, by decide +kernel⟩⟩

theorem test_witness_QueueAndFreeCounter :
  (∃ (s : State) (t : State), step s = .next t) ∧
  (∃ (s : State) (t : State), step s = .next t ∧ s.pending = []) :=
  ⟨⟨up, _, rfl⟩,
   ⟨(let s := up; let s := { s with pending := [] }; s), _, rfl, by decide +kernel⟩⟩

theorem test_witness_MemoriesStayCanonical :
  ∃ (s : State) (t : State), s.memOk ∧ step s = .next t :=
  ⟨up, _, up_memOk, rfl⟩

theorem test_witness_LockoutKeepsOutputsOff :
  ∃ (s : State) (t : State), s.lockSafe ∧ step s = .next t :=
  ⟨up, _, up_lockSafe, rfl⟩

theorem test_witness_LockoutEndsByReleaseOnly :
  ∃ (i : Instr) (s : State) (t : State) (o : OutletNo), exec i s = .next t ∧ (s.rus.outlet.at o).fault.classP = true :=
  ⟨.speltHeartbeat, (let s := up; let s := { s with rus.outlet := s.rus.outlet.upd 0 fun x3 => { x3 with fault.classP := true } };
  let s := { s with rus.outlet := s.rus.outlet.upd 0 fun x3 => { x3 with fault.classP := true } }; s), _, 0, rfl, by decide +kernel⟩

theorem test_witness_CountsAndEndsAreFinal :
  (∃ (s : State) (t : State), step s = .next t) ∧
  (∃ (s : State) (t : State), step s = .next t) ∧
  (∃ (s : State) (t : State), step s = .next t ∧ s.keys.lifecycle = .ended) ∧
  (∃ (s : State) (t : State), step s = .next t ∧ s.tag.state = .killed) :=
  ⟨⟨up, _, rfl⟩,
   ⟨up, _, rfl⟩,
   ⟨(let s := up; let s := { s with keys.lifecycle := .ended }; let s := { s with keys.lifecycle := .ended }; s), _, rfl, by decide +kernel⟩,
   ⟨(let s := up; let s := { s with tag.state := .killed }; let s := { s with tag.state := .killed }; s), _, rfl, by decide +kernel⟩⟩

theorem test_witness_OutletPairsSwitchOnByOneCommand :
  ∃ (i : Instr) (s : State) (t : State) (o : OutletNo), exec i s = .next t ∧ (s.rus.pair.at (coilOf o)).cmd = false ∧
  (t.rus.pair.at (coilOf o)).cmd = true :=
  ⟨.coilPairSwitchOn 63, (let s := up; let s := { s with rus.pair := s.rus.pair.upd (coilOf 63) fun x3 => { x3 with cmd := false } };
  let s := { s with rus.pair := s.rus.pair.upd 63 fun x3 => { x3 with turn := .granted } }; s), _, 63, rfl, by decide +kernel, by decide +kernel⟩

theorem test_witness_HostrstByItsLength :
  (∃ (ns : Nat), ns < 100) ∧
  (∃ (ns : Nat), 100 ≤ ns ∧ ns < 1000) ∧
  (∃ (ns : Nat) (s : State), 1000 ≤ ns ∧ s.modes.base ≠ .backupWatch) :=
  ⟨⟨99, by decide +kernel⟩,
   ⟨999, by decide +kernel, by decide +kernel⟩,
   ⟨1000, up, by decide +kernel, by decide +kernel⟩⟩

theorem test_witness_MemoryReadsWhatWasWritten :
  (∃ (m : Memory), memWf m = true) ∧
  (∃ (m : Memory) (a : Nat) (x : Nat) (bs : List Byte), memWf m = true ∧ (x < a ∨ a + bs.length ≤ x)) ∧
  (∃ (m : Memory), memWf m = true) ∧
  (∃ (m : Memory) (n : Memory), memWf m = true ∧ memWf n = true ∧ (∀ x, memGet m x = memGet n x)) :=
  ⟨⟨[(1, 2)], by decide +kernel⟩,
   ⟨[(1, 2)], 1, 2, [0], by decide +kernel, by decide +kernel⟩,
   ⟨[(1, 2)], by decide +kernel⟩,
   ⟨[(1, 2)], [(1, 2)], by decide +kernel, by decide +kernel, fun _ => rfl⟩⟩

theorem test_witness_StoresTouchOnlyTheirBytes :
  (∃ (s : State) (t : State) (x : Nat) (e : EthPort) (off : Nat) (bs : List Byte) (a : Nat), memWf s.mem.pool = true ∧ a = bulkBase (ethPort e) + off ∧
   exec (.recordBulkWrite e off bs) s = .next t ∧ (x < a ∨ a + bs.length ≤ x)) ∧
  (∃ (s : State) (t : State) (x : Nat) (e : EthPort) (urgent : Bool) (entry : List Byte) (i : Indices) (a : Nat), memWf s.mem.pool = true ∧
   i = (s.mbx.port.at (ethPort e)).idx ∧
   a = (if urgent then ucmdBase (ethPort e) + i.ucmdPi.toNat % 64 * 256 else ncmdBase (ethPort e) + i.ncmdPi.toNat % 256 * 256) ∧
   exec (.recordRingEntry e urgent entry) s = .next t ∧ (x < a ∨ a + 256 ≤ x)) ∧
  (∃ (s : State) (t : State) (x : Nat) (a : BitVec 32) (v : Word) (off : Nat), memWf s.mem.pool = true ∧ poolBase ≤ a.toNat ∧
   a.toNat < poolBase + poolSize ∧ off = (a.toNat - poolBase) / 4 * 4 ∧ exec (.qspiPoolAccess a (some v)) s = .next t ∧ (x < off ∨ off + 4 ≤ x)) ∧
  (∃ (s : State) (t : State) (x : Nat) (l : List MemAccess), memWf s.mem.pool = true ∧ exec (.atomicOperation l) s = .next t ∧ (∀ a ∈ l, x < a.addr ∨
   a.addr + operandBytes a.wide ≤ x)) ∧
  (∃ (s : State) (t : State) (x : Nat) (p : PortNo) (v : Word), memWf s.mem.pool = true ∧ exec (.ringEnable p v) s = .next t ∧ (x < ringBase p ∨
   ringBase p + ringBytes ≤ x)) ∧
  (∃ (s : State) (t : State) (i : Instr) (e : EthPort) (p : PortNo) (tag : BitVec 16) (k : BitVec 16) (a : Word) (w : Word) (off : Nat) (n : Nat) (src : SourceNo) (cause : Byte) (ended : Bool) (data : List Byte),
   memWf s.mem.pool = true ∧ (i = .recordBulkRead e tag off n ∨ i = .recordWindowRead e tag a n ∨ i = .recordConsumerIndex e true k ∨
   i = .recordConsumerIndex e false k ∨ i = .qspiPoolAccess a none ∨ i = .urgentDoorbell p k ∨ i = .normalDoorbell p k ∨
   i = .responseConsumerWrite p k ∨ i = .eventConsumerWrite p k ∨ i = .hostHeartbeatWrite p w ∨ i = .eventOccurrence src k cause ended data) ∧
   exec i s = .next t) :=
  ⟨⟨up, _, 0, 0, 0, [], _, by decide +kernel, rfl, rfl, by decide +kernel⟩,
   ⟨up, _, 0, 0, true, [], _, _, by decide +kernel, rfl, rfl, rfl, by decide +kernel⟩,
   ⟨up, _, 0xC00004, 0x10C00000, 0, _, by decide +kernel, by decide +kernel, by decide +kernel, rfl, rfl, by decide +kernel⟩,
   ⟨up, _, 8, [], by decide +kernel, rfl, by decide +kernel⟩,
   ⟨up, _, 0, 0, 0, by decide +kernel, rfl, by decide +kernel⟩,
   ⟨up, _, .hostHeartbeatWrite 0 0, 0, 0, 0, 0, 0, 0, 0, 0, 0, 0, true, [], by decide +kernel, by simp, rfl⟩⟩

theorem test_witness_PendingFlagsShowTheirSources :
  (∃ (j : Fin 4) (k : Fin 32) (n : SourceNo), n.val = 32 * j.val + k.val) ∧
  (∃ (k : Nat), 2 ≤ k) :=
  ⟨⟨3, 31, 127, by decide +kernel⟩,
   ⟨2, by decide +kernel⟩⟩

theorem test_witness_WrongIndexAnswersBadIndex :
  (∃ (op : Nat) (c : Cmd) (r : Row), catalogue op c.payload = some r ∧ r.index = .module) ∧
  (∃ (op : Nat) (c : Cmd) (r : Row) (lo : Nat) (hi : Nat), catalogue op c.payload = some r ∧ r.index = .range lo hi) ∧
  (∃ (op : Nat) (c : Cmd) (r : Row) (lo : Nat) (hi : Nat) (code : Nat), catalogue op c.payload = some r ∧ r.index = .rangeOr lo hi code) ∧
  (∃ (op : Nat) (c : Cmd) (s : State) (r : Row) (i : Instr), catalogue op c.payload = some r ∧ MailRow i op c ∧ Arrives op c s ∧ c.flags.toNat < 4 ∧
   (c.urgent = true → r.urgent = true) ∧ 16 * r.bulk.length + r.lo ≤ c.payload.length ∧ c.payload.length ≤ 16 * r.bulk.length + r.hi ∧
   c.payload.length ≤ 240 ∧ r.index.ok c.index.toNat = false) :=
  ⟨⟨0x0100, cmd 0xFFFF [], _, rfl, rfl⟩,
   ⟨0x0200, cmd 0xFFFF [], _, 0, 63, rfl, rfl⟩,
   ⟨0x0504, cmd 0xFFFF [], _, 0, 63, 0xFFFF, rfl, rfl⟩,
   ⟨0x0200, cmd 64 [], up, _, .read1sValues (cmd 64 []), rfl, by constructor, by unfold Arrives; decide +kernel, by decide +kernel, by decide +kernel,
    by decide +kernel, by decide +kernel, by decide +kernel, by decide +kernel⟩⟩

theorem test_witness_SignedRecordsAreRetained :
  (∃ (s : State) (l : List Retained), l = s.och.recs.retained ∧ l.length < 8192) ∧
  (∃ (s : State) (l : List Retained) (a : List Retained) (b : List Retained) (x : Retained), l = s.och.recs.retained ∧ 8192 ≤ l.length ∧
   l = a ++ x :: b ∧ x.exported = true ∧ (∀ y ∈ a ++ b, y.exported = true → x.record.recNo.toNat < y.record.recNo.toNat)) ∧
  (∃ (s : State) (l : List Retained) (x : Retained), l = s.och.recs.retained ∧ x.exported = false) :=
  ⟨⟨up, _, rfl, by decide +kernel⟩,
   ⟨full, fullStore, [], List.replicate 8191 { record := record, exported := false }, { record := record, exported := true }, rfl, fullStore_length,
    rfl, by decide +kernel, fullStore_exported⟩,
   ⟨(let s := up; let s := { s with och.recs.retained := [{ record := record, exported := false }] }; s), _, { record := record, exported := false },
    rfl, by decide +kernel⟩⟩

theorem test_witness_MissingDiodeCountsAsClassE :
  (∃ (samples : List Int) (p : Pilot) (c : PilotClass), c = rankClass (rankOf (rankBefore p) (positivePlateau p samples)) ∧ pwm p = true ∧ (c = .B ∨
   c = .C ∨ c = .D) ∧ -10500 < negativePlateau p samples) ∧
  (∃ (samples : List Int) (p : Pilot) (c : PilotClass), c = rankClass (rankOf (rankBefore p) (positivePlateau p samples)) ∧ p.drive = 1) :=
  ⟨⟨List.replicate 100 9000 ++ List.replicate 100 (-10499), { Pilot.reset with drive := 2, duty := 100 }, _, rfl, by decide +kernel, by decide +kernel,
    by decide +kernel⟩,
   ⟨[], { Pilot.reset with drive := 1 }, _, rfl, by decide +kernel⟩⟩

end Sys2Proof
end

/-! SUPPORT. The scope of a step: the front command of the queue runs on the state with the queue's rest (O1), so that a
step takes that command alone and never lowers the counter of free values (O45), and each command leaves the parts
outside its footprint as they were (O44). -/

namespace Sys2Proof.Machine

/-! ### The step and its queue -/

theorem step_of_pending_cons {s : State} {i : Instr} {rest : List Instr} (h : s.pending = i :: rest) :
    step s = exec i { s with pending := rest } := by
  simp only [step, h]

theorem step_of_pending_nil {s : State} (h : s.pending = []) : step s = .next s := by
  simp only [step, h]

/-- What every command does to the state, read off for the step that takes it from the queue. -/
theorem step_within_of_pending_cons {s t : State} {i : Instr} {rest : List Instr} (h : s.pending = i :: rest)
    (ht : step s = .next t) : Within (footprint i) { s with pending := rest } t :=
  exec_within i ((step_of_pending_cons h).symm.trans ht)

/-- Settles O1: the two branches of `step`. -/
theorem stepRunsTheFrontCommand : Obligations.StepRunsTheFrontCommand :=
  fun _ _ _ => ⟨step_of_pending_cons, step_of_pending_nil⟩

/-- Settles O45, by the branches of `step`: an empty queue idles, and a command keeps the queue that it is given. -/
theorem queueAndFreeCounter : Obligations.QueueAndFreeCounter := by
  intro s t ht
  cases hq : s.pending with
  | nil =>
    obtain rfl : s = t := Host.Outcome.next.inj ((step_of_pending_nil hq).symm.trans ht)
    exact ⟨hq, Nat.le_refl _, fun _ => rfl⟩
  | cons i rest =>
    have w := step_within_of_pending_cons hq ht
    exact ⟨w.pending, w.freeUp, nofun⟩

/-! ### The frames -/

/-- The seventeen framed parts in the order of O44: the bit of the part in the mask of `Within`, and the part's list of
commands. -/
def framedParts : List (Nat × (Instr → Bool)) :=
  [(0, mayChangeSupplies), (2, mayChangeClocks), (4, mayChangeTeal), (5, mayChangeLegalClock), (7, mayChangeInputs),
    (10, mayChangeIntervals), (11, mayChangeLegalLog), (12, mayChangeRecords), (13, mayChangeTariffs),
    (24, mayChangeSiteLine), (25, mayChangeReaders), (27, mayChangeKeySlots), (28, mayChangeLifecycle),
    (29, mayChangeSteps), (33, mayChangeThermal), (37, mayChangePads), (38, mayChangeVault)]

/-- Each framed part that the mask has is a part whose list has the command. -/
def coversMask (i : Instr) (mask : Nat) : Bool :=
  framedParts.all fun part => !mask.testBit part.1 || part.2 i

/-- `f` at `n`, where `n` is computed to a numeral before `f` is: so a command's row is checked on a numeral, whatever
the command's operands. -/
def onNumeral (f : Nat → Bool) : Nat → Bool
  | 0 => f 0
  | n + 1 => f (n + 1)

theorem onNumeral_eq (f : Nat → Bool) : ∀ n, onNumeral f n = f n
  | 0 => rfl
  | _ + 1 => rfl

/-- One row per command: its footprint has those framed parts only whose lists have the command. -/
theorem coversMask_footprint (i : Instr) : onNumeral (coversMask i) (footprint i) = true := by
  cases i <;> rfl

/-- A command that is not in the list of a framed part has no bit of that part in its footprint. -/
theorem testBit_footprint_of_unlisted {i : Instr} {part : Nat × (Instr → Bool)} (hp : part ∈ framedParts)
    (hi : part.2 i = false) : (footprint i).testBit part.1 = false := by
  have covered := (onNumeral_eq _ _).symm.trans (coversMask_footprint i)
  have row := List.all_eq_true.mp covered part hp
  simpa [hi] using row

/-- What is kept without the bit of framed part `n` is kept by a command that is not in that part's list. -/
theorem kept_of_unlisted {α : Type} {a b : α} {i : Instr} (n : Fin 17)
    (kept : a = b ∨ (footprint i).testBit (framedParts.get n).1 = true)
    (hi : (framedParts.get n).2 i = false) : a = b :=
  kept.resolve_right (ne_true_of_eq_false (testBit_footprint_of_unlisted (List.get_mem framedParts n) hi))

/-- Settles O44: what `exec_within` keeps outside a command's footprint, part by part. -/
theorem onlyTheseCommandsChangeTheseParts : Obligations.OnlyTheseCommandsChangeTheseParts := by
  intro i s t h
  have w := exec_within i h
  refine ⟨kept_of_unlisted 0 w.supKept, kept_of_unlisted 1 w.clocksKept, kept_of_unlisted 2 w.tealKept,
    kept_of_unlisted 3 w.legalClockKept, fun hi => ?inputs, fun hi => ?intervals, kept_of_unlisted 6 w.logKept,
    kept_of_unlisted 7 w.recordsKept, kept_of_unlisted 8 w.tariffsKept, kept_of_unlisted 9 w.siteLineKept,
    kept_of_unlisted 10 w.readersKept, fun hi => ?slots, fun hi => ?lifecycle, kept_of_unlisted 13 w.stepsKept,
    kept_of_unlisted 14 w.thermalKept, kept_of_unlisted 15 w.padsKept, fun hi => ?vault⟩
  case inputs =>
    have e := kept_of_unlisted 4 w.inputsKept hi
    exact ⟨congrArg (·.1) e, congrArg (·.2.1) e⟩
  case intervals => exact Prod.mk.inj (kept_of_unlisted 5 w.intervalsKept hi)
  case slots => exact Prod.mk.inj (kept_of_unlisted 11 w.slotsKept hi)
  case lifecycle => exact Prod.mk.inj (kept_of_unlisted 12 w.lifecycleKept hi)
  case vault => exact congrArg (·.1) (kept_of_unlisted 16 w.vaultKept hi)

end Sys2Proof.Machine

/-! SUPPORT. Parts of the state that an operation keeps, read off its mask, and the passes over all outlets. -/

namespace Sys2Proof.Machine

-- A thread for each of the many short proofs is more than the check's memory holds: here and in the parts below.
set_option Elab.async false

/-- A part of the state is kept by an operation whose mask does not have its bit. -/
theorem kept_without_bit {α : Type} {a b : α} {m k : Nat} (h : a = b ∨ m.testBit k = true)
    (hm : m.testBit k = false := by rfl) : a = b := h.resolve_right (ne_true_of_eq_false hm)

section
variable {s t : State} {m : Nat}

theorem Within.dies_eq (w : Within m s t) (hm : m.testBit 3 = false := by rfl) : t.dies = s.dies :=
  kept_without_bit w.diesKept hm

theorem Within.modes_eq (w : Within m s t) (hm : m.testBit 1 = false := by rfl) : t.modes = s.modes :=
  kept_without_bit w.modesKept hm

theorem Within.cause_eq (w : Within m s t) (hm : m.testBit 19 = false := by rfl) : t.rus.cause = s.rus.cause :=
  congrArg (fun (_, _, _, _, _, _, cause, _) => cause) (kept_without_bit w.russetRestKept hm)

theorem Within.gapFrom_eq (w : Within m s t) (hm : m.testBit 5 = false := by rfl) :
    t.och.clock.gapFrom = s.och.clock.gapFrom :=
  congrArg LegalClock.gapFrom (kept_without_bit w.legalClockKept hm)

theorem Within.pool_eq (w : Within m s t) (hm : m.testBit 36 = false := by rfl) : t.mem.pool = s.mem.pool :=
  congrArg Prod.fst (kept_without_bit w.poolKept hm)

theorem Within.mbx_eq (w : Within m s t) (hm : m.testBit 35 = false := by rfl) : t.mbx = s.mbx :=
  kept_without_bit w.mailboxKept hm

theorem Within.pair_eq (w : Within m s t) (hm : m.testBit 17 = false := by rfl) : t.rus.pair = s.rus.pair :=
  kept_without_bit w.pairsKept hm

theorem Within.vault_eq (w : Within m s t) (hm : m.testBit 38 = false := by rfl) : t.mem.vault = s.mem.vault :=
  congrArg Prod.fst (kept_without_bit w.vaultKept hm)

/-- A step that is taken or left out keeps what it keeps where it is taken. -/
theorem map_ite_of_eq {α : Type} {c : Prop} [Decidable c] (f : State → α) (h : f t = f s) :
    f (if c then t else s) = f s := by
  split
  · exact h
  · rfl

/-- The same with the branches the other way round. -/
theorem map_ite_of_eq' {α : Type} {c : Prop} [Decidable c] (f : State → α) (h : f t = f s) :
    f (if c then s else t) = f s := by
  split
  · rfl
  · exact h

theorem forEach_cons {n : Nat} {i : Fin n} {l : List (Fin n)} {f : Fin n → State → State} :
    forEach (i :: l) f s = forEach l f (f i s) := rfl

theorem mem_outlets (o : OutletNo) : o ∈ outlets :=
  List.mem_map.mpr ⟨o.val, List.mem_range.mpr o.isLt, Fin.ext (Nat.mod_eq_of_lt o.isLt)⟩

end

end Sys2Proof.Machine

/-! SUPPORT. An outlet's coil pair turns on by one command alone (O51): every operation but the switching on leaves the
pairs off that it finds off, and the switching on turns on its own outlet's granted pair only. -/

namespace Sys2Proof.Machine

set_option Elab.async false

/-! ### Coil pairs that stay off -/

/-- No outlet's coil pair that is off in `s` is on in `t`. -/
def CoilsStayOff (s t : State) : Prop :=
  ∀ o, (s.rus.pair.at (coilOf o)).cmd = false → (t.rus.pair.at (coilOf o)).cmd = false

section
variable {s t u : State}

theorem CoilsStayOff.refl (s : State) : CoilsStayOff s s := fun _ h => h

/-- The state `u` has the pairs of `t`. -/
theorem CoilsStayOff.same (h : CoilsStayOff s t) (hu : u.rus.pair = t.rus.pair := by rfl) : CoilsStayOff s u :=
  fun o ho => by rw [hu]; exact h o ho

/-- An operation follows whose mask does not have the bit of the pairs. -/
theorem CoilsStayOff.after {m : Nat} (w : Within m t u) (h : CoilsStayOff s t) (hm : m.testBit 17 = false := by rfl) :
    CoilsStayOff s u :=
  h.same (w.pair_eq hm)

theorem CoilsStayOff.ite {c : Prop} [Decidable c] (ht : CoilsStayOff s t) (hu : CoilsStayOff s u) :
    CoilsStayOff s (if c then t else u) := by split <;> assumption

theorem CoilsStayOff.foldl {α : Type} {f : State → α → State} (hf : ∀ u a, CoilsStayOff s u → CoilsStayOff s (f u a)) :
    ∀ (l : List α) {t : State}, CoilsStayOff s t → CoilsStayOff s (l.foldl f t)
  | [], _, h => h
  | a :: l, t, h => foldl hf l (hf t a h)

theorem forEach_staysOff {n : Nat} {l : List (Fin n)} {f : Fin n → State → State}
    (hf : ∀ u i, CoilsStayOff s u → CoilsStayOff s (f i u)) (h : CoilsStayOff s t) : CoilsStayOff s (forEach l f t) :=
  h.foldl hf l

/-- The state of an answer. -/
theorem CoilsStayOff.of_snd {α : Type} {x : α × State} {a : α} (h : CoilsStayOff s x.2) (e : x = (a, u)) :
    CoilsStayOff s u := by rwa [e] at h

/-- Every outlet's pair is off. -/
theorem CoilsStayOff.of_off (h : ∀ p, (t.rus.pair.at p).cmd = false) : CoilsStayOff s t := fun o _ => h (coilOf o)

theorem onGuard_staysOff {o : OutletNo} {f : Guard → Guard} (h : CoilsStayOff s t) : CoilsStayOff s (t.onGuard o f) := h.same

theorem onBrake_staysOff {b : BrakeNo} {f : Brake → Brake} (h : CoilsStayOff s t) : CoilsStayOff s (t.onBrake b f) := h.same

theorem onPair_staysOff {p : PairNo} {f : Pair → Pair} (hf : ∀ x : Pair, x.cmd = false → (f x).cmd = false)
    (h : CoilsStayOff s t) : CoilsStayOff s (t.onPair p f) := by
  intro o ho
  simp only [State.onPair, Tab.at_upd]
  split
  next e => exact hf _ (e ▸ h o ho)
  next => exact h o ho

/-! ### Openings and decisions -/

variable {o : OutletNo} {p : PairNo} {b : BrakeNo} {c : Byte} {peer : Bool}

theorem openPair_staysOff (h : CoilsStayOff s t) : CoilsStayOff s (openPair o t) :=
  onGuard_staysOff (onPair_staysOff (fun _ _ => rfl) h)

theorem abandonTest_staysOff (h : CoilsStayOff s t) : CoilsStayOff s (abandonTest p t) :=
  onPair_staysOff (fun x hx => by split <;> exact hx) h

theorem offBrake_staysOff (h : CoilsStayOff s t) : CoilsStayOff s (offBrake b t) := onPair_staysOff (fun _ _ => rfl) h

theorem lockOut_staysOff (h : CoilsStayOff s t) : CoilsStayOff s (lockOut o t) :=
  have opened {f g k} : CoilsStayOff s ((((openPair o t).onGuard o f).onPilot o g).onSession o k) :=
    .after State.onSession_within <| .after State.onPilot_within <| onGuard_staysOff <| openPair_staysOff h
  .after refreshDrive_within <| .ite (.after raiseEnd_within opened) opened

theorem tripP_staysOff (h : CoilsStayOff s t) : CoilsStayOff s (tripP o c peer t) :=
  .after settle_within <| .after relay_within <| .after withdrawRelease_within <| .after tripEvent_within <|
    .ite (abandonTest_staysOff (.after count_within h)) (lockOut_staysOff (.after count_within h))

theorem cancelClose_staysOff (h : CoilsStayOff s t) : CoilsStayOff s (cancelClose o t) :=
  .ite (openPair_staysOff h) (abandonTest_staysOff h)

theorem tripE_staysOff (h : CoilsStayOff s t) : CoilsStayOff s (tripE o c peer t) :=
  have cancelled : CoilsStayOff s (cancelClose o (count o c peer t)) := cancelClose_staysOff (.after count_within h)
  .ite (.after relay_within (.after tripEvent_within cancelled))
    (.after relay_within (.after tripEvent_within (onGuard_staysOff (.after enterClassE_within cancelled))))

theorem tripOpen_staysOff (h : CoilsStayOff s t) : CoilsStayOff s (tripOpen o c peer t) :=
  have counted : CoilsStayOff s (count o c peer t) := .after count_within h
  .ite (.after relay_within (.after tripEvent_within (abandonTest_staysOff counted)))
    (.after relay_within (.after tripEvent_within (onGuard_staysOff (openPair_staysOff (.after enterClassE_within counted)))))

theorem failBrake_staysOff (h : CoilsStayOff s t) : CoilsStayOff s (failBrake b c t) :=
  .foldl (fun _ _ => tripP_staysOff) _ <| .after raise_within <| onBrake_staysOff <| offBrake_staysOff h

theorem engageBrake_staysOff (h : CoilsStayOff s t) : CoilsStayOff s (engageBrake b t) := by
  unfold engageBrake
  split
  · exact .after raise_within (onBrake_staysOff (offBrake_staysOff h))
  · exact .after raise_within (onBrake_staysOff (offBrake_staysOff h))
  · exact onBrake_staysOff h
  · exact offBrake_staysOff h

theorem switchFault_staysOff (h : CoilsStayOff s t) : CoilsStayOff s (switchFault p c t) :=
  .ite (.ite (tripP_staysOff h) (tripOpen_staysOff h)) (failBrake_staysOff h)

theorem relayedTrip_staysOff {classP : Bool} (h : CoilsStayOff s t) : CoilsStayOff s (relayedTrip o c classP t) :=
  .ite (tripP_staysOff h) (tripOpen_staysOff h)

/-! ### The detectors -/

theorem decideAll_staysOff {ds : List Decision} (h : CoilsStayOff s t) : CoilsStayOff s (decideAll o ds t) :=
  .ite h <| .ite (tripP_staysOff h) <|
    .ite (.after addCauses_within (tripOpen_staysOff h)) (.after addCauses_within (tripE_staysOff h))

theorem frameUsed_staysOff {vs : List Rat} {old : Guard} (h : CoilsStayOff s t) : CoilsStayOff s (frameUsed o vs old t) := by
  unfold frameUsed
  extract_lets g x
  clear_value x
  exact .after clearFrameCauses_within <| decideAll_staysOff <| .after reportWarnings_within <| onGuard_staysOff <|
    .ite (.after takeFree_within h) h

theorem frameOutlet_staysOff {f : Frame} (h : CoilsStayOff s t) : CoilsStayOff s (frameOutlet f o t) :=
  .ite (onGuard_staysOff h) (frameUsed_staysOff (onGuard_staysOff h))

theorem streamStale_staysOff (h : CoilsStayOff s t) : CoilsStayOff s (streamStale t) :=
  have stale : CoilsStayOff s { t with rus.stream.stale := true } := h.same
  have told := CoilsStayOff.ite (c := (t.rus.stream.stale && holds { t with rus.stream.stale := true } 55 moduleIndex) = true)
    stale (.after raise_within stale)
  .ite told (forEach_staysOff (fun _ _ hu => .ite (tripE_staysOff hu) hu) told)

theorem quantityFrame_staysOff {f : Frame} (h : CoilsStayOff s t) : CoilsStayOff s (quantityFrame f t) := by
  have taken : CoilsStayOff s (takeRoles (if t.rus.pend && !f.late then commitLimited t else t)) :=
    .after takeRoles_within (.ite (.after commitLimited_within h) h)
  unfold quantityFrame
  split
  · exact h
  · extract_lets r st v w
    have seen {a n} : CoilsStayOff s { r with rus.stream.seq := a, rus.stream.run := n } := taken.same
    exact .ite (.ite seen (forEach_staysOff (fun _ _ => frameOutlet_staysOff) seen)) (.ite seen (streamStale_staysOff seen))

theorem streamTimeout_staysOff (h : CoilsStayOff s t) : CoilsStayOff s (streamTimeout t) :=
  .ite (streamStale_staysOff h.same) h

theorem streamLockout_staysOff (h : CoilsStayOff s t) : CoilsStayOff s (streamLockout t) :=
  .ite (forEach_staysOff (fun _ _ hu => .ite (tripP_staysOff hu) hu) h) h

theorem fastPath_staysOff {i : InputNo} {bits : Bits} (h : CoilsStayOff s t) : CoilsStayOff s (fastPath i bits t) := by
  unfold fastPath
  extract_lets w
  split
  · exact h
  · exact .ite (tripOpen_staysOff h) (tripP_staysOff h)

theorem holdExpiry_staysOff {dc : Bool} {k : PointNo} (h : CoilsStayOff s t) : CoilsStayOff s (holdExpiry o dc k t) :=
  .ite (tripP_staysOff (onGuard_staysOff h)) h

theorem injectorFailure_staysOff (h : CoilsStayOff s t) : CoilsStayOff s (injectorFailure o t) :=
  .ite (tripE_staysOff (onGuard_staysOff h)) h

theorem weldCheck_staysOff {fs : List (List Rat)} (h : CoilsStayOff s t) : CoilsStayOff s (weldCheck o fs t) :=
  .ite h <| .ite (.after weldNotTested_within h) <| .ite (tripP_staysOff (onGuard_staysOff h)) (onGuard_staysOff h)

theorem peLossDc_staysOff (h : CoilsStayOff s t) : CoilsStayOff s (peLossDc o t) := .ite (tripP_staysOff h) h

theorem redundantDisagreement_staysOff (h : CoilsStayOff s t) : CoilsStayOff s (redundantDisagreement o t) :=
  .ite (tripE_staysOff (onGuard_staysOff h)) h

theorem inputInvalidTimeout_staysOff (h : CoilsStayOff s t) : CoilsStayOff s (inputInvalidTimeout o t) :=
  .ite (tripP_staysOff h) h

theorem classEOvercurrent_staysOff (h : CoilsStayOff s t) : CoilsStayOff s (classEOvercurrent o t) :=
  .ite (tripOpen_staysOff h) h

theorem classEExpiry_staysOff (h : CoilsStayOff s t) : CoilsStayOff s (classEExpiry o t) :=
  .ite (tripOpen_staysOff (onGuard_staysOff h)) h

theorem estopTrip_staysOff {n : EstopNo} (h : CoilsStayOff s t) : CoilsStayOff s (estopTrip n c t) :=
  .foldl (fun _ _ => engageBrake_staysOff) _ <| .foldl (fun _ _ => tripP_staysOff) _ <| .after raise_within h

theorem estopLevel_staysOff {n : EstopNo} {inputB stop : Bool} {k : Nat} (h : CoilsStayOff s t) :
    CoilsStayOff s (estopLevel n inputB stop k t) :=
  have set {u f} (hu : CoilsStayOff s u) : CoilsStayOff s (u.onEstop n f) := .after State.onEstop_within hu
  .ite h <| .ite (.ite (set h) (estopTrip_staysOff (set (set h)))) (.ite (.after raiseEnd_within (set (set h))) (set h))

theorem estopDiscrepancy_staysOff {n : EstopNo} (h : CoilsStayOff s t) : CoilsStayOff s (estopDiscrepancy n t) :=
  .ite (estopTrip_staysOff (.after State.onEstop_within h)) h

/-! ### Closing, pulse tests and the mirror contact -/

theorem grantClose_staysOff (h : CoilsStayOff s t) : CoilsStayOff s (grantClose o t) := by
  unfold grantClose
  extract_lets r v
  have granted : CoilsStayOff s v := onGuard_staysOff (onPair_staysOff (fun _ => id) (abandonTest_staysOff h))
  exact .ite granted.same granted

theorem decideClose_staysOff (h : CoilsStayOff s t) : CoilsStayOff s (decideClose o t) := by
  unfold decideClose
  split
  · exact grantClose_staysOff h
  · exact .after refuseClose_within h

theorem closeRequest_staysOff {again : Bool} (h : CoilsStayOff s t) : CoilsStayOff s (closeRequest o again t) :=
  .ite h <| .ite (.after refuseClose_within h) <| .ite (onGuard_staysOff h) (decideClose_staysOff (onGuard_staysOff h))

theorem mirrorGrant_staysOff (h : CoilsStayOff s t) : CoilsStayOff s (mirrorGrant o t) :=
  .ite h <| .ite (decideClose_staysOff (onGuard_staysOff h)) (onGuard_staysOff h)

theorem highSideOn_staysOff (h : CoilsStayOff s t) : CoilsStayOff s (highSideOn o t) :=
  have high {f g} (hf : ∀ x : Pair, x.cmd = false → (f x).cmd = false) :
      CoilsStayOff s ((t.onPair (coilOf o) f).onGuard o g) := onGuard_staysOff (onPair_staysOff hf h)
  .ite (.ite (tripE_staysOff (high fun _ => id)) (high fun _ => id)) h

variable {vh vl : RbLevel} {others : List PairNo}

theorem readback_staysOff (h : CoilsStayOff s t) : CoilsStayOff s (readback p vh vl t) := onPair_staysOff (fun _ => id) h

theorem turnOnCheck_staysOff (h : CoilsStayOff s t) : CoilsStayOff s (turnOnCheck o vh vl t) :=
  have checked {f} (hf : ∀ x : Pair, x.cmd = false → (f x).cmd = false) :
      CoilsStayOff s ((readback (coilOf o) vh vl t).onPair (coilOf o) f) := onPair_staysOff hf (readback_staysOff h)
  .ite (.ite (checked fun _ => id) (switchFault_staysOff (checked fun _ => id))) h

theorem overCurrent_staysOff (h : CoilsStayOff s t) : CoilsStayOff s (overCurrent p t) := .ite (switchFault_staysOff h) h

theorem readbackDeparture_staysOff {us : Nat} (h : CoilsStayOff s t) : CoilsStayOff s (readbackDeparture p vh vl us t) := by
  have read := readback_staysOff (p := p) (vh := vh) (vl := vl) h
  unfold readbackDeparture
  extract_lets x r
  refine .ite ?_ h
  split
  · exact switchFault_staysOff read
  · exact read

theorem startTest_staysOff (h : CoilsStayOff s t) : CoilsStayOff s (startTest p t) :=
  .ite h <| onPair_staysOff (fun x hx => by simp only [hx]; rfl) h

theorem testFaults_staysOff {own : Option Byte} (h : CoilsStayOff s t) : CoilsStayOff s (testFaults p own others t) := by
  refine .foldl (fun _ _ => switchFault_staysOff) _ ?_
  split
  · exact switchFault_staysOff h
  · exact .ite h (switchFault_staysOff h)

theorem offPulseCheck_staysOff (h : CoilsStayOff s t) : CoilsStayOff s (offPulseCheck p vh vl others t) := by
  refine .ite h ?_
  split
  · exact testFaults_staysOff (readback_staysOff h)
  · exact testFaults_staysOff (readback_staysOff h)
  · exact h

theorem offPulseEnd_staysOff (h : CoilsStayOff s t) : CoilsStayOff s (offPulseEnd p t) := by
  refine .ite h ?_
  split
  · exact onPair_staysOff (fun _ => id) h
  · exact onPair_staysOff (fun _ => id) h
  · exact h

theorem offPulseRestore_staysOff (h : CoilsStayOff s t) : CoilsStayOff s (offPulseRestore p vh vl t) := by
  refine .ite h ?_
  split
  · exact testFaults_staysOff (onPair_staysOff (fun _ => id) (readback_staysOff h))
  · exact testFaults_staysOff (onPair_staysOff (fun _ => id) (readback_staysOff h))
  · exact h

theorem onPulseCheck_staysOff (h : CoilsStayOff s t) : CoilsStayOff s (onPulseCheck p vl others t) :=
  .ite (testFaults_staysOff (onPair_staysOff (fun _ => id) h)) h

theorem onPulseEnd_staysOff (h : CoilsStayOff s t) : CoilsStayOff s (onPulseEnd p t) :=
  .ite (onPair_staysOff (fun _ => id) h) h

theorem contactFault_staysOff {open_ : Bool} (h : CoilsStayOff s t) : CoilsStayOff s (contactFault o open_ t) :=
  .ite (tripOpen_staysOff h) (tripP_staysOff h)

theorem mirrorTimeout_staysOff {open_ : Bool} (h : CoilsStayOff s t) : CoilsStayOff s (mirrorTimeout o open_ t) :=
  .ite h <| .ite (contactFault_staysOff (.after showMirror_within h)) (.after showMirror_within h)

theorem mirrorUncommanded_staysOff {open_ : Bool} (h : CoilsStayOff s t) : CoilsStayOff s (mirrorUncommanded o open_ t) :=
  .ite h <| .ite (contactFault_staysOff (.after showMirror_within h)) (.after showMirror_within h)

/-! ### Brakes -/

theorem coilOf_ne_brakeOf : coilOf o ≠ brakeOf b := by
  simp only [coilOf, brakeOf, ne_eq, Fin.ext_iff, Fin.ofNat]
  omega

/-- What happens to a brake's pair happens to no outlet's. -/
theorem onPair_brakeOf_staysOff {f : Pair → Pair} (h : CoilsStayOff s t) : CoilsStayOff s (t.onPair (brakeOf b) f) := by
  intro o ho
  simpa [State.onPair, coilOf_ne_brakeOf.symm] using h o ho

theorem releaseBrake_staysOff (h : CoilsStayOff s t) : CoilsStayOff s (releaseBrake b t) :=
  .after setBrake_within (onPair_brakeOf_staysOff (abandonTest_staysOff h))

theorem startHolding_staysOff (h : CoilsStayOff s t) : CoilsStayOff s (startHolding b t) :=
  .after setBrake_within (onBrake_staysOff (abandonTest_staysOff h))

theorem releaseCheck_staysOff {released : Bool} {rise : List Nat} (h : CoilsStayOff s t) :
    CoilsStayOff s (releaseCheck b released rise t) :=
  .ite (.ite (failBrake_staysOff h) (.ite (failBrake_staysOff h) (.after setBrake_within h))) h

theorem engageCheck_staysOff {engaged : Bool} (h : CoilsStayOff s t) : CoilsStayOff s (engageCheck b engaged t) :=
  .ite (.ite (.after setBrake_within (onBrake_staysOff h)) (failBrake_staysOff h)) h

theorem currentFault_staysOff {currents : List Nat} (h : CoilsStayOff s t) : CoilsStayOff s (currentFault b currents t) :=
  .ite (failBrake_staysOff h) h

variable {samples : List (Bool × Bool)}

theorem holdingMovement_staysOff (h : CoilsStayOff s t) : CoilsStayOff s (holdingMovement b samples t) :=
  .ite (.ite (failBrake_staysOff (.after noteDelta_within h)) (.after noteDelta_within h)) h

theorem holdingEnd_staysOff (h : CoilsStayOff s t) : CoilsStayOff s (holdingEnd b samples t) :=
  .ite (.ite (failBrake_staysOff (.after noteDelta_within h)) (.after passHolding_within (.after noteDelta_within h))) h

/-! ### Sessions -/

theorem fescueOpen_staysOff (h : CoilsStayOff s t) : CoilsStayOff s (fescueOpen o t) := openPair_staysOff h

theorem onSession_staysOff {f : Session → Session} (h : CoilsStayOff s t) : CoilsStayOff s (t.onSession o f) := h.same

theorem stopSession_staysOff (h : CoilsStayOff s t) : CoilsStayOff s (stopSession o t) :=
  .ite (fescueOpen_staysOff (.after setPhase_within h)) h

theorem endSessionNow_staysOff (h : CoilsStayOff s t) : CoilsStayOff s (endSessionNow o t) :=
  .ite h <| fescueOpen_staysOff <| .after setPhase_within <| .after withdrawPolicies_within <| onSession_staysOff h

theorem holdSession_staysOff (h : CoilsStayOff s t) : CoilsStayOff s (holdSession o t) :=
  have withdrawn : CoilsStayOff s (withdrawPolicies o t) := .after withdrawPolicies_within h
  .ite (.after refreshDrive_within (onSession_staysOff withdrawn)) <|
    .ite (endSessionNow_staysOff withdrawn) (onSession_staysOff withdrawn)

theorem holdAll_staysOff (h : CoilsStayOff s t) : CoilsStayOff s (holdAll t) :=
  forEach_staysOff (fun _ _ hu => holdSession_staysOff (.ite hu.same hu)) h

theorem refuseStart_staysOff {st : Status} (h : CoilsStayOff s t) : CoilsStayOff s (refuseStart o st t) :=
  have refused {f} : CoilsStayOff s ((raise 39 o.val st.code [] (ochreRefuses (reply st 0) t).2).onSession o f) :=
    onSession_staysOff (.after raise_within (.after ochreRefuses_within h))
  .ite (.after refreshDrive_within refused) (endSessionNow_staysOff refused)

theorem sessionStart_staysOff {sid auth : BitVec 64} (h : CoilsStayOff s t) : CoilsStayOff s (sessionStart o sid auth t) := by
  refine .ite h ?_
  split
  · exact refuseStart_staysOff h
  · exact .after nowReady_within (.after refreshDrive_within (onSession_staysOff (.after ochreStart_within h)))

theorem sessionLosesTls_staysOff (h : CoilsStayOff s t) : CoilsStayOff s (sessionLosesTls o t) :=
  .ite (holdSession_staysOff h) h

theorem wipeVault_staysOff {n : Nat} (h : CoilsStayOff s t) : CoilsStayOff s (wipeVault n t) := by
  unfold wipeVault
  extract_lets dropped mem raised lost aborted
  have drop : CoilsStayOff s dropped := .after dropDerived_within h
  have abort : CoilsStayOff s aborted :=
    .after abortStaging_within <| .after closeConnections_within <|
      forEach_staysOff (fun _ _ => sessionLosesTls_staysOff) <| .after raise_within drop.same
  exact .ite (.after startTransfer_within abort) abort

/-! ### Resets, supplies and modes -/

theorem enterRecovery_staysOff (h : CoilsStayOff s t) : CoilsStayOff s (enterRecovery t) :=
  .after settle_within <| wipeVault_staysOff <| .after raise_within h.same

theorem failedStart_staysOff (h : CoilsStayOff s t) : CoilsStayOff s (failedStart t) :=
  .ite h.same <| .ite (enterRecovery_staysOff (.after setCause_within h.same)) h.same

theorem startLimit_staysOff (h : CoilsStayOff s t) : CoilsStayOff s (startLimit t) :=
  .ite h (failedStart_staysOff (.after controlReset_within h))

theorem openRecorded_staysOff (h : CoilsStayOff s t) : CoilsStayOff s (openRecorded c o t) :=
  .ite (.after recordCause_within (openPair_staysOff h)) h

theorem fescueLoss_staysOff (h : CoilsStayOff s t) : CoilsStayOff s (fescueLoss t) :=
  .ite h <| .after fescueReset_within <| forEach_staysOff (fun _ _ => openRecorded_staysOff) h

theorem pair_afterReset_cmd (now : Nat) (r : Russet) (p : PairNo) : ((r.afterReset now).pair.at p).cmd = false := by
  simp [Russet.afterReset, Pair.afterReset, Pair.reset]

theorem russetReset_staysOff {bit : Nat} : CoilsStayOff s (russetReset bit t) :=
  .after bringWaiting_within (.of_off (pair_afterReset_cmd _ t.rus))

theorem lockstepMismatch_staysOff (h : CoilsStayOff s t) : CoilsStayOff s (lockstepMismatch t) :=
  .ite h russetReset_staysOff

theorem russetWatchdog_staysOff (h : CoilsStayOff s t) : CoilsStayOff s (russetWatchdog t) := .ite h russetReset_staysOff

theorem pfwOpen_staysOff (h : CoilsStayOff s t) : CoilsStayOff s (pfwOpen t) := by
  unfold pfwOpen
  extract_lets on opened engaged sup
  have engage : CoilsStayOff s engaged :=
    forEach_staysOff (fun _ _ => engageBrake_staysOff) (forEach_staysOff (fun _ _ => openRecorded_staysOff) h)
  clear_value engaged
  exact .ite h engage.same

theorem pfwDeassert_staysOff {us : Nat} (h : CoilsStayOff s t) : CoilsStayOff s (pfwDeassert us t) := by
  unfold pfwDeassert
  refine .ite h ?_
  extract_lets ran dropped sup cleared och clock deferred dipped stopped
  have ended : CoilsStayOff s cleared := h.same
  have defer : CoilsStayOff s deferred := by
    unfold deferred
    split
    · exact .ite (.after processDeferred_within ended.same) ended
    · exact ended
  have stop : CoilsStayOff s stopped := .foldl (fun _ _ => stopSession_staysOff) _ (.after dipEnded_within defer)
  exact .ite ended (.ite (.after compose_within (.after displayRestart_within stop)) stop)

theorem supplyLost_staysOff (h : CoilsStayOff s t) : CoilsStayOff s (supplyLost t) :=
  .ite h <| .of_off fun p => by simp [State.onDisplay, Pair.reset]

theorem tamperChange_staysOff {k : TamperNo} {opened : Bool} (h : CoilsStayOff s t) :
    CoilsStayOff s (tamperChange k opened t) :=
  .ite h <| .ite (wipeVault_staysOff (.after markAll_within h.same)) h.same

theorem rebuilt_staysOff {low : Bool} : CoilsStayOff s (rebuilt low t) :=
  .of_off fun p => by simp [rebuilt, Pair.reset]

theorem supplyReturns_staysOff {low : Bool} {ms : Nat} {pfwAt : Option Nat} {crc : BitVec 32} (h : CoilsStayOff s t) :
    CoilsStayOff s (supplyReturns low ms pfwAt crc t) :=
  have started {a b} : CoilsStayOff s (displayPowerOn (resumeTimers (pfwAtStart pfwAt (checkFactory (legalCheck crc
      (startTaken (ochrePowerUp a b (rebuilt low t)))))))) :=
    .after displayPowerOn_within <| .after resumeTimers_within <| .after pfwAtStart_within <| .after checkFactory_within <|
      .after legalCheck_within <| .after startTaken_within <| .after ochrePowerUp_within rebuilt_staysOff
  .ite h <| .after reportKill_within <| .after settle_within <| .ite (.after displayStop_within started) started

theorem startEnds_staysOff {checks : StartChecks} {atStart : PeerAtStart} (h : CoilsStayOff s t) :
    CoilsStayOff s (startEnds checks atStart t) := by
  have locked : CoilsStayOff s (pllsLocked t) := .after pllsLocked_within h
  refine .ite h ?_
  cases checks with
  | failed => exact failedStart_staysOff locked.same
  | bothFailed => exact enterRecovery_staysOff locked
  | pass =>
    refine .ite (enterRecovery_staysOff locked) ?_
    extract_lets v
    have passed : CoilsStayOff s v := .after startChecked_within locked
    clear_value v
    split
    · exact .after becomeReady_within (.after settle_within passed.same)
    · exact .after becomeReady_within (.after settle_within passed.same)
    · exact .after becomeReady_within passed
    · exact .after decideRole_within passed

theorem firstBeat_staysOff (h : CoilsStayOff s t) : CoilsStayOff s (firstBeat t) :=
  have left {d} : CoilsStayOff s (leaveRecovery { t with dies := d }) := .after leaveRecovery_within h.same
  .after becomeReady_within <| .after settle_within <| .after refreshDrives_within <|
    .ite left (holdAll_staysOff left.same)

theorem milletBeat_staysOff (h : CoilsStayOff s t) : CoilsStayOff s (milletBeat t) := by
  unfold milletBeat
  split
  · exact h
  · exact firstBeat_staysOff h.same
  · exact h.same

theorem beatLost_staysOff (h : CoilsStayOff s t) : CoilsStayOff s (beatLost t) :=
  .ite h <| .after settle_within <| .after lateStops_within <| holdAll_staysOff h.same

theorem commandedReset_staysOff {die : Nat} {tails : List Tail} (h : CoilsStayOff s t) :
    CoilsStayOff s (commandedReset die tails t) := by
  unfold commandedReset
  split
  · exact h.same
  · exact .after fescueReset_within h
  · exact .after speltReset_within h
  · exact russetReset_staysOff
  · exact .after ochreReset_within h

/-! ### Mailbox commands -/

variable {op : Nat} {cmd : Cmd}

/-- A command keeps off what its meaning keeps off. -/
theorem runCmd_staysOff {body : Body} (hbody : ∀ q u, CoilsStayOff s u → CoilsStayOff s (body q u).2)
    (h : CoilsStayOff s t) : CoilsStayOff s (runCmd op cmd body t) := by
  refine .ite h <| .ite (.after settle_within (hbody _ _ h)) <| .ite h ?_
  split
  · exact .after answer_within h
  · extract_lets sent out v
    have ended : CoilsStayOff s v := .after settle_within (hbody _ _ (.ite h (.after forwardOut_within h)))
    split
    · exact .after answer_within ended
    · exact .ite ended ended.same

/-- A meaning that answers at once. -/
theorem acts_staysOff {f : List Byte → State → Reply × State} (hf : ∀ q u, CoilsStayOff s u → CoilsStayOff s (f q u).2)
    (q : List Byte) (v : State) (h : CoilsStayOff s v) : CoilsStayOff s (acts f q v).2 := hf q v h

theorem onFescue_staysOff {f : List Byte → State → Reply × State}
    (hf : ∀ q u, CoilsStayOff s u → CoilsStayOff s (f q u).2) (q : List Byte) (v : State) (h : CoilsStayOff s v) :
    CoilsStayOff s (onFescue f q v).2 := by
  refine acts_staysOff (fun q u hu => ?_) q v h
  split
  · exact hf q u hu
  · exact hu

theorem onRusset_staysOff {f : List Byte → State → Reply × State}
    (hf : ∀ q u, CoilsStayOff s u → CoilsStayOff s (f q u).2) (q : List Byte) (v : State) (h : CoilsStayOff s v) :
    CoilsStayOff s (onRusset f q v).2 := by
  refine acts_staysOff (fun q u hu => ?_) q v h
  split
  · exact hf q u hu
  · exact hu

theorem checked_staysOff {bad : List (Nat × Bool)} {effect : State → Reply × State} (he : CoilsStayOff s (effect t).2)
    (h : CoilsStayOff s t) : CoilsStayOff s (checked op cmd bad effect t).2 := by
  unfold checked
  split
  · exact h
  · exact he

theorem unlessHeld_staysOff {f : State → State} (hf : CoilsStayOff s (f t)) (h : CoilsStayOff s t) :
    CoilsStayOff s (unlessHeld f t) := .ite h hf

theorem dieReset_staysOff {tails : List Tail} (h : CoilsStayOff s t) : CoilsStayOff s (dieReset cmd tails t) :=
  runCmd_staysOff (acts_staysOff fun _ _ hu => checked_staysOff (commandedReset_staysOff hu) hu) h

theorem disableOutlet_staysOff (h : CoilsStayOff s t) : CoilsStayOff s (disableOutlet o t) :=
  .after refreshDrive_within (unlessHeld_staysOff (openPair_staysOff (onGuard_staysOff h)) (onGuard_staysOff h))

theorem clearEnable_staysOff (h : CoilsStayOff s t) : CoilsStayOff s (clearEnable cmd t) :=
  runCmd_staysOff (onRusset_staysOff fun _ _ => disableOutlet_staysOff) h

theorem openRequest_staysOff (h : CoilsStayOff s t) : CoilsStayOff s (openRequest cmd t) :=
  runCmd_staysOff (onRusset_staysOff fun _ _ hu => unlessHeld_staysOff (openPair_staysOff hu) hu) h

theorem brakeAction_staysOff (q : List Byte) (v : State) (h : CoilsStayOff s v) :
    CoilsStayOff s (brakeAction cmd q v).2 := by
  refine checked_staysOff ?_ h
  split
  · exact engageBrake_staysOff h
  · split
    · exact h
    · exact unlessHeld_staysOff (releaseBrake_staysOff h) h
  · split
    · exact h
    · exact unlessHeld_staysOff (startHolding_staysOff h) h

theorem brakeCommand_staysOff (h : CoilsStayOff s t) : CoilsStayOff s (brakeCommand cmd t) :=
  runCmd_staysOff (onRusset_staysOff brakeAction_staysOff) h

theorem requestClassE_staysOff {set : Bool} (h : CoilsStayOff s t) : CoilsStayOff s (requestClassE o c set t) :=
  .ite (.ite (onGuard_staysOff h) (tripE_staysOff (onGuard_staysOff h))) (.after clearCause_within (onGuard_staysOff h))

theorem classERequest_staysOff (h : CoilsStayOff s t) : CoilsStayOff s (classERequest cmd t) :=
  runCmd_staysOff (onRusset_staysOff fun _ _ hu =>
    checked_staysOff (.after settle_within (requestClassE_staysOff hu)) hu) h

/-! ### Releases of a Lockout -/

theorem reportCheck_staysOff {passed : Bool} (h : CoilsStayOff s t) : CoilsStayOff s (reportCheck o passed t) := .ite h h.same

theorem press_staysOff (h : CoilsStayOff s t) : CoilsStayOff s (press o t) := by
  refine .ite h ?_
  split
  · exact .after releaseOutcome_within (reportCheck_staysOff h)
  · exact .ite (.after releaseOutlet_within h) <|
      .ite (.after releaseOutlet_within (reportCheck_staysOff h)) (reportCheck_staysOff (onGuard_staysOff h))

theorem resetReleased_staysOff {i : ResetInput} {high low : Nat} (h : CoilsStayOff s t) :
    CoilsStayOff s (resetReleased i high low t) := by
  refine .ite h ?_
  split
  · exact .ite (press_staysOff h.same) h
  · exact .ite (forEach_staysOff (fun _ _ => press_staysOff) h.same) h

/-! ### Credentials and policy requests -/

theorem v2gEnd_staysOff {a : V2gAnswer} (h : CoilsStayOff s t) : CoilsStayOff s (v2gEnd o a t) :=
  endSessionNow_staysOff (.after raise_within (onSession_staysOff h))

variable {ref : BitVec 64} {tech : BitVec 2} {aerial : Option AerialNo}

theorem credentialDecided_staysOff {result : Nat} (h : CoilsStayOff s t) :
    CoilsStayOff s (credentialDecided o ref tech aerial result t) := by
  refine .ite (.after reportCredential_within h) ?_
  have reported : CoilsStayOff s (reportCredential aerial ref tech result t) := .after reportCredential_within h
  cases aerial with
  | none => exact .ite (v2gEnd_staysOff reported) (.after authorise_within reported)
  | some a => exact .ite reported (.after grant_within reported)

theorem present_staysOff (h : CoilsStayOff s t) : CoilsStayOff s (present o ref tech aerial t) :=
  .ite h <| .ite (.ite (stopSession_staysOff h) (.after reportCredential_within h)) <|
    .ite (.after askHost_within h) (credentialDecided_staysOff h)

theorem policyFallback_staysOff {r : PolicyRequest} (h : CoilsStayOff s t) : CoilsStayOff s (policyFallback r t) := by
  unfold policyFallback
  split
  · exact credentialDecided_staysOff h
  · exact onSession_staysOff h
  · exact h
  · exact onSession_staysOff h

theorem policyAnswered_staysOff {r : PolicyRequest} {accept : Bool} {schedules : List Byte} (h : CoilsStayOff s t) :
    CoilsStayOff s (policyAnswered r accept schedules t) := by
  unfold policyAnswered
  split
  · exact credentialDecided_staysOff h
  · exact onSession_staysOff h
  · exact .ite (onSession_staysOff h) (.ite (onSession_staysOff h) h)

theorem policyTimeout_staysOff {kind : PolicyKind} (h : CoilsStayOff s t) : CoilsStayOff s (policyTimeout o kind t) := by
  refine .ite h ?_
  split
  · exact h
  · exact policyFallback_staysOff h.same

theorem answerPolicy_staysOff (q : List Byte) (v : State) (h : CoilsStayOff s v) :
    CoilsStayOff s (answerPolicy cmd q v).2 := by
  refine checked_staysOff ?_ h
  split
  · exact h
  · split
    · exact policyAnswered_staysOff h.same
    · split
      · exact .after lateAnswer_within h
      · exact h

theorem policyAnswer_staysOff (h : CoilsStayOff s t) : CoilsStayOff s (policyAnswer cmd t) :=
  runCmd_staysOff (acts_staysOff answerPolicy_staysOff) h

theorem endSession_staysOff (h : CoilsStayOff s t) : CoilsStayOff s (endSession cmd t) := by
  refine runCmd_staysOff (onFescue_staysOff fun _ _ hu => checked_staysOff ?_ hu) h
  dsimp only
  split
  · exact hu
  · exact stopSession_staysOff hu

variable {a : AerialNo} {used : Bool}

theorem handleCard_staysOff {card : Card} (h : CoilsStayOff s t) : CoilsStayOff s (handleCard a used card t).2 := by
  have seen {f} : CoilsStayOff s (t.onAerial a f) := .after State.onAerial_within h
  unfold handleCard
  extract_lets ref w o v
  split
  · exact seen
  · split
    · exact .after reportCredential_within seen
    · exact present_staysOff (.after State.onAerial_within seen)

theorem handleCards_staysOff : ∀ {cards : List Card} {used : Bool} {t : State}, CoilsStayOff s t →
    CoilsStayOff s (handleCards a used cards t)
  | [], _, _, h => h
  | _ :: _, _, _, h => by
    rw [handleCards]
    exact handleCards_staysOff (handleCard_staysOff h)

theorem startPoll_staysOff {amp : Nat} {phase : Int} {cards : List Card} (h : CoilsStayOff s t) :
    CoilsStayOff s (startPoll a amp phase cards t) := handleCards_staysOff (.after State.onAerial_within h)

theorem aerialPing_staysOff {amp : Nat} {phase : Int} {cards : List Card} (h : CoilsStayOff s t) :
    CoilsStayOff s (aerialPing a amp phase cards t) := by
  have freed : CoilsStayOff s (freePort (aerialPort a) t) := .after freePort_within h
  refine .ite h <| .ite (.after State.onAerial_within freed) ?_
  split
  · exact freed
  · exact startPoll_staysOff freed
  · exact .after State.onAerial_within freed

/-! ### Pilot states -/

theorem unplugged_staysOff (h : CoilsStayOff s t) : CoilsStayOff s (unplugged o t) := by
  unfold unplugged
  extract_lets ended keep
  have endedOff : CoilsStayOff s ended := endSessionNow_staysOff h
  clear_value ended
  exact .after refreshDrive_within endedOff.same

theorem notReady_staysOff (h : CoilsStayOff s t) : CoilsStayOff s (notReady o t) :=
  .ite (stopSession_staysOff (.ite (fescueOpen_staysOff h) h)) (.ite (fescueOpen_staysOff h) h)

theorem sessionOnState_staysOff {old new : PilotState} (h : CoilsStayOff s t) :
    CoilsStayOff s (sessionOnState o old new t) := by
  have ready : CoilsStayOff s (if old == .C || old == .D then t else nowReady o t) := .ite h (.after nowReady_within h)
  cases new with
  | A => exact unplugged_staysOff h
  | B => exact .ite (.after plugged_within (.ite (notReady_staysOff h) h)) (.ite (notReady_staysOff h) h)
  | C => exact ready
  | D => exact ready
  | _ => exact h

theorem judgeReport_staysOff {old new : PilotState} (h : CoilsStayOff s t) : CoilsStayOff s (judgeReport o old new t) := by
  refine .ite h ?_
  cases new with
  | A => exact .ite (tripP_staysOff h) h
  | E => exact tripP_staysOff h
  | F => exact tripP_staysOff h
  | _ => exact h

theorem changeState_staysOff {new : PilotState} {inval : Bool} (h : CoilsStayOff s t) :
    CoilsStayOff s (changeState o new inval t) := by
  unfold changeState
  extract_lets old now p g raised
  have raise : CoilsStayOff s raised := .after raise_within (onGuard_staysOff (.after State.onPilot_within h))
  exact .after refreshDrive_within <| sessionOnState_staysOff <| judgeReport_staysOff <|
    .ite (.after discardDuty_within raise) raise

theorem filteredChange_staysOff {cls : PilotClass} (h : CoilsStayOff s t) : CoilsStayOff s (filteredChange o cls t) :=
  .ite h <| .ite (.after State.onPilot_within h) (changeState_staysOff h)

theorem proxChange_staysOff {reads : List ProxRead} (h : CoilsStayOff s t) : CoilsStayOff s (proxChange o reads t) := by
  unfold proxChange
  extract_lets kept code moved p raised stopped
  have raise : CoilsStayOff s raised := .after raise_within (.after State.onPilot_within (.after moveWindow_within h))
  exact .ite h <| .ite (.after moveWindow_within h) <| .after refreshDrive_within <|
    .ite (stopSession_staysOff (fescueOpen_staysOff raise)) raise

theorem offerTimeout_staysOff (h : CoilsStayOff s t) : CoilsStayOff s (offerTimeout o t) :=
  .ite (.after State.onPilot_within (fescueOpen_staysOff h)) h

/-! ### The vehicle's messages -/

theorem request_staysOff {protos phases : List Nat} {act : State → State} (ha : CoilsStayOff s (act t))
    (h : CoilsStayOff s t) : CoilsStayOff s (request o protos phases act t) :=
  .ite h (.ite ha (v2gEnd_staysOff h))

theorem requiring_staysOff {ok : State → Bool} {act : State → State} (ha : CoilsStayOff s (act t))
    (h : CoilsStayOff s t) : CoilsStayOff s (requiring o ok act t) := .ite ha (v2gEnd_staysOff h)

theorem sendAnswer_staysOff {x : V2gAnswer} (h : CoilsStayOff s t) : CoilsStayOff s (sendAnswer o x t) :=
  .after sendAnswer_within h

theorem supportedAppProtocol_staysOff {ranking : List Proto} (h : CoilsStayOff s t) :
    CoilsStayOff s (supportedAppProtocol o ranking t) := by
  refine request_staysOff ?_ h
  split
  · exact sendAnswer_staysOff (onSession_staysOff h)
  · exact v2gEnd_staysOff h

theorem sessionSetup_staysOff (h : CoilsStayOff s t) : CoilsStayOff s (sessionSetup o t) :=
  request_staysOff (sendAnswer_staysOff h) h

theorem serviceDiscovery_staysOff (h : CoilsStayOff s t) : CoilsStayOff s (serviceDiscovery o t) :=
  request_staysOff (sendAnswer_staysOff h) h

variable {service : V2gService}

theorem serviceDetail_staysOff (h : CoilsStayOff s t) : CoilsStayOff s (serviceDetail o service t) :=
  request_staysOff (requiring_staysOff (sendAnswer_staysOff h) h) h

theorem serviceSelection_staysOff {contract : Bool} (h : CoilsStayOff s t) :
    CoilsStayOff s (serviceSelection o service contract t) :=
  request_staysOff (requiring_staysOff (sendAnswer_staysOff (onSession_staysOff h)) h) h

variable {id : List Byte} {sigOk chainOk : Bool}

theorem paymentDetails_staysOff (h : CoilsStayOff s t) : CoilsStayOff s (paymentDetails o id chainOk t) :=
  have verified : CoilsStayOff s (verifyRoot [5, 6] t).2 := .after verifyRoot_within h
  request_staysOff (requiring_staysOff
    (.ite (sendAnswer_staysOff (onSession_staysOff verified)) (v2gEnd_staysOff verified)) h) h

theorem authorizationSetup_staysOff (h : CoilsStayOff s t) : CoilsStayOff s (authorizationSetup o t) :=
  request_staysOff (sendAnswer_staysOff h) h

theorem authorizeContract_staysOff (h : CoilsStayOff s t) : CoilsStayOff s (authorizeContract o ref t) :=
  .ite (sendAnswer_staysOff (onSession_staysOff h)) (present_staysOff (sendAnswer_staysOff (onSession_staysOff h)))

theorem contractAsks_staysOff (h : CoilsStayOff s t) : CoilsStayOff s (contractAsks o sigOk chainOk id t) := by
  have chain : CoilsStayOff s (contractChain o chainOk t).2 := .after contractChain_within h
  refine .ite (v2gEnd_staysOff h) ?_
  split
  next e => exact authorizeContract_staysOff (chain.of_snd e)
  next e => exact v2gEnd_staysOff (chain.of_snd e)

theorem authorization_staysOff (h : CoilsStayOff s t) : CoilsStayOff s (authorization o sigOk chainOk id t) :=
  request_staysOff (requiring_staysOff (.ite (sendAnswer_staysOff h) <|
    .ite (contractAsks_staysOff h) (.after authorizeOther_within h)) h) h

variable {most current : Nat}

theorem parameters_staysOff (h : CoilsStayOff s t) : CoilsStayOff s (parameters o most t) := by
  unfold parameters
  refine .ite (v2gEnd_staysOff h) ?_
  extract_lets v limit
  have phased : CoilsStayOff s v := .ite (.after setPhase_within h) h
  exact .ite (.after waitFor_within phased) (sendAnswer_staysOff (onSession_staysOff phased))

theorem chargeParameterDiscovery_staysOff (h : CoilsStayOff s t) :
    CoilsStayOff s (chargeParameterDiscovery o most t) :=
  request_staysOff (requiring_staysOff (parameters_staysOff h) h) h

theorem scheduleExchange_staysOff {dynamic : Bool} (h : CoilsStayOff s t) :
    CoilsStayOff s (scheduleExchange o dynamic t) :=
  have settled {f} : CoilsStayOff s (settleDischarge o (t.onSession o f)) :=
    .after settleDischarge_within (onSession_staysOff h)
  request_staysOff (.ite (.after waitFor_within settled) (sendAnswer_staysOff settled)) h

theorem cableCheck_staysOff (h : CoilsStayOff s t) : CoilsStayOff s (cableCheck o t) :=
  request_staysOff (requiring_staysOff (sendAnswer_staysOff (.ite (.after setPhase_within h) h)) h) h

theorem preCharge_staysOff (h : CoilsStayOff s t) : CoilsStayOff s (preCharge o t) :=
  request_staysOff (requiring_staysOff (sendAnswer_staysOff h) h) h

theorem powerStart_staysOff (h : CoilsStayOff s t) : CoilsStayOff s (powerStart o t) :=
  requiring_staysOff (sendAnswer_staysOff (.ite h (.after setPhase_within h))) h

theorem renegotiate_staysOff (h : CoilsStayOff s t) : CoilsStayOff s (renegotiate o t) :=
  requiring_staysOff (sendAnswer_staysOff (.ite (.after askHost_within h) h)) h

theorem powerDelivery_staysOff {kind : PowerKind} (h : CoilsStayOff s t) : CoilsStayOff s (powerDelivery o kind t) := by
  refine request_staysOff ?_ h
  cases kind with
  | start => exact powerStart_staysOff h
  | stop => exact sendAnswer_staysOff (stopSession_staysOff h)
  | renegotiate => exact renegotiate_staysOff h

theorem chargeLoop_staysOff {protos : List Nat} {dc : Bool} (h : CoilsStayOff s t) :
    CoilsStayOff s (chargeLoop o protos dc current t) :=
  request_staysOff (requiring_staysOff (.after loopAnswer_within h) h) h

theorem meteringReceipt_staysOff (h : CoilsStayOff s t) : CoilsStayOff s (meteringReceipt o t) :=
  request_staysOff (sendAnswer_staysOff h) h

theorem weldingDetection_staysOff (h : CoilsStayOff s t) : CoilsStayOff s (weldingDetection o t) :=
  request_staysOff (requiring_staysOff (sendAnswer_staysOff (.ite (.after setPhase_within h) h)) h) h

theorem completeStop_staysOff (h : CoilsStayOff s t) : CoilsStayOff s (completeStop o t) :=
  endSessionNow_staysOff (stopSession_staysOff h)

theorem sessionStopMessage_staysOff {pause : Bool} (h : CoilsStayOff s t) :
    CoilsStayOff s (sessionStopMessage o pause t) :=
  request_staysOff (requiring_staysOff (sendAnswer_staysOff (completeStop_staysOff (onSession_staysOff h))) h) h

theorem unsupported_staysOff (h : CoilsStayOff s t) : CoilsStayOff s (unsupported o t) := .ite (v2gEnd_staysOff h) h

theorem sequenceTimeout_staysOff (h : CoilsStayOff s t) : CoilsStayOff s (sequenceTimeout o t) :=
  .ite (completeStop_staysOff h) h

theorem relayCertificate_staysOff {kind : Nat} {checkOk : Bool} (h : CoilsStayOff s t) :
    CoilsStayOff s (relayCertificate o kind checkOk t) := by
  have verified : CoilsStayOff s (verifyRoot [7] t).2 := .after verifyRoot_within h
  unfold relayCertificate
  split
  next e =>
    replace verified := verified.of_snd e
    exact .ite (v2gEnd_staysOff verified) <|
      .ite (sendAnswer_staysOff verified) (.after raise_within verified.same)

theorem certificateInstallation_staysOff {checkOk : Bool} (h : CoilsStayOff s t) :
    CoilsStayOff s (certificateInstallation o checkOk t) := request_staysOff (relayCertificate_staysOff h) h

theorem certificateUpdate_staysOff {checkOk : Bool} (h : CoilsStayOff s t) :
    CoilsStayOff s (certificateUpdate o checkOk t) := request_staysOff (relayCertificate_staysOff h) h

theorem tlsPresent_staysOff {version : Nat} {suite : CipherSuite} (h : CoilsStayOff s t) :
    CoilsStayOff s (tlsPresent o version suite t) := by
  unfold tlsPresent
  extract_lets read
  have readOff : CoilsStayOff s read := .after readChain_within h
  have used {w : BitVec 16} {n k : Nat} : CoilsStayOff s (useMapped w n k read).2 := .after useMapped_within readOff
  refine .ite (v2gEnd_staysOff readOff) ?_
  split
  next e => exact onSession_staysOff (used.of_snd e)
  next e => exact v2gEnd_staysOff (used.of_snd e)

theorem tlsHandshake_staysOff {offer : TlsOffer} (h : CoilsStayOff s t) : CoilsStayOff s (tlsHandshake o offer t) := by
  refine .ite h ?_
  split
  · exact v2gEnd_staysOff h
  · split
    · exact v2gEnd_staysOff h
    · exact tlsPresent_staysOff h

theorem coreSilent_staysOff {k : CoreNo} (h : CoilsStayOff s t) : CoilsStayOff s (coreSilent k t) :=
  .ite h <| .after bringSpare_within <|
    .foldl (fun _ _ hu => .ite (holdSession_staysOff hu) hu) _ (.after raise_within h.same)

theorem dcHoldExpiry_staysOff (h : CoilsStayOff s t) : CoilsStayOff s (dcHoldExpiry o t) := .ite (fescueOpen_staysOff h) h

/-! ### Memory errors, tokens and lifecycle -/

theorem vaultOutletError_staysOff (h : CoilsStayOff s t) : CoilsStayOff s (vaultOutletError o t) :=
  sessionLosesTls_staysOff (.after memEvent_within h.same)

theorem uncorrectable_staysOff {place : MemPlace} (h : CoilsStayOff s t) : CoilsStayOff s (uncorrectable place t) := by
  cases place with
  | pool => exact .after poolError_within h
  | pad => exact .after memEvent_within h.same
  | vaultOutlet => exact vaultOutletError_staysOff h
  | vaultHost => exact .after vaultHostError_within h
  | save => exact .after loseSave_within h
  | saveBoth => exact .after loseSaves_within h
  | ochre => exact .after memEvent_within h
  | tag => exact .after tagMemoryError_within h
  | store => exact .after storeError_within h
  | hasulin => exact .after linkError_within h
  | quantity => exact .after memEvent_within h

theorem foundError_staysOff {e : FoundError} (h : CoilsStayOff s t) : CoilsStayOff s (foundError e t) := by
  unfold foundError
  split
  · exact h
  · exact .after correctedAt_within h
  · exact uncorrectable_staysOff h

theorem scrubPass_staysOff {found : List FoundError} (h : CoilsStayOff s t) : CoilsStayOff s (scrubPass found t) :=
  .foldl (fun _ _ => foundError_staysOff) _ h

theorem debugUnlock_staysOff {token : List Byte} (h : CoilsStayOff s t) : CoilsStayOff s (debugUnlock token t) := by
  have judged : CoilsStayOff s (tokenValid 2 (debugStep t) token t).2 := .after tokenValid_within h
  refine .ite h ?_
  split
  next e => exact judged.of_snd e
  next e => exact .after settle_within (.after raise_within (wipeVault_staysOff (judged.of_snd e).same))

theorem makeMove_staysOff {dest : Lifecycle} (h : CoilsStayOff s t) : CoilsStayOff s (makeMove dest t) := by
  unfold makeMove
  extract_lets frm keys pair evt moved tag blank och killed ended
  have blankOff : CoilsStayOff s blank := .ite h.same h.same
  have endedOff : CoilsStayOff s ended := .ite blankOff.same blankOff
  exact .after settle_within <| .after writeIdentity_within <| .after raise_within <| wipeVault_staysOff endedOff

theorem lifecycleMove_staysOff (h : CoilsStayOff s t) : CoilsStayOff s (lifecycleMove cmd t) := by
  unfold lifecycleMove
  extract_lets q v
  have judged : CoilsStayOff s v := runCmd_staysOff (fun q u hu => by
    have hm : CoilsStayOff s (moveRefusal cmd q u).2 := .after moveRefusal_within hu
    split
    next e => exact hm.of_snd e
    next e => exact hm.of_snd e) h
  refine .ite ?_ judged
  split
  · exact makeMove_staysOff judged
  · exact judged

/-! ### Pair operation -/

theorem runForwarded1_staysOff (h : CoilsStayOff s t) : CoilsStayOff s (runForwarded1 op cmd t) := by
  unfold runForwarded1
  split
  exacts [.after enterCommissioning_within h, .after leaveCommissioningCmd_within h, dieReset_staysOff h,
    .after networkSettings_within h, .after mailboxKeySlots_within h, .after setQspiAuthority_within h,
    .after outletRoleAssignment_within h, .after userCalibration_within h, .after meteringMode_within h,
    .after acknowledgeLegalLog_within h, .after confirmExport_within h, .after tariffParameters_within h,
    .after loadPassiveCalendar_within h, .after setLegalTime_within h, .after demandInterval_within h,
    .after confirmTariffSwitch_within h, .after displaySelection_within h, h]

theorem runForwarded2_staysOff (h : CoilsStayOff s t) : CoilsStayOff s (runForwarded2 op cmd t) := by
  unfold runForwarded2
  split
  exacts [.after vehicleLinkConfiguration_within h, .after loadLimit_within h, .after sessionMode_within h,
    policyAnswer_staysOff h, .after certificateAnswer_within h, endSession_staysOff h, .after setEnable_within h,
    clearEnable_staysOff h, openRequest_staysOff h, .after lockoutRelease_within h, brakeCommand_staysOff h,
    classERequest_staysOff h, .after writeLimitedSetting_within h, .after channelConfiguration_within h,
    .after channelControl_within h, .after channelRule_within h, .after hostFlags_within h,
    .after aggregateMaximum_within h, h]

theorem runForwarded3_staysOff (h : CoilsStayOff s t) : CoilsStayOff s (runForwarded3 op cmd t) := by
  unfold runForwarded3
  split
  exacts [.after siteLineConfiguration_within h, .after linkEntry_within h, .after sendFrame_within h,
    .after beaconBytes_within h, .after contactlessConfiguration_within h, .after loadAllowlist_within h,
    .after cardExchange_within h, .after tagMemory_within h, .after writeKey_within h, .after loadShadow_within h,
    .after testShadow_within h, .after commitShadow_within h, lifecycleMove_staysOff h,
    .after plannedHandover_within h, .after clearSuspectCmd_within h, .after openStaging_within h,
    .after imageBody_within h, .after imageCommit_within h, .after stagingAbort_within h,
    .after eventRouting_within h, .after clearPending_within h, h]

theorem runForwarded_staysOff (h : CoilsStayOff s t) : CoilsStayOff s (runForwarded op cmd t) :=
  .ite (runForwarded1_staysOff h) (.ite (runForwarded2_staysOff h) (runForwarded3_staysOff h))

theorem runDue_staysOff (h : CoilsStayOff s t) : CoilsStayOff s (runDue t) :=
  .foldl (fun _ _ => runForwarded_staysOff) _ h.same

theorem replay_staysOff (h : CoilsStayOff s t) : CoilsStayOff s (replay t) :=
  .foldl (fun _ _ => runForwarded_staysOff) _ h.same

theorem takeTransfer_staysOff {x : TransferContent} (h : CoilsStayOff s t) : CoilsStayOff s (takeTransfer x t) :=
  .foldl (fun _ _ => .after takeChannel_within) _ <| .foldl (fun _ _ => runForwarded_staysOff) _ <|
    .foldl (fun _ _ => .after takeKey_within) _ <| .foldl (fun _ _ => .after takeSession_within) _ h

theorem transferEnds_staysOff {full : Bool} {x : TransferContent} (h : CoilsStayOff s t) :
    CoilsStayOff s (transferEnds full x t) := by
  unfold transferEnds
  refine .ite h ?_
  extract_lets taken
  have takenOff : CoilsStayOff s taken := .ite (replay_staysOff (takeTransfer_staysOff h)) h
  clear_value taken
  exact .after settle_within (.after refreshDrives_within (.after resumeHandover_within takenOff.same))

theorem openExtra_staysOff (h : CoilsStayOff s t) : CoilsStayOff s (openExtra t) :=
  forEach_staysOff (fun _ _ hu => .ite (openPair_staysOff hu) hu) (.after takeFree_within h)

theorem standbyMismatch_staysOff {bits : Nat} (h : CoilsStayOff s t) : CoilsStayOff s (standbyMismatch bits t) := by
  unfold standbyMismatch
  extract_lets mismatched opened
  have missed : CoilsStayOff s mismatched := .after mismatch_within h
  have openOff : CoilsStayOff s opened := .ite (openExtra_staysOff missed) missed
  exact .ite (.after startTransfer_within openOff) openOff

theorem compareDigests_staysOff {digest : Option (Nat × Digest)} (h : CoilsStayOff s t) :
    CoilsStayOff s (compareDigests digest t) := by
  unfold compareDigests
  split
  · exact h
  · exact .ite h (.ite (standbyMismatch_staysOff h) (.after activeMismatch_within h))

theorem epochStart_staysOff {digest : Option (Nat × Digest)} {acked : Bool} (h : CoilsStayOff s t) :
    CoilsStayOff s (epochStart digest acked t) := by
  unfold epochStart
  refine .ite h ?_
  extract_lets kept pair begun active
  have keptOff : CoilsStayOff s kept := .after keepDigest_within h
  clear_value kept
  have begunOff : CoilsStayOff s begun := .after sendSealed_within keptOff.same
  have activeOff : CoilsStayOff s active := .ite (.after becomeActive_within begunOff) begunOff
  exact .after settle_within <| .after refreshDrives_within <| compareDigests_staysOff <| .after handoverDue_within <|
    .after checkAck_within <| .after renewLease_within <| runDue_staysOff activeOff

theorem dropOutOfStep_staysOff (h : CoilsStayOff s t) : CoilsStayOff s (dropOutOfStep t) :=
  .ite (forEach_staysOff (fun _ _ hu => .ite (holdSession_staysOff hu) hu) h.same) h

theorem takeover_staysOff (h : CoilsStayOff s t) : CoilsStayOff s (takeover t) :=
  .ite (.after takeLease_within (dropOutOfStep_staysOff h)) h

/-! ### Commands -/

/-- What holds of the state that an operation leaves holds of the answer of the command that runs it. -/
theorem CoilsStayOff.of_next (h : CoilsStayOff s u) (e : (.next u : Host.Outcome State Fault Refusal) = .next t) :
    CoilsStayOff s t := Host.Outcome.next.inj e ▸ h

/-- Every command but the switching on keeps pairs off: by its footprint where that leaves the pairs alone, and by its
operation otherwise. -/
theorem exec_staysOff {i : Instr} (hi : ∀ o, i ≠ .coilPairSwitchOn o) (h : exec i s = .next t) : CoilsStayOff s t := by
  have start := CoilsStayOff.refl s
  cases pairs : (footprint i).testBit 17 with
  | false => exact .after (exec_within i h) start pairs
  | true =>
    have turns : onNumeral (·.testBit 17) (footprint i) = true := (onNumeral_eq _ _).trans pairs
    cases i with
    | coilPairSwitchOn o => exact absurd rfl (hi o)
    | mainSuppliesInRange => exact (supplyReturns_staysOff start).of_next h
    | mainSupplyOutOfRange => exact (supplyLost_staysOff start).of_next h
    | pfwOutputOpen => exact (pfwOpen_staysOff start).of_next h
    | pfwDeassert => exact (pfwDeassert_staysOff start).of_next h
    | lockstepMismatch => exact (lockstepMismatch_staysOff start).of_next h
    | russetWatchdogExpiry => exact (russetWatchdog_staysOff start).of_next h
    | fescueHeartbeatLoss => exact (fescueLoss_staysOff start).of_next h
    | milletHeartbeat => exact (milletBeat_staysOff start).of_next h
    | milletHeartbeatLoss => exact (beatLost_staysOff start).of_next h
    | controlStartLimitExpiry => exact (startLimit_staysOff start).of_next h
    | measuredStartComplete => exact (startEnds_staysOff start).of_next h
    | quantityFrame => exact (quantityFrame_staysOff start).of_next h
    | quantityStreamTimeout => exact (streamTimeout_staysOff start).of_next h
    | streamStaleLockout => exact (streamLockout_staysOff start).of_next h
    | closeRequest => exact (closeRequest_staysOff start).of_next h
    | coilHighSideOn => exact (highSideOn_staysOff start).of_next h
    | coilTurnOnCheck => exact (turnOnCheck_staysOff start).of_next h
    | fescueOpenRequest => exact (CoilsStayOff.ite (openPair_staysOff start) start).of_next h
    | sessionStart => exact (sessionStart_staysOff start).of_next h
    | inputInvalidTimeout => exact (inputInvalidTimeout_staysOff start).of_next h
    | tamperChange => exact (tamperChange_staysOff start).of_next h
    | filteredStateChange => exact (filteredChange_staysOff start).of_next h
    | proxCodeChange => exact (proxChange_staysOff start).of_next h
    | offerWithdrawalTimeout => exact (offerTimeout_staysOff start).of_next h
    | v2gSupportedAppProtocol => exact (supportedAppProtocol_staysOff start).of_next h
    | v2gSessionSetup => exact (sessionSetup_staysOff start).of_next h
    | v2gServiceDiscovery => exact (serviceDiscovery_staysOff start).of_next h
    | v2gServiceDetail => exact (serviceDetail_staysOff start).of_next h
    | v2gServiceSelection => exact (serviceSelection_staysOff start).of_next h
    | v2gPaymentDetails => exact (paymentDetails_staysOff start).of_next h
    | v2gAuthorizationSetup => exact (authorizationSetup_staysOff start).of_next h
    | v2gAuthorization => exact (authorization_staysOff start).of_next h
    | v2gChargeParameterDiscovery => exact (chargeParameterDiscovery_staysOff start).of_next h
    | v2gScheduleExchange => exact (scheduleExchange_staysOff start).of_next h
    | v2gCableCheck => exact (cableCheck_staysOff start).of_next h
    | v2gPreCharge => exact (preCharge_staysOff start).of_next h
    | v2gPowerDelivery => exact (powerDelivery_staysOff start).of_next h
    | v2gCurrentDemand => exact (chargeLoop_staysOff start).of_next h
    | v2gChargingStatus => exact (chargeLoop_staysOff start).of_next h
    | v2gAcChargeLoop => exact (chargeLoop_staysOff start).of_next h
    | v2gDcChargeLoop => exact (chargeLoop_staysOff start).of_next h
    | v2gMeteringReceipt => exact (meteringReceipt_staysOff start).of_next h
    | v2gWeldingDetection => exact (weldingDetection_staysOff start).of_next h
    | v2gCertificateInstallation => exact (certificateInstallation_staysOff start).of_next h
    | v2gCertificateUpdate => exact (certificateUpdate_staysOff start).of_next h
    | v2gSessionStop => exact (sessionStopMessage_staysOff start).of_next h
    | v2gUnsupportedMessage => exact (unsupported_staysOff start).of_next h
    | tlsHandshake => exact (tlsHandshake_staysOff start).of_next h
    | sequenceTimeout => exact (sequenceTimeout_staysOff start).of_next h
    | policyTimeout => exact (policyTimeout_staysOff start).of_next h
    | sessionCoreSilent => exact (coreSilent_staysOff start).of_next h
    | dcHoldExpiry => exact (dcHoldExpiry_staysOff start).of_next h
    | fastPathOverRange => exact (fastPath_staysOff start).of_next h
    | rcdHoldExpiry => exact (holdExpiry_staysOff start).of_next h
    | injectorFailure => exact (injectorFailure_staysOff start).of_next h
    | weldCheck => exact (weldCheck_staysOff start).of_next h
    | peLossDc => exact (peLossDc_staysOff start).of_next h
    | redundantCurrentDisagreement => exact (redundantDisagreement_staysOff start).of_next h
    | estopLevelAccepted => exact (estopLevel_staysOff start).of_next h
    | estopDiscrepancy => exact (estopDiscrepancy_staysOff start).of_next h
    | tripRelay => exact (CoilsStayOff.ite (relayedTrip_staysOff start) start).of_next h
    | switchOverCurrent => exact (overCurrent_staysOff start).of_next h
    | readbackDeparture => exact (readbackDeparture_staysOff start).of_next h
    | pulseTestStart => exact (startTest_staysOff start).of_next h
    | offPulseCheck => exact (offPulseCheck_staysOff start).of_next h
    | offPulseEnd => exact (offPulseEnd_staysOff start).of_next h
    | offPulseRestoreCheck => exact (offPulseRestore_staysOff start).of_next h
    | onPulseCheck => exact (onPulseCheck_staysOff start).of_next h
    | onPulseEnd => exact (onPulseEnd_staysOff start).of_next h
    | mirrorTimeout => exact (mirrorTimeout_staysOff start).of_next h
    | mirrorUncommandedChange => exact (mirrorUncommanded_staysOff start).of_next h
    | brakeReleaseCheck => exact (releaseCheck_staysOff start).of_next h
    | brakeEngageCheck => exact (engageCheck_staysOff start).of_next h
    | brakeCurrentFault => exact (currentFault_staysOff start).of_next h
    | holdingTestMovement => exact (holdingMovement_staysOff start).of_next h
    | holdingTestEnd => exact (holdingEnd_staysOff start).of_next h
    | classETimerExpiry => exact (classEExpiry_staysOff start).of_next h
    | classEOvercurrent => exact (classEOvercurrent_staysOff start).of_next h
    | resetInputRelease => exact (resetReleased_staysOff start).of_next h
    | mirrorGrant => exact (mirrorGrant_staysOff start).of_next h
    | aerialPing => exact (aerialPing_staysOff start).of_next h
    | authFallback => exact (policyTimeout_staysOff start).of_next h
    | dieReset => exact (dieReset_staysOff start).of_next h
    | policyAnswer => exact (policyAnswer_staysOff start).of_next h
    | endSession => exact (endSession_staysOff start).of_next h
    | clearEnable => exact (clearEnable_staysOff start).of_next h
    | openRequest => exact (openRequest_staysOff start).of_next h
    | brakeEngage => exact (brakeCommand_staysOff start).of_next h
    | brakeRelease => exact (brakeCommand_staysOff start).of_next h
    | brakeHoldingTest => exact (brakeCommand_staysOff start).of_next h
    | classERequest => exact (classERequest_staysOff start).of_next h
    | lifecycleMove => exact (lifecycleMove_staysOff start).of_next h
    | scrubPass => exact (CoilsStayOff.ite (.after settle_within (scrubPass_staysOff start)) start).of_next h
    | uncorrectableError => exact (CoilsStayOff.ite start (.after settle_within (foundError_staysOff start))).of_next h
    | debugUnlockToken => exact (debugUnlock_staysOff start).of_next h
    | epochStart => exact (epochStart_staysOff start).of_next h
    | stateTransferComplete => exact (transferEnds_staysOff start).of_next h
    | standbyTakeover => exact (takeover_staysOff start).of_next h
    | _ => exact absurd turns Bool.false_ne_true

end

/-- The switching on leaves every other outlet's pair off, and its own where Russet does not run or no turn-on was
granted. -/
theorem switchOn_cmd {s : State} {o i : OutletNo} (off : (s.rus.pair.at (coilOf i)).cmd = false)
    (on : ((switchOn o s).rus.pair.at (coilOf i)).cmd = true) :
    o = i ∧ russetRuns s = true ∧ (s.rus.pair.at (coilOf o)).turn = .granted := by
  unfold switchOn at on
  split at on
  next granted =>
    simp only [Bool.and_eq_true, decide_eq_true_eq] at granted
    refine ⟨?_, granted⟩
    by_contra other
    have kept : coilOf o ≠ coilOf i := fun e => other (coilOf_inj e)
    extract_lets now low turned at on
    have unturned : (turned.rus.pair.at (coilOf i)).cmd = false := by simpa [turned, low, State.onPair, kept] using off
    have stays := CoilsStayOff.ite (c := (turned.rus.outlet.at o).weldAt.isSome = true)
      (.after (weldNotTested_within (o := o)) (.refl turned)) (.refl turned)
    exact absurd ((stays i unturned).symm.trans on) Bool.false_ne_true
  next => simp [off] at on

/-- Settles O51: outside the switching on, pairs stay off. -/
theorem outletPairsSwitchOnByOneCommand : Obligations.OutletPairsSwitchOnByOneCommand := by
  intro i s t o h off on
  by_cases hi : ∃ k, i = .coilPairSwitchOn k
  · obtain ⟨k, rfl⟩ := hi
    obtain rfl : switchOn k s = t := Host.Outcome.next.inj h
    obtain ⟨rfl, runs, granted⟩ := switchOn_cmd off on
    exact ⟨rfl, by simpa [russetRuns] using runs, granted⟩
  · have stays := exec_staysOff (fun k e => hi ⟨k, e⟩) h o off
    exact absurd (stays.symm.trans on) Bool.false_ne_true

end Sys2Proof.Machine

/-! SUPPORT. The decision of each detector of Russet (O6): one equation per detector, for the state in which its rule
decides. -/

namespace Sys2Proof.Machine

set_option Elab.async false

section
variable {s : State} {o : OutletNo}

theorem russetRuns_of_running (h : s.dies.russet = .running) : russetRuns s = true := by rw [russetRuns, h]; rfl

/-! ### Detectors of excursions and holds -/

theorem fastPath_of_detects {i : InputNo} {bits : Bits} {positive : Bool} (runs : russetRuns s = true)
    (enabled : wBit (s.rus.fast.at i).now 15 = true) (locked : (s.rus.capture.at i).unlocked = false)
    (detects : fastDetects (s.rus.fast.at i).now bits = some positive) :
    fastPath i bits s = if wBit (s.rus.fast.at i).now 12 then tripOpen (outletOf i) (if positive then 0x01 else 0x02) false s
      else tripP (outletOf i) (if positive then 0x01 else 0x02) false s := by
  simp [fastPath, runs, enabled, locked, detects]

theorem holdExpiry_dc {k : PointNo} (runs : russetRuns s = true) (fresh : s.rus.stream.stale = false)
    (used : rusType s o ≠ 0) (point : pointUsed (s.rus.outlet.at o).residual.dcCurve.now k = true)
    (first : ((s.rus.outlet.at o).residual.dcHold.at k).decided = false) :
    holdExpiry o true k s = tripP o 0x04 false (s.onGuard o fun g =>
      { g with residual.dcHold := (s.rus.outlet.at o).residual.dcHold.upd k fun h => { h with decided := true } }) :=
  if_pos (by simp [runs, fresh, used, point, first])

theorem holdExpiry_ac {k : PointNo} (runs : russetRuns s = true) (fresh : s.rus.stream.stale = false)
    (used : rusType s o ≠ 0) (point : pointUsed (s.rus.outlet.at o).residual.acCurve.now k = true)
    (first : ((s.rus.outlet.at o).residual.acHold.at k).decided = false) :
    holdExpiry o false k s = tripP o 0x03 false (s.onGuard o fun g =>
      { g with residual.acHold := (s.rus.outlet.at o).residual.acHold.upd k fun h => { h with decided := true } }) :=
  if_pos (by simp [runs, fresh, used, point, first])

/-! ### Detectors of an outlet's form -/

theorem injectorFailure_first (runs : russetRuns s = true) (dc : rusDc s o = true)
    (first : (s.rus.outlet.at o).iso.failed = false) :
    injectorFailure o s = tripE o 0x12 false (s.onGuard o fun g =>
      { g with iso := { g.iso with failed := true, frames := [], before := none } }) :=
  if_pos (by simp [runs, dc, first])

/-- A change of an outlet's guard that keeps its role keeps its type. -/
theorem rusType_onGuard {f : Guard → Guard} (hf : ∀ g, (f g).role = g.role) : rusType (s.onGuard o f) o = rusType s o := by
  simp [rusType, State.onGuard, hf]

theorem acWelded_onGuard {f : Guard → Guard} (hf : ∀ g, (f g).role = g.role) (fs : List (List Rat)) :
    acWelded (s.onGuard o f) o fs = acWelded s o fs := by
  simp [acWelded, rusSlotEn, State.onGuard, hf]

theorem weldCheck_ac {fs : List (List Rat)} (runs : russetRuns s = true) (ac : rusType s o = 1 ∨ rusType s o = 2)
    (due : (s.rus.outlet.at o).weldAt.isSome = true) (welded : acWelded s o fs = true) :
    weldCheck o fs s = tripP o 0x06 false (s.onGuard o fun g =>
      { g with weldAt := none, fault := { g.fault with weldNt := false } }) := by
  have used : rusType s o ≠ 0 := by omega
  have notDc : rusDc s o = false := by
    rw [rusDc, beq_eq_false_iff_ne]
    omega
  have notDcAfter {f : Guard → Guard} (hf : ∀ g, (f g).role = g.role) : rusDc (s.onGuard o f) o = false := by
    rw [rusDc, rusType_onGuard hf]
    exact notDc
  simp [weldCheck, runs, Option.isNone_eq_false_iff.mpr due, used, notDc, notDcAfter, acWelded_onGuard, welded]

theorem peLossDc_energised (runs : russetRuns s = true) (dc : rusDc s o = true) (on : pairOn s o = true) :
    peLossDc o s = tripP o 0x0A false s :=
  if_pos (by simp [runs, dc, on])

theorem redundantDisagreement_first (runs : russetRuns s = true) (dc : rusDc s o = true)
    (first : (s.rus.outlet.at o).iredBad < 313) :
    redundantDisagreement o s = tripE o 0x10 false (s.onGuard o fun g => { g with iredBad := 313, iredGood := 0 }) :=
  if_pos (by simp [runs, dc, first, frames20ms])

theorem redundantEnd_of_held (runs : russetRuns s = true) (held : (s.rus.outlet.at o).ce.causes.contains 0x10 = true) :
    redundantEnd o s = clearCause o 0x10 (s.onGuard o fun g => { g with iredBad := 0, iredGood := 15625 }) :=
  if_pos (by rw [runs, held]; rfl)

theorem inputInvalidTimeout_energised (runs : russetRuns s = true) (on : pairOn s o = true) :
    inputInvalidTimeout o s = tripP o 0x0F false s :=
  if_pos (by simp [runs, on])

/-! ### Class E -/

theorem supervisionStart_running (runs : russetRuns s = true) (classE : (s.rus.outlet.at o).fault.classE = true)
    (timed : (s.rus.outlet.at o).ce.expired = false) :
    supervisionStart o s = s.onGuard o fun g => { g with ce := { g.ce with supervised := true, overFor := 0 } } :=
  if_pos (by simp [runs, classE, timed])

theorem classEOvercurrent_supervised (runs : russetRuns s = true) (supervised : (s.rus.outlet.at o).ce.supervised = true)
    (rated : wFld (s.rus.outlet.at o).coilCfg.now 20 12 ≠ 0) : classEOvercurrent o s = tripOpen o 0x2C false s :=
  if_pos (by simp [runs, supervised, rated])

theorem classEExpiry_running (runs : russetRuns s = true) (classE : (s.rus.outlet.at o).fault.classE = true)
    (timed : (s.rus.outlet.at o).ce.ends ≠ 0) :
    classEExpiry o s = tripOpen o 0x2D false (s.onGuard o fun g => { g with ce := { g.ce with ends := 0, saved := 0 } }) :=
  if_pos (by simp [runs, classE, timed])

end

/-- Settles O6: one detector after the other. -/
theorem detectorsComplete : Obligations.DetectorsComplete := by
  intro s running
  have runs := russetRuns_of_running running
  exact ⟨fun _ _ _ enabled detects locked => congrArg Host.Outcome.next (fastPath_of_detects runs enabled locked detects),
    fun _ _ fresh used point first => congrArg Host.Outcome.next (holdExpiry_dc runs fresh used point first),
    fun _ _ fresh used point first => congrArg Host.Outcome.next (holdExpiry_ac runs fresh used point first),
    fun _ dc first => congrArg Host.Outcome.next (injectorFailure_first runs dc first),
    fun _ _ ac due welded => congrArg Host.Outcome.next (weldCheck_ac runs ac due welded),
    fun _ dc on => congrArg Host.Outcome.next (peLossDc_energised runs dc on),
    fun _ dc first => congrArg Host.Outcome.next (redundantDisagreement_first runs dc first),
    fun _ held => congrArg Host.Outcome.next (redundantEnd_of_held runs held),
    fun _ on => congrArg Host.Outcome.next (inputInvalidTimeout_energised runs on),
    fun _ classE timed => congrArg Host.Outcome.next (supervisionStart_running runs classE timed),
    fun _ supervised rated => congrArg Host.Outcome.next (classEOvercurrent_supervised runs supervised rated),
    fun _ classE timed => congrArg Host.Outcome.next (classEExpiry_running runs classE timed),
    fun _ _ => ⟨congrArg Host.Outcome.next (if_pos runs), congrArg Host.Outcome.next (if_pos runs)⟩⟩

end Sys2Proof.Machine

/-! SUPPORT. Legal time (O13): the tick, the final interval, the announcement of a tariff, and the tamper inputs with their
records. -/

namespace Sys2Proof.Machine

set_option Elab.async false

section
variable {s : State}

/-! ### The tick -/

theorem lt_nextTick (us quiet : Nat) : us < nextTick us quiet := by
  unfold nextTick minuteUs
  omega

@[simp] theorem advance_us (d : Nat) (s : State) : (advance d s).och.clock.us = s.och.clock.us + d := rfl

/-- The tick moves both clocks by the same time, and its minute's events leave them alone. -/
theorem legalTick_clock (quiet : Nat) (s : State) : (legalTick quiet s).och.clock =
    (advance (nextTick s.och.clock.us quiet - s.och.clock.us) s).och.clock := by
  unfold legalTick
  extract_lets moved
  split
  · rfl
  · exact kept_without_bit minuteTick_within.legalClockKept

theorem legalTick_quiet {quiet : Nat} {s : State}
    (h : s.och.clock.failedAt.isSome = true ∨ nextTick s.och.clock.us quiet % minuteUs ≠ 0) :
    legalTick quiet s = advance (nextTick s.och.clock.us quiet - s.och.clock.us) s := by
  have later := lt_nextTick s.och.clock.us quiet
  have there : s.och.clock.us + (nextTick s.och.clock.us quiet - s.och.clock.us) = nextTick s.och.clock.us quiet := by omega
  refine if_pos ?_
  simp only [advance_us, there, Bool.or_eq_true, decide_eq_true_eq]
  exact .inl h

/-! ### Final intervals -/

variable {o : OutletNo}

/-- Maxima do not touch the closing intervals and the totals. -/
theorem raiseMaxima_acc (i : Interval) (s : State) :
    ((raiseMaxima o i s).och.meter.at o).acc.closing = (s.och.meter.at o).acc.closing ∧
    ((raiseMaxima o i s).och.meter.at o).acc.totals = (s.och.meter.at o).acc.totals := by
  unfold raiseMaxima
  extract_lets f t
  split
  · split <;> exact ⟨rfl, rfl⟩
  · simp [State.onMeter, f, t]

theorem keepInterval_acc (i : Interval) (s : State) :
    ((keepInterval o i s).och.meter.at o).acc.closing = (s.och.meter.at o).acc.closing ∧
    ((keepInterval o i s).och.meter.at o).acc.totals = (s.och.meter.at o).acc.totals := by
  unfold keepInterval
  extract_lets ex j raised
  show (raised.och.meter.at o).acc.closing = _ ∧ (raised.och.meter.at o).acc.totals = _
  unfold raised
  split
  · exact ⟨rfl, rfl⟩
  · exact raiseMaxima_acc j s

/-- The last of a list's last elements is its last one. -/
theorem getLast?_drop_append {α : Type} (l : List α) (a : α) (n : Nat) :
    ((l ++ [a]).drop ((l ++ [a]).length - (n + 1))).getLast? = some a := by
  rw [List.getLast?_drop]
  simp

theorem keepInterval_latest (i : Interval) (s : State) :
    ((keepInterval o i s).och.intervals.at o).getLast?.map (·.tEnd) = some i.tEnd := by
  unfold keepInterval
  extract_lets ex j raised kept
  have tEnd : (intervalRecord j).tEnd = i.tEnd := by
    unfold j
    split <;> rfl
  show ((Tab.put raised.och.intervals o (kept.drop (kept.length - 4))).at o).getLast?.map (·.tEnd) = some i.tEnd
  rw [Tab.at_put, if_pos rfl, getLast?_drop_append _ _ 3, Option.map_some, tEnd]

theorem finalInterval_of_closing {i : Interval} {l : List Interval} {s : State}
    (h : (s.och.meter.at o).acc.closing = i :: l) :
    finalInterval o s = keepInterval o i (s.onMeter o fun m => { m with acc := { m.acc with closing := l } }) := by
  simp only [finalInterval, h]

/-! ### Tamper inputs -/

variable {k : TamperNo} {opened : Bool}

theorem sessionsLoseTls_vault (s : State) : (forEach outlets sessionLosesTls s).mem.vault = s.mem.vault :=
  Within.vault_eq (forEach_within (f := sessionLosesTls) fun _ _ => sessionLosesTls_within)

theorem wipeVault_vault (n : Nat) (s : State) : (wipeVault n s).mem.vault = [] := by
  unfold wipeVault
  extract_lets dropped mem raised lost aborted
  have wiped : aborted.mem.vault = [] := by
    rw [abortStaging_within.vault_eq, closeConnections_within.vault_eq, sessionsLoseTls_vault, raise_within.vault_eq]
  split
  · exact (startTransfer_within.vault_eq).trans wiped
  · exact wiped

/-- Teal after a tamper input has changed. -/
def tealChanged (k : TamperNo) (opened : Bool) (s : State) : Teal :=
  let ring := s.teal.ring ++ [{ time := legalUnits s, tseq := s.teal.tseq, opened := opened, onVbat := !s.sup.mainOk, input := k }]
  { s.teal with ring := ring.drop (ring.length - 64), tseq := s.teal.tseq + 1, level := s.teal.level.put k opened,
                uncopied := s.teal.uncopied + 1,
                openings := if opened then s.teal.openings.upd k (satAdd 32 · 1) else s.teal.openings }

/-- A tamper input that changes while Teal has a supply. -/
theorem tamperChange_of_changed (h : s.teal.level.at k ≠ opened) (sup : s.sup.mainOk = true ∨ s.sup.vbatOk = true) :
    tamperChange k opened s = if opened && s.modes.base != .backupWatch
      then wipeVault 1 (markAll flagTamper { s with teal := tealChanged k opened s })
      else { s with teal := tealChanged k opened s } :=
  if_neg (by rcases sup with e | e <;> simp [h, e])

theorem tamperChange_teal (h : s.teal.level.at k ≠ opened) (sup : s.sup.mainOk = true ∨ s.sup.vbatOk = true) :
    (tamperChange k opened s).teal = tealChanged k opened s := by
  rw [tamperChange_of_changed h sup]
  split
  · rw [kept_without_bit wipeVault_within.tealKept, kept_without_bit markAll_within.tealKept]
  · rfl

theorem tamperChange_vault (h : s.teal.level.at k ≠ true) (sup : s.sup.mainOk = true ∨ s.sup.vbatOk = true)
    (awake : s.modes.base ≠ .backupWatch) : (tamperChange k true s).mem.vault = [] := by
  rw [tamperChange_of_changed h sup, if_pos (by simpa using awake), wipeVault_vault]

/-! ### The copy of Teal's records -/

theorem copyTealRecords_uncopied (h : s.dies.ochre = .running) : (copyTealRecords s).teal.uncopied = 0 := by
  unfold copyTealRecords
  split
  next none => simpa [h] using none
  next => rfl

end

/-! ### The statement -/

theorem announceTariff_of_switch {s : State} (ha : s.och.tariffs.ha = true)
    (due : activationDue s ((s.och.clock.us / minuteUs + 1) * minuteUs) = false)
    (switch : tariffAt s.och.tariffs.active ((s.och.clock.us / minuteUs + 1) * minuteUs) ≠ s.och.tariffs.tariff.toNat) :
    (announceTariff s).och.tariffs.announced.map (·.1) = some ((s.och.clock.us / minuteUs + 1) * minuteUs / 64) ∧
    (announceTariff s).och.tariffs.tariff = s.och.tariffs.tariff := by
  simp only [announceTariff, ha, due, switch, Bool.not_true, Bool.false_eq_true, if_false]
  rw [kept_without_bit raise_within.tariffsKept]
  exact ⟨rfl, rfl⟩

/-- Settles O13: the clocks of a tick, the interval that becomes final, the announcement, and Teal's record. -/
theorem legalTimeComplete : Obligations.LegalTimeComplete := by
  refine ⟨fun s quiet => ⟨_, rfl, ?us, ?mono⟩, fun s quiet h => congrArg Host.Outcome.next (legalTick_quiet h),
    fun s o i l h => ⟨_, rfl, ?final⟩, fun s h => congrArg Host.Outcome.next (if_pos (by rw [h]; rfl)),
    fun s ha due switch => ⟨_, rfl, announceTariff_of_switch ha due switch⟩, fun s k opened h sup => ⟨_, rfl, ?tamper⟩,
    fun s h => ⟨_, rfl, copyTealRecords_uncopied h⟩⟩
  case us =>
    have later := lt_nextTick s.och.clock.us quiet
    rw [legalTick_clock, advance_us]
    omega
  case mono => rw [legalTick_clock]; rfl
  case final =>
    have acc := keepInterval_acc (o := o) i (s.onMeter o fun m => { m with acc := { m.acc with closing := l } })
    rw [finalInterval_of_closing h]
    refine ⟨acc.1.trans ?_, acc.2.trans ?_, keepInterval_latest i _⟩ <;> simp [State.onMeter]
  case tamper =>
    rw [tamperChange_teal h sup]
    refine ⟨by simp [tealChanged], rfl, ?_, ?_, fun e awake => ?_⟩
    · rw [tealChanged, getLast?_drop_append _ _ 63]; rfl
    · cases opened <;> simp [tealChanged]
    · subst e
      exact tamperChange_vault h sup awake

end Sys2Proof.Machine

/-! SUPPORT. The watchdogs, heartbeats and restarts of the dies (O3): what each reset and restart leaves of the dies, of the
reset cause register and of the parts that it clears. -/

namespace Sys2Proof.Machine

set_option Elab.async false

section
variable {s t : State} {m : Nat}

/-! ### The end of every reset: the cause bit and the event -/

variable {bit die : Nat} {why : ResetBy}

theorem resetEvent_setCause_dies : (resetEvent die why (setCause bit s)).dies = s.dies :=
  resetEvent_within.dies_eq.trans setCause_within.dies_eq

theorem resetEvent_setCause_cause :
    (resetEvent die why (setCause bit s)).rus.cause = s.rus.cause ||| BitVec.ofNat 32 (2 ^ bit) :=
  resetEvent_within.cause_eq

/-! ### Ochre -/

variable {tails : List Tail}

theorem ochreReset_dies : (ochreReset bit why tails s).dies = { s.dies with ochre := .starting } := by
  unfold ochreReset
  extract_lets saved gap restarted dies och clock stopped
  have savedDies : saved.dies = s.dies := map_ite_of_eq State.dies finalSave_within.dies_eq
  exact resetEvent_setCause_dies.trans (congrArg (fun d : Dies => { d with ochre := .starting }) savedDies)

theorem ochreReset_cause : (ochreReset bit why tails s).rus.cause = s.rus.cause ||| BitVec.ofNat 32 (2 ^ bit) := by
  unfold ochreReset
  extract_lets saved gap restarted dies och clock stopped
  have savedCause : saved.rus.cause = s.rus.cause := map_ite_of_eq (·.rus.cause) finalSave_within.cause_eq
  exact resetEvent_setCause_cause.trans (congrArg (· ||| _) savedCause)

theorem ochreReset_gapFrom : (ochreReset bit why tails s).och.clock.gapFrom.isSome = true := by
  unfold ochreReset
  rw [resetEvent_within.gapFrom_eq, setCause_within.gapFrom_eq, displayStop_within.gapFrom_eq]
  rfl

theorem missedTicks_ochre (n : Nat) (s : State) : (missedTicks n s).dies.ochre = s.dies.ochre := by
  unfold missedTicks
  split
  · extract_lets dies started
    split
    · exact (congrArg Dies.ochre (processUpTo_within (s := started)).dies_eq).trans rfl
    · exact (congrArg Dies.ochre (processDeferred_within (s := started)).dies_eq).trans rfl
  · exact congrArg Dies.ochre (map_ite_of_eq' State.dies processDeferred_within.dies_eq)

theorem missedTicks_gapFrom (n : Nat) (s : State) : (missedTicks n s).och.clock.gapFrom = s.och.clock.gapFrom := by
  unfold missedTicks
  split
  · extract_lets dies started
    split
    · exact (processUpTo_within (s := started)).gapFrom_eq
    · exact (processDeferred_within (s := started)).gapFrom_eq
  · exact map_ite_of_eq' (·.och.clock.gapFrom) processDeferred_within.gapFrom_eq

/-- Ochre runs again, and its gap is closed. -/
theorem ochreRestart_of_starting (gap : Nat) (h : s.dies.ochre = .starting) :
    (ochreRestart gap s).dies.ochre = .running ∧ (ochreRestart gap s).och.clock.gapFrom = none := by
  unfold ochreRestart
  rw [if_neg (by simp [h])]
  extract_lets dies locked since och clock closed logged ticked
  have lockedOchre : locked.dies.ochre = .running := by
    rw [show locked.dies = { s.dies with ochre := .running } from relock_within.dies_eq]
  clear_value locked
  have ochre := calc
    ticked.dies.ochre = (missedTicks since logged).dies.ochre := congrArg Dies.ochre markGap_within.dies_eq
    _ = logged.dies.ochre := missedTicks_ochre since logged
    _ = closed.dies.ochre := congrArg Dies.ochre (markGap_within.dies_eq.trans logOchre_within.dies_eq)
    _ = .running := lockedOchre
  have gapFrom := calc
    ticked.och.clock.gapFrom = (missedTicks since logged).och.clock.gapFrom := markGap_within.gapFrom_eq
    _ = logged.och.clock.gapFrom := missedTicks_gapFrom since logged
    _ = closed.och.clock.gapFrom := markGap_within.gapFrom_eq.trans logOchre_within.gapFrom_eq
    _ = none := rfl
  clear_value ticked
  rw [compose_within.dies_eq, compose_within.gapFrom_eq]
  split
  · exact ⟨ochre, gapFrom⟩
  · rw [displayRestart_within.dies_eq, displayRestart_within.gapFrom_eq]
    exact ⟨ochre, gapFrom⟩

/-! ### Russet -/

theorem russetReset_dies : (russetReset bit s).dies = { s.dies with russet := .starting, russetCause := some bit } :=
  bringWaiting_within.dies_eq

theorem russetReset_pair (p : PairNo) : ((russetReset bit s).rus.pair.at p).cmd = false := by
  rw [russetReset, bringWaiting_within.pair_eq]
  exact pair_afterReset_cmd _ _ p

/-- Lockout outlives a reset of Russet. -/
theorem russetReset_classP (o : OutletNo) :
    ((russetReset bit s).rus.outlet.at o).fault.classP = (s.rus.outlet.at o).fault.classP := by
  rw [russetReset, kept_without_bit bringWaiting_within.guardsKept]
  simp [Russet.afterReset, Guard.afterReset, FaultWord.restored]

theorem recordMapped_all_dies (s : State) : (forEach outlets recordMapped s).dies = s.dies :=
  Within.dies_eq (forEach_within (f := recordMapped) fun _ _ => recordMapped_within)

theorem recordMapped_all_cause (s : State) : (forEach outlets recordMapped s).rus.cause = s.rus.cause :=
  Within.cause_eq (forEach_within (f := recordMapped) fun _ _ => recordMapped_within)

/-- Russet runs again after its watchdog, and sets the bit that its reset left for it. -/
theorem russetRestart_of_watchdog (h : s.dies.russet = .starting) (cause : s.dies.russetCause = some 12) :
    (russetRestart s).dies = { s.dies with russet := .running, russetCause := none } ∧
    (russetRestart s).rus.cause = s.rus.cause ||| 0x1000 := by
  unfold russetRestart
  rw [if_neg (by simp [h])]
  simp only [cause, if_true]
  rw [settle_within.dies_eq, refreshDrives_within.dies_eq, resumeTimers_within.dies_eq, recordMapped_all_dies,
    settle_within.cause_eq, refreshDrives_within.cause_eq, resumeTimers_within.cause_eq, recordMapped_all_cause]
  constructor
  · rw [resetEvent_setCause_dies, watchTrial_within.dies_eq]
  · rw [resetEvent_setCause_cause, watchTrial_within.cause_eq]
    rfl

/-! ### Spelt and Fescue -/

theorem watchTrial_if_dies {k : ImageNo} {c : Prop} [Decidable c] : (if c then watchTrial k s else s).dies = s.dies :=
  map_ite_of_eq State.dies watchTrial_within.dies_eq

theorem watchTrial_if_cause {k : ImageNo} {c : Prop} [Decidable c] :
    (if c then watchTrial k s else s).rus.cause = s.rus.cause :=
  map_ite_of_eq (·.rus.cause) watchTrial_within.cause_eq

theorem speltReset_dies : (speltReset bit why s).dies = { s.dies with spelt := .starting } := by
  unfold speltReset
  rw [resetEvent_setCause_dies, watchTrial_if_dies, bringWaiting_within.dies_eq]

theorem speltReset_cause : (speltReset bit why s).rus.cause = s.rus.cause ||| BitVec.ofNat 32 (2 ^ bit) := by
  unfold speltReset
  rw [resetEvent_setCause_cause, watchTrial_if_cause, bringWaiting_within.cause_eq]

/-- A reset of Spelt holds the channels as they are. -/
theorem speltReset_chan : (speltReset bit why s).spe.chan = s.spe.chan := by
  unfold speltReset
  rw [kept_without_bit resetEvent_within.speltKept, kept_without_bit setCause_within.speltKept,
    map_ite_of_eq State.spe (kept_without_bit watchTrial_within.speltKept), kept_without_bit bringWaiting_within.speltKept]

theorem fescueReset_dies : (fescueReset bit why s).dies = { s.dies with fescue := .starting, fescueBeat := false } := by
  unfold fescueReset
  rw [resetEvent_setCause_dies, watchTrial_if_dies, map_ite_of_eq State.dies bringWaiting_within.dies_eq]

theorem fescueReset_cause : (fescueReset bit why s).rus.cause = s.rus.cause ||| BitVec.ofNat 32 (2 ^ bit) := by
  unfold fescueReset
  rw [resetEvent_setCause_cause, watchTrial_if_cause, map_ite_of_eq (·.rus.cause) bringWaiting_within.cause_eq]

theorem fescueBeat_dies (h : s.dies.fescue ≠ .held) :
    (fescueBeat s).dies = { s.dies with fescue := .running, fescueBeat := true } := by
  unfold fescueBeat
  rw [if_neg h]
  extract_lets missed dies beaten
  split
  · rw [refreshDrives_within.dies_eq, raiseEnd_within.dies_eq]
  · rw [refreshDrives_within.dies_eq]

/-- An outlet that is on opens; afterwards it is off either way. -/
theorem openRecorded_off {o : OutletNo} {c : Byte} : ((openRecorded c o s).rus.pair.at (coilOf o)).cmd = false := by
  unfold openRecorded
  split
  next =>
    rw [recordCause_within.pair_eq]
    simp [openPair, State.onPair, State.onGuard]
  next off => simpa using off

/-- Every outlet that is gone through is off, and stays off while the others are gone through. -/
theorem forEach_openRecorded_off {c : Byte} {o : OutletNo} {l : List OutletNo} (h : o ∈ l) :
    ((forEach l (openRecorded c) s).rus.pair.at (coilOf o)).cmd = false := by
  induction l generalizing s with
  | nil => cases h
  | cons i l ih =>
    rw [forEach_cons]
    rcases List.mem_cons.mp h with rfl | hl
    · exact forEach_staysOff (fun _ _ => openRecorded_staysOff) (.refl _) o openRecorded_off
    · exact ih hl

theorem openRecorded_all_cause {c : Byte} (s : State) : (forEach outlets (openRecorded c) s).rus.cause = s.rus.cause :=
  Within.cause_eq (forEach_within (f := openRecorded c) fun _ _ => openRecorded_within)

theorem fescueLoss_of_runs (runs : s.dies.russet = .running) (h : s.dies.fescue ≠ .held) :
    fescueLoss s = fescueReset 10 .watchdog (forEach outlets (openRecorded 0x32) s) :=
  if_neg (by simp [runs, h])

/-! ### The control die -/

/-- What Commissioning and staging leave behind when they end: the count of failed starts, and no Recovery. -/
theorem leaveCommissioning_modes : (leaveCommissioning s).modes.failedStarts = s.modes.failedStarts ∧
    (s.modes.base ≠ .recovery → (leaveCommissioning s).modes.base ≠ .recovery) := by
  unfold leaveCommissioning
  split
  · exact ⟨rfl, id⟩
  · extract_lets modes left clocks och set
    split <;> exact ⟨rfl, fun _ => nofun⟩

theorem abortStaging_modes : (abortStaging s).modes.failedStarts = s.modes.failedStarts ∧
    (abortStaging s).modes.base = s.modes.base := by
  unfold abortStaging
  split
  · exact ⟨rfl, rfl⟩
  · rw [settle_within.modes_eq, raise_within.modes_eq]
    exact ⟨rfl, rfl⟩

theorem startLimit_of_starting (h : s.dies.control = .starting) :
    startLimit s = failedStart (controlReset 9 .watchdog s) := if_neg (by simp [h])

/-- What the end of a control die reset keeps of the parts that its beginning sets. -/
def resetView (s : State) : DieRun × Word × Memory × List Fetch × Modes :=
  (s.dies.control, s.rus.cause, s.mem.pool, s.mbx.fetched, s.modes)

theorem Within.resetView_eq (w : Within m s t) (dies : m.testBit 3 = false := by rfl)
    (cause : m.testBit 19 = false := by rfl) (pool : m.testBit 36 = false := by rfl)
    (mbx : m.testBit 35 = false := by rfl) (modes : m.testBit 1 = false := by rfl) : resetView t = resetView s := by
  simp only [resetView, w.dies_eq dies, w.cause_eq cause, w.pool_eq pool, w.mbx_eq mbx, w.modes_eq modes]

theorem resetView_iff {run : DieRun} {cause : Word} {pool : Memory} {fetched : List Fetch} {modes : Modes} :
    resetView s = (run, cause, pool, fetched, modes) ↔ s.dies.control = run ∧ s.rus.cause = cause ∧ s.mem.pool = pool ∧
      s.mbx.fetched = fetched ∧ s.modes = modes := by
  simp only [resetView, Prod.mk.injEq]

theorem clearedParts_view (s : State) :
    resetView (linkReset (memoryReset (mailboxReset (expireKeys (aggregatorReset (milletReset s)))))) =
      (s.dies.control, s.rus.cause, [], [], s.modes) := by
  have aggregated := aggregatorReset_within (s := milletReset s)
  simp only [resetView, linkReset, memoryReset, mailboxReset, expireKeys, dropDerived, aggregated.dies_eq,
    aggregated.cause_eq, aggregated.modes_eq]
  rfl

/-- A reset of the control die stops it, clears pool and mailbox, and ends with its cause bit and its event. -/
theorem controlReset_ending (bit : Nat) (why : ResetBy) (s : State) :
    ∃ v, controlReset bit why s = settle (resetEvent dieControl why (setCause bit v)) ∧
      resetView v = (.starting, s.rus.cause, [], [], (abortStaging (leaveCommissioning s)).modes) := by
  unfold controlReset
  extract_lets late dies halted cleared brought upd slotted tried
  have lateCause : late.rus.cause = s.rus.cause := by
    rw [lateStops_within.cause_eq, abortStaging_within.cause_eq, leaveCommissioning_within.cause_eq]
  have lateModes : late.modes = (abortStaging (leaveCommissioning s)).modes := lateStops_within.modes_eq
  clear_value late
  have triedView : resetView tried = resetView cleared := calc
    resetView tried = resetView slotted := map_ite_of_eq resetView (watchTrial_within.resetView_eq.trans watchTrial_within.resetView_eq)
    _ = resetView brought := rfl
    _ = resetView cleared := bringWaiting_within.resetView_eq.trans bringWaiting_within.resetView_eq
  exact ⟨tried, rfl, by rw [triedView, clearedParts_view, ← lateCause, ← lateModes]⟩

/-- The parts after a reset of the control die. -/
theorem controlReset_view (bit : Nat) (why : ResetBy) (s : State) : resetView (controlReset bit why s) =
    (.starting, s.rus.cause ||| BitVec.ofNat 32 (2 ^ bit), [], [], (abortStaging (leaveCommissioning s)).modes) := by
  obtain ⟨v, ending, view⟩ := controlReset_ending bit why s
  rw [ending, settle_within.resetView_eq, resetEvent_within.resetView_eq]
  exact congrArg (fun (run, cause, rest) => (run, cause ||| BitVec.ofNat 32 (2 ^ bit), rest)) view

theorem controlReset_modes : (controlReset bit why s).modes.failedStarts = s.modes.failedStarts ∧
    (s.modes.base ≠ .recovery → (controlReset bit why s).modes.base ≠ .recovery) := by
  obtain ⟨-, -, -, -, modes⟩ := resetView_iff.mp (controlReset_view bit why s)
  rw [modes, abortStaging_modes.1, abortStaging_modes.2]
  exact leaveCommissioning_modes

/-! ### Failed starts -/

/-- A staging session that is aborted ends in the mode status alone; the base mode stays. -/
theorem wipeVault_base (n : Nat) (s : State) : (wipeVault n s).modes.base = s.modes.base := by
  unfold wipeVault
  extract_lets dropped mem raised lost aborted
  have base : aborted.modes.base = s.modes.base := by
    have closed : (closeConnections lost).modes = s.modes := by
      rw [closeConnections_within.modes_eq,
        Within.modes_eq (forEach_within (f := sessionLosesTls) fun _ _ => sessionLosesTls_within), raise_within.modes_eq]
      rfl
    rw [abortStaging_modes.2, closed]
  clear_value aborted
  split
  · rw [startTransfer_within.modes_eq, base]
  · exact base

theorem enterRecovery_base (s : State) : (enterRecovery s).modes.base = .recovery := by
  rw [enterRecovery, settle_within.modes_eq, wipeVault_base, raise_within.modes_eq]

/-- The first failed start is counted. -/
theorem failedStart_first (base : s.modes.base ≠ .recovery) (first : s.modes.failedStarts = 0) :
    failedStart s = { s with modes.failedStarts := 1 } := by
  simp [failedStart, base, first]

/-- A second failed start enters Recovery. -/
theorem failedStart_again (again : 1 ≤ s.modes.failedStarts) : (failedStart s).modes.base = .recovery := by
  unfold failedStart
  extract_lets modes counted
  split
  next recovered => exact recovered
  next => rw [if_pos (by simpa [counted] using again), enterRecovery_base]

/-! ### The statement -/

theorem startLimit_complete (h : s.dies.control = .starting) (base : s.modes.base ≠ .recovery) :
    (s.modes.failedStarts = 0 → (startLimit s).dies.control = .starting ∧ (startLimit s).modes.failedStarts = 1 ∧
      (startLimit s).rus.cause = s.rus.cause ||| 0x200) ∧
    (1 ≤ s.modes.failedStarts → (startLimit s).modes.base = .recovery) := by
  rw [startLimit_of_starting h]
  obtain ⟨run, cause, -⟩ := resetView_iff.mp (controlReset_view 9 .watchdog s)
  have modes := controlReset_modes (bit := 9) (why := .watchdog) (s := s)
  generalize controlReset 9 .watchdog s = t at run cause modes ⊢
  refine ⟨fun first => ?_, fun again => failedStart_again (modes.1 ▸ again)⟩
  rw [failedStart_first (modes.2 base) (modes.1.trans first)]
  exact ⟨run, rfl, cause⟩

theorem fescueLoss_complete (runs : s.dies.russet = .running) (h : s.dies.fescue ≠ .held) :
    (fescueLoss s).dies.fescue = .starting ∧ (fescueLoss s).rus.cause = s.rus.cause ||| 0x400 ∧
    ∀ o, ((fescueLoss s).rus.pair.at (coilOf o)).cmd = false := by
  rw [fescueLoss_of_runs runs h, fescueReset_dies, fescueReset_cause, openRecorded_all_cause, fescueReset_within.pair_eq]
  exact ⟨rfl, rfl, fun o => forEach_openRecorded_off (mem_outlets o)⟩

theorem fescueMissing_first (runs : s.dies.russet = .running) (first : holds s 57 moduleIndex = false) :
    fescueMissing s = raise 57 moduleIndex 0 [] { s with dies.fescueBeat := false } := by
  simp [fescueMissing, runs, first]

end

/-- Settles O3: one reset or restart after the other. -/
theorem dieResetsComplete : Obligations.DieResetsComplete := by
  refine ⟨fun s tails h => ⟨ochreReset 13 .watchdog tails s, congrArg Host.Outcome.next (if_neg h), ?ochre⟩,
    fun s gap h => ⟨_, rfl, ochreRestart_of_starting gap h⟩,
    fun s h => ⟨russetReset 12 s, congrArg Host.Outcome.next (if_neg h), congrArg Host.Outcome.next (if_neg h), ?russet⟩,
    fun s h cause => ⟨_, rfl, ?restart⟩,
    fun s h => congrArg Host.Outcome.next (if_pos h),
    fun s => rfl,
    fun s h => ⟨speltReset 11 .watchdog s, congrArg Host.Outcome.next (if_neg h), ?spelt⟩,
    fun s h => ⟨_, rfl, ?beat⟩,
    fun s runs first => congrArg Host.Outcome.next (fescueMissing_first runs first),
    fun s runs h => ⟨_, rfl, fescueLoss_complete runs h⟩,
    fun s runs seen => ⟨controlReset 9 .watchdog s, congrArg Host.Outcome.next (if_pos (by rw [runs, seen]; rfl)), ?control⟩,
    fun s h base => ⟨_, rfl, startLimit_complete h base⟩,
    fun s h => ⟨controlReset 3 .command s, congrArg Host.Outcome.next (if_pos h), ?response⟩⟩
  case ochre => exact ⟨congrArg Dies.ochre ochreReset_dies, ochreReset_cause, ochreReset_gapFrom⟩
  case russet =>
    exact ⟨congrArg Dies.russet russetReset_dies, congrArg Dies.russetCause russetReset_dies, russetReset_pair,
      russetReset_classP⟩
  case restart =>
    obtain ⟨dies, bit⟩ := russetRestart_of_watchdog h cause
    exact ⟨congrArg Dies.russet dies, congrArg Dies.russetCause dies, bit⟩
  case spelt =>
    exact ⟨congrArg Dies.spelt speltReset_dies, speltReset_cause, fun c => by rw [speltReset_chan]⟩
  case beat => exact ⟨congrArg Dies.fescue (fescueBeat_dies h), congrArg Dies.fescueBeat (fescueBeat_dies h)⟩
  case control =>
    obtain ⟨run, cause, pool, -⟩ := resetView_iff.mp (controlReset_view 9 .watchdog s)
    exact ⟨run, cause, pool⟩
  case response =>
    obtain ⟨run, cause, -, fetched, -⟩ := resetView_iff.mp (controlReset_view 3 .command s)
    exact ⟨run, cause, fetched⟩

end Sys2Proof.Machine

/-! SUPPORT. The module after reset (O50) and the length of a pulse on HOSTRST (O52). -/

namespace Sys2Proof.Machine

set_option Elab.async false

/-! ### The state after reset -/

/-- The memories that reset leaves hold no entry at all. -/
theorem memOk_reset : State.reset.memOk :=
  ⟨memWf_nil, memWf_nil, memWf_nil, fun p => by simp [State.reset, MemState.reset, memWf_nil]⟩

theorem outlet_reset (o : OutletNo) : State.reset.rus.outlet.at o = Guard.reset := Tab.at_all 64 _ o

theorem pair_reset (q : PairNo) : State.reset.rus.pair.at q = Pair.reset := Tab.at_all 68 _ q

theorem port_reset (p : PortNo) : State.reset.mbx.port.at p = Port.reset := Tab.at_all 3 _ p

theorem lockSafe_reset : State.reset.lockSafe := fun o locked => by
  rw [outlet_reset] at locked
  cases locked

theorem pad_reset_owner (p : PadNo) : (State.reset.mem.pads.at p).owner = 0x1F := by
  simp [State.reset, MemState.reset]

/-- Every logical bank is served by the bank of its number (R438). -/
theorem bankMap_reset (b : Fin 64) : (State.reset.mem.bankMap.at b).val = b.val := by
  have served : State.reset.mem.bankMap.at b = Fin.ofNat 68 b.val := Tab.at_mapN _ _ b
  rw [served]
  exact Nat.mod_eq_of_lt (by omega)

/-- Settles O50: the tables of the state after reset, entry by entry. -/
theorem invariantsHoldAtReset : Obligations.InvariantsHoldAtReset := by
  refine ⟨memOk_reset, lockSafe_reset, rfl, rfl, rfl, rfl, rfl, rfl, rfl, fun o => ?outlet, fun p => ?port,
    pad_reset_owner, bankMap_reset⟩
  case outlet =>
    rw [outlet_reset, pair_reset]
    exact ⟨rfl, rfl, rfl⟩
  case port =>
    rw [port_reset]
    exact ⟨rfl, rfl⟩

/-! ### HOSTRST -/

section
variable {s : State} {ns : Nat}

theorem hostrst_short (h : ns < 100) : hostrst ns s = .next s := if_pos h

theorem hostrst_between (low : 100 ≤ ns) (high : ns < 1000) : hostrst ns s = .fault .hostrstUndefined := by
  rw [hostrst, if_neg (Nat.not_lt.mpr low), if_pos high]

theorem hostrst_long (h : 1000 ≤ ns) (awake : s.modes.base ≠ .backupWatch) :
    hostrst ns s = .next (controlReset 8 .hostrst s) := by
  rw [hostrst, if_neg (by omega), if_neg (Nat.not_lt.mpr h), if_neg awake]

/-- A reset of the control die ends with a mailbox that accepts no commands (R411). -/
theorem controlReset_ready (bit : Nat) (why : ResetBy) (s : State) : (controlReset bit why s).mbx.ready = false := by
  unfold controlReset
  extract_lets late dies halted cleared brought upd slotted tried
  have clearedReady : cleared.mbx.ready = false := rfl
  clear_value cleared
  have triedMbx : tried.mbx = cleared.mbx := calc
    tried.mbx = slotted.mbx := map_ite_of_eq State.mbx (watchTrial_within.mbx_eq.trans watchTrial_within.mbx_eq)
    _ = brought.mbx := rfl
    _ = cleared.mbx := bringWaiting_within.mbx_eq.trans bringWaiting_within.mbx_eq
  rw [settle_within.mbx_eq, resetEvent_within.mbx_eq, setCause_within.mbx_eq, triedMbx, clearedReady]

end

/-- Settles O52: the three branches of a pulse on HOSTRST. -/
theorem hostrstByItsLength : Obligations.HostrstByItsLength := by
  refine fun ns s => ⟨hostrst_short, hostrst_between, fun long awake => ⟨_, hostrst_long long awake, ?run,
    controlReset_ready 8 .hostrst s, ?cause⟩⟩
  all_goals obtain ⟨run, cause, -⟩ := resetView_iff.mp (controlReset_view 8 .hostrst s)
  case run => exact run
  case cause => simp [cause, wBit]

end Sys2Proof.Machine

/-! SUPPORT. Host writes of the window's registers through a port that is served (O38). -/

namespace Sys2Proof.Machine

set_option Elab.async false

section
variable {s : State} {p : PortNo} {v : Word} {addr off : Nat}

/-! ### Which register a word is -/

theorem hostWrite_of_served (h : served s p = true) :
    hostWrite p addr v s = writeWindow p addr v (hostTraffic p s) := if_pos h

theorem writeWindow_portAddr (h : off < 0x100) :
    writeWindow p (portAddr p off) v s = writePortRegister p off v s := by
  have inBlock : 0x1000 + 0x100 * p.val ≤ portAddr p off ∧ portAddr p off < 0x1000 + 0x100 * p.val + 0x100 := by
    unfold portAddr
    omega
  have offset : portAddr p off - (0x1000 + 0x100 * p.val) = off := Nat.add_sub_cancel_left ..
  simp [writeWindow, inBlock, offset]

/-- A host's write of a register of its own port block. -/
theorem hostWrite_portAddr (h : served s p = true) (off : Nat) (v : Word) (hoff : off < 0x100 := by decide) :
    hostWrite p (portAddr p off) v s = writePortRegister p off v (hostTraffic p s) :=
  (hostWrite_of_served h).trans (writeWindow_portAddr hoff)

theorem writeWindow_busyMs (h : 2 ≤ portLevel s p) : writeWindow p 0x020 v s =
    if within 10 250 (wFld v 0 8) then { s with mbx.busyMs := BitVec.ofNat 8 v.toNat } else s := by
  have outside : ¬ (0x1000 + 0x100 * p.val ≤ 0x020) := by omega
  simp [writeWindow, outside, h]

theorem writeWindow_cause (h : 2 ≤ portLevel s p) :
    writeWindow p 0x108 v s = { s with rus.cause := s.rus.cause &&& ~~~ (v &&& causeMask) } := by
  have outside : ¬ (0x1000 + 0x100 * p.val ≤ 0x108) := by omega
  simp [writeWindow, outside, h]

theorem writeWindow_other (block : ¬ (0x1000 + 0x100 * p.val ≤ addr ∧ addr < 0x1000 + 0x100 * p.val + 0x100))
    (busy : addr ≠ 0x020) (cause : addr ≠ 0x108) : writeWindow p addr v s = accessRefused p s := by
  have outside : (decide (0x1000 + 0x100 * p.val ≤ addr) &&
      decide (addr < 0x1000 + 0x100 * p.val + 0x100)) = false := by simpa using block
  simp [writeWindow, outside, busy, cause]

/-! ### PORT_CTRL -/

theorem setRings_enable (off : (s.mbx.port.at p).ringEn = false) : setRings p true s = enableRings p s := by
  simp only [setRings, off]

theorem setRings_disable (on : (s.mbx.port.at p).ringEn = true) : setRings p false s = disableRings p s := by
  simp only [setRings, on]

theorem writePortCtrl_enable (bit : wBit v 0 = true) (off : (s.mbx.port.at p).ringEn = false) :
    writePortCtrl p v s = (enableRings p s).onPort p fun q =>
      { q with evtEn := wBit v 1, rspIrq := BitVec.ofNat 2 (wFld v 6 2),
               portTo := if wFld v 8 8 = 0 then q.portTo else BitVec.ofNat 8 (wFld v 8 8) } := by
  rw [writePortCtrl, bit, setRings_enable off]

theorem writePortCtrl_disable (bit : wBit v 0 = false) (on : (s.mbx.port.at p).ringEn = true) :
    writePortCtrl p v s = (disableRings p s).onPort p fun q =>
      { q with evtEn := wBit v 1, rspIrq := BitVec.ofNat 2 (wFld v 6 2),
               portTo := if wFld v 8 8 = 0 then q.portTo else BitVec.ofNat 8 (wFld v 8 8) } := by
  rw [writePortCtrl, bit, setRings_disable on]

/-! ### Producer and consumer indices -/

variable {x : BitVec 16} {i : Indices}

/-- A 16-bit index comes out of a register's low half as it went in. -/
theorem ofNat_zeroExtend_toNat (x : BitVec 16) : BitVec.ofNat 16 (x.zeroExtend 32).toNat = x := by
  apply BitVec.eq_of_toNat_eq
  simp
  omega

theorem ring_urgent (hi : i = (s.mbx.port.at p).idx) (on : (s.mbx.port.at p).ringEn = true) (ready : s.mbx.ready = true)
    (ahead : 0 < idxSub x i.ucmdPi) (room : idxSub x i.ucmdPi + idxSub i.ucmdPi i.ucmdCi ≤ 64) :
    ring p true x s = s.onPort p fun q => { q with idx := { q.idx with ucmdPi := x } } := by
  subst hi
  simp [ring, doorbellOk, on, ready, ahead, room]

theorem ring_normal (hi : i = (s.mbx.port.at p).idx) (on : (s.mbx.port.at p).ringEn = true) (ready : s.mbx.ready = true)
    (ahead : 0 < idxSub x i.ncmdPi) (room : idxSub x i.ncmdPi + idxSub i.ncmdPi i.ncmdCi ≤ 256) :
    ring p false x s = s.onPort p fun q => { q with idx := { q.idx with ncmdPi := x } } := by
  subst hi
  simp [ring, doorbellOk, on, ready, ahead, room]

theorem consume_response (hi : i = (s.mbx.port.at p).idx) (h : idxSub x i.rspCi ≤ idxSub i.rspPi i.rspCi) :
    consume p false x s = s.onPort p fun q => { q with idx := { q.idx with rspCi := x } } := by
  subst hi
  simp [consume, h]

theorem consume_event (hi : i = (s.mbx.port.at p).idx) (h : idxSub x i.evtCi ≤ idxSub i.evtPi i.evtCi) :
    consume p true x s = s.onPort p fun q => { q with idx := { q.idx with evtCi := x } } := by
  subst hi
  simp [consume, h]

/-- A doorbell's write carries its 16-bit index in the register's low half. -/
theorem hostWrite_doorbell (h : served s p = true) (urgent : Bool) (x : BitVec 16) :
    hostWrite p (portAddr p (if urgent then 0x20 else 0x30)) (x.zeroExtend 32) s =
      ring p urgent x (hostTraffic p s) := by
  cases urgent
  · exact (hostWrite_portAddr h 0x30 _).trans (congrArg (ring p false · _) (ofNat_zeroExtend_toNat x))
  · exact (hostWrite_portAddr h 0x20 _).trans (congrArg (ring p true · _) (ofNat_zeroExtend_toNat x))

theorem hostWrite_consumer (h : served s p = true) (event : Bool) (x : BitVec 16) :
    hostWrite p (portAddr p (if event then 0x4C else 0x44)) (x.zeroExtend 32) s =
      consume p event x (hostTraffic p s) := by
  cases event
  · exact (hostWrite_portAddr h 0x44 _).trans (congrArg (consume p false · _) (ofNat_zeroExtend_toNat x))
  · exact (hostWrite_portAddr h 0x4C _).trans (congrArg (consume p true · _) (ofNat_zeroExtend_toNat x))

/-! ### Refused accesses -/

theorem accessRefused_accErr : ((accessRefused p s).mbx.port.at p).accErr = satAdd 8 (s.mbx.port.at p).accErr 1 := by
  rw [accessRefused, raise_within.mbx_eq]
  simp

theorem accessRefused_pool : (accessRefused p s).mem.pool = s.mem.pool := raise_within.pool_eq

end

/-- Settles O38: each register's write, through the block or the word that holds it. -/
theorem registerWritesComplete : Obligations.RegisterWritesComplete := by
  rintro s b p rfl port
  refine ⟨fun v bit off => ⟨_, congrArg Host.Outcome.next ((hostWrite_portAddr port 0x00 v).trans
      (writePortCtrl_enable bit off)), ?enable⟩,
    fun v bit on => ⟨_, congrArg Host.Outcome.next ((hostWrite_portAddr port 0x00 v).trans
      (writePortCtrl_disable bit on)), ?disable⟩,
    fun v i hi on ready ahead room => congrArg Host.Outcome.next
      ((hostWrite_doorbell port true v).trans (ring_urgent hi on ready ahead room)),
    fun v i hi on ready ahead room => congrArg Host.Outcome.next
      ((hostWrite_doorbell port false v).trans (ring_normal hi on ready ahead room)),
    fun v i hi h => congrArg Host.Outcome.next ((hostWrite_consumer port false v).trans (consume_response hi h)),
    fun v i hi h => congrArg Host.Outcome.next ((hostWrite_consumer port true v).trans (consume_event hi h)),
    fun v => congrArg Host.Outcome.next (hostWrite_portAddr port 0x58 v),
    fun v h => congrArg Host.Outcome.next ((hostWrite_of_served port).trans (writeWindow_busyMs h)),
    fun v h => congrArg Host.Outcome.next ((hostWrite_of_served port).trans (writeWindow_cause h)),
    fun a v outside busy cause => ⟨_, congrArg Host.Outcome.next ((hostWrite_of_served port).trans
      (writeWindow_other (by omega) busy cause)), accessRefused_accErr, accessRefused_pool⟩⟩
  case enable => simp [enableRings, poolClear]
  case disable => simp [disableRings]

end Sys2Proof.Machine

/-! SUPPORT. What an accepted command of the catalogue does, and the system commands (O24). -/

namespace Sys2Proof.Machine

set_option Elab.async false

section
variable {op : Nat} {c : Cmd} {s b : State}

/-! ### Accepted commands -/

/-- An accepted command whose meaning answers acts on the state in which it has been forwarded, and answers once the
mode status is settled. -/
theorem runCmd_of_accepted {body : Body} {r : Reply} {t : State} (h : Accepted op c s) (hb : b = acting op c s)
    (out : body (cmdFields op c) b = (some r, t)) : runCmd op c body s = answer op c r (settle t) := by
  obtain ⟨⟨ready, runs, fresh, turn⟩, pass⟩ := h
  subst hb
  unfold acting at out
  simp [runCmd, ready, runs, fresh, turn, pass, out]

theorem runCmd_acts_of_accepted {f : List Byte → State → Reply × State} {r : Reply} {t : State} (h : Accepted op c s)
    (hb : b = acting op c s) (out : f (cmdFields op c) b = (r, t)) :
    runCmd op c (acts f) s = answer op c r (settle t) :=
  runCmd_of_accepted h hb (congrArg (fun x => (some x.1, x.2)) out)

theorem runCmd_reads_of_accepted {f : List Byte → State → Reply} (h : Accepted op c s) (hb : b = acting op c s) :
    runCmd op c (reads f) s = answer op c (f (cmdFields op c) b) (settle b) :=
  runCmd_of_accepted h hb rfl

/-- Where every check of the fields holds, the effect takes place. -/
theorem checked_of_all {bad : List (Nat × Bool)} {effect : State → Reply × State} (h : ∀ x ∈ bad, x.2 = true) :
    checked op c bad effect s = effect s := by
  have none : firstBad bad = none := by
    induction bad with
    | nil => rfl
    | cons x rest ih =>
      obtain ⟨first, later⟩ := List.forall_mem_cons.mp h
      rw [firstBad, if_pos first, ih later]
  rw [checked, none]

end

/-- Settles O24: each system command, run on the state in which it acts. -/
theorem systemCommandsComplete : Obligations.SystemCommandsComplete := by
  intro s b c
  refine ⟨fun h hb => congrArg Host.Outcome.next (runCmd_reads_of_accepted h hb),
    fun h hb => congrArg Host.Outcome.next (runCmd_reads_of_accepted h hb),
    fun h hb free idle off => congrArg Host.Outcome.next (runCmd_acts_of_accepted h hb ?enter),
    fun h hb => congrArg Host.Outcome.next (runCmd_acts_of_accepted h hb rfl),
    fun tails h hb die rest => congrArg Host.Outcome.next (runCmd_acts_of_accepted h hb (checked_of_all ?die)),
    fun p h hb fields port mode rest text last => congrArg Host.Outcome.next
      (runCmd_acts_of_accepted h hb (fields ▸ checked_of_all ?network)),
    fun p h hb fields port rest server operate commission => congrArg Host.Outcome.next
      (runCmd_acts_of_accepted h hb (fields ▸ checked_of_all ?slots)),
    fun p h hb fields level rest port => congrArg Host.Outcome.next
      (runCmd_acts_of_accepted h hb (fields ▸ (checked_of_all ?level).trans (if_neg port)))⟩
  case enter => simp [free, idle, off]
  case die => simp [die, rest]
  case network => simp [port, mode, rest, text, last]
  case slots => simp [port, rest, server, operate, commission]
  case level => simp [level, rest]

end Sys2Proof.Machine

/-! SUPPORT. The heartbeat of Millet, the start, Commissioning's end and the reference (O4): what each leaves of
the modes, the clocks and the dies. -/

namespace Sys2Proof.Machine

set_option Elab.async false

section
variable {s t : State} {m : Nat}

theorem Within.clocks_eq (w : Within m s t) (hm : m.testBit 2 = false := by rfl) : t.clocks = s.clocks :=
  kept_without_bit w.clocksKept hm

theorem Within.lease_eq (w : Within m s t) (hm : m.testBit 19 = false := by rfl) : t.rus.lease = s.rus.lease :=
  congrArg (fun (_, _, _, _, _, lease, _) => lease) (kept_without_bit w.russetRestKept hm)

/-! ### The mailbox becomes ready -/

theorem becomeReady_hbCount : (becomeReady s).mbx.hbCount = s.mbx.hbCount := by
  unfold becomeReady
  extract_lets starts
  split
  · rfl
  · rw [raise_within.mbx_eq]

/-- In a service role the mailbox accepts commands once the control die runs. -/
theorem becomeReady_ready (runs : controlRuns s = true) (service : s.modes.base = .service) :
    (becomeReady s).mbx.ready = true := by
  unfold becomeReady
  extract_lets starts
  split
  next kept => simpa [starts, runs, service] using kept
  next => rw [raise_within.mbx_eq]

/-! ### Millet's heartbeat -/

theorem leaveRecovery_hbCount : (leaveRecovery s).mbx.hbCount = s.mbx.hbCount := by
  unfold leaveRecovery
  split <;> rfl

theorem firstBeat_dies : (firstBeat s).dies = { s.dies with control := .running, hbSeen := true } := by
  unfold firstBeat
  extract_lets dies left modes held
  have leftDies : left.dies = { s.dies with control := .running, hbSeen := true } := leaveRecovery_within.dies_eq
  clear_value left
  have heldDies : held.dies = left.dies := map_ite_of_eq' State.dies holdAll_within.dies_eq
  rw [becomeReady_within.dies_eq, settle_within.dies_eq, refreshDrives_within.dies_eq, heldDies, leftDies]

theorem firstBeat_hbCount : (firstBeat s).mbx.hbCount = s.mbx.hbCount := by
  unfold firstBeat
  extract_lets dies left modes held
  have leftCount : left.mbx.hbCount = s.mbx.hbCount := leaveRecovery_hbCount
  clear_value left
  have heldMbx : held.mbx = left.mbx := map_ite_of_eq' State.mbx holdAll_within.mbx_eq
  rw [becomeReady_hbCount, settle_within.mbx_eq, refreshDrives_within.mbx_eq, heldMbx, leftCount]

theorem milletBeat_of_running (h : s.dies.control = .running) :
    milletBeat s = { s with mbx.hbCount := s.mbx.hbCount + 1, dies.hbSeen := true } := by
  simp only [milletBeat, h]

theorem milletBeat_of_starting (h : s.dies.control = .starting) :
    milletBeat s = firstBeat { s with mbx.hbCount := s.mbx.hbCount + 1 } := by
  simp only [milletBeat, h]

/-- In a service role with Russet running the heartbeat is watched, and its loss is a condition afterwards. -/
theorem beatLost_hbLoss (service : s.modes.base = .service) (russet : s.dies.russet = .running) :
    (beatLost s).modes.hbLoss = true := by
  have watched : beatWatched s = true := by simp [beatWatched, service, russet]
  unfold beatLost
  split
  next already => simpa [watched] using already
  next => rw [settle_within.modes_eq, lateStops_within.modes_eq, holdAll_within.modes_eq]

theorem sessionsConfirmed_of_loss (runs : controlRuns s = true) (loss : s.modes.hbLoss = true) :
    sessionsConfirmed s = settle { s with modes.hbLoss := false, veh.toConfirm := Tab.all 64 false } :=
  if_neg (by simp [runs, loss])

theorem settle_toConfirm (o : OutletNo) : (settle s).veh.toConfirm.at o = s.veh.toConfirm.at o :=
  congrArg (fun (_, _, _, _, _, _, _, _, _, _, _, _, _, toConfirm, _) => Tab.at toConfirm o)
    (kept_without_bit settle_within.vehicleRestKept)

/-! ### The start -/

variable {r : Role} {p : PeerAtStart}

theorem enterRole_modes : (enterRole r s).modes =
    { s.modes with base := .service, role := r, prior := .none, checked := false, failedStarts := 0 } := by
  rw [enterRole, becomeReady_within.modes_eq, settle_within.modes_eq, refreshDrives_within.modes_eq]

theorem enterRole_lease : (enterRole r s).rus.lease = (s.rus.lease || r == .active) := by
  rw [enterRole, becomeReady_within.lease_eq, settle_within.lease_eq, refreshDrives_within.lease_eq]

theorem enterRole_ready (runs : controlRuns s = true) : (enterRole r s).mbx.ready = true := by
  refine becomeReady_ready ?_ ?_
  · rw [controlRuns, settle_within.dies_eq, refreshDrives_within.dies_eq]
    exact runs
  · rw [settle_within.modes_eq, refreshDrives_within.modes_eq]

/-- An unpaired, provisioned module whose checks pass enters Solo. -/
theorem startEnds_pass_solo (start : s.modes.base = .measuredStart) (slots : noSlot s = false) (alone : s.pair.peer = 0)
    (provisioned : s.keys.lifecycle = .provisioned) :
    startEnds .pass p s = enterRole .solo (startChecked (pllsLocked s)) := by
  have slots' : noSlot (pllsLocked s) = false := slots
  have lifecycle : (startChecked (pllsLocked s)).keys.lifecycle = .provisioned :=
    (Prod.mk.inj (kept_without_bit startChecked_within.lifecycleKept)).1.trans provisioned
  have alone' : (startChecked (pllsLocked s)).pair.peer = 0 :=
    (congrArg PairState.peer (kept_without_bit startChecked_within.peerKept)).trans alone
  simp [startEnds, start, slots', lifecycle, decideRole, alone']

/-- The first failed start is counted, and the control die starts again. -/
theorem startEnds_failed_first (start : s.modes.base = .measuredStart) (first : s.modes.failedStarts = 0) :
    startEnds .failed p s =
      { pllsLocked s with dies.control := .starting, dies.hbSeen := false, modes.failedStarts := 1 } := by
  have awake : s.modes.base ≠ .recovery := by simp [start]
  rw [startEnds, if_neg (by simp [start])]
  exact failedStart_first awake first

theorem peerSilent_of_checked (start : s.modes.base = .measuredStart) (checked : s.modes.checked = true)
    (paired : s.pair.peer ≠ 0) : peerSilent s = enterRole .active s :=
  if_pos (by simpa [start, checked] using paired)

/-! ### Commissioning's end -/

theorem leaveCommissioning_of_commissioning (h : s.modes.base = .commissioning) : (leaveCommissioning s).modes =
    { s.modes with base := .service, role := s.modes.prior, prior := .none, staging := s.upd.staging.isSome } := by
  unfold leaveCommissioning
  rw [if_neg (by simp [h])]
  extract_lets left
  split <;> rfl

theorem commissioningTimeout_modes : (commissioningTimeout s).modes = (leaveCommissioning s).modes := by
  rw [commissioningTimeout, settle_within.modes_eq, refreshDrives_within.modes_eq]

/-! ### The reference -/

/-- A period out of specification begins, where none is open (R51). -/
def outPeriodOpen (s : State) : State :=
  if s.clocks.outSince.isSome then s
  else markAll flagOos (logOchre 0x0012 [] { s with clocks.outSince := some s.och.clock.us })

theorem outPeriodOpen_modes : (outPeriodOpen s).modes = s.modes :=
  map_ite_of_eq' State.modes (markAll_within.modes_eq.trans logOchre_within.modes_eq)

theorem outPeriodOpen_cause : (outPeriodOpen s).rus.cause = s.rus.cause :=
  map_ite_of_eq' (·.rus.cause) (markAll_within.cause_eq.trans logOchre_within.cause_eq)

theorem outPeriodOpen_clocks : (outPeriodOpen s).clocks.xrefOk = s.clocks.xrefOk ∧
    (outPeriodOpen s).clocks.fallback = s.clocks.fallback ∧ (outPeriodOpen s).clocks.outSince.isSome = true := by
  unfold outPeriodOpen
  split
  next already => exact ⟨rfl, rfl, already⟩
  next =>
    rw [markAll_within.clocks_eq, logOchre_within.clocks_eq]
    exact ⟨rfl, rfl, rfl⟩

/-- A loss of reference sets its condition, its cause bit and the clock, then opens the period and reports. -/
theorem refLost_ending (awake : s.modes.base ≠ .backupWatch) : ∃ u,
    refLost s = settle (if s.modes.refLoss then outPeriodOpen u else raise 4 moduleIndex 0 [] (outPeriodOpen u)) ∧
    u.modes.refLoss = true ∧ u.clocks.xrefOk = false ∧ u.clocks.fallback = true ∧
    u.rus.cause = s.rus.cause ||| 0x8000 :=
  ⟨_, if_neg awake, rfl, rfl, rfl, rfl⟩

theorem refLost_complete (awake : s.modes.base ≠ .backupWatch) : (refLost s).modes.refLoss = true ∧
    (refLost s).clocks.xrefOk = false ∧ (refLost s).clocks.fallback = true ∧ (refLost s).clocks.outSince.isSome = true ∧
    (refLost s).rus.cause = s.rus.cause ||| 0x8000 := by
  obtain ⟨u, ending, refLoss, xrefOk, fallback, cause⟩ := refLost_ending awake
  obtain ⟨keptXref, keptFallback, opened⟩ := outPeriodOpen_clocks (s := u)
  rw [ending, settle_within.modes_eq, settle_within.clocks_eq, settle_within.cause_eq,
    map_ite_of_eq' State.modes raise_within.modes_eq, map_ite_of_eq' State.clocks raise_within.clocks_eq,
    map_ite_of_eq' (·.rus.cause) raise_within.cause_eq, outPeriodOpen_modes, outPeriodOpen_cause, keptXref,
    keptFallback]
  exact ⟨refLoss, xrefOk, fallback, opened, cause⟩

theorem fallbackCorrected_of_fallback (h : s.clocks.fallback = true) : fallbackCorrected s =
    { s with clocks := { s.clocks with corrections := s.clocks.corrections + 1,
                                       trimmed := decide (10 ≤ s.clocks.corrections + 1) } } := if_pos h

theorem xrefBack_of_fallback (h : s.clocks.fallback = true) :
    xrefBack s = { s with clocks.slew := true, clocks.xrefOk := true } := if_pos h

theorem closeOutPeriod_outSince : (closeOutPeriod s).clocks.outSince = none := by
  unfold closeOutPeriod
  split
  · rfl
  · assumption

/-- The end of the slew closes the period, ends the conditions and reports. -/
theorem slewDone_ending (h : s.clocks.slew = true) : ∃ u, slewDone s = settle (raiseEnd 4 moduleIndex [] u) ∧
    u.clocks.slew = false ∧ u.clocks.fallback = false ∧ u.modes.refLoss = false ∧ u.clocks.outSince = none :=
  ⟨_, if_neg (by simp [h]), rfl, rfl, rfl, closeOutPeriod_outSince⟩

theorem slewDone_complete (h : s.clocks.slew = true) : (slewDone s).clocks.slew = false ∧
    (slewDone s).clocks.fallback = false ∧ (slewDone s).modes.refLoss = false ∧
    (slewDone s).clocks.outSince = none := by
  obtain ⟨u, ending, rest⟩ := slewDone_ending h
  rw [ending, settle_within.clocks_eq, settle_within.modes_eq, raiseEnd_within.clocks_eq, raiseEnd_within.modes_eq]
  exact rest

theorem clockStep_scStep : (clockStep s).clocks.scStep = s.thm.stepTarget := map_ite_of_eq (·.clocks.scStep) rfl

end

/-- Settles O4: one happening after the other. -/
theorem modesAndClocksComplete : Obligations.ModesAndClocksComplete := by
  refine ⟨fun s h => congrArg Host.Outcome.next (milletBeat_of_running h),
    fun s h => ⟨_, congrArg Host.Outcome.next (milletBeat_of_starting h), ?beat⟩,
    fun s service russet => ⟨_, rfl, beatLost_hbLoss service russet⟩,
    fun s runs loss => ⟨_, congrArg Host.Outcome.next (sessionsConfirmed_of_loss runs loss), ?confirmed⟩,
    fun s p start slots alone provisioned =>
      ⟨_, congrArg Host.Outcome.next (startEnds_pass_solo start slots alone provisioned), ?solo⟩,
    fun s p start first => ⟨_, congrArg Host.Outcome.next (startEnds_failed_first start first), start, rfl, rfl⟩,
    fun s start checked paired => ⟨_, congrArg Host.Outcome.next (peerSilent_of_checked start checked paired), ?active⟩,
    fun s h => ⟨_, rfl, ?left⟩,
    fun s awake => ⟨_, rfl, refLost_complete awake⟩,
    fun s h => ⟨_, congrArg Host.Outcome.next (fallbackCorrected_of_fallback h), rfl, rfl⟩,
    fun s h => congrArg Host.Outcome.next (xrefBack_of_fallback h),
    fun s h => ⟨_, rfl, slewDone_complete h⟩,
    fun s => ⟨_, rfl, clockStep_scStep⟩⟩
  case beat => exact ⟨congrArg Dies.control firstBeat_dies, congrArg Dies.hbSeen firstBeat_dies, firstBeat_hbCount⟩
  case confirmed =>
    exact ⟨congrArg Modes.hbLoss settle_within.modes_eq, fun o => (settle_toConfirm o).trans (Tab.at_all 64 _ o)⟩
  case solo =>
    have clocks : (startChecked (pllsLocked s)).clocks = (pllsLocked s).clocks := startChecked_within.clocks_eq
    have dies : (startChecked (pllsLocked s)).dies = s.dies := startChecked_within.dies_eq
    rw [enterRole_modes, enterRole_within.clocks_eq, clocks]
    exact ⟨rfl, rfl, rfl, rfl, fun runs => enterRole_ready (by rw [controlRuns, dies]; exact runs)⟩
  case active =>
    rw [enterRole_modes, enterRole_lease]
    exact ⟨rfl, rfl, Bool.or_true _⟩
  case left =>
    rw [commissioningTimeout_modes, leaveCommissioning_of_commissioning h]
    exact ⟨rfl, rfl⟩

end Sys2Proof.Machine

/-! SUPPORT. Metering (O12): what a counted boundary computes and leaves in the registers, DC periods, saves, the legal
second and the analysis results. -/

namespace Sys2Proof.Machine

set_option Elab.async false

section
variable {s t : State} {o : OutletNo}

/-! ### Parts of the state that metering keeps -/

theorem Within.legalClock_eq {m : Nat} (w : Within m s t) (hm : m.testBit 5 = false := by rfl) :
    t.och.clock = s.och.clock :=
  kept_without_bit w.legalClockKept hm

theorem Within.settings_eq {m : Nat} (w : Within m s t) (hm : m.testBit 6 = false := by rfl) : t.och.set = s.och.set :=
  kept_without_bit w.settingsKept hm

theorem Within.input_eq {m : Nat} (w : Within m s t) (hm : m.testBit 7 = false := by rfl) :
    t.och.input = s.och.input :=
  congrArg Prod.fst (kept_without_bit w.inputsKept hm)

theorem Within.meter_eq {m : Nat} (w : Within m s t) (hm : m.testBit 8 = false := by rfl) :
    t.och.meter = s.och.meter :=
  kept_without_bit w.metersKept hm

theorem Within.factory_eq {m : Nat} (w : Within m s t) (hm : m.testBit 14 = false := by rfl) :
    t.och.factory = s.och.factory :=
  congrArg (fun (_, _, _, factory) => factory) (kept_without_bit w.ochreRestKept hm)

/-- What every step of a pass keeps is kept by the pass. -/
theorem foldl_keeps {α β : Type} (view : State → β) {f : State → α → State}
    (h : ∀ t a, view (f t a) = view t) (l : List α) : view (l.foldl f s) = view s :=
  List.foldlRecOn l f (motive := fun t => view t = view s) rfl fun t ht a _ => (h t a).trans ht

theorem forEach_keeps {α : Type} (view : State → α) {n : Nat} {f : Fin n → State → State}
    (h : ∀ t i, view (f i t) = view t) (l : List (Fin n)) : view (forEach l f s) = view s :=
  foldl_keeps view h l

/-! ### Energy totals -/

/-- The totals of R129 of every outlet. -/
def meterTotals (s : State) (p : OutletNo) : Tab (BitVec 96) 8 := (s.och.meter.at p).acc.totals

theorem Within.meterTotals_eq {m : Nat} (w : Within m s t) (hm : m.testBit 8 = false := by rfl) :
    meterTotals t = meterTotals s :=
  congrArg (fun meter p => (Tab.at meter p).acc.totals) (w.meter_eq hm)

theorem onMeter_meterTotals {f : Meter → Meter} (hf : ∀ m, (f m).acc.totals = m.acc.totals) :
    meterTotals (s.onMeter o f) = meterTotals s := by
  funext p
  simp only [meterTotals, State.onMeter_och_meter, Tab.at_upd]
  split
  · exact hf _
  · rfl

theorem addSecond_meterTotals {legal dur : Nat} {values : List Rat} {regular : Bool} {w : Word} :
    meterTotals (addSecond o legal dur values regular w s) = meterTotals s := by
  refine onMeter_meterTotals fun m => ?_
  split
  · split <;> rfl
  · rfl

theorem setValidity_meterTotals {i : InputNo} {f : Input → Input} : meterTotals (setValidity i f s) = meterTotals s := by
  unfold setValidity
  extract_lets was changed seen remembered
  split
  · rw [raise_within.meterTotals_eq]
    exact map_ite_of_eq meterTotals (onMeter_meterTotals fun _ => rfl)
  · exact raiseEnd_within.meterTotals_eq
  · rfl

theorem restartLock_meterTotals {g : GroupNo} {was now : Word} :
    meterTotals (restartLock g was now s) = meterTotals s := by
  refine map_ite_of_eq' meterTotals (forEach_keeps meterTotals (fun t i => ?_) _)
  extract_lets unlocked
  calc meterTotals _
    _ = meterTotals unlocked := rfl
    _ = meterTotals t := setValidity_meterTotals

theorem commitOutlet_meterTotals : meterTotals (commitOutlet o s) = meterTotals s := by
  unfold commitOutlet
  extract_lets new type change neutral cleared
  calc meterTotals _
    _ = meterTotals cleared := rfl
    _ = meterTotals neutral := map_ite_of_eq meterTotals (onMeter_meterTotals fun _ => rfl)
    _ = meterTotals s := map_ite_of_eq meterTotals neutralise_within.meterTotals_eq

theorem commitRole_meterTotals : meterTotals (commitRole o s) = meterTotals s := by
  unfold commitRole
  extract_lets g was new passed placed
  split
  · exact map_ite_of_eq meterTotals commitOutlet_meterTotals
  · split
    · rw [restartLock_meterTotals, commitOutlet_meterTotals, commitOutlet_meterTotals]
      rfl
    · rfl

theorem markSuspect_meterTotals : meterTotals (markSuspect o s) = meterTotals s := onMeter_meterTotals fun _ => rfl

theorem swapLane_meterTotals {i : InputNo} : meterTotals (swapLane i s) = meterTotals s := by
  unfold swapLane
  extract_lets x
  split
  · extract_lets moved och recorded marked
    calc meterTotals _
      _ = meterTotals marked := raise_within.meterTotals_eq
      _ = meterTotals recorded :=
        map_ite_of_eq' meterTotals (markSuspect_meterTotals.trans logOchre_within.meterTotals_eq)
      _ = meterTotals s := rfl
  · rfl

theorem commitSettings_meterTotals : meterTotals (commitSettings o s) = meterTotals s := by
  unfold commitSettings
  extract_lets passed calibrated both
  rw [Within.meterTotals_eq (forEach_within fun _ _ => sendCapture_within), commitCalibration_within.meterTotals_eq,
    passStep_within.meterTotals_eq, commitRole_meterTotals]

theorem commitBoundary_meterTotals {c : Cycle} : meterTotals (commitBoundary o c s) = meterTotals s := by
  unfold commitBoundary
  extract_lets end_ settled swapped
  rw [onMeter_meterTotals (f := latchPoint _ _) fun _ => rfl, forEach_keeps meterTotals fun _ _ => swapLane_meterTotals]
  exact map_ite_of_eq' meterTotals commitSettings_meterTotals

/-- The totals take an energy without its flags. -/
theorem addTotals_acEnergy (t : Totals) (ns : Nat) (w : Word) :
    addTotals (acEnergy t ns w) = addTotals (acEnergy t ns 0) := rfl

theorem addTotals_dcEnergyOf (ep veh : Rat) (w : Word) :
    addTotals (dcEnergyOf ep veh w) = addTotals (dcEnergyOf ep veh 0) := rfl

theorem accumulate_totals (start : Nat) (e : Energy) :
    meterTotals (accumulate o start e s) o = addTotals e (meterTotals s o) := by
  simp [meterTotals, accumulate, State.onRecord, Accum.add]

/-- Outside the Paired roles an energy enters its outlet's totals at once (R489). -/
theorem meterIn_totals (solo : servingRole s = .solo) (start : Nat) (e : Energy) :
    meterTotals (meterIn o start e s) o = addTotals e (meterTotals s o) := by
  unfold meterIn
  rw [solo]
  exact accumulate_totals start e

/-! ### The quantities of a cycle -/

theorem servingRole_of_modes (modes : t.modes = s.modes) : servingRole t = servingRole s := by
  unfold servingRole
  rw [modes]

theorem typeOf_of_settings (set : t.och.set = s.och.set) : typeOf t o = typeOf s o := by unfold typeOf; rw [set]

theorem isAc_of_settings (set : t.och.set = s.och.set) : isAc t o = isAc s o := by
  unfold isAc
  rw [typeOf_of_settings set]

/-- What the quantities of an outlet's cycle are computed from is the same in `s` and in `t`. -/
structure MeasuresAs (o : OutletNo) (s t : State) : Prop where
  clocks : t.clocks = s.clocks
  clock : t.och.clock = s.och.clock
  set : t.och.set = s.och.set
  input : t.och.input = s.och.input
  factory : t.och.factory = s.och.factory
  point : (t.och.meter.at o).point = (s.och.meter.at o).point

theorem MeasuresAs.laneOf_eq (h : MeasuresAs o s t) : laneOf t = laneOf s := by
  unfold laneOf
  rw [h.input]

theorem MeasuresAs.factoryCoef_eq (h : MeasuresAs o s t) : factoryCoef t = factoryCoef s := by
  unfold factoryCoef factoryAt
  rw [h.factory]

theorem MeasuresAs.calibrateZ_eq (h : MeasuresAs o s t) (i : InputNo) : calibrateZ t i = calibrateZ s i := by
  funext p code
  unfold calibrateZ calibrateOn calibrateY manchester offF gainF
  rw [h.laneOf_eq, h.factoryCoef_eq, h.set]

theorem MeasuresAs.scaled_eq (h : MeasuresAs o s t) (i : InputNo) : scaled t i = scaled s i := by
  unfold scaled
  rw [h.set]

theorem MeasuresAs.phaseDelay_eq (h : MeasuresAs o s t) (i : InputNo) : phaseDelay t i = phaseDelay s i := by
  unfold phaseDelay delayF
  rw [h.laneOf_eq, h.factoryCoef_eq, h.set]

theorem MeasuresAs.slotCodes_eq (h : MeasuresAs o s t) : slotCodes t o = slotCodes s o := by
  unfold slotCodes slotEn meterCodes intermediate sincRatio
  rw [h.set, h.input, h.clocks]

theorem MeasuresAs.slotValues_eq (h : MeasuresAs o s t) : slotValues t o = slotValues s o := by
  funext k bits
  simp only [slotValues, pointOf, h.phaseDelay_eq, h.slotCodes_eq, h.calibrateZ_eq, h.scaled_eq, h.point]

theorem MeasuresAs.legalNs_startNs_eq (h : MeasuresAs o s t) (c : Cycle) :
    legalNs t (startNs t c) = legalNs s (startNs s c) := by
  unfold legalNs legalAt startNs taggedNs meterDelay
  rw [h.clock, h.clocks]

theorem MeasuresAs.acQuantities_eq (h : MeasuresAs o s t) : acQuantities t o = acQuantities s o := by
  unfold acQuantities phasesOf
  rw [typeOf_of_settings h.set, h.set]

theorem MeasuresAs.acTotals_eq (h : MeasuresAs o s t) (c : Cycle) : acTotals t o c = acTotals s o c := by
  unfold acTotals
  rw [h.legalNs_startNs_eq, h.acQuantities_eq, h.slotValues_eq]

/-! ### A boundary that counts, and one that does not -/

/-- A meter on synthetic boundaries or off them (R110). -/
def Meter.withSynth (on : Bool) (m : Meter) : Meter := { m with synth := on }

/-- SYNTH is all that changes of the outlet's meter. -/
theorem setSynth_meter (on : Bool) : (setSynth o on s).och.meter.at o = (s.och.meter.at o).withSynth on := by
  unfold setSynth
  extract_lets changed
  split
  next same => rw [← eq_of_beq same]; rfl
  next =>
    have raised : (if on then raise 19 o.val 0 [] changed else raiseEnd 19 o.val [] changed).och.meter =
        changed.och.meter := by
      split
      · exact raise_within.meter_eq
      · exact raiseEnd_within.meter_eq
    rw [raised]
    exact (Tab.at_upd _ _ _ _).trans (if_pos rfl)

theorem setSynth_measuresAs (on : Bool) : MeasuresAs o s (setSynth o on s) where
  clocks := setSynth_within.clocks_eq
  clock := setSynth_within.legalClock_eq
  set := setSynth_within.settings_eq
  input := setSynth_within.input_eq
  factory := setSynth_within.factory_eq
  point := (congrArg Meter.point (setSynth_meter on) :)

theorem meterAc_totals {c : Cycle} {synth : Bool} (solo : servingRole s = .solo) :
    meterTotals (meterAc o c synth s) o = addTotals (acEnergy (acTotals s o c) (cycleNs c) 0) (meterTotals s o) := by
  unfold meterAc
  extract_lets t irr start w sf legal marked entered valued joined
  have role : servingRole marked = .solo := (servingRole_of_modes setOver_within.modes_eq).trans solo
  have kept : meterTotals (addSecond o legal (cycleNs c) t.values (!synth && !irr) sf joined) = meterTotals entered := by
    calc meterTotals _
      _ = meterTotals valued := by
        rw [addSecond_meterTotals, joinLocked_within.meterTotals_eq, joinWindow_within.meterTotals_eq]
      _ = meterTotals entered := onMeter_meterTotals fun _ => rfl
  rw [kept, meterIn_totals role, setOver_within.meterTotals_eq, addTotals_acEnergy]

/-- A counted AC boundary adds its cycle's energy, and commits then. -/
theorem boundary_ending {c : Cycle} (runs : metered s o = true) (counts : ignored s o c = false)
    (apart : merged s o c = false) (ac : isAc s o = true) (solo : servingRole s = .solo) :
    ∃ u, boundary o c s = commitBoundary o c u ∧
      meterTotals u o = addTotals (acEnergy (acTotals s o c) (cycleNs c) 0) (meterTotals s o) := by
  unfold boundary
  rw [if_neg (by simp [runs, counts]), if_neg (by simp [apart]), if_pos ac]
  extract_lets synth marked completed held roled
  refine ⟨_, rfl, ?_⟩
  have acMarked : isAc marked o = true := (isAc_of_settings setSynth_within.settings_eq).trans ac
  have role : servingRole marked = .solo := (servingRole_of_modes setSynth_within.modes_eq).trans solo
  have kept : meterTotals roled = meterTotals completed := calc
    _ = meterTotals held := map_ite_of_eq' meterTotals commitSiteRole_within.meterTotals_eq
    _ = meterTotals completed := onMeter_meterTotals fun _ => rfl
  calc meterTotals roled o
    _ = meterTotals (meterAc o c synth marked) o := by rw [kept]; unfold completed; rw [if_pos acMarked]
    _ = addTotals (acEnergy (acTotals marked o c) (cycleNs c) 0) (meterTotals marked o) := meterAc_totals role
    _ = _ := by
      rw [(setSynth_measuresAs _).acTotals_eq]
      exact congrArg (addTotals _) (congrArg (·.acc.totals) (setSynth_meter _))

/-! ### What a boundary commits -/

/-- The interpolation point is the last that a boundary commits. -/
theorem commitBoundary_meter {c : Cycle} : ∃ m,
    (commitBoundary o c s).och.meter.at o = latchPoint (meanTemp c.temps) (startNs s c + cycleNs c) m :=
  ⟨_, (Tab.at_upd _ _ _ _).trans (if_pos rfl)⟩

theorem commitCalibration_calPend : (commitCalibration o s).och.set.calPend.at o = false := by
  unfold commitCalibration
  split
  · simp
  next none => simpa using none

theorem commitSettings_calPend : (commitSettings o s).och.set.calPend.at o = false := by
  unfold commitSettings
  extract_lets passed calibrated both
  rw [Within.settings_eq (forEach_within fun _ _ => sendCapture_within)]
  exact commitCalibration_calPend

theorem commitBoundary_calPend {c : Cycle} (inTime : c.late = false) :
    (commitBoundary o c s).och.set.calPend.at o = false := by
  unfold commitBoundary
  rw [if_neg (by simp [inTime]), State.onMeter_och_set, Within.settings_eq (forEach_within fun _ _ => swapLane_within)]
  exact commitSettings_calPend

theorem boundary_complete {c : Cycle} (runs : metered s o = true) (counts : ignored s o c = false)
    (apart : merged s o c = false) (ac : isAc s o = true) (solo : servingRole s = .solo) :
    ((boundary o c s).och.meter.at o).acc.totals =
      addTotals (acEnergy (acTotals s o c) (cycleNs c) 0) (s.och.meter.at o).acc.totals ∧
    ((boundary o c s).och.meter.at o).tAct = BitVec.ofInt 12 (nearest (meanTemp c.temps * 16)) ∧
    (c.late = false →
      ((boundary o c s).och.meter.at o).pendFlags = 0 ∧ (boundary o c s).och.set.calPend.at o = false) := by
  obtain ⟨u, ending, totals⟩ := boundary_ending runs counts apart ac solo
  obtain ⟨m, latched⟩ := commitBoundary_meter (s := u) (o := o) (c := c)
  rw [ending]
  refine ⟨(congrFun commitBoundary_meterTotals o).trans totals, ?_, fun inTime => ⟨?_, commitBoundary_calPend inTime⟩⟩
  · rw [latched]; rfl
  · rw [latched]; rfl

theorem boundary_of_ignored {c : Cycle} (h : ignored s o c = true) : boundary o c s = s := if_pos (by simp [h])

theorem boundary_of_merged_synthetic {c : Cycle} (merges : merged s o c = true) (synthetic : c.synthetic = true) :
    boundary o c s = s := by
  unfold boundary
  rw [if_pos merges, if_pos synthetic, ite_self]

theorem syntheticStart_synth (runs : metered s o = true) (ac : isAc s o = true) :
    ((syntheticStart o s).och.meter.at o).synth = true := by
  rw [syntheticStart, if_pos (by simp [runs, ac]), setSynth_meter]
  rfl

/-! ### DC periods -/

theorem dcPeriod_totals {d : DcPeriod} (runs : metered s o = true) (dc : isDc s o = true)
    (solo : servingRole s = .solo) : ((dcPeriod o d s).och.meter.at o).acc.totals =
      addTotals (dcEnergyOf (periodEnergy s o 2 3 d) (periodEnergy s o 6 3 d) 0) (s.och.meter.at o).acc.totals := by
  rw [dcPeriod, if_neg (by simp [runs, dc])]
  exact (meterIn_totals solo _ _).trans (congrFun (addTotals_dcEnergyOf _ _ _) _)

/-! ### Saves -/

/-- A save of an outlet that has a copy leaves the accumulators in the newer one. -/
theorem Meter.save_copy {m : Meter} (kept : m.saves.toList.all (·.lost) = false) (e : Int) (veh len meteredTo : Nat) :
    ((m.save e veh len meteredTo).saves.at (m.save e veh len meteredTo).newer).acc = m.acc := by
  simp [Meter.save, kept]

theorem saveAll_copies {ts : List Tail} {meteredTo : Nat} (p : OutletNo)
    (kept : (s.och.meter.at p).saves.toList.all (·.lost) = false) :
    (((saveAll ts meteredTo s).och.meter.at p).saves.at ((saveAll ts meteredTo s).och.meter.at p).newer).acc =
      (s.och.meter.at p).acc := by
  simp only [saveAll, Tab.at_mapN]
  split
  · exact Meter.save_copy kept _ _ _ _
  · exact Meter.save_copy kept _ _ _ _

theorem saveBoundary_of_writable {ts : List Tail} {late : Bool} (runs : s.dies.ochre = .running)
    (writable : s.sup.saveDone = false) (settled : s.och.set.tariffPend = false) :
    saveBoundary ts late s = saveAll ts (lastUnit s.och.clock.us) s := by
  have none : commitTariff (saveAll ts (lastUnit s.och.clock.us) s) = saveAll ts (lastUnit s.och.clock.us) s :=
    if_pos (by rw [saveAll_within.settings_eq, settled]; rfl)
  simp [saveBoundary, runs, writable, none]

/-! ### The legal second -/

theorem legalSecond_meter (runs : s.dies.ochre = .running) : (legalSecond s).och.meter = (formSecond s).och.meter := by
  have timers : (saveTimers s).och = s.och := by unfold saveTimers; split <;> rfl
  have dies : (saveTimers s).dies = s.dies := saveTimers_within.dies_eq
  rw [legalSecond, dies, if_neg (by simp [runs]), copyMirror_within.meter_eq, compose_within.meter_eq]
  simp [formSecond, timers, State.onDisplay]

theorem legalSecond_complete (runs : s.dies.ochre = .running) :
    ((legalSecond s).och.meter.at o).last = (s.och.meter.at o).now ∧ ((legalSecond s).och.meter.at o).now = .zero ∧
    ((legalSecond s).och.meter.at o).acc = (s.och.meter.at o).acc := by
  rw [legalSecond_meter runs]
  simp [formSecond]

/-! ### Harmonics, supraharmonics and raw blocks -/

theorem harmonicEnd_complete {w : HarmonicInput} (runs : metered s o = true) (used : typeOf s o ≠ 0)
    (enough : windowCycles s o ≤ (s.och.analysis.at o).cycles.length) :
    ((harmonicEnd o w s).och.analysis.at o).latest = some (windowOf s o w) ∧
    ((harmonicEnd o w s).och.analysis.at o).previous = (s.och.analysis.at o).latest := by
  rw [harmonicEnd, if_neg (by simp [runs, used, enough])]
  simp [State.onAnalysis]

theorem keepSupra_supraStep {step : Nat} {r : SupraInput} : (keepSupra step r s).och.supraStep = s.och.supraStep := by
  unfold keepSupra
  extract_lets c x v
  split <;> rfl

theorem supraStep_step {rs : List SupraInput} (runs : s.dies.ochre = .running) (passed : s.och.clock.checkFailed = false) :
    (supraStep rs s).och.supraStep = (s.och.supraStep + 1) % 56 := by
  have kept : (rs.foldl (fun s r => keepSupra s.och.supraStep r s) s).och.supraStep = s.och.supraStep :=
    foldl_keeps (·.och.supraStep) (fun _ _ => keepSupra_supraStep) rs
  rw [supraStep, if_neg (by simp [runs, passed])]
  refine (forEach_keeps (·.och.supraStep) ?_ _).trans ?_
  · exact fun _ _ => rfl
  · exact congrArg (fun n => (n + 1) % 56) kept

theorem rawComplete_complete {r : RawInput} (runs : metered s o = true) (ha : s.och.ha.at o = true) :
    ((rawComplete o r s).och.analysis.at o).rawSeq = (s.och.analysis.at o).rawSeq + 1 ∧
    ((rawComplete o r s).och.analysis.at o).raw ≠ [] := by
  rw [rawComplete, if_neg (by simp [runs, ha])]
  simp [State.onAnalysis]

end

/-- Settles O12: each boundary, period, save, second and result by its own lemma. -/
theorem meteringComplete : Obligations.MeteringComplete := by
  intro s o runs
  refine ⟨fun c on counts apart ac solo => ⟨_, rfl, boundary_complete on counts apart ac solo⟩,
    fun c h => congrArg Host.Outcome.next (boundary_of_ignored h),
    fun c _ merges synthetic => congrArg Host.Outcome.next (boundary_of_merged_synthetic merges synthetic),
    fun on ac => ⟨_, rfl, syntheticStart_synth on ac⟩,
    fun d on dc solo => ⟨_, rfl, dcPeriod_totals on dc solo⟩,
    fun ts late writable settled =>
      ⟨_, congrArg Host.Outcome.next (saveBoundary_of_writable runs writable settled), rfl, rfl, saveAll_copies⟩,
    ⟨_, rfl, legalSecond_complete runs⟩,
    fun w on used enough => ⟨_, rfl, harmonicEnd_complete on used enough⟩,
    fun rs passed => ⟨_, rfl, supraStep_within.meter_eq, supraStep_step runs passed⟩,
    fun r on ha => ⟨_, rfl, rawComplete_complete on ha⟩⟩

end Sys2Proof.Machine

/-! SUPPORT. The retained store of session records (O57): what placing a record does with a free slot and with none. -/

namespace Sys2Proof.Machine

set_option Elab.async false

section
variable {r : SessionRecord} {s : State} {new x : Retained} {l a b : List Retained}

theorem retain_of_room (room : s.och.recs.retained.length < 8192) :
    (retain r s).och.recs.retained = s.och.recs.retained ++ [{ record := r, exported := false }] := by
  simp [retain, room]

theorem retain_of_full (full : 8192 ≤ s.och.recs.retained.length) :
    (retain r s).och.recs.retained = replaceExported { record := r, exported := false } s.och.recs.retained := by
  simp [retain, Nat.not_lt.mpr full]

/-- An exported record with a REC_NO below that of every other exported one has the lowest REC_NO. -/
theorem min?_exported_recNo (exported : x.exported = true)
    (lowest : ∀ y ∈ a ++ b, y.exported = true → x.record.recNo.toNat < y.record.recNo.toNat) :
    (((a ++ x :: b).filter (·.exported)).map (·.record.recNo.toNat)).min? = some x.record.recNo.toNat := by
  rw [List.min?_eq_some_iff]
  constructor
  · exact List.mem_map_of_mem (List.mem_filter.mpr ⟨by simp, exported⟩)
  · intro n hn
    obtain ⟨y, hy, rfl⟩ := List.mem_map.mp hn
    obtain ⟨mem, exp⟩ := List.mem_filter.mp hy
    rcases List.mem_cons.mp (List.perm_middle.mem_iff.mp mem) with rfl | other
    · exact Nat.le_refl _
    · exact (lowest y other exp).le

/-- Records of which none is exported with the number `n` stay when that record is replaced. -/
theorem map_replace_eq_self {n : Nat} (others : ∀ y ∈ l, y.exported = true → n < y.record.recNo.toNat) :
    (l.map fun y => if y.exported && y.record.recNo.toNat = n then new else y) = l := by
  rw [List.map_congr_left (g := id), List.map_id]
  intro y hy
  have other := others y hy
  rw [if_neg, id]
  simp only [Bool.and_eq_true, decide_eq_true_eq]
  rintro ⟨exp, same⟩
  exact (other exp).ne' same

theorem replaceExported_of_lowest (exported : x.exported = true)
    (lowest : ∀ y ∈ a ++ b, y.exported = true → x.record.recNo.toNat < y.record.recNo.toNat) :
    replaceExported new (a ++ x :: b) = a ++ new :: b := by
  have before := map_replace_eq_self (new := new) fun y hy => lowest y (List.mem_append_left b hy)
  have behind := map_replace_eq_self (new := new) fun y hy => lowest y (List.mem_append_right a hy)
  simp only [replaceExported, min?_exported_recNo exported lowest, List.map_append, List.map_cons, before, behind]
  simp [exported]

theorem mem_replaceExported_of_unexported (mem : x ∈ l) (unexported : x.exported = false) :
    x ∈ replaceExported new l := by
  rw [replaceExported]
  split
  · exact List.mem_map.mpr ⟨x, mem, by simp [unexported]⟩
  · exact mem

theorem mem_retain_of_unexported (mem : x ∈ s.och.recs.retained) (unexported : x.exported = false) :
    x ∈ (retain r s).och.recs.retained := by
  rcases Nat.lt_or_ge s.och.recs.retained.length 8192 with room | full
  · rw [retain_of_room room]
    exact List.mem_append_left _ mem
  · rw [retain_of_full full]
    exact mem_replaceExported_of_unexported mem unexported

end

/-- Settles O57: the two branches of `retain`. With no free slot, the record with the lowest REC_NO is the one that
`replaceExported` replaces. -/
theorem signedRecordsAreRetained : Obligations.SignedRecordsAreRetained := by
  rintro r s l rfl
  refine ⟨retain_of_room, fun a b x full split exported lowest => ?_, fun x => mem_retain_of_unexported⟩
  rw [retain_of_full full, split, replaceExported_of_lowest exported lowest]

end Sys2Proof.Machine

/-! SUPPORT. The diode check of a pilot period (O58): the class and DIODE_OK that a period's samples give in each drive. -/

namespace Sys2Proof.Machine

set_option Elab.async false

section
variable {samples : List Int} {p : Pilot} {c : PilotClass}

/-- A period of a drive that is classified: +12 V steady or PWM (R208, R209). -/
theorem measurePeriod_of_classified (resting : p.drive ≠ 0) (driven : p.drive ≠ 3)
    (hc : c = rankClass (rankOf (rankBefore p) (positivePlateau p samples))) :
    (measurePeriod samples p).cls =
      some (if pwm p && (c == .B || c == .C || c == .D) && !decide (negativePlateau p samples ≤ -10500) then .E else c) ∧
    (measurePeriod samples p).diodeOk =
      if pwm p && (c == .B || c == .C || c == .D) then decide (negativePlateau p samples ≤ -10500) else p.diodeOk := by
  have classified : ¬ (p.drive = 0 || p.drive = 3) = true := by
    simp only [Bool.or_eq_true, decide_eq_true_eq, not_or]
    exact ⟨resting, driven⟩
  unfold measurePeriod
  extract_lets vpos q ranked vehicle diode seen
  rw [if_neg classified]
  subst hc
  exact ⟨rfl, rfl⟩

theorem measurePeriod_of_missing_diode (hc : c = rankClass (rankOf (rankBefore p) (positivePlateau p samples)))
    (drive : pwm p = true) (vehicle : c = .B ∨ c = .C ∨ c = .D) (high : -10500 < negativePlateau p samples) :
    (measurePeriod samples p).cls = some .E ∧ (measurePeriod samples p).diodeOk = false := by
  have two : p.drive = 2 := beq_iff_eq.mp drive
  have checked : (c == .B || c == .C || c == .D) = true := by simpa [or_assoc] using vehicle
  have missing : decide (negativePlateau p samples ≤ -10500) = false := decide_eq_false (not_le.mpr high)
  obtain ⟨cls, diode⟩ := measurePeriod_of_classified (by simp [two]) (by simp [two]) hc
  exact ⟨by rw [cls, drive, checked, missing]; rfl, by rw [diode, drive, checked, missing]; rfl⟩

theorem measurePeriod_of_steady (hc : c = rankClass (rankOf (rankBefore p) (positivePlateau p samples)))
    (drive : p.drive = 1) :
    (measurePeriod samples p).cls = some c ∧ (measurePeriod samples p).diodeOk = p.diodeOk := by
  have unchecked : pwm p = false := by rw [pwm, drive]; rfl
  obtain ⟨cls, diode⟩ := measurePeriod_of_classified (by simp [drive]) (by simp [drive]) hc
  exact ⟨by rw [cls, unchecked]; rfl, by rw [diode, unchecked]; rfl⟩

end

/-- Settles O58: the two drives that are classified. -/
theorem missingDiodeCountsAsClassE : Obligations.MissingDiodeCountsAsClassE :=
  fun _ _ _ hc => ⟨measurePeriod_of_missing_diode hc, measurePeriod_of_steady hc⟩

end Sys2Proof.Machine

/-! SUPPORT. The vehicle's requests up to its parameters (O17): when a request is served and when it ends the session, what
each request leaves in the session, and the handshake. -/

namespace Sys2Proof.Machine

set_option Elab.async false

section
variable {s t : State} {o : OutletNo} {protos phases protos' phases' : List Nat} {act : State → State}

/-! ### Parts of the state that checks and events keep -/

theorem Within.session_eq {m : Nat} (w : Within m s t) (hm : m.testBit 21 = false := by rfl) :
    t.veh.session = s.veh.session :=
  kept_without_bit w.sessionsKept hm

theorem Within.reqId_eq {m : Nat} (w : Within m s t) (hm : m.testBit 22 = false := by rfl) :
    t.veh.reqId = s.veh.reqId :=
  congrArg (fun (_, _, _, _, _, _, _, _, _, reqId, _) => reqId) (kept_without_bit w.vehicleRestKept hm)

@[simp] theorem onSession_session {f : Session → Session} :
    (s.onSession o f).veh.session.at o = f (s.veh.session.at o) :=
  (Tab.at_upd _ _ _ _).trans (if_pos rfl)

@[simp] theorem sendAnswer_session {a : V2gAnswer} :
    (sendAnswer o a s).veh.session.at o = { s.veh.session.at o with answer := some a } := onSession_session

/-! ### When a request is served -/

theorem v2gServed_mono (h : V2gServed s o protos phases) (hp : protos ⊆ protos') (hq : phases ⊆ phases') :
    V2gServed s o protos' phases' := by
  obtain ⟨runs, proto, phase, transport⟩ := h
  exact ⟨runs, hp proto, hq phase, transport⟩

theorem request_of_served (h : V2gServed s o protos phases) : request o protos phases act s = act s := by
  obtain ⟨runs, proto, phase, transport⟩ := h
  simp [request, runs, proto, phase, transport]

theorem request_out_of_phase (runs : v2gRuns s o = true) (phase : sessionPhase s o ∉ phases) :
    request o protos phases act s = v2gEnd o .failed s := by
  simp [request, runs, phase]

theorem requiring_of_met {ok : State → Bool} (met : ok s = true) : requiring o ok act s = act s := if_pos met

/-! ### Setup and services -/

theorem protoCode_lt : ∀ p : Proto, protoCode p < 4
  | .din | .iso2 | .iso20 => by decide

theorem supportedAppProtocol_selects {l : List Proto} {p : Proto} (h : V2gServed s o [0] [2])
    (chosen : chosenProto s o l = some p) :
    ((supportedAppProtocol o l s).veh.session.at o).proto.toNat = protoCode p ∧
    ((supportedAppProtocol o l s).veh.session.at o).answer = some (.proto p) := by
  rw [supportedAppProtocol, request_of_served h, chosen]
  simp [protoCode_lt]

theorem serviceDetail_of_offered {v : V2gService} (h : V2gServed s o [2, 3] [2, 3])
    (offered : offersService s o v = true) : serviceDetail o v s = sendAnswer o .ok s :=
  (request_of_served h).trans (requiring_of_met offered)

theorem serviceSelection_of_offered {v : V2gService} {c : Bool} (h : V2gServed s o [1, 2, 3] [2, 3])
    (offered : offersService s o v = true) (contract : c = true → offersContract s o = true) :
    ((serviceSelection o v c s).veh.session.at o).contract = c ∧
    ((serviceSelection o v c s).veh.session.at o).answer = some .ok := by
  have met : (offersService s o v && (!c || offersContract s o)) = true := by
    cases c with
    | false => simp [offered]
    | true => simp [offered, contract rfl]
  rw [serviceSelection, request_of_served h, requiring_of_met met]
  simp

/-! ### Authorisation -/

theorem paymentDetails_of_verified {id : List Byte} (h : V2gServed s o [2] [2])
    (contract : (s.veh.session.at o).contract = true) (offered : offersContract s o = true)
    (verified : (verifyRoot [5, 6] s).1 = true) :
    ((paymentDetails o id true s).veh.session.at o).auth = contractRef id ∧
    ((paymentDetails o id true s).veh.session.at o).answer = some .ok := by
  rw [paymentDetails, request_of_served h, requiring_of_met (by simp [contract, offered])]
  simp [verified]

/-- In phase 3 the answer is whether Ochre has accepted the start. -/
theorem authorization_of_authorised {sig chain : Bool} {id : List Byte} (h : V2gServed s o [1, 2, 3] [3])
    (transfer : transferOk s o = true) :
    authorization o sig chain id s = sendAnswer o (if (s.veh.session.at o).accepted then .ok else .ongoing) s := by
  have ⟨_, _, phase, _⟩ := h
  have three : (s.veh.session.at o).phase = 3 := List.mem_singleton.mp phase
  rw [authorization, request_of_served (v2gServed_mono h (by simp) (by simp)), requiring_of_met transfer]
  exact if_pos three

/-- Before that, DIN SPEC 70121 has no contract, and without a grant the answer is Ongoing. -/
theorem authorization_by_other_means {sig chain : Bool} (h : V2gServed s o [1] [2]) (transfer : transferOk s o = true)
    (waits : s.veh.grant.at o = none) : authorization o sig chain [] s = sendAnswer o .ongoing s := by
  have ⟨_, proto, phase, _⟩ := h
  have one : (s.veh.session.at o).proto = 1 := BitVec.eq_of_toNat_eq (List.mem_singleton.mp proto)
  have two : (s.veh.session.at o).phase = 2 := List.mem_singleton.mp phase
  have granted : (sendAnswer o .ongoing s).veh.grant.at o = none := waits
  rw [authorization, request_of_served (v2gServed_mono h (by simp) (by simp)), requiring_of_met transfer]
  simp [one, two, authorizeOther, granted]

/-! ### Parameters and schedules -/

/-- Parameters in hardware mode. -/
theorem chargeParameterDiscovery_agreed {most : Nat} (h : V2gServed s o [1, 2, 3] [4, 6])
    (accepted : (s.veh.session.at o).accepted = true) (transfer : transferOk s o = true)
    (rated : isDc s o = false ∨ ratedAmps s o ≠ 0) (hardware : s.veh.ha.at o = false) :
    ((chargeParameterDiscovery o most s).veh.session.at o).agreed = min (offeredLimit s o) most := by
  have later : sessionPhase s o ≠ 3 := by
    have ⟨_, _, phase, _⟩ := h
    intro three
    simp [three] at phase
  have able : ¬ (isDc s o && ratedAmps s o = 0) = true := by
    rcases rated with ac | amps
    · simp [ac]
    · simp [amps]
  rw [chargeParameterDiscovery, request_of_served (v2gServed_mono h (by simp) (by simp)),
    requiring_of_met (by simp [accepted, transfer]), parameters, if_neg able]
  simp [later, hardware]

theorem settleDischarge_of_hardware (hardware : s.veh.ha.at o = false) :
    settleDischarge o s = s.onSession o fun n => { n with discharge := some n.bpt } := if_neg (by simp [hardware])

theorem scheduleExchange_settles {dynamic : Bool} (h : V2gServed s o [3] [4, 6]) (hardware : s.veh.ha.at o = false) :
    ((scheduleExchange o dynamic s).veh.session.at o).dynamic = dynamic ∧
    ((scheduleExchange o dynamic s).veh.session.at o).discharge = some (s.veh.session.at o).bpt := by
  have kept : (s.onSession o fun n => { n with dynamic := dynamic }).veh.ha.at o = false := hardware
  rw [scheduleExchange, request_of_served h, settleDischarge_of_hardware kept]
  simp

/-! ### Certificate requests -/

/-- A verified certificate request goes to host software with the next request identifier. -/
theorem relayCertificate_of_verified {kind : Nat} (verified : (verifyRoot [7] s).1 = true)
    (first : (s.veh.session.at o).cert = none) :
    (relayCertificate o kind true s).veh.reqId = s.veh.reqId + 1 ∧
    ((relayCertificate o kind true s).veh.session.at o).cert = some (s.veh.reqId + 1, kind) ∧
    ((relayCertificate o kind true s).veh.session.at o).answer = some .ongoing := by
  have session : (verifyRoot [7] s).2.veh.session = s.veh.session := verifyRoot_within.session_eq
  have reqId : (verifyRoot [7] s).2.veh.reqId = s.veh.reqId := verifyRoot_within.reqId_eq
  simp [relayCertificate, verified, session, first, raise_within.session_eq, raise_within.reqId_eq, reqId]

/-! ### The handshake -/

theorem tlsPresent_of_signed {v : Nat} {x : CipherSuite}
    (leaf : leafCarries (readChain (tlsKey v) s) (tlsKey v) = true)
    (signs : (useMapped (s.veh.keyMap.at (Fin.ofNat 8 (tlsKey v).val)) 1 31 (readChain (tlsKey v) s)).1 = true) :
    ((tlsPresent o v x s).veh.session.at o).tls = some x := by
  unfold tlsPresent
  extract_lets presented
  rw [if_neg (by simp [presented, leaf])]
  split
  next signed _ => simp
  next refused e => cases (congrArg Prod.fst e).symm.trans signs

theorem tlsHandshake_of_version {f : TlsOffer} {v : Nat} {x : CipherSuite} (runs : v2gRuns s o = true)
    (phase : sessionPhase s o = 2) (version : tlsVersion s o f = some v) (suite : tlsSuite v f = some x) :
    tlsHandshake o f s = tlsPresent o v x s := by
  simp [tlsHandshake, runs, phase, version, suite]

theorem tlsHandshake_without_version {f : TlsOffer} (runs : v2gRuns s o = true) (phase : sessionPhase s o = 2)
    (version : tlsVersion s o f = none) : tlsHandshake o f s = v2gEnd o .tlsAlert s := by
  simp [tlsHandshake, runs, phase, version]

end

/-- Settles O17: one request after the other, then the handshake and what ends the session. The choice of protocol and
transport is the model's reading (log 43), and so are the end of the session by a request out of its phases (log 44) and
the stored chain and its leaf at the handshake (log 119). -/
theorem v2gSetupComplete : Obligations.V2gSetupComplete := by
  intro s o
  refine ⟨fun l p served chosen => ⟨_, rfl, supportedAppProtocol_selects served chosen⟩,
    fun served => congrArg Host.Outcome.next (request_of_served served),
    fun served => congrArg Host.Outcome.next (request_of_served served),
    fun v served offered => congrArg Host.Outcome.next (serviceDetail_of_offered served offered),
    fun v c served offered contract => ⟨_, rfl, serviceSelection_of_offered served offered contract⟩,
    fun id served contract offered verified => ⟨_, rfl, paymentDetails_of_verified served contract offered verified⟩,
    fun served => congrArg Host.Outcome.next (request_of_served served),
    fun sig chain id served transfer => congrArg Host.Outcome.next (authorization_of_authorised served transfer),
    fun sig chain served transfer waits => congrArg Host.Outcome.next (authorization_by_other_means served transfer waits),
    fun most served accepted transfer rated hardware =>
      ⟨_, rfl, chargeParameterDiscovery_agreed served accepted transfer rated hardware⟩,
    fun dynamic served hardware => ⟨_, rfl, scheduleExchange_settles served hardware⟩,
    fun served first verified => ⟨_, congrArg Host.Outcome.next (request_of_served served),
      relayCertificate_of_verified verified first⟩,
    fun served first verified => ⟨_, congrArg Host.Outcome.next (request_of_served served),
      have ⟨_, cert, _⟩ := relayCertificate_of_verified verified first
      cert⟩,
    fun f v x runs phase version suite leaf signs =>
      ⟨_, congrArg Host.Outcome.next (tlsHandshake_of_version runs phase version suite), tlsPresent_of_signed leaf signs⟩,
    fun f runs phase version => congrArg Host.Outcome.next (tlsHandshake_without_version runs phase version),
    fun runs => congrArg Host.Outcome.next (if_pos runs),
    fun runs phase => congrArg Host.Outcome.next (request_out_of_phase runs (by simpa using phase))⟩

end Sys2Proof.Machine

/-! SUPPORT. What the decisions of each class leave of their outlet (O5): the fault word, the Class E and the pair after each
operation that a decision is made of. -/

namespace Sys2Proof.Machine

set_option Elab.async false

section
variable {s t : State} {o : OutletNo} {c : Byte} {peer : Bool} {m : Nat}

theorem Within.outlet_eq (w : Within m s t) (hm : m.testBit 16 = false := by rfl) : t.rus.outlet = s.rus.outlet :=
  kept_without_bit w.guardsKept hm

theorem onGuard_outlet_at {f : Guard → Guard} : (s.onGuard o f).rus.outlet.at o = f (s.rus.outlet.at o) := by simp

/-! ### The operations of a decision -/

theorem count_outlet : (count o c peer s).rus.outlet.at o =
    { s.rus.outlet.at o with fault := (s.rus.outlet.at o).fault.decided c peer } := onGuard_outlet_at

theorem lockedOut_count : lockedOut (count o c peer s) o = lockedOut s o := congrArg (·.fault.classP) count_outlet

theorem openPair_outlet : (openPair o s).rus.outlet.at o =
    openedGuard (s.rus.pair.at (coilOf o)).cmd s.och.clock.mono (s.rus.outlet.at o) := onGuard_outlet_at

theorem openPair_fault : ((openPair o s).rus.outlet.at o).fault = { (s.rus.outlet.at o).fault with foff := true } :=
  congrArg Guard.fault openPair_outlet

theorem openPair_off : ((openPair o s).rus.pair.at (coilOf o)).cmd = false ∧
    ((openPair o s).rus.pair.at (coilOf o)).turn = .idle := by
  simp [openPair, State.onPair]

/-- What a Lockout changes in the guard of its opened outlet. -/
def Guard.lock (g : Guard) : Guard :=
  { g with fault := { g.fault with classP := true, classE := false, foff := true },
           ce := { ClassE.none with req2E := g.ce.req2E, req2F := g.ce.req2F } }

/-- Whether or not the end of a Class E is reported, the guards and the pairs are those of the opened and locked outlet. -/
theorem lockOut_outlet_pair : (lockOut o s).rus.outlet = ((openPair o s).onGuard o Guard.lock).rus.outlet ∧
    (lockOut o s).rus.pair = (openPair o s).rus.pair := by
  unfold lockOut
  extract_lets was opened noClassE locked piloted session ended
  rw [refreshDrive_within.outlet_eq, refreshDrive_within.pair_eq]
  exact ⟨map_ite_of_eq (·.rus.outlet) (s := session) raiseEnd_within.outlet_eq,
    map_ite_of_eq (·.rus.pair) (s := session) raiseEnd_within.pair_eq⟩

theorem lockOut_fault : ((lockOut o s).rus.outlet.at o).fault =
    { (s.rus.outlet.at o).fault with classP := true, classE := false, foff := true } := by
  rw [lockOut_outlet_pair.1, onGuard_outlet_at, Guard.lock, openPair_fault]

theorem lockOut_off : ((lockOut o s).rus.pair.at (coilOf o)).cmd = false ∧
    ((lockOut o s).rus.pair.at (coilOf o)).turn = .idle := by
  rw [lockOut_outlet_pair.2]
  exact openPair_off

theorem withdrawRelease_fault : ((withdrawRelease o s).rus.outlet.at o).fault = (s.rus.outlet.at o).fault := by
  unfold withdrawRelease
  split
  · rw [raise_within.outlet_eq, onGuard_outlet_at]
  · rfl

theorem enterClassE_fault : ((enterClassE o s).rus.outlet.at o).fault =
    { (s.rus.outlet.at o).fault with classE := true } := by
  unfold enterClassE
  split
  next already => rw [← already]
  next =>
    rw [refreshDrive_within.outlet_eq, raise_within.outlet_eq, State.onPilot_within.outlet_eq, onGuard_outlet_at]

/-- FOFF may be asserted; the rest of the fault word stays. -/
theorem cancelClose_fault : ∃ foff, ((cancelClose o s).rus.outlet.at o).fault =
    { (s.rus.outlet.at o).fault with foff := foff } := by
  unfold cancelClose
  split
  · exact ⟨true, openPair_fault⟩
  · exact ⟨_, by rw [abandonTest_within.outlet_eq]⟩

/-! ### The decisions -/

/-- The tail of a decision sends its event and relays it. -/
theorem relay_tripEvent_outlet {cls : Nat} :
    (relay o c cls peer (tripEvent o c cls peer s)).rus.outlet = s.rus.outlet := by
  rw [relay_within.outlet_eq, tripEvent_within.outlet_eq]

theorem relay_tripEvent_pair {cls : Nat} : (relay o c cls peer (tripEvent o c cls peer s)).rus.pair = s.rus.pair := by
  rw [relay_within.pair_eq, tripEvent_within.pair_eq]

theorem tripP_of_unlocked (h : (s.rus.outlet.at o).fault.classP = false) : tripP o c peer s =
    settle (relay o c 0 peer (withdrawRelease o (tripEvent o c 0 peer (lockOut o (count o c peer s))))) := by
  have unlocked : lockedOut (count o c peer s) o = false := lockedOut_count.trans h
  rw [tripP, unlocked, if_neg Bool.false_ne_true]

theorem tripP_fault (h : (s.rus.outlet.at o).fault.classP = false) : ((tripP o c peer s).rus.outlet.at o).fault =
    { (s.rus.outlet.at o).fault.decided c peer with classP := true, classE := false, foff := true } := by
  rw [tripP_of_unlocked h, settle_within.outlet_eq, relay_within.outlet_eq, withdrawRelease_fault,
    tripEvent_within.outlet_eq, lockOut_fault, count_outlet]

theorem tripP_off (h : (s.rus.outlet.at o).fault.classP = false) :
    ((tripP o c peer s).rus.pair.at (coilOf o)).cmd = false ∧
    ((tripP o c peer s).rus.pair.at (coilOf o)).turn = .idle := by
  rw [tripP_of_unlocked h, settle_within.pair_eq, relay_within.pair_eq, withdrawRelease_within.pair_eq,
    tripEvent_within.pair_eq]
  exact lockOut_off

/-- The guard with a Class E cause held, once. -/
def Guard.holding (c : Byte) (g : Guard) : Guard :=
  { g with ce := { g.ce with causes := if g.ce.causes.contains c then g.ce.causes else c :: g.ce.causes } }

theorem tripE_outlet (h : (s.rus.outlet.at o).fault.classP = false) : (tripE o c peer s).rus.outlet.at o =
    ((enterClassE o (cancelClose o (count o c peer s))).rus.outlet.at o).holding c := by
  obtain ⟨foff, fault⟩ := cancelClose_fault (s := count o c peer s) (o := o)
  have unlocked : lockedOut (cancelClose o (count o c peer s)) o = false := by
    rw [lockedOut, fault]
    exact lockedOut_count.trans h
  rw [tripE, unlocked, if_neg Bool.false_ne_true, relay_tripEvent_outlet]
  exact onGuard_outlet_at

theorem tripE_fault (h : (s.rus.outlet.at o).fault.classP = false) : ∃ foff,
    ((tripE o c peer s).rus.outlet.at o).fault =
      { (s.rus.outlet.at o).fault.decided c peer with classE := true, foff := foff } := by
  obtain ⟨foff, fault⟩ := cancelClose_fault (s := count o c peer s) (o := o)
  refine ⟨foff, ?_⟩
  rw [tripE_outlet h, Guard.holding, enterClassE_fault, fault, count_outlet]

theorem tripE_holds (h : (s.rus.outlet.at o).fault.classP = false) :
    ((tripE o c peer s).rus.outlet.at o).ce.causes.contains c = true := by
  rw [tripE_outlet h, Guard.holding]
  split
  next held => exact held
  next => simp

/-- The guard with its Class E in the expired state (R288). -/
def Guard.expire (g : Guard) : Guard :=
  { g with ce := { g.ce with expired := true, cleared := false, supervised := false, overFor := 0 } }

theorem tripOpen_of_unlocked (h : (s.rus.outlet.at o).fault.classP = false) : tripOpen o c peer s =
    relay o c 2 peer (tripEvent o c 2 peer
      ((openPair o (enterClassE o (count o c peer s))).onGuard o Guard.expire)) := by
  have unlocked : lockedOut (count o c peer s) o = false := lockedOut_count.trans h
  rw [tripOpen, unlocked, if_neg Bool.false_ne_true]
  rfl

theorem tripOpen_outlet (h : (s.rus.outlet.at o).fault.classP = false) : (tripOpen o c peer s).rus.outlet.at o =
    ((openPair o (enterClassE o (count o c peer s))).rus.outlet.at o).expire := by
  rw [tripOpen_of_unlocked h, relay_tripEvent_outlet, onGuard_outlet_at]

theorem tripOpen_fault (h : (s.rus.outlet.at o).fault.classP = false) : ((tripOpen o c peer s).rus.outlet.at o).fault =
    { (s.rus.outlet.at o).fault.decided c peer with classE := true, foff := true } := by
  rw [tripOpen_outlet h, Guard.expire, openPair_fault, enterClassE_fault, count_outlet]

theorem tripOpen_expired (h : (s.rus.outlet.at o).fault.classP = false) :
    ((tripOpen o c peer s).rus.outlet.at o).ce.expired = true := by
  rw [tripOpen_outlet h, Guard.expire]

theorem tripOpen_off (h : (s.rus.outlet.at o).fault.classP = false) :
    ((tripOpen o c peer s).rus.pair.at (coilOf o)).cmd = false := by
  rw [tripOpen_of_unlocked h, relay_tripEvent_pair]
  exact openPair_off.1

end

/-- Settles O5: the fault word that each decision leaves is the decided one with its class, so LAST, FIRST and COUNT are
those of `FaultWord.decided`. -/
theorem decisionClassesTakeEffect : Obligations.DecisionClassesTakeEffect := by
  intro s o c peer h
  have faultP := tripP_fault (c := c) (peer := peer) h
  obtain ⟨foff, faultE⟩ := tripE_fault (c := c) (peer := peer) h
  have faultOpen := tripOpen_fault (c := c) (peer := peer) h
  obtain ⟨off, idle⟩ := tripP_off (c := c) (peer := peer) h
  refine ⟨by rw [faultP], by rw [faultP], off, idle, by rw [faultE], tripE_holds h, by rw [faultOpen],
    tripOpen_expired h, tripOpen_off h, ?_⟩
  simp only [List.forall_mem_cons, faultP, faultE, faultOpen]
  exact ⟨⟨rfl, rfl, rfl⟩, ⟨rfl, rfl, rfl⟩, ⟨rfl, rfl, rfl⟩, by simp⟩

end Sys2Proof.Machine

/-! SUPPORT. Lockout (O47, O48): every step keeps the outlets in Lockout off, and two commands alone have the bit of a release
from Lockout in their footprint. -/

namespace Sys2Proof.Machine

set_option Elab.async false

/-- Settles O47: an empty queue idles, and a command that is taken from it keeps the outlets in Lockout off, which the rest
of the queue is no part of. -/
theorem lockoutKeepsOutputsOff : Obligations.LockoutKeepsOutputsOff := by
  intro s t safe ht
  cases hq : s.pending with
  | nil =>
    obtain rfl : s = t := Host.Outcome.next.inj ((step_of_pending_nil hq).symm.trans ht)
    exact safe
  | cons i rest => exact (step_within_of_pending_cons hq ht).lock safe

/-- One row per command: without the bit of a release from Lockout, or one of the two that may release. -/
theorem footprint_releases_only (i : Instr) :
    onNumeral (fun m => !m.testBit 42) (footprint i) = true ∨ (∃ r hi lo, i = .resetInputRelease r hi lo) ∨
      ∃ o passed, i = .releasePeerResult o passed := by
  cases i with
  | resetInputRelease r hi lo => exact .inr (.inl ⟨r, hi, lo, rfl⟩)
  | releasePeerResult o passed => exact .inr (.inr ⟨o, passed, rfl⟩)
  | _ => exact .inl rfl

/-- Settles O48: a command whose footprint has no release keeps every outlet in Lockout that it finds there. -/
theorem lockoutEndsByReleaseOnly : Obligations.LockoutEndsByReleaseOnly := by
  intro i s t o h locked
  refine (footprint_releases_only i).imp_left fun row => ?_
  have noRelease : (footprint i).testBit 42 = false := by simpa [onNumeral_eq] using row
  exact (exec_within i h).locked.resolve_right (ne_true_of_eq_false noRelease) o locked

end Sys2Proof.Machine

/-! SUPPORT. Brakes (O8): the brake and its pair after each operation on them, and the checks of a release, of an engagement
and of a holding test. -/

namespace Sys2Proof.Machine

set_option Elab.async false

section
variable {s t : State} {b : BrakeNo} {o : OutletNo} {c : Byte} {m : Nat}

/-! ### The brake and its pair after an operation -/

theorem Within.brake_eq (w : Within m s t) (hm : m.testBit 18 = false := by rfl) : t.rus.brake = s.rus.brake :=
  kept_without_bit w.brakesKept hm

theorem onBrake_brake_at {f : Brake → Brake} : (s.onBrake b f).rus.brake.at b = f (s.rus.brake.at b) := by simp

theorem setBrake_brake {st : BrakeState} :
    (setBrake b st s).rus.brake.at b = { s.rus.brake.at b with state := st } := by
  rw [setBrake, raise_within.brake_eq, onBrake_brake_at]

/-- A Class P decision moves its outlet's pair, which is no brake's. -/
theorem tripP_pair_brakeOf {peer : Bool} :
    (tripP o c peer s).rus.pair.at (brakeOf b) = s.rus.pair.at (brakeOf b) := by
  rw [tripP, settle_within.pair_eq, relay_within.pair_eq, withdrawRelease_within.pair_eq, tripEvent_within.pair_eq]
  split
  · simp [abandonTest, count, coilOf_ne_brakeOf]
  · rw [lockOut_outlet_pair.2]
    simp [openPair, count, coilOf_ne_brakeOf]

/-- The decisions for a list of outlets keep every brake and the pair of each. -/
theorem foldl_tripP_brake_pair {l : List OutletNo} :
    (l.foldl (fun u o => tripP o c false u) s).rus.brake = s.rus.brake ∧
    (l.foldl (fun u o => tripP o c false u) s).rus.pair.at (brakeOf b) = s.rus.pair.at (brakeOf b) := by
  induction l generalizing s with
  | nil => exact ⟨rfl, rfl⟩
  | cons o l ih =>
    obtain ⟨brake, pair⟩ := ih (s := tripP o c false s)
    exact ⟨brake.trans tripP_within.brake_eq, pair.trans tripP_pair_brakeOf⟩

theorem failBrake_brake : (failBrake b c s).rus.brake.at b =
    { s.rus.brake.at b with state := .failed, cause := c, tqreq := false, testOk := false, fromFailed := false } := by
  rw [failBrake, (foldl_tripP_brake_pair (b := b)).1, raise_within.brake_eq, onBrake_brake_at, offBrake_within.brake_eq]

theorem failBrake_off : ((failBrake b c s).rus.pair.at (brakeOf b)).cmd = false := by
  rw [failBrake, foldl_tripP_brake_pair.2, raise_within.pair_eq]
  simp [offBrake]

/-- A test that passes keeps the brake's configuration and movement, and its engagement's moment unless it was failed. -/
theorem passHolding_brake : (passHolding b s).rus.brake.at b =
    { s.rus.brake.at b with
      state := .engaged, tqreq := false, testOk := true, overdue := false, passedAt := some s.och.clock.mono,
      fromFailed := false,
      since := if (s.rus.brake.at b).fromFailed then s.och.clock.mono else (s.rus.brake.at b).since } := by
  rw [passHolding, setBrake_brake, onBrake_brake_at]

/-! ### Release and engagement -/

variable (runs : russetRuns s = true)
include runs

theorem releaseCheck_releasing {released : Bool} {rise : List Nat} (releasing : (s.rus.brake.at b).state = .releasing) :
    releaseCheck b released rise s = if !released then failBrake b 0x28 s
      else if !profileOk (s.rus.brake.at b) rise then failBrake b 0x29 s else setBrake b .released s :=
  if_pos (by rw [runs, releasing]; rfl)

theorem engageCheck_engaging {engaged : Bool} (engaging : (s.rus.brake.at b).state = .engaging) :
    engageCheck b engaged s = if engaged then setBrake b .engaged (s.onBrake b fun x => { x with since := s.och.clock.mono })
      else failBrake b 0x28 s :=
  if_pos (by rw [runs, engaging]; rfl)

theorem currentFault_outside {cs : List Nat} (released : (s.rus.brake.at b).state = .released)
    (outside : outsideLimits (s.rus.brake.at b) cs = true) : currentFault b cs s = failBrake b 0x29 s :=
  if_pos (by rw [runs, released, outside]; rfl)

/-! ### Holding tests -/

variable {xs : List (Bool × Bool)}

theorem holdingMovement_beyond (testing : (s.rus.brake.at b).state = .testing)
    (beyond : (movement (s.rus.brake.at b) xs).2 = true) :
    holdingMovement b xs s = failBrake b 0x2A (noteDelta b (movement (s.rus.brake.at b) xs).1 s) := by
  rw [holdingMovement, if_pos (by rw [runs, testing]; rfl)]
  exact if_pos beyond

theorem torqueEnd_testing (testing : (s.rus.brake.at b).state = .testing) :
    torqueEnd b s = s.onBrake b fun x => { x with tqreq := false } :=
  if_pos (by rw [runs, testing]; rfl)

theorem holdingEnd_held (testing : (s.rus.brake.at b).state = .testing)
    (held : (movement (s.rus.brake.at b) xs).2 = false) :
    holdingEnd b xs s = passHolding b (noteDelta b (movement (s.rus.brake.at b) xs).1 s) := by
  rw [holdingEnd, if_pos (by rw [runs, testing]; rfl)]
  exact if_neg (ne_true_of_eq_false held)

theorem holdingOverdue_due (due : testInDate s (s.rus.brake.at b) = false) :
    holdingOverdue b s = s.onBrake b fun x => { x with overdue := true } :=
  if_pos (by rw [runs, due]; rfl)

end

/-- Settles O8: one check after the other. -/
theorem brakesComplete : Obligations.BrakesComplete := by
  intro s b running
  have runs := russetRuns_of_running running
  refine ⟨fun releasing rise => ?release, fun engaging => ?engage, fun released cs outside => ?current,
    fun testing => ⟨fun xs beyond => ?movement, ?torque, fun xs held => ?passed⟩, fun due => ?overdue,
    fun cause => ⟨congrArg Brake.state failBrake_brake, congrArg Brake.cause failBrake_brake, failBrake_off⟩⟩
  case release =>
    have check {released : Bool} := releaseCheck_releasing runs (released := released) (rise := rise) releasing
    exact ⟨congrArg Host.Outcome.next check,
      fun ok => congrArg Host.Outcome.next (check.trans (by simp [ok])),
      fun bad => congrArg Host.Outcome.next (check.trans (by simp [bad]))⟩
  case engage =>
    have check {engaged : Bool} := engageCheck_engaging runs (engaged := engaged) engaging
    refine ⟨⟨_, congrArg Host.Outcome.next check, ?_, ?_⟩, congrArg Host.Outcome.next check⟩
    · exact congrArg Brake.state setBrake_brake
    · rw [if_pos rfl, setBrake_brake, onBrake_brake_at]
  case current => exact congrArg Host.Outcome.next (currentFault_outside runs released outside)
  case movement =>
    exact ⟨_, congrArg Host.Outcome.next (holdingMovement_beyond runs testing beyond),
      congrArg Brake.state failBrake_brake, congrArg Brake.cause failBrake_brake, congrArg Brake.tqreq failBrake_brake,
      failBrake_off⟩
  case torque =>
    refine ⟨_, congrArg Host.Outcome.next (torqueEnd_testing runs testing), ?_⟩
    rw [onBrake_brake_at]
    exact ⟨rfl, testing⟩
  case passed =>
    refine ⟨_, congrArg Host.Outcome.next (holdingEnd_held runs testing held), ?_⟩
    rw [passHolding_brake, noteDelta_within.legalClock_eq]
    exact ⟨rfl, rfl, rfl, rfl⟩
  case overdue =>
    refine ⟨_, congrArg Host.Outcome.next (holdingOverdue_due runs due), ?_, rfl⟩
    rw [onBrake_brake_at]

end Sys2Proof.Machine

/-! SUPPORT. The load switches (O19): what one channel is after a tick, which the other channels' turns leave alone, and
what each event, edge, broadcast, sample, shed and restore leaves of its channel. -/

namespace Sys2Proof.Machine

set_option Elab.async false

section
variable {s t : State} {m : Nat} {k j : ChanNo}

theorem speltRuns_of_running (h : s.dies.spelt = .running) : speltRuns s = true := by rw [speltRuns, h]; rfl

theorem Within.spelt_eq (w : Within m s t) (hm : m.testBit 23 = false := by rfl) : t.spe = s.spe :=
  kept_without_bit w.speltKept hm

theorem onChan_chan_at {f : Channel → Channel} : (s.onChan k f).spe.chan.at k = f (s.spe.chan.at k) := by simp

theorem raise_chan {source index cause : Nat} {data : List Byte} :
    (raise source index cause data s).spe.chan = s.spe.chan := congrArg Spelt.chan raise_within.spelt_eq

theorem mem_channels (k : ChanNo) : k ∈ channels :=
  List.mem_map.mpr ⟨k.val, List.mem_range.mpr k.isLt, Fin.ext (Nat.mod_eq_of_lt k.isLt)⟩

theorem channels_nodup : channels.Nodup := by decide

/-! ### Demand and output -/

/-- What the demand and the output of a channel read of the state beside the channel itself. -/
def demandInputs (s : State) : Bool × Conditions × Bool × Tab Bool 8 × Modes :=
  (s.spe.loaded, s.spe.cond, s.spe.absent, s.spe.pulse, s.modes)

theorem channelDemand_congr (h : demandInputs t = demandInputs s) (c : Channel) :
    channelDemand t c = channelDemand s c := by
  simp only [demandInputs, Prod.mk.injEq] at h
  obtain ⟨loaded, cond, absent, _, _⟩ := h
  unfold channelDemand fallbackActs
  rw [loaded, cond, absent]

theorem outputOf_congr (h : demandInputs t = demandInputs s) (c : Channel) : outputOf t c = outputOf s c := by
  simp only [demandInputs, Prod.mk.injEq] at h
  obtain ⟨_, _, _, pulse, modes⟩ := h
  unfold outputOf pulseActive channelsHeld servingRole
  rw [pulse, modes]

theorem refreshOutput_chan_at : (refreshOutput k s).spe.chan.at k =
    { s.spe.chan.at k with output := outputOf s (s.spe.chan.at k) } := onChan_chan_at

/-- A channel after its demand has been taken over and its output decided (R299). -/
def switchChannel (s : State) (c : Channel) : Channel :=
  let d := takeDemand (channelDemand s c) c
  { d with output := outputOf s d }

theorem takeDemand_demand (d : Bool) (c : Channel) : (takeDemand d c).demand = d := by
  unfold takeDemand
  split
  case isTrue turnsOff =>
    obtain ⟨_, off⟩ : c.demand = true ∧ d = false := by simpa using turnsOff
    exact off.symm
  case isFalse => rfl

/-- Neither taking the demand over nor the output changes what the demand reads of the channel. -/
theorem channelDemand_switchChannel (s : State) (c : Channel) :
    channelDemand s (switchChannel s c) = channelDemand s c := by
  unfold switchChannel takeDemand
  split <;> rfl

theorem switchChannel_demand (s : State) (c : Channel) :
    (switchChannel s c).demand = channelDemand s (switchChannel s c) :=
  (takeDemand_demand _ c).trans (channelDemand_switchChannel s c).symm

theorem switchChannel_output (s : State) (c : Channel) :
    (switchChannel s c).output = outputOf s (switchChannel s c) := rfl

theorem switchChannel_iSense (s : State) (c : Channel) : (switchChannel s c).iSense = c.iSense := by
  unfold switchChannel takeDemand
  split <;> rfl

/-! ### Control tick -/

variable {meas : List ChanMeas} {sub : Int} {late : Bool}

/-- A channel after its turn of a tick: settings, measurements, rule, then demand and output. -/
def tickedChannel (meas : List ChanMeas) (sub : Int) (late : Bool) (k : ChanNo) (s : State) (c : Channel) : Channel :=
  switchChannel s (ruleTick s.spe.cond (ageEvents (measured meas sub k (if late then c else commitChannel c))))

theorem ruleTick_iSense (q : Conditions) (c : Channel) : (ruleTick q c).iSense = c.iSense := by
  unfold ruleTick
  extract_lets raw
  split
  · rfl
  · split <;> rfl

theorem tickedChannel_iSense (c : Channel) : (tickedChannel meas sub late k s c).iSense =
    (measured meas sub k (if late then c else commitChannel c)).iSense :=
  (switchChannel_iSense _ _).trans (ruleTick_iSense _ _)

theorem tickedChannel_congr (h : demandInputs t = demandInputs s) (c : Channel) :
    tickedChannel meas sub late k t c = tickedChannel meas sub late k s c := by
  have cond : t.spe.cond = s.spe.cond := congrArg (fun (_, cond, _) => cond) h
  simp only [tickedChannel, switchChannel, channelDemand_congr h, outputOf_congr h, cond]

/-- A channel's turn, before the restore's count and the event that its retries are no longer exhausted. -/
def channelTurn (meas : List ChanMeas) (sub : Int) (late : Bool) (k : ChanNo) (s : State) : State :=
  let u := s.onChan k fun c =>
    ruleTick s.spe.cond (ageEvents (measured meas sub k (if late then c else commitChannel c)))
  refreshOutput k (u.onChan k fun c => takeDemand (channelDemand u c) c)

theorem channelTurn_chan_at : (channelTurn meas sub late k s).spe.chan.at j =
    if k = j then tickedChannel meas sub late k s (s.spe.chan.at j) else s.spe.chan.at j := by
  by_cases own : k = j
  · subst own
    rw [if_pos rfl, channelTurn, refreshOutput_chan_at, onChan_chan_at, onChan_chan_at]
    rfl
  · simp [channelTurn, refreshOutput, own]

/-- The channels, and what the demand and the output of each read beside it. -/
def switchView (s : State) : Tab Channel 48 × Bool × Conditions × Bool × Tab Bool 8 × Modes :=
  (s.spe.chan, demandInputs s)

theorem switchView_eq_iff : switchView t = switchView s ↔
    t.spe.chan = s.spe.chan ∧ demandInputs t = demandInputs s := by
  rw [switchView, switchView, Prod.mk.injEq]

theorem raiseEnd_switchView {source index : Nat} {data : List Byte} :
    switchView (raiseEnd source index data s) = switchView s := by
  unfold switchView demandInputs
  rw [raiseEnd_within.spelt_eq, raiseEnd_within.modes_eq]

theorem tickChannel_switchView :
    switchView (tickChannel meas sub late k s) = switchView (channelTurn meas sub late k s) := by
  unfold tickChannel
  extract_lets
  exact (map_ite_of_eq switchView raiseEnd_switchView).trans (map_ite_of_eq switchView rfl)

theorem tickChannel_inputs : demandInputs (tickChannel meas sub late k s) = demandInputs s :=
  (switchView_eq_iff.mp tickChannel_switchView).2

theorem tickChannel_chan_at : (tickChannel meas sub late k s).spe.chan.at j =
    if k = j then tickedChannel meas sub late k s (s.spe.chan.at j) else s.spe.chan.at j := by
  rw [(switchView_eq_iff.mp tickChannel_switchView).1, channelTurn_chan_at]

/-- Each channel has one turn of the pass, on what the state holds before it. -/
theorem forEach_tickChannel_chan_at {l : List ChanNo} (once : l.Nodup) :
    (forEach l (tickChannel meas sub late) s).spe.chan.at j =
      if j ∈ l then tickedChannel meas sub late j s (s.spe.chan.at j) else s.spe.chan.at j := by
  induction l generalizing s with
  | nil => rfl
  | cons i l ih =>
    obtain ⟨new, rest⟩ := List.nodup_cons.mp once
    rw [forEach_cons, ih rest, tickChannel_chan_at, tickedChannel_congr tickChannel_inputs]
    by_cases own : i = j
    · subst own
      simp [new]
    · simp [own, Ne.symm own]

/-- The maximum of a tick, which commits unless it came late. -/
def commitMaximum (late : Bool) (s : State) : State :=
  { s with spe.aggMax := if late then s.spe.aggMax else s.spe.aggMax.commit }

/-- The list of the pass is generalised, so that the pass stays as it is and is not evaluated. -/
theorem speltTick_of_runs (runs : speltRuns s = true) :
    switchView (speltTick meas sub late s) =
      switchView (forEach channels (tickChannel meas sub late) (commitMaximum late s)) ∧
    (speltTick meas sub late s).spe.aggI = aggregate (speltTick meas sub late s) := by
  rw [speltTick, runs]
  unfold commitMaximum
  generalize channels = l
  exact ⟨rfl, rfl⟩

theorem speltTick_inputs (runs : speltRuns s = true) :
    demandInputs (speltTick meas sub late s) = demandInputs s := by
  rw [(switchView_eq_iff.mp (speltTick_of_runs runs).1).2]
  exact forEach_keeps demandInputs (fun _ _ => tickChannel_inputs) channels

theorem speltTick_chan_at (runs : speltRuns s = true) : (speltTick meas sub late s).spe.chan.at k =
    tickedChannel meas sub late k s (s.spe.chan.at k) := by
  rw [(switchView_eq_iff.mp (speltTick_of_runs runs).1).1, forEach_tickChannel_chan_at channels_nodup,
    if_pos (mem_channels k)]
  rfl

/-! ### Thermal events and restarts -/

/-- A channel after a turn-off under R302 or R303: the event counts, then the latch and the retry rule decide. -/
def hotChannel (kind : Protection) (c : Channel) : Channel :=
  let d := { c with events := 0 :: c.events }
  { d with prot := protAfter kind d, output := false, freeRestart := false }

theorem thermalEvent_chan_at {kind : Protection} :
    (thermalEvent k kind s).spe.chan.at k = hotChannel kind (s.spe.chan.at k) := by
  unfold thermalEvent
  extract_lets hot raised
  have turned : raised.spe.chan.at k = hotChannel kind (s.spe.chan.at k) := by
    rw [show raised.spe.chan = hot.spe.chan from raise_chan]
    exact onChan_chan_at
  split
  · rw [raise_chan, turned]
  · rw [raise_chan, turned]
  · exact turned

theorem thermalShutdown_on {tj : Int} (runs : s.dies.spelt = .running) (hot : 175 ≤ tj)
    (none : (s.spe.chan.at k).prot = .none) (on : (s.spe.chan.at k).demand = true) :
    thermalShutdown k tj s = thermalEvent k .thermal s := by
  have cold : ¬ tj < 175 := by omega
  simp [thermalShutdown, runs, cold, none, on, speltRuns]

theorem differenceLimit_on {tj : Int} (runs : speltRuns s = true) (none : (s.spe.chan.at k).prot = .none)
    (on : (s.spe.chan.at k).demand = true) (beyond : differenceMax (s.spe.chan.at k) < tj - sub) (below : tj < 175) :
    differenceLimit k tj sub s = thermalEvent k .difference s := by
  have cold : ¬ 175 ≤ tj := by omega
  simp [differenceLimit, runs, none, on, beyond, cold]

/-- A restart of R302 or R303; that one after CLR does not count is the model's reading (log 53). -/
theorem channelRestart_cooled {tj : Int} (runs : speltRuns s = true) (cool : cooled (s.spe.chan.at k) tj sub = true)
    (on : (s.spe.chan.at k).demand = true) (pulse : pulseActive s (s.spe.chan.at k) = true) :
    channelRestart k tj sub s = refreshOutput k (s.onChan k fun c =>
      { c with prot := .none, freeRestart := false,
               retryCnt := if c.freeRestart then c.retryCnt else c.retryCnt + 1 }) :=
  if_pos (by rw [runs, cool, on, pulse]; rfl)

/-! ### Pulse inputs, conditions and rules -/

theorem pulseEdge_pulse {p : PulseNo} {high : Bool} : (pulseEdge p high s).spe.pulse.at p = high := by
  have stored : (s.spe.pulse.put p high).at p = high := (Tab.at_put ..).trans (if_pos rfl)
  unfold pulseEdge
  generalize channels = l
  refine (map_ite_of_eq' (·.spe.pulse.at p) ?_).trans stored
  refine forEach_keeps (·.spe.pulse.at p) (fun _ _ => ?_) l
  exact map_ite_of_eq (·.spe.pulse.at p) rfl

theorem broadcast_spelt (runs : speltRuns s = true) (control : controlRuns s = true) :
    (broadcast s).spe = { s.spe with cond := conditionsNow s, absent := false } := by
  rw [broadcast, if_neg (by simp [runs, control])]
  exact map_ite_of_eq State.spe raiseEnd_within.spelt_eq

theorem broadcastAbsent_conditions (runs : speltRuns s = true) :
    (broadcastAbsent s).spe.absent = true ∧ (broadcastAbsent s).spe.cond = s.spe.cond := by
  cases absent : s.spe.absent with
  | true =>
    have kept : broadcastAbsent s = s := if_pos (by simp [absent])
    rw [kept]
    exact ⟨absent, rfl⟩
  | false =>
    rw [broadcastAbsent, if_neg (by simp [runs, absent]), raise_within.spelt_eq]
    exact ⟨rfl, rfl⟩

theorem ruleExpiry_of_due {raw : Bool} (runs : speltRuns s = true)
    (now : raw = rawDemand s.spe.cond (s.spe.chan.at k).rule.now) (against : raw ≠ (s.spe.chan.at k).ruleOut)
    (due : ruleDelay (s.spe.chan.at k).rule.now raw ≤ (s.spe.chan.at k).against) :
    ruleExpiry k s = s.onChan k fun c => { c with ruleOut := raw, against := 0 } := by
  subst now
  exact if_pos (by simp [runs, against, due])

/-! ### Diagnostics -/

theorem reportDiag_chan {d : ChanDiag} : (reportDiag k d s).spe.chan = s.spe.chan :=
  congrArg Spelt.chan reportDiag_within.spelt_eq

theorem onOpenLoad_sampled {xs : List Nat} (runs : speltRuns s = true) (on : (s.spe.chan.at k).output = true)
    (free : (s.spe.chan.at k).iLimit = false) (threshold : wFld (s.spe.chan.at k).cfg1.now 22 5 ≠ 0)
    (sampled : xs ≠ []) :
    ((onOpenLoad k xs s).spe.chan.at k).diag.olOn =
      openLoad (wFld (s.spe.chan.at k).cfg1.now 22 5 * 5) xs (s.spe.chan.at k).diag.olOn := by
  have sample : (speltRuns s && (s.spe.chan.at k).output && !(s.spe.chan.at k).iLimit &&
      wFld (s.spe.chan.at k).cfg1.now 22 5 ≠ 0 && !xs.isEmpty) = true := by simp [runs, on, free, threshold, sampled]
  rw [onOpenLoad, if_pos sample, reportDiag_chan, onChan_chan_at]

theorem offCheck_off {x : OffCheck} (off : (s.spe.chan.at x.chan).demand = false) :
    ((offCheck x s).spe.chan.at x.chan).diag =
      offDiag (wBit (s.spe.chan.at x.chan).cfg1.now 21) x (s.spe.chan.at x.chan).diag := by
  rw [offCheck, if_neg (by rw [off]; exact Bool.false_ne_true), reportDiag_chan, onChan_chan_at]

/-! ### Shedding and the cap -/

/-- The 10 ticks, and the 1000 of a restore below, are counts of the model's (log 54). -/
theorem shedOne_next (runs : speltRuns s = true) (above : 10 ≤ s.spe.overTicks) (next : shedNext s = some k) :
    (shedOne s).spe.chan =
      (s.onChan k fun c => { c with shed := true, shedI := c.iSense, output := false }).spe.chan := by
  have due : ¬ s.spe.overTicks < 10 := by omega
  simp only [shedOne, runs, due, next]
  exact raise_chan

theorem restoreOne_next (runs : speltRuns s = true) (fits : 1000 ≤ s.spe.restoreTicks)
    (next : restoreNext s = some k) :
    (restoreOne s).spe.chan = (refreshOutput k (s.onChan k fun c => { c with shed := false })).spe.chan := by
  have due : ¬ s.spe.restoreTicks < 1000 := by omega
  simp only [restoreOne, runs, due, next]
  exact raise_chan

theorem capUpdate_of_runs (runs : speltRuns s = true) (control : controlRuns s = true) (heard : s.spe.absent = false) :
    (capUpdate s).spe.aggCap = capAt (wFld s.spe.aggMax.now 23 9) s.thm.tc := by
  simp [capUpdate, runs, control, heard]

end

/-- Settles O19: each operation of the load switches through its lemma above. -/
theorem speltComplete : Obligations.SpeltComplete := by
  intro s running
  have runs := speltRuns_of_running running
  refine ⟨fun meas sub late => ⟨_, rfl, (speltTick_of_runs runs).2, fun k => ?tick⟩,
    fun k i p tj sub none on event => ?thermal,
    fun k tj sub cool on pulse =>
      ⟨_, congrArg Host.Outcome.next (channelRestart_cooled runs cool on pulse), ?restart⟩,
    fun p high => ⟨_, rfl, pulseEdge_pulse⟩,
    fun control => ⟨_, rfl, congrArg Spelt.cond (broadcast_spelt runs control),
      congrArg Spelt.absent (broadcast_spelt runs control)⟩,
    ⟨_, rfl, broadcastAbsent_conditions runs⟩,
    fun k against due => ⟨_, congrArg Host.Outcome.next (ruleExpiry_of_due runs rfl against due), ?rule⟩,
    fun k xs on free threshold sampled => ⟨_, rfl, onOpenLoad_sampled runs on free threshold sampled⟩,
    fun x off => ⟨_, congrArg Host.Outcome.next (if_pos runs), offCheck_off off⟩,
    fun k above next => ⟨_, rfl, ?shed⟩, fun k fits next => ⟨_, rfl, ?restore⟩,
    fun control heard => ⟨_, rfl, capUpdate_of_runs runs control heard⟩⟩
  case tick =>
    rw [channelDemand_congr (speltTick_inputs runs), outputOf_congr (speltTick_inputs runs), speltTick_chan_at runs]
    exact ⟨switchChannel_demand .., switchChannel_output .., tickedChannel_iSense _⟩
  case thermal =>
    have turned : exec i s = .next (thermalEvent k p s) := by
      obtain ⟨rfl, hot, rfl⟩ | ⟨rfl, beyond, below, rfl⟩ := event
      · exact congrArg Host.Outcome.next (thermalShutdown_on running hot none on)
      · exact congrArg Host.Outcome.next (differenceLimit_on runs none on beyond below)
    refine ⟨_, turned, ?_⟩
    rw [thermalEvent_chan_at]
    exact ⟨rfl, rfl, rfl, rfl⟩
  case restart =>
    rw [refreshOutput_chan_at, onChan_chan_at]
    exact ⟨rfl, rfl⟩
  case rule => rw [onChan_chan_at]
  case shed =>
    rw [shedOne_next runs above next, onChan_chan_at]
    exact ⟨rfl, rfl, rfl⟩
  case restore => rw [restoreOne_next runs fits next, refreshOutput_chan_at, onChan_chan_at]

end Sys2Proof.Machine

/-! SUPPORT. The load switch commands (O25): what each of 0x0600 to 0x0606 answers and leaves, run on the state in which
it acts. -/

namespace Sys2Proof.Machine

set_option Elab.async false

section
variable {op : Nat} {c : Cmd} {s b t : State} {r : Reply} {f : List Byte → State → Reply × State}

/-- An accepted command of Spelt's acts while Spelt runs. -/
theorem runCmd_onSpelt_of_accepted (h : Accepted op c s) (hb : b = acting op c s) (runs : speltRuns b = true)
    (out : f (cmdFields op c) b = (r, t)) : runCmd op c (onSpelt f) s = answer op c r (settle t) :=
  runCmd_acts_of_accepted h hb ((if_pos runs).trans out)

end

/-- Settles O25: each load switch command, run on the state in which it acts. -/
theorem loadCommandsComplete : Obligations.LoadCommandsComplete := by
  intro s b c p
  refine ⟨fun h hb runs => congrArg Host.Outcome.next (runCmd_onSpelt_of_accepted h hb runs rfl),
    fun h hb fields runs first second => congrArg Host.Outcome.next
      (runCmd_onSpelt_of_accepted h hb runs (fields ▸ checked_of_all ?configuration)),
    fun h hb fields runs rest => congrArg Host.Outcome.next
      (runCmd_onSpelt_of_accepted h hb runs (fields ▸ checked_of_all ?control)),
    fun h hb fields runs rule => congrArg Host.Outcome.next
      (runCmd_onSpelt_of_accepted h hb runs (fields ▸ checked_of_all ?rule)),
    fun m v h hb fields mask value => congrArg Host.Outcome.next (runCmd_acts_of_accepted h hb ?flags),
    fun w h hb fields runs word low high rest => congrArg Host.Outcome.next
      (runCmd_onSpelt_of_accepted h hb runs (word ▸ fields ▸ checked_of_all ?maximum)),
    fun h hb runs => congrArg Host.Outcome.next (runCmd_onSpelt_of_accepted h hb runs rfl)⟩
  case configuration => simp [first, second]
  case control => simp [rest]
  case rule => simp [rule]
  case flags => subst fields mask value; rfl
  case maximum =>
    subst word
    simp [within, low, high, rest]

end Sys2Proof.Machine

/-! SUPPORT. The site-line commands (O26): what each of 0x0700 to 0x0705 answers and leaves while Fescue runs, on the state
in which it acts. -/

namespace Sys2Proof.Machine

set_option Elab.async false

section
variable {op : Nat} {c : Cmd} {s b t : State} {r : Reply} {f : List Byte → State → Reply × State}
  {bad : List (Nat × Bool)} {effect : State → Reply × State} {p : List Byte} {l : LinkNo}

/-! ### Accepted commands of Fescue -/

/-- Forwarding a command to the standby leaves the dies as they are. -/
theorem acting_dies : (acting op c s).dies = s.dies := map_ite_of_eq' State.dies forwardOut_within.dies_eq

/-- An accepted command of Fescue's acts while Fescue runs. -/
theorem runCmd_onFescue_of_accepted (runs : s.dies.fescue = .running) (h : Accepted op c s) (hb : b = acting op c s)
    (out : f (cmdFields op c) b = (r, t)) : runCmd op c (onFescue f) s = answer op c r (settle t) :=
  have still : b.dies.fescue = .running := by rw [hb, acting_dies, runs]
  runCmd_acts_of_accepted h hb ((if_pos (beq_iff_eq.mpr still)).trans out)

/-- An accepted site-line command acts once the host's silence has ended, since the model takes each of these
commands for the host traffic of R40. -/
theorem runCmd_onSite_of_accepted (runs : s.dies.fescue = .running) (h : Accepted op c s) (hb : b = acting op c s)
    (out : f (cmdFields op c) (hostSpoke b) = (r, t)) : runCmd op c (onSite f) s = answer op c r (settle t) :=
  runCmd_onFescue_of_accepted runs h hb out

theorem checked_of_firstBad_none (pass : firstBad bad = none) : checked op c bad effect s = effect s := by
  rw [checked, pass]

/-! ### Send and receive queues -/

theorem longestQueue_singleton : longestQueue s [l] = (s.site.link.at l).txq.length := Nat.zero_max _

theorem queueFrame_txq {x : SlFrame} :
    ((queueFrame x l s).site.link.at l).txq = (s.site.link.at l).txq ++ [x] := by simp [queueFrame, State.onLink]

/-- Without HA, a frame for one link whose queue has room joins it, and the answer is the queue's new length (R336). -/
theorem sendSiteFrame_of_room (type : byteAt p 0 ≤ 5) (rest : reserved3 p = true)
    (ha : wBit s.site.word.now 17 = false) (one : c.index.toNat ≠ 0xFF) (link : l = linkAt c.index.toNat)
    (room : (s.site.link.at l).txq.length < 8) :
    sendSiteFrame c p s =
      (okWith [BitVec.ofNat 8 ((s.site.link.at l).txq.length + 1), 0, 0, 0],
        queueFrame (newFrame s l (byteAt p 0) (p.drop 4)) l s) := by
  have targets : sendTargets s c.index.toNat = [l] := by rw [sendTargets, if_neg one, link]
  have frame : frameToSend s c.index.toNat (byteAt p 0) (p.drop 4) = newFrame s l (byteAt p 0) (p.drop 4) := by
    rw [frameToSend, if_neg (by simp [ha]), if_neg one, link]
  have grown : longestQueue (forEach [l] (queueFrame (newFrame s l (byteAt p 0) (p.drop 4))) s) [l] =
      (s.site.link.at l).txq.length + 1 := by
    rw [longestQueue_singleton]
    exact (congrArg List.length queueFrame_txq).trans List.length_append
  dsimp only [sendSiteFrame]
  rw [checked_of_all (by simp [type, rest, ha]), if_neg (by simp [one]), targets, longestQueue_singleton,
    if_neg (Nat.not_le.mpr room), frame, grown]
  rfl

/-- The oldest frame of the named link is handed over, and the answer tells how many are left. -/
theorem takeReceived_of_cons {index : Nat} {x : SlFrame} {rest : List SlFrame} (one : index ≠ 0xFFFF)
    (link : l = linkAt index) (queue : (s.site.link.at l).rxq = x :: rest) :
    takeReceived index s = (okBulk ([BitVec.ofNat 8 (l.val + 1), BitVec.ofNat 8 rest.length, 0, 0] ++ x),
      s.onLink l fun k => { k with rxq := rest }) := by
  have source : receiveFrom s index = some l := by rw [receiveFrom, if_neg one, link]
  simp only [takeReceived, source, queue]

end

/-- Settles O26: each site-line command, run on the state in which it acts, then the receive queue it takes from. -/
theorem siteCommandsComplete : Obligations.SiteCommandsComplete := by
  intro s b c p runs
  refine ⟨fun h hb => congrArg Host.Outcome.next (runCmd_onSite_of_accepted runs h hb rfl),
    fun w h hb fields word permitted => congrArg Host.Outcome.next
      (runCmd_onSite_of_accepted runs h hb (word ▸ fields ▸ checked_of_all ?word)),
    fun ws h hb fields words permitted => congrArg Host.Outcome.next
      (runCmd_onSite_of_accepted runs h hb (words ▸ fields ▸ checked_of_firstBad_none ?link)),
    fun l u h hb fields type rest ha one link room frame => congrArg Host.Outcome.next
      (runCmd_onSite_of_accepted runs h hb (frame ▸ fields ▸ sendSiteFrame_of_room type rest ha one link room)),
    fun h hb size => congrArg Host.Outcome.next (runCmd_onSite_of_accepted runs h hb (if_neg (Nat.not_lt.mpr size))),
    fun h hb fields rest ha => congrArg Host.Outcome.next
      (runCmd_onSite_of_accepted runs h hb (fields ▸ (checked_of_all ?beacon).trans (if_pos ha))),
    fun l x rest one link queue => takeReceived_of_cons one link queue⟩
  case word => simp [← word, permitted]
  case link => exact words ▸ permitted
  case beacon => simp [rest]

end Sys2Proof.Machine

/-! SUPPORT. Step counters, returns, the lifecycle Ended and the killed tag (O49). -/

namespace Sys2Proof.Machine

set_option Elab.async false

/-- Settles O49: an empty queue idles, and every command that is taken from it only spends steps, only counts returns,
and ends neither Ended nor Killed, none of which the rest of the queue is part of. -/
theorem countsAndEndsAreFinal : Obligations.CountsAndEndsAreFinal := by
  intro s t ht
  cases hq : s.pending with
  | nil =>
    obtain rfl : s = t := Host.Outcome.next.inj ((step_of_pending_nil hq).symm.trans ht)
    exact ⟨fun _ => Nat.le_refl _, Nat.le_refl _, id, id⟩
  | cons i rest =>
    have w := step_within_of_pending_cons hq ht
    exact ⟨w.stepsDown, w.returnsUp, w.ended, w.killed⟩

end Sys2Proof.Machine

/-! SUPPORT. The tag (O22): what it hears, answers and stores, and how the field and the host share its memory. The error
0x0F beyond 32 blocks and on a bad sector, the password 0 that matches nothing and the sectors that the field holds are
the model's readings (log 57), as is the order of the system information (log 58). -/

namespace Sys2Proof.Machine

set_option Elab.async false

section
variable {s : State} {r : TagReq} {f : State → State}

/-! ### Field -/

/-- An event that is no fault is not mirrored into the tag. -/
theorem raise_tag_of_no_fault {source index cause : Nat} {data : List Byte}
    (h : faultSources.contains (Fin.ofNat 128 source).val = false) :
    (raise source index cause data s).tag = s.tag := by
  unfold raise raiseOcc
  split
  case isTrue => rfl
  extract_lets c noted
  have arrives : (arrive noted c).tag = s.tag := by
    unfold arrive
    rw [if_neg (ne_true_of_eq_false h)]
    exact map_ite_of_eq State.tag rfl
  split
  case isTrue => exact arrives
  case isFalse => split <;> rfl

theorem tagFieldOn_tag (awake : s.tag.state ≠ .killed) (off : s.tag.field = false) :
    (tagFieldOn s).tag = { s.tag with state := .ready, field := true, answer := none } := by
  unfold tagFieldOn
  rw [if_neg (by simp [awake, off])]
  exact map_ite_of_eq State.tag (raise_tag_of_no_fault (by decide))

/-! ### Requests that the tag hears -/

theorem tagRequest_of_hears (hears : tagHears s.tag r = true) : tagRequest r f s = f s := if_pos hears

/-- A custom command with the tag's manufacturer code takes effect (R374). -/
theorem tagCustom_of_hears (hears : tagHears s.tag r = true) (mfr : r.mfr.toNat = Config.tagUid.toNat / 2 ^ 48 % 256) :
    tagCustom r f s = f s := (tagRequest_of_hears hears).trans (if_pos mfr)

theorem tagInventory_of_named {v : InventoryReq} (field : s.tag.field = true) (one : v.twoSub = false)
    (state : s.tag.state = .ready ∨ s.tag.state = .selected)
    (mask : Config.tagUid.toNat % 2 ^ v.maskLen = v.mask % 2 ^ v.maskLen)
    (slot : v.slots16 = true → Config.tagUid.toNat / 2 ^ v.maskLen % 16 = v.slot) :
    tagInventory v s = tagSay (tagOk (0 :: leBytes 8 Config.tagUid.toNat)) [] s := by
  have hears : (s.tag.field && !v.twoSub && (s.tag.state == .ready || s.tag.state == .selected)) = true := by
    simpa [field, one] using state
  have named : (Config.tagUid.toNat % 2 ^ v.maskLen == v.mask % 2 ^ v.maskLen &&
      (!v.slots16 || Config.tagUid.toNat / 2 ^ v.maskLen % 16 == v.slot)) = true := by
    rw [Bool.and_eq_true, beq_iff_eq, Bool.or_eq_true, beq_iff_eq, Bool.not_eq_true']
    exact ⟨mask, (Bool.eq_false_or_eq_true v.slots16).symm.imp_right slot⟩
  dsimp only [tagInventory]
  rw [hears, named]
  rfl

theorem tagStayQuiet_of_addressed (hears : tagHears s.tag r = true) (addressed : addressedTo r = true) :
    tagStayQuiet r s = tagSay none [] { s with tag.state := .quiet } := if_pos (by rw [hears, addressed]; rfl)

theorem tagSelect_of_addressed (field : s.tag.field = true) (one : r.twoSub = false) (awake : s.tag.state ≠ .killed)
    (addressed : addressedTo r = true) : tagSelect r s = tagSay (tagOk []) [] { s with tag.state := .selected } := by
  unfold tagSelect
  rw [if_neg (by simp [field, one, awake]), if_pos addressed]

/-! ### Blocks -/

/-- Blocks that the tag has, at most 32 of them, in sound sectors, are read (R374, R450). -/
theorem tagRead_of_sound {first count last : Nat} (few : count ≤ 32) (inside : first + count - 1 ≤ last)
    (sound : s.tag.bad = []) : tagRead first count last s =
      tagSay (tagOk ((List.range count).flatMap fun k => blockBytes s (first + k))) (blockSectors first count) s := by
  unfold tagRead
  rw [if_neg (Nat.not_lt.mpr few), if_neg (Nat.not_lt.mpr inside), if_neg (by simp [sectorBad, sound])]

/-- A block below the user area is not written (R374). -/
theorem tagWrite_of_system {n : Nat} {d : BitVec 32} (system : n < 800) :
    tagWrite n d s = tagSay (tagError 0x12) [n / 4] s := by
  unfold tagWrite
  rw [if_neg (by omega), if_pos system]

theorem tagWrite_of_user {n : Nat} {d : BitVec 32} (user : 800 ≤ n) (inside : n ≤ 2047) : tagWrite n d s =
    tagSay (tagOk []) [n / 4] { s with tag.mem := memWrite s.tag.mem (4 * n) (leBytes 4 d.toNat) } := by
  unfold tagWrite
  rw [if_neg (Nat.not_lt.mpr inside), if_neg (Nat.not_lt.mpr user)]

theorem blockSecurity_of_inside {first count last : Nat} (inside : first + count - 1 ≤ last) :
    blockSecurity first count last s = tagSay (tagOk (List.replicate count 0)) [] s := if_neg (Nat.not_lt.mpr inside)

/-! ### Kill -/

theorem tagKill_of_match {p : BitVec 32} (tries : s.tag.failures.toNat < 8)
    (correct : s.tag.killPassword ≠ 0 ∧ p = s.tag.killPassword) : tagKill p s = tagSay (tagOk []) []
      { s with tag := { s.tag with state := .killed, failures := 0, killReport := true } } := by
  unfold tagKill
  rw [if_neg (Nat.not_le.mpr tries), if_pos (by simpa using correct)]

theorem tagKill_of_mismatch {p : BitVec 32} (tries : s.tag.failures.toNat < 8)
    (wrong : ¬(s.tag.killPassword ≠ 0 ∧ p = s.tag.killPassword)) :
    tagKill p s = tagSay (tagError 0x0F) [] { s with tag.failures := s.tag.failures + 1 } := by
  unfold tagKill
  rw [if_neg (Nat.not_le.mpr tries), if_neg (by simpa using wrong)]

/-! ### Field and host on one memory -/

theorem answerReads_of_none {n : SectorNo} {say : State → Reply} (idle : s.tag.reads = []) :
    answerReads n say s = s := by
  have kept : { s with tag.reads := [] } = s := by rw [← idle]
  simpa [answerReads, idle] using kept

theorem answerReads_of_one {n : SectorNo} {c : Cmd} {say : State → Reply} (one : s.tag.reads = [(n, c)]) :
    answerReads n say s = answer 0x0805 c (say { s with tag.reads := [] }) { s with tag.reads := [] } := by
  simp [answerReads, one]

/-- The end of the field's answer commits the sector's one staged write, which answers no command (R378). -/
theorem sectorCommit_of_staged {n : SectorNo} {d : List Byte} (runs : s.dies.fescue = .running)
    (staged : s.tag.staged = [(n, d, none)]) (idle : s.tag.reads = []) :
    sectorCommit n s = mirrorFaults { s with
      tag.held := s.tag.held.filter (· != n), tag.staged := [], tag.mem := memWrite s.tag.mem (16 * n.val) (padTo 16 d) } := by
  unfold sectorCommit
  rw [if_neg (by simp [runs])]
  simp only [staged]
  rw [answerReads_of_none (by simpa [commitStaged] using idle)]
  simp [commitStaged]

/-- The last retry answers the read that waits, where no write does (R378). -/
theorem busyRetry_of_read {n : SectorNo} {c : Cmd} (runs : controlRuns s = true) (staged : s.tag.staged = [])
    (read : s.tag.reads = [(n, c)]) : busyRetry n true s = answer 0x0805 c tagBusy { s with tag.reads := [] } := by
  unfold busyRetry
  rw [if_neg (by simp [runs])]
  simp only [staged, List.filter_nil, List.foldl_nil]
  exact answerReads_of_one read

end

/-- Settles O22: the field, the inventory, each request that the tag hears, Select, a sound read, and the field and the
host on one sector. -/
theorem tagComplete : Obligations.TagComplete := by
  intro s
  refine ⟨fun awake off => ⟨_, rfl, ?on⟩, ⟨_, rfl, rfl, rfl, rfl⟩, fun v field one state mask slot => ⟨_, rfl, ?inventory⟩,
    fun r hears => ⟨fun addressed => ⟨_, rfl, ?quiet⟩, fun b => ?read, fun b d => ?write, fun b n => ?reads,
      ⟨_, rfl, ?reset⟩, ?info, ?infoExt, fun b n inside => ?security, fun b n inside => ?securityExt, fun b => ?readExt,
      fun b d user inside => ⟨_, rfl, ?writeExt⟩, fun b n => ?readsExt, fun _ => ?unsupported,
      fun mfr => ⟨?signature, ?mirror, fun p tries => ⟨_, rfl, ?kill⟩⟩⟩,
    fun r field one awake addressed => ⟨_, rfl, ?select⟩, fun first count last _ few inside sound =>
      tagRead_of_sound few inside sound,
    fun n d runs staged idle => congrArg Host.Outcome.next (sectorCommit_of_staged runs staged idle),
    fun n c runs staged read => congrArg Host.Outcome.next (busyRetry_of_read runs staged read)⟩
  case on =>
    rw [tagFieldOn_tag awake off]
    exact ⟨rfl, rfl⟩
  case inventory => rw [tagInventory_of_named field one state mask slot, tagSay]
  case quiet => rw [tagStayQuiet_of_addressed hears addressed, tagSay]
  case reset =>
    rw [tagRequest_of_hears hears]
    exact ⟨rfl, rfl⟩
  case select =>
    rw [tagSelect_of_addressed field one awake addressed]
    exact ⟨rfl, rfl⟩
  case writeExt =>
    rw [tagRequest_of_hears hears, tagWrite_of_user user inside]
    exact ⟨rfl, rfl⟩
  case kill =>
    rw [tagCustom_of_hears hears mfr]
    split
    case isTrue correct =>
      rw [tagKill_of_match tries correct]
      exact ⟨rfl, rfl⟩
    case isFalse wrong =>
      rw [tagKill_of_mismatch tries wrong]
      exact ⟨rfl, rfl, rfl⟩
  all_goals refine congrArg Host.Outcome.next ?_
  case write => rw [tagRequest_of_hears hears, tagWrite_of_system (by omega)]
  case security => rw [tagRequest_of_hears hears, blockSecurity_of_inside (by omega)]
  case securityExt => rw [tagRequest_of_hears hears, blockSecurity_of_inside (by omega)]
  case signature | mirror => exact tagCustom_of_hears hears mfr
  all_goals exact tagRequest_of_hears hears

end Sys2Proof.Machine

/-! SUPPORT. The contactless commands (O27): what each of 0x0800 to 0x0806 answers and leaves while Fescue runs, on the state
in which it acts. What breaks the format of an allowlist (log 51), the card's answer cut to its buffer (log 56) and the
failures cleared with a new kill password (log 57) are the model's readings. -/

namespace Sys2Proof.Machine

set_option Elab.async false

section
variable {c : Cmd} {s b t : State} {r : Reply} {p : List Byte} {w : Word}

theorem acting_fescue {op : Nat} (runs : s.dies.fescue = .running) (hb : b = acting op c s) :
    b.dies.fescue = .running := by rw [hb, acting_dies, runs]

/-! ### Configuration -/

/-- Whichever word 0x0801 carries, it is configured while Fescue runs. -/
theorem contactlessConfiguration_of_accepted (runs : s.dies.fescue = .running) (h : Accepted 0x0801 c s)
    (hb : b = acting 0x0801 c s) (out : configureReader c (cmdFields 0x0801 c) b = (r, t)) :
    contactlessConfiguration c s = answer 0x0801 c r (settle t) := by
  have answers : acts (configureReader c) (cmdFields 0x0801 c) b = (some r, t) :=
    congrArg (fun x => (some x.1, x.2)) out
  refine runCmd_of_accepted h hb ?_
  split
  case isTrue => exact answers
  case isFalse => rwa [onFescue, acts, if_pos (beq_iff_eq.mpr (acting_fescue runs hb))]

theorem configureReader_of_aerial (kind : byteAt p 0 = 0) (rest : reserved3 p = true)
    (word : w = BitVec.ofNat 32 (leAt p 4 4)) (permitted : aerialWordOk w = true) :
    configureReader c p s = (okReply, s.onAerial (obj 63 c) (setAerial w)) := by
  subst word
  simp only [configureReader, kind]
  exact checked_of_all (by simp [rest, permitted])

theorem configureReader_of_port (kind : byteAt p 0 = 1) (rest : reserved3 p = true)
    (word : w = BitVec.ofNat 32 (leAt p 4 4)) (permitted : portWordOk w = true) :
    configureReader c p s = (okReply, { s with rdr.port := s.rdr.port.put (obj 3 c) w }) := by
  subst word
  simp only [configureReader, kind]
  exact checked_of_all (by simp [rest, permitted])

/-- Outside a session an authorisation word is in force at once, HA included (R42). -/
theorem configureReader_of_auth (kind : byteAt p 0 = 2) (rest : reserved3 p = true)
    (word : w = BitVec.ofNat 32 (leAt p 4 4)) (permitted : authWordOk w = true)
    (idle : inSession s (obj 63 c) = false) : configureReader c p s = (okReply, { s with
      rdr.auth := s.rdr.auth.put (obj 63 c) w, rdr.authPend := s.rdr.authPend.put (obj 63 c) none }) := by
  subst word
  simp only [configureReader, kind]
  refine (checked_of_all (by simp [rest, permitted])).trans ?_
  rw [setAuth, if_neg (by simp [idle])]

/-! ### Allowlist -/

/-- A list of whole entries in order, without reserved bits, replaces the old one (R365). -/
theorem replaceAllowlist_of_sound {l : List Byte} {es : List (Nat × Nat × Nat)}
    (entries : es = allowEntries (l.length / 16) l) (whole : l.length < 16 ∨ l.length % 16 = 0)
    (fits : es.length ≤ 65536) (sound : allowBad 0 none es = none) :
    replaceAllowlist l s = (okWith (leBytes 4 es.length), { s with rdr.allow := es.map allowOf }) := by
  subst entries
  have size : ¬((16 ≤ l.length && l.length % 16 ≠ 0) || 65536 < (allowEntries (l.length / 16) l).length) = true := by
    simp only [Bool.or_eq_true, Bool.and_eq_true, decide_eq_true_eq]
    omega
  dsimp only [replaceAllowlist]
  rw [if_neg size, sound]

/-! ### Tag memory -/

theorem tagAccess_of_read (runs : s.dies.fescue = .running) (kind : byteAt p 0 = 0) (rest : reserved3 p = true)
    (free : sectorHeld s (obj 511 c).val = false) :
    tagAccess c p s = (some (sectorReply s (obj 511 c)), s) := by
  simp [tagAccess, readSector, runs, kind, rest, free]

/-- A sector of the user area that the field does not hold is written at once (R378). -/
theorem tagAccess_of_write (runs : s.dies.fescue = .running) (kind : byteAt p 0 = 1) (rest : reserved3 p = true)
    (free : sectorHeld s (obj 511 c).val = false) (user : 200 ≤ (obj 511 c).val) : tagAccess c p s =
      (some okReply, { s with tag.mem := memWrite s.tag.mem (16 * (obj 511 c).val) (slice p 4 16) }) := by
  simp [tagAccess, writeSector, runs, kind, rest, free, Nat.not_lt.mpr user]

end

/-- Settles O27: each contactless command, run on the state in which it acts. -/
theorem contactCommandsComplete : Obligations.ContactCommandsComplete := by
  intro s b c p runs
  refine ⟨fun h hb => congrArg Host.Outcome.next (runCmd_onFescue_of_accepted runs h hb rfl),
    fun w h hb fields rest word => ?configuration,
    fun l es h hb cool bulk entries whole fits sound => congrArg Host.Outcome.next (runCmd_acts_of_accepted h hb ?allow),
    fun h hb => congrArg Host.Outcome.next (runCmd_reads_of_accepted h hb),
    fun a h hb selected => congrArg Host.Outcome.next (runCmd_onFescue_of_accepted runs h hb ?card),
    fun h hb fields rest free => ⟨fun kind => congrArg Host.Outcome.next
        (runCmd_of_accepted h hb (fields ▸ tagAccess_of_read (acting_fescue runs hb) kind rest free)),
      fun kind user => congrArg Host.Outcome.next
        (runCmd_of_accepted h hb (fields ▸ tagAccess_of_write (acting_fescue runs hb) kind rest free user))⟩,
    fun h hb => congrArg Host.Outcome.next (runCmd_onFescue_of_accepted runs h hb rfl)⟩
  case configuration =>
    have configured {r : Reply} {t : State} (out : configureReader c p b = (r, t)) :
        exec (.contactlessConfiguration c) s = .next (answer 0x0801 c r (settle t)) :=
      congrArg Host.Outcome.next (contactlessConfiguration_of_accepted runs h hb (fields ▸ out))
    exact ⟨fun kind permitted => configured (configureReader_of_aerial kind rest word permitted),
      fun kind permitted => configured (configureReader_of_port kind rest word permitted),
      fun kind permitted idle => configured (configureReader_of_auth kind rest word permitted idle)⟩
  case allow => rw [cool, ← bulk, if_neg Bool.false_ne_true, replaceAllowlist_of_sound entries whole fits sound]
  case card =>
    rw [selected]
    rfl

end Sys2Proof.Machine

/-! SUPPORT. The memories: every step keeps their canonical form (O46), and in that form a memory is determined by what it
reads as (O53). That an unlisted byte reads 0 is the model's choice (log 5). -/

namespace Sys2Proof.Machine

set_option Elab.async false

/-- Settles O46: an empty queue idles, and a command that is taken from it keeps the memories' form, of which the rest of
the queue is no part. -/
theorem memoriesStayCanonical : Obligations.MemoriesStayCanonical := by
  intro s t canonical ht
  cases hq : s.pending with
  | nil =>
    obtain rfl : s = t := Host.Outcome.next.inj ((step_of_pending_nil hq).symm.trans ht)
    exact canonical
  | cons i rest => exact (step_within_of_pending_cons hq ht).mem canonical

/-! ### Reads determine a memory -/

theorem memGet_of_mem : ∀ {m : Memory} {c : Host.Cell}, m.Pairwise (fun a b => a.1 < b.1) → c ∈ m → memGet m c.1 = c.2
  | (k, b) :: m, c, rising, h => by
    obtain ⟨first, later⟩ := List.pairwise_cons.mp rising
    rcases List.mem_cons.mp h with rfl | h
    · simp [memGet]
    · simp [memGet, Nat.ne_of_lt (first c h), memGet_of_mem later h]

theorem mem_of_memGet_ne_zero : ∀ {m : Memory} {a : Nat}, memGet m a ≠ 0 → (a, memGet m a) ∈ m
  | [], _, h => absurd rfl h
  | (k, b) :: m, a, h => by
    by_cases hk : k = a
    · simp [memGet, hk]
    · simp only [memGet, if_neg hk] at h ⊢
      exact List.mem_cons_of_mem _ (mem_of_memGet_ne_zero h)

section
variable {m n : Memory}

/-- The entries of a memory in canonical form are its bytes other than 0. -/
theorem mem_iff_memGet (h : memWf m = true) {c : Host.Cell} : c ∈ m ↔ c.2 ≠ 0 ∧ memGet m c.1 = c.2 := by
  obtain ⟨nonzero, rising⟩ := (memWf_iff m).mp h
  refine ⟨fun hc => ⟨nonzero c hc, memGet_of_mem rising hc⟩, fun ⟨hc, reads⟩ => ?_⟩
  have listed := mem_of_memGet_ne_zero (reads ▸ hc)
  rwa [reads] at listed

theorem memory_ext (hm : memWf m = true) (hn : memWf n = true) (same : ∀ x, memGet m x = memGet n x) : m = n := by
  have risingM := ((memWf_iff m).mp hm).2
  have risingN := ((memWf_iff n).mp hn).2
  have distinct {l : Memory} (h : l.Pairwise fun a b => a.1 < b.1) : l.Nodup :=
    h.imp fun lt e => Nat.ne_of_lt lt (congrArg Prod.fst e)
  have members (c : Host.Cell) : c ∈ m ↔ c ∈ n := by rw [mem_iff_memGet hm, mem_iff_memGet hn, same]
  exact ((List.perm_ext_iff_of_nodup (distinct risingM) (distinct risingN)).mpr members).eq_of_pairwise
    (fun _ _ _ _ lt gt => absurd gt (Nat.lt_asymm lt)) risingM risingN

/-! ### Cleared ranges -/

theorem memGet_memClear (m : Memory) (a n x : Nat) :
    memGet (memClear m a n) x = if a ≤ x ∧ x < a + n then 0 else memGet m x := by
  induction m with
  | nil => simp [memClear, memGet]
  | cons c m ih =>
    obtain ⟨k, b⟩ := c
    have kept : memClear ((k, b) :: m) a n =
        if k < a ∨ a + n ≤ k then (k, b) :: memClear m a n else memClear m a n := by
      simp [memClear, List.filter_cons]
    rw [kept]
    by_cases hk : k = x
    · subst hk
      split
      next out =>
        rw [if_neg (by omega)]
        simp [memGet]
      next hit => rw [ih, if_pos (by omega), if_pos (by omega)]
    · split <;> simp [memGet, hk, ih]

end

/-- Settles O53: the laws of writing and clearing, and a memory determined by its reads. -/
theorem memoryReadsWhatWasWritten : Obligations.MemoryReadsWhatWasWritten :=
  fun m hm => ⟨fun a bs => memRead_memWrite bs a hm, fun a x bs out => memGet_memWrite_other bs a x hm out,
    fun a n x => memGet_memClear m a n x, fun _ hn same => memory_ext hm hn same⟩

end Sys2Proof.Machine

/-! SUPPORT. Refusals of commands (O23, O56): a command of the catalogue runs as `runCmd` says, which answers it with the
status of the check that fails and leaves it alone where the mailbox does not serve it. -/

namespace Sys2Proof.Machine

set_option Elab.async false

section
variable {op : Nat} {c : Cmd} {s : State} {body : Body} {r : Reply} {i : Instr} {row : Row}

/-! ### Commands that do not reach their body -/

theorem runCmd_of_check_fails (h : Arrives op c s) (fails : checks op c s = some r) :
    runCmd op c body s = answer op c r s := by
  obtain ⟨ready, runs, fresh, turn⟩ := h
  simp [runCmd, ready, runs, fresh, turn, fails]

theorem runCmd_of_unserved (h : s.mbx.ready = false ∨ controlRuns s = false) : runCmd op c body s = s := by
  rw [runCmd, if_pos]
  rcases h with h | h <;> simp [h]

theorem accepted_of_check_fails (h : Arrives op c s) (fails : checks op c s = some r) : accepted op c s = false := by
  obtain ⟨-, -, fresh, -⟩ := h
  simp [accepted, fresh, fails]

theorem accepted_of_unserved (h : s.mbx.ready = false ∨ controlRuns s = false) : accepted op c s = false := by
  rcases h with h | h <;> simp [accepted, h]

/-- A lifecycle move takes place after the command alone, and only where the command reached its body. -/
theorem lifecycleMove_of_unaccepted (h : accepted 0x0905 c s = false) :
    ∃ body, lifecycleMove c s = runCmd 0x0905 c body s := by
  refine ⟨_, if_neg ?_⟩
  simp [h]

/-- Every command of the catalogue that does not reach its body is run by `runCmd` alone. -/
theorem exec_of_unaccepted (h : MailRow i op c) (unaccepted : accepted op c s = false) :
    ∃ body, exec i s = .next (runCmd op c body s) := by
  cases h with
  | lifecycleMove =>
    obtain ⟨body, run⟩ := lifecycleMove_of_unaccepted unaccepted
    exact ⟨body, congrArg Host.Outcome.next run⟩
  | _ => exact ⟨_, rfl⟩

theorem exec_of_check_fails (h : MailRow i op c) (arrives : Arrives op c s) (fails : checks op c s = some r) :
    exec i s = .next (answer op c r s) := by
  obtain ⟨body, run⟩ := exec_of_unaccepted h (accepted_of_check_fails arrives fails)
  rw [run, runCmd_of_check_fails arrives fails]

theorem exec_of_unserved (h : MailRow i op c) (unserved : s.mbx.ready = false ∨ controlRuns s = false) :
    exec i s = .next s := by
  obtain ⟨body, run⟩ := exec_of_unaccepted h (accepted_of_unserved unserved)
  rw [run, runCmd_of_unserved unserved]

/-! ### The object that INDEX names (R417) -/

theorem IndexRule.ok_module {x : BitVec 16} : IndexRule.module.ok x.toNat = true ↔ x = 0xFFFF := by
  simp [IndexRule.ok, BitVec.toNat_eq]

theorem IndexRule.ok_range {lo hi x : Nat} : (IndexRule.range lo hi).ok x = true ↔ lo ≤ x ∧ x ≤ hi := by
  simp [IndexRule.ok]

theorem IndexRule.ok_rangeOr {lo hi code x : Nat} :
    (IndexRule.rangeOr lo hi code).ok x = true ↔ (lo ≤ x ∧ x ≤ hi) ∨ x = code := by
  simp [IndexRule.ok]

/-- The check of INDEX is the first of R406 that fails. -/
theorem checks_of_wrong_index (listed : catalogue op c.payload = some row) (flags : c.flags.toNat < 4)
    (ring : c.urgent = true → row.urgent = true) (least : 16 * row.bulk.length + row.lo ≤ c.payload.length)
    (most : c.payload.length ≤ 16 * row.bulk.length + row.hi) (fits : c.payload.length ≤ 240)
    (wrong : row.index.ok c.index.toNat = false) : checks op c s = some (reply .badIndex 0) := by
  have header : ¬(4 ≤ c.flags.toNat ∨ 240 < c.payload.length) := by omega
  have onRing : (c.urgent && !row.urgent) = false := by
    cases h : c.urgent
    · rfl
    · simp [ring h]
  have head : headChecks op c s = some (reply .badIndex 0) := by
    simp [headChecks, header, listed, onRing, Nat.not_lt.mpr least, Nat.not_lt.mpr most, wrong]
  rw [checks, head]

end

/-- Settles O23: the branches of `runCmd` that do not reach the command's body. -/
theorem refusedCommandsAnswerTheirStatus : Obligations.RefusedCommandsAnswerTheirStatus :=
  fun _ _ _ _ h => ⟨fun _ arrives fails => exec_of_check_fails h arrives fails, exec_of_unserved h⟩

/-- Settles O56: what each rule of INDEX admits, and the check that fails on the rest. -/
theorem wrongIndexAnswersBadIndex : Obligations.WrongIndexAnswersBadIndex := by
  intro op c s r listed
  refine ⟨fun rule => rule ▸ IndexRule.ok_module, fun lo hi rule => rule ▸ IndexRule.ok_range,
    fun lo hi code rule => rule ▸ IndexRule.ok_rangeOr, fun i h arrives flags ring least most fits wrong => ?_⟩
  exact exec_of_check_fails h arrives (checks_of_wrong_index listed flags ring least most fits wrong)

end Sys2Proof.Machine

/-! SUPPORT. Pending flags and interrupt lines in the window (O55): a word put together from one flag per place shows each
flag at its place. -/

namespace Sys2Proof.Machine

set_option Elab.async false

/-! ### Words of flags -/

/-- The sum of one flag per place: below 2 ^ n, and with each flag as its bit. -/
theorem flags_sum (b : Nat → Bool) (n : Nat) : ∃ v, ((List.range n).map fun k => flag (b k) k).foldl (· + ·) 0 = v ∧
    v < 2 ^ n ∧ ∀ k, v.testBit k = (decide (k < n) && b k) := by
  induction n with
  | zero => exact ⟨0, rfl, Nat.one_pos, by simp⟩
  | succ n ih =>
    obtain ⟨v, sum, small, bits⟩ := ih
    have top : flag (b n) n = 2 ^ n * (b n).toNat := by cases h : b n <;> simp [flag]
    have more : (b n).toNat ≤ 1 := Bool.toNat_le _
    refine ⟨2 ^ n * (b n).toNat + v, ?_, ?_, fun k => ?_⟩
    · rw [List.range_succ, List.map_append, List.foldl_append, sum, List.map_singleton, List.foldl_cons, List.foldl_nil,
        top, Nat.add_comm]
    · have := Nat.mul_le_mul_left (2 ^ n) more
      rw [Nat.pow_succ]
      omega
    · rw [Nat.testBit_two_pow_mul_add _ small]
      rcases Nat.lt_trichotomy k n with lt | rfl | gt
      · simp [lt, bits, Nat.lt_succ_of_lt lt]
      · cases h : b k <;> simp
      · have : (b n).toNat.testBit (k - n) = false :=
          Nat.testBit_lt_two_pow (Nat.lt_of_le_of_lt more (Nat.one_lt_two_pow (by omega)))
        simp [this, Nat.not_lt_of_lt gt, Nat.not_lt.mpr (Nat.succ_le_of_lt gt)]

theorem getLsbD_word_flags (b : Nat → Bool) {n : Nat} (hn : n ≤ 32) (k : Nat) :
    (word ((List.range n).map fun k => flag (b k) k)).getLsbD k = (decide (k < n) && b k) := by
  obtain ⟨v, sum, -, bits⟩ := flags_sum b n
  rw [word, sum, BitVec.getLsbD_ofNat, bits]
  by_cases hk : k < n
  · simp [hk, Nat.lt_of_lt_of_le hk hn]
  · simp [hk]

/-! ### The registers -/

theorem windowRead_evtPend (s : State) : ∀ j : Fin 4, windowRead s (0x300 + 4 * j.val) = evtPend s j.val
  | 0 => rfl
  | 1 => rfl
  | 2 => rfl
  | 3 => rfl

theorem windowRead_irqStat_getLsbD (s : State) (k : Nat) :
    (windowRead s 0x310).getLsbD k = (decide (k < 2) && irqLevel s k) :=
  getLsbD_word_flags (irqLevel s) (n := 2) (by decide) k

/-- Settles O55: EVT_PENDj has one flag per source of its 32, and IRQ_STAT one per line. -/
theorem pendingFlagsShowTheirSources : Obligations.PendingFlagsShowTheirSources := by
  intro s
  refine ⟨fun j k n hn => ?pending, windowRead_irqStat_getLsbD s 0, windowRead_irqStat_getLsbD s 1, fun k hk => ?rest⟩
  case pending =>
    have source : Fin.ofNat 128 (32 * j.val + k.val) = n := Fin.ext (by simp [Fin.ofNat]; omega)
    rw [windowRead_evtPend, evtPend, getLsbD_word_flags _ (Nat.le_refl 32), source]
    simp
  case rest => simp [windowRead_irqStat_getLsbD, Nat.not_lt.mpr hk]

end Sys2Proof.Machine

/-! SUPPORT. The pool under stores of the host and atomic operations (O54): which bytes each names, and that it leaves the
others as they were. -/

namespace Sys2Proof.Machine

set_option Elab.async false

section
variable {s : State} {p : PortNo} {a x : Nat} {bs : List Byte} {off : Nat} {v : Word}

/-! ### Lengths of what is stored -/

theorem length_leBytes (n v : Nat) : (leBytes n v).length = n := by
  induction n generalizing v with
  | zero => rfl
  | succ n ih => rw [leBytes, List.length_cons, ih]

theorem length_padTo (n : Nat) (l : List Byte) : (padTo n l).length = n := by
  simp [padTo, slice]

/-! ### Pool bytes outside a range -/

theorem poolWrite_outside (wf : memWf s.mem.pool = true) (out : x < a ∨ a + bs.length ≤ x) :
    memGet (poolWrite s a bs).mem.pool x = memGet s.mem.pool x := memGet_memWrite_other bs a x wf out

theorem poolClear_outside {n : Nat} (out : x < a ∨ a + n ≤ x) :
    memGet (poolClear s a n).mem.pool x = memGet s.mem.pool x :=
  (memGet_memClear ..).trans (if_neg (by omega))

/-! ### Records of an Ethernet port -/

theorem hostTraffic_pool : (hostTraffic p s).mem.pool = s.mem.pool := hostTraffic_within.pool_eq

/-- Traffic that ends a port's silence leaves the indices of its rings. -/
theorem hostTraffic_idx : ((hostTraffic p s).mbx.port.at p).idx = (s.mbx.port.at p).idx := by
  refine map_ite_of_eq (fun s => (s.mbx.port.at p).idx) ?_
  rw [raiseEnd_within.mbx_eq]
  simp

/-- A record on an open connection is handled after its traffic has been noted. -/
theorem onRecord_poolByte {f : State → State}
    (h : memGet (f (hostTraffic p s)).mem.pool x = memGet (hostTraffic p s).mem.pool x) :
    memGet (onRecord p f s).mem.pool x = memGet s.mem.pool x := by
  rw [hostTraffic_pool] at h
  exact map_ite_of_eq (fun s => memGet s.mem.pool x) h

theorem recordBulkIn_outside (wf : memWf s.mem.pool = true)
    (out : x < bulkBase p + off ∨ bulkBase p + off + bs.length ≤ x) :
    memGet (recordBulkIn p off bs s).mem.pool x = memGet s.mem.pool x := by
  unfold recordBulkIn
  split
  · rw [closeConnection_within.pool_eq]
  split
  · rw [accessRefused_pool]
  · exact poolWrite_outside wf out

/-- The pool address of the next entry of a command ring. -/
def entryAddr (p : PortNo) (urgent : Bool) (i : Indices) : Nat :=
  if urgent then ucmdBase p + i.ucmdPi.toNat % 64 * 256 else ncmdBase p + i.ncmdPi.toNat % 256 * 256

theorem recordEntry_outside {urgent : Bool} {entry : List Byte} (wf : memWf s.mem.pool = true)
    (place : a = entryAddr p urgent (s.mbx.port.at p).idx) (out : x < a ∨ a + 256 ≤ x) :
    memGet (recordEntry p urgent entry s).mem.pool x = memGet s.mem.pool x := by
  have stored : memGet (poolWrite s a (padTo 256 entry)).mem.pool x = memGet s.mem.pool x :=
    poolWrite_outside wf (by rwa [length_padTo])
  subst place
  unfold recordEntry
  split
  · rw [closeConnection_within.pool_eq]
  extract_lets i pi full addr
  split
  · rw [doorbellRefused_within.pool_eq]
  · have same : addr = entryAddr p urgent i := by cases urgent <;> simp [addr, pi, entryAddr]
    rwa [ring_within.pool_eq, same]

/-! ### QSPI -/

theorem qspiPoolWrite_outside (wf : memWf s.mem.pool = true) (out : x < off ∨ off + 4 ≤ x) :
    memGet (qspiPoolWrite off v s).mem.pool x = memGet s.mem.pool x := by
  have before : (countAccess 13 off (hostTraffic 2 s)).mem.pool = s.mem.pool :=
    countAccess_within.pool_eq.trans hostTraffic_pool
  unfold qspiPoolWrite
  split
  · rw [poolWrite_outside (before.symm ▸ wf) (by rwa [length_leBytes]), before]
  · rw [accessRefused_pool, hostTraffic_pool]

theorem qspiAccess_write_outside (low : poolBase ≤ a) (high : a < poolBase + poolSize)
    (word : off = (a - poolBase) / 4 * 4) (wf : memWf s.mem.pool = true) (out : x < off ∨ off + 4 ≤ x) :
    memGet (qspiAccess a (some v) s).mem.pool x = memGet s.mem.pool x := by
  subst word
  unfold qspiAccess
  dsimp only
  split
  · rfl
  · rw [if_neg (by simp [low, high])]
    exact qspiPoolWrite_outside wf out

theorem qspiPoolRead_pool : (qspiPoolRead off s).mem.pool = s.mem.pool := by
  unfold qspiPoolRead
  split
  · rw [qspiAnswer_within.pool_eq, accessRefused_pool]
  dsimp only
  split
  · rw [qspiAnswer_within.pool_eq, countAccess_within.pool_eq]
  · rw [qspiAnswer_within.pool_eq, accessRefused_pool, countAccess_within.pool_eq]

theorem qspiAccess_read_pool : (qspiAccess a none s).mem.pool = s.mem.pool := by
  unfold qspiAccess
  dsimp only
  split
  · exact qspiAnswer_within.pool_eq
  split
  · exact qspiAnswer_within.pool_eq
  · exact qspiPoolRead_pool

/-! ### Registers of a port block -/

theorem setRings_outside {on : Bool} (out : x < ringBase p ∨ ringBase p + ringBytes ≤ x) :
    memGet (setRings p on s).mem.pool x = memGet s.mem.pool x := by
  unfold setRings
  split
  · exact poolClear_outside out
  · rw [disableRings_within.pool_eq]
  · rfl

theorem hostWrite_portCtrl_outside (out : x < ringBase p ∨ ringBase p + ringBytes ≤ x) :
    memGet (hostWrite p (portAddr p 0x00) v s).mem.pool x = memGet s.mem.pool x := by
  cases h : served s p
  · rw [hostWrite, h]
    rfl
  · rw [hostWrite_portAddr h 0x00 v, ← hostTraffic_pool (s := s) (p := p)]
    exact setRings_outside out

/-- A host's write of a register that leaves the pool. -/
theorem hostWrite_pool (hoff : off < 0x100) (keeps : ∀ t : State, (writePortRegister p off v t).mem.pool = t.mem.pool) :
    (hostWrite p (portAddr p off) v s).mem.pool = s.mem.pool := by
  cases h : served s p
  · rw [hostWrite, h]
    rfl
  · rw [hostWrite_portAddr h off v hoff, keeps, hostTraffic_pool]

/-! ### Atomic operations -/

theorem nextServed_mem {last : MasterNo} : ∀ {l : List MemAccess} {m : MemAccess}, nextServed last l = some m → m ∈ l
  | m :: l, n, h => by
    unfold nextServed at h
    split at h
    next b hb =>
      split at h
      · exact List.mem_cons_of_mem _ (Option.some.inj h ▸ nextServed_mem hb)
      · exact Option.some.inj h ▸ List.mem_cons_self
    next => exact Option.some.inj h ▸ List.mem_cons_self

/-- An access leaves the pool, or writes its operand into it. -/
theorem poolAccess_pool (m : MemAccess) (s : State) : (poolAccess m s).mem.pool = s.mem.pool ∨
    ∃ v, (poolAccess m s).mem.pool = memWrite s.mem.pool m.addr (leBytes (operandBytes m.wide) v) := by
  unfold poolAccess
  dsimp only
  split
  · exact .inl rfl
  · split
    · exact .inr ⟨_, rfl⟩
    · exact .inl rfl

theorem poolAccess_wf {m : MemAccess} (wf : memWf s.mem.pool = true) : memWf (poolAccess m s).mem.pool = true := by
  rcases poolAccess_pool m s with same | ⟨v, written⟩
  · rwa [same]
  · rw [written]
    exact memWf_memWrite _ _ wf

theorem poolAccess_outside {m : MemAccess} (wf : memWf s.mem.pool = true)
    (out : x < m.addr ∨ m.addr + operandBytes m.wide ≤ x) :
    memGet (poolAccess m s).mem.pool x = memGet s.mem.pool x := by
  rcases poolAccess_pool m s with same | ⟨v, written⟩
  · rw [same]
  · rw [written]
    exact memGet_memWrite_other _ _ _ wf (by rwa [length_leBytes])

theorem foldl_countWait_pool {cycles : Nat} {l : List MemAccess} :
    (l.foldl (fun s b => countWait cycles b s) s).mem.pool = s.mem.pool :=
  foldl_keeps (f := fun s b => countWait cycles b s) (·.mem.pool) (fun _ _ => rfl) l

/-- However many of the waiting accesses are served, a byte that none of them names stays. -/
theorem serveBank_outside : ∀ (n : Nat) {l : List MemAccess} {s : State}, memWf s.mem.pool = true →
    (∀ m ∈ l, x < m.addr ∨ m.addr + operandBytes m.wide ≤ x) →
    memGet (serveBank n l s).mem.pool x = memGet s.mem.pool x
  | 0, _, _, _, _ => rfl
  | n + 1, l, s, wf, out => by
    unfold serveBank
    split
    · rfl
    next m chosen =>
      obtain ⟨first, -, served⟩ := Option.bind_eq_some_iff.mp chosen
      dsimp only
      rw [serveBank_outside n (by rw [foldl_countWait_pool]; exact poolAccess_wf wf)
          fun b hb => out b (List.mem_of_mem_erase hb),
        foldl_countWait_pool]
      exact poolAccess_outside wf (out m (nextServed_mem served))

end

/-- Settles O54: each store by the bytes it names, then what stores nothing, by its footprint or its register. -/
theorem storesTouchOnlyTheirBytes : Obligations.StoresTouchOnlyTheirBytes := by
  intro s t x wf
  have still (p : PortNo) : memWf (hostTraffic p s).mem.pool = true := hostTraffic_pool.symm ▸ wf
  refine ⟨fun e off bs a base h out => ?bulk, fun e urgent entry i a idx base h out => ?entry,
    fun a v off low high word h out => ?qspi, fun l h out => ?atomic, fun p v h out => ?enable,
    fun i e p tag k a w off n src cause ended data form h => ?reads⟩
  case bulk =>
    obtain rfl := Host.Outcome.next.inj h
    exact onRecord_poolByte (recordBulkIn_outside (still _) (base ▸ out))
  case entry =>
    obtain rfl := Host.Outcome.next.inj h
    exact onRecord_poolByte (recordEntry_outside (still _) (by rw [hostTraffic_idx, base, idx]; rfl) out)
  case qspi =>
    obtain rfl := Host.Outcome.next.inj h
    exact qspiAccess_write_outside low high word wf out
  case atomic =>
    obtain rfl := Host.Outcome.next.inj h
    exact map_ite_of_eq (fun s => memGet s.mem.pool x) (serveBank_outside l.length wf out)
  case enable =>
    obtain rfl := Host.Outcome.next.inj h
    exact hostWrite_portCtrl_outside out
  case reads =>
    rcases form with rfl | rfl | rfl | rfl | rfl | rfl | rfl | rfl | rfl | rfl | rfl
    · exact (execRecordBulkRead_within h).pool_eq
    · exact (execRecordWindowRead_within h).pool_eq
    · exact (execRecordConsumerIndex_within h).pool_eq
    · exact (execRecordConsumerIndex_within h).pool_eq
    · exact Host.Outcome.next.inj h ▸ qspiAccess_read_pool
    · exact Host.Outcome.next.inj h ▸ hostWrite_pool (by decide) fun _ => ring_within.pool_eq
    · exact Host.Outcome.next.inj h ▸ hostWrite_pool (by decide) fun _ => ring_within.pool_eq
    · exact Host.Outcome.next.inj h ▸ hostWrite_pool (by decide) fun _ => consume_within.pool_eq
    · exact Host.Outcome.next.inj h ▸ hostWrite_pool (by decide) fun _ => consume_within.pool_eq
    · exact Host.Outcome.next.inj h ▸ hostWrite_pool (by decide) fun _ => rfl
    · exact (execEventOccurrence_within h).pool_eq

end Sys2Proof.Machine

/-! SUPPORT. The pair commands and the diagnostics commands (O28, O36): what each of them answers and leaves, run on the
state in which it acts. Serial 0, a step taken by unbinding and the pin learnt anew are the model's readings (log 78), and
so are the conflict counters raised by free values (log 64), the flushed entries alone (log 82) and the bundle's form
(log 81). -/

namespace Sys2Proof.Machine

set_option Elab.async false

section
variable {op : Nat} {c : Cmd} {s b t : State} {p : List Byte} {serial : BitVec 64}

/-! ### Commands answered later -/

theorem fwd_none_of_accepted (h : Accepted op c s) : c.fwd = none :=
  have ⟨⟨_, _, fresh, _⟩, _⟩ := h
  fresh

/-- A command that waits among the fetched ones, whether or not it was there before, leaves the pair and the events. -/
theorem fetched_keeps_pair_evt {waits : Prop} [Decidable waits] (u : State) (fetched : List Fetch) :
    (if waits then u else { u with mbx.fetched := fetched }).pair = u.pair ∧
      (if waits then u else { u with mbx.fetched := fetched }).evt = u.evt := by
  split <;> exact ⟨rfl, rfl⟩

/-- An accepted command whose meaning answers later leaves its effect, once the mode status is settled, and waits among
the fetched commands. -/
theorem runCmd_waits_of_accepted {body : Body} (h : Accepted op c s) (hb : b = acting op c s)
    (out : body (cmdFields op c) b = (none, t)) : ∃ u, runCmd op c body s = u ∧ u.pair = (settle t).pair ∧
      u.evt = (settle t).evt := by
  obtain ⟨⟨ready, runs, fresh, turn⟩, pass⟩ := h
  subst hb
  unfold acting at out
  have run : runCmd op c body s = if (findFetch op c (settle t)).isSome then settle t
      else { settle t with mbx.fetched := (settle t).mbx.fetched ++
        [{ op := BitVec.ofNat 16 op, cmd := c, dropped := false }] } := by
    simp [runCmd, ready, runs, fresh, turn, pass, out]
  exact ⟨_, run, fetched_keeps_pair_evt (settle t) _⟩

theorem Within.peer_eq {m : Nat} (w : Within m s t) (hm : m.testBit 31 = false := by rfl) : t.pair = s.pair :=
  kept_without_bit w.peerKept hm

/-! ### The bundle under way, through the events of a settled mode status -/

theorem Within.evt_eq {m : Nat} (w : Within m s t) (hm : m.testBit 34 = false := by rfl) : t.evt = s.evt :=
  kept_without_bit w.eventsKept hm

theorem logFault_bundle {x : Occ} : (logFault s x).evt.bundle = s.evt.bundle :=
  (congrArg Events.bundle mirrorFaults_within.evt_eq).trans rfl

theorem arrive_bundle {x : Occ} : (arrive s x).evt.bundle = s.evt.bundle := by
  dsimp only [arrive]
  rw [map_ite_of_eq (·.evt.bundle) logFault_bundle]
  split <;> rfl

theorem raiseOcc_bundle {source index cause : Nat} {ended peer : Bool} {data : List Byte} :
    (raiseOcc source index cause ended peer data s).evt.bundle = s.evt.bundle := by
  dsimp only [raiseOcc]
  split
  · rfl
  split
  · exact arrive_bundle
  split <;> rfl

theorem reportDegraded_bundle {was now : Word} : (reportDegraded was now s).evt.bundle = s.evt.bundle := by
  unfold reportDegraded
  split
  · exact raiseOcc_bundle
  · exact raiseOcc_bundle
  · rfl

theorem settle_bundle : (settle s).evt.bundle = s.evt.bundle := by
  refine map_ite_of_eq' (·.evt.bundle) ?_
  dsimp only
  rw [map_ite_of_eq (·.evt.bundle) (congrArg Events.bundle writeStateArea_within.evt_eq), reportDegraded_bundle]
  exact raiseOcc_bundle

/-! ### Binding -/

theorem bindRefusal_none (step : b.pair.peer = serial ∨ b.keys.steps.at bindStep ≠ 0) : bindRefusal b serial = none := by
  rcases step with step | step <;> simp [bindRefusal, step]

theorem takeBinding_of_step (fields : serial = BitVec.ofNat 64 (leAt p 0 8)) (named : serial ≠ 0)
    (one : onePosition b = true) (step : b.pair.peer = serial ∨ b.keys.steps.at bindStep ≠ 0) :
    takeBinding c p b = (okReply, setPeer serial b) := by
  subst fields
  simp only [takeBinding, if_neg named, bindRefusal_none step]
  refine (if_neg (by simp [one])).trans (checked_of_all ?_)
  simpa using named

/-! ### Handover -/

theorem takeHandover_of_ready (fresh : c.fwd = none) (sound : b.pair.suspect = false) (stands : peerStands b = true)
    (idle : b.upd.peerStaging = none) : takeHandover c b = (none, { b with
      pair.handoverCmd := some c, pair.handoverAt := if resyncing b then none else some (b.pair.epoch + 2) }) := by
  simp [takeHandover, fresh, sound, stands, idle]

end

/-- Settles O28: each pair command, run on the state in which it acts, then the binding that is put in force. -/
theorem pairCommandsComplete : Obligations.PairCommandsComplete := by
  intro s b c
  refine ⟨fun h hb => congrArg Host.Outcome.next (runCmd_reads_of_accepted h hb),
    fun x h hb fields named one step => congrArg Host.Outcome.next
      (runCmd_acts_of_accepted h hb (takeBinding_of_step fields named one step)),
    fun h hb step => congrArg Host.Outcome.next (runCmd_acts_of_accepted h hb ?unbind),
    fun h hb sound stands idle => ?handover,
    fun h hb stands => congrArg Host.Outcome.next (runCmd_acts_of_accepted h hb (if_neg (by simp [stands]))),
    fun x u hu => hu ▸ ⟨rfl, rfl, rfl⟩⟩
  case unbind => rw [bindRefusal_none step]
  case handover =>
    have out := takeHandover_of_ready (fwd_none_of_accepted h) sound stands idle
    obtain ⟨t, run, pair, -⟩ := runCmd_waits_of_accepted (body := fun _ => takeHandover c) h hb out
    refine ⟨t, congrArg Host.Outcome.next run, ?_⟩
    rw [pair, settle_within.peer_eq]
    exact ⟨rfl, rfl⟩

/-- Settles O36: each diagnostics command, run on the state in which it acts, and the end of a bundle. -/
theorem diagnosticCommandsComplete : Obligations.DiagnosticCommandsComplete := by
  intro s b c p
  refine ⟨fun first n es h hb fields start count entries found low high all => congrArg Host.Outcome.next
      (runCmd_acts_of_accepted h hb ?log),
    fun h hb idle scope => ?bundle,
    fun h hb fields mask route rest => congrArg Host.Outcome.next
      (runCmd_acts_of_accepted h hb (fields ▸ checked_of_all ?routing)),
    fun h hb => congrArg Host.Outcome.next (runCmd_reads_of_accepted h hb),
    fun h hb => congrArg Host.Outcome.next (runCmd_acts_of_accepted h hb rfl),
    fun h hb => congrArg Host.Outcome.next (runCmd_reads_of_accepted h hb),
    fun h hb => congrArg Host.Outcome.next (runCmd_reads_of_accepted h hb),
    fun h hb => congrArg Host.Outcome.next (runCmd_acts_of_accepted h hb rfl),
    fun h hb => congrArg Host.Outcome.next (runCmd_reads_of_accepted h hb),
    fun peer u l building runs bytes state => congrArg Host.Outcome.next ?complete⟩
  case log =>
    subst fields start count entries
    exact checked_of_all (by simp [within, found, low, high, all])
  case bundle =>
    have out : startBundle c (cmdFields 0x0C01 c) b = (none, { b with evt.bundle := some c }) := by
      simp [startBundle, idle, Nat.not_le.mpr scope]
    obtain ⟨t, run, -, events⟩ := runCmd_waits_of_accepted (body := startBundle c) h hb out
    exact ⟨t, congrArg Host.Outcome.next run, (congrArg Events.bundle events).trans settle_bundle⟩
  case routing => simp [mask, route, rest]
  case complete =>
    subst bytes state
    simp [bundleComplete, building, runs]

end Sys2Proof.Machine
